-- ==== Sys2Proof/Word.lean ====
section
/-!
DEFINITION. The word types of the model and its one sparse table type.

A `Tab α` is a list of (key, value) pairs with strictly rising keys: one canonical form, so that equal tables
are equal lists. Registers, lanes, memory, groups and launches are all held in tables.
-/

namespace Sys2Proof

/-- A scalar register, an address or a special register: 64 bits (R171). -/
abbrev Word := BitVec 64

/-- One byte of memory. -/
abbrev Byte := BitVec 8

/-- One lane of a vector register: 32 bits (R171). -/
abbrev Lane := BitVec 32

/-- A table: pairs of key and value, keys strictly rising. -/
abbrev Tab (α : Type) := List (Nat × α)

/-- The value a table holds at a key, if it holds one. -/
def Tab.find {α : Type} : Tab α → Nat → Option α
  | [], _ => none
  | (k, v) :: t, i => if k = i then some v else Tab.find t i

/-- Put a value at a key, keeping the keys rising. -/
def Tab.insert {α : Type} : Tab α → Nat → α → Tab α
  | [], i, x => [(i, x)]
  | (k, v) :: t, i, x =>
    if i < k then (i, x) :: (k, v) :: t
    else if i = k then (i, x) :: t
    else (k, v) :: Tab.insert t i x

/-- Remove a key. -/
def Tab.remove {α : Type} : Tab α → Nat → Tab α
  | [], _ => []
  | (k, v) :: t, i => if k = i then t else (k, v) :: Tab.remove t i

/-- Read with a default: what an unlisted key reads as. -/
def Tab.read {α : Type} (d : α) (t : Tab α) (i : Nat) : α := (Tab.find t i).getD d

/-- Write with a default: writing what an unlisted key reads as removes the entry. -/
def Tab.write {α : Type} [DecidableEq α] (d : α) (t : Tab α) (i : Nat) (x : α) : Tab α :=
  if x = d then Tab.remove t i else Tab.insert t i x

/-- Apply a function to the value at a key, if the key is listed. -/
def Tab.modify {α : Type} (t : Tab α) (i : Nat) (f : α → α) : Tab α :=
  match Tab.find t i with
  | some v => Tab.insert t i (f v)
  | none => t

/-- Apply a function to every key and value, keeping the keys. -/
def Tab.mapWith {α : Type} (f : Nat → α → α) : Tab α → Tab α
  | [] => []
  | (k, v) :: t => (k, f k v) :: Tab.mapWith f t

/-- The keys of a table, rising. -/
def Tab.keys {α : Type} (t : Tab α) : List Nat := t.map Prod.fst

/-- The values of a table, by rising key. -/
def Tab.values {α : Type} (t : Tab α) : List α := t.map Prod.snd

/-- The strictly rising key check. -/
def Tab.sortedFrom {α : Type} : Nat → Tab α → Bool
  | _, [] => true
  | n, (k, _) :: t => decide (n ≤ k) && Tab.sortedFrom (k + 1) t

/-- The canonical form of a table with a default: keys strictly rise and no entry equals the default. -/
def Tab.wf {α : Type} [DecidableEq α] (d : α) (t : Tab α) : Bool :=
  Tab.sortedFrom 0 t && t.all (fun p => decide (p.2 ≠ d))

end Sys2Proof
end

