-- ==== Sys2Proof/Syntax.lean ====
section
/-!
DEFINITION. The terms of the machine: the instruction slot with its operand fields (R164 to R171), the arguments
of the events, and `Instr`, one constructor for each row of the table of operations and events.

An instruction constructor carries the decoded slot. An event constructor names the party or the record that the
event concerns. What any of them does is said in Machine only.
-/

namespace Sys2Proof

/-- The assigned TY codes (R166). -/
inductive Ty where
  | b32 | u32 | s32 | u16x2 | s16x2 | u8x4 | s8x4 | f32 | bf16x2 | f16x2 | u64 | s64 | b64
  deriving DecidableEq, Repr, Inhabited

/-- One operand field (R169): its kind and the bits its kind uses. `imm 0x200` selects the IMM field. -/
inductive Operand where
  | vec (index : BitVec 8)
  | scalar (index : BitVec 6)
  | special (number : BitVec 10)
  | imm (value : BitVec 10)
  deriving DecidableEq, Repr, Inhabited

/-- SF (R164): which header flag the instruction sets. -/
inductive FlagSel where
  | none | setA | setB
  deriving DecidableEq, Repr, Inhabited

/-- The fields of one instruction slot other than OP (R164). -/
structure Slot where
  sf : FlagSel
  mod : BitVec 28
  yld : Bool
  reuse : BitVec 3
  stall : BitVec 4
  bnd : Bool
  hint : BitVec 4
  imm : BitVec 32
  c : Operand
  b : Operand
  a : Operand
  d1 : Operand
  d0 : Operand
  lgNeg : Bool
  lg : BitVec 4
  sgNeg : Bool
  sg : BitVec 3
  ty : Ty
  deriving DecidableEq, Repr, Inhabited

/-- How one Mace segment ends (R360). -/
inductive MaceOutcome where
  | passed | failed | aborted
  deriving DecidableEq, Repr, Inhabited

/-- The fields of a launch packet of 64 bytes (R401). -/
structure LaunchPacket where
  type : BitVec 8
  ctrl : BitVec 8
  index : BitVec 8
  zero : BitVec 40
  record : BitVec 64
  dep : BitVec 64
  cw : BitVec 64
  args : BitVec 256
  deriving DecidableEq, Repr, Inhabited

/-- An access that touches bytes 0 to 63 of a launch window and is not a launch packet (R401). -/
inductive WindowAccess where
  | read (offset len : Nat)
  | write (pasid offset len : Nat) (split : Bool)
  deriving DecidableEq, Repr, Inhabited

/-- A host access to device memory through the HDM decoder (R398). -/
inductive HostAccess where
  | read
  | write (bytes : List Byte)
  | own
  | release (bytes : Option (List Byte))
  deriving DecidableEq, Repr, Inhabited

/-- What arrives of a peer's copy: bytes, the number that the sending module gives the copy, and whether the bytes are poisoned
(R120, R414). -/
structure PeerArrival where
  bytes : List Byte
  copy : Nat := 0
  poison : Bool := false
  deriving DecidableEq, Repr, Inhabited

/-- A standard SPDM request (R415). -/
inductive SpdmRequest where
  | getVersion | getCapabilities | negotiateAlgorithms | getDigests | getCertificate | challenge
  | getMeasurements | keyExchange | finish | endSession
  deriving DecidableEq, Repr, Inhabited

/-- The states of a Quagil port (R413). -/
inductive PortState where
  | down | training | up
  deriving DecidableEq, Repr, Inhabited

/-- A firmware image as the boot ROM sees it (R429): the header fields and the digest of what is signed. -/
structure FirmwareImage where
  magic : BitVec 64
  version : BitVec 64
  length : BitVec 64
  entry : BitVec 64
  restZero : Bool
  digest : BitVec 384
  signature : BitVec 768
  deriving DecidableEq, Repr, Inhabited

/-- What the host writes in the recovery layout of BAR0: bytes of the image buffer, at an offset in it, or the image's length to
RCV_GO (R429). -/
inductive RecoveryWrite where
  | buffer (offset : Nat) (data : List (BitVec 8))
  | go (length : BitVec 64)
  deriving DecidableEq, Repr, Inhabited

/-- Where SECDED finds an uncorrectable error (R357). -/
inductive ErrorSite where
  | registerFile (core : Nat) (group reg lane : Nat)
  | coreStore (core : Nat) (line : Nat)
  | scratchpad (core : Nat) (team line : Nat)
  | tileStore (core : Nat) (index : Nat)
  | slice (line : Nat)
  | hbm (line : Nat)
  deriving DecidableEq, Repr, Inhabited

/-- One operation or event of the part: one constructor for each row of spec/opcode_table.json. -/
inductive Instr where
  /-- SMOV (R188). Copies a scalar source to a scalar register at the operating width. -/
  | smov (w : Slot)
  /-- SMOVI (R192). Writes the 32-bit IMM zero-extended, sign-extended or into the high half of a scalar register. -/
  | smovi (w : Slot)
  /-- SADD (R188). Scalar addition modulo 2^w. -/
  | sadd (w : Slot)
  /-- SSUB (R188). Scalar subtraction modulo 2^w. -/
  | ssub (w : Slot)
  /-- SMUL (R188). Scalar multiplication, low w bits. -/
  | smul (w : Slot)
  /-- SMULH (R188). Scalar multiplication, high w bits of the exact product. -/
  | smulh (w : Slot)
  /-- SDIV (R189). Scalar division rounded towards zero, with fixed results for zero divisors and overflow. -/
  | sdiv (w : Slot)
  /-- SREM (R189). Scalar remainder taking the sign of the dividend. -/
  | srem (w : Slot)
  /-- SMIN (R188). Scalar minimum. -/
  | smin (w : Slot)
  /-- SMAX (R188). Scalar maximum. -/
  | smax (w : Slot)
  /-- SAND (R188). Scalar bitwise AND. -/
  | sand (w : Slot)
  /-- SOR (R188). Scalar bitwise OR. -/
  | sor (w : Slot)
  /-- SXOR (R188). Scalar bitwise XOR. -/
  | sxor (w : Slot)
  /-- SANDN (R188). Scalar AND with the complement of the second source. -/
  | sandn (w : Slot)
  /-- SSHL (R189). Scalar shift left. -/
  | sshl (w : Slot)
  /-- SSHR (R189). Scalar logical shift right. -/
  | sshr (w : Slot)
  /-- SSRA (R189). Scalar arithmetic shift right. -/
  | ssra (w : Slot)
  /-- SCLZ (R188). Counts leading zero bits of a scalar. -/
  | sclz (w : Slot)
  /-- SPOPC (R188). Counts set bits of a scalar. -/
  | spopc (w : Slot)
  /-- SBFX (R189). Extracts a bit field under field control. -/
  | sbfx (w : Slot)
  /-- SBFI (R189). Inserts a bit field under field control. -/
  | sbfi (w : Slot)
  /-- SCMP (R190). Compares two scalars and writes a combined condition bit. -/
  | scmp (w : Slot)
  /-- SSEL (R191). Selects one of two scalars by a condition bit. -/
  | ssel (w : Slot)
  /-- SLEA (R188). Computes base plus scaled index plus offset modulo 2^64. -/
  | slea (w : Slot)
  /-- SLD (R194). Scalar load from virtual memory, optionally an acquire. -/
  | sld (w : Slot)
  /-- SST (R194). Scalar store to virtual memory, optionally a release. -/
  | sst (w : Slot)
  /-- CLOG (R191). Combines two condition bits through a truth table. -/
  | clog (w : Slot)
  /-- NOP (R200). Has no effect. -/
  | nop (w : Slot)
  /-- BRA (R197). Unconditional relative branch. -/
  | bra (w : Slot)
  /-- BRC (R197). Branches when a scalar comparison holds. -/
  | brc (w : Slot)
  /-- BRV (R198). Branches on a lane predicate with .any, .all or .u, trapping on non-uniformity for .u. -/
  | brv (w : Slot)
  /-- BRI (R197). Branches to an address held in a scalar. -/
  | bri (w : Slot)
  /-- CALL (R199). Branches and writes the return address to s62. -/
  | call (w : Slot)
  /-- RET (R197). Branches to the address in a scalar, s62 by default. -/
  | ret (w : Slot)
  /-- EXIT (R54). Ends the group once its engine operations complete. -/
  | exit (w : Slot)
  /-- YIELD (R200). Ends the clause with a yield. -/
  | yield (w : Slot)
  /-- SLEEP (R202). Makes the group wait until %clock passes a deadline. -/
  | sleep (w : Slot)
  /-- BAR (R203). Arrives at a team barrier and waits. -/
  | bar (w : Slot)
  /-- CBAR_ARRIVE (R205). Arrives at the next cluster phase, waiting if two phases ahead. -/
  | cbarArrive (w : Slot)
  /-- CBAR_WAIT (R206). Waits until a cluster phase has completed, as a CLU-scope acquire. -/
  | cbarWait (w : Slot)
  /-- WAITC (R207). Waits until an engine class counter is at most n. -/
  | waitc (w : Slot)
  /-- WAITB (R208). Waits until every copy in batches up to n has completed. -/
  | waitb (w : Slot)
  /-- KLAUNCH (R209). Launches a grid from the device by record or registered index. -/
  | klaunch (w : Slot)
  /-- SIGF (R212). Folds a vector register into the group's register signature. -/
  | sigf (w : Slot)
  /-- IFENCE (R213). Discards the core's instruction cache, clause buffers and run-ahead fetches. -/
  | ifence (w : Slot)
  /-- VMOV (R236). Copies a source into every active lane. -/
  | vmov (w : Slot)
  /-- VMOVI (R236). Writes an immediate into every active lane. -/
  | vmovi (w : Slot)
  /-- VADD (R233). Per-lane integer addition, wrapping or saturating. -/
  | vadd (w : Slot)
  /-- VSUB (R233). Per-lane integer subtraction. -/
  | vsub (w : Slot)
  /-- VMUL (R233). Per-lane integer multiplication. -/
  | vmul (w : Slot)
  /-- VMULH (R233). Per-lane high half of a 32-bit product. -/
  | vmulh (w : Slot)
  /-- VMAD (R233). Per-lane integer multiply-add. -/
  | vmad (w : Slot)
  /-- VMIN (R233). Per-lane integer minimum. -/
  | vmin (w : Slot)
  /-- VMAX (R233). Per-lane integer maximum. -/
  | vmax (w : Slot)
  /-- VABS (R234). Per-lane absolute value. -/
  | vabs (w : Slot)
  /-- VNEG (R234). Per-lane negation. -/
  | vneg (w : Slot)
  /-- VAND (R233). Per-lane bitwise AND. -/
  | vand (w : Slot)
  /-- VOR (R233). Per-lane bitwise OR. -/
  | vor (w : Slot)
  /-- VXOR (R233). Per-lane bitwise XOR. -/
  | vxor (w : Slot)
  /-- VNOT (R233). Per-lane bitwise complement. -/
  | vnot (w : Slot)
  /-- VSHL (R234). Per-element shift left. -/
  | vshl (w : Slot)
  /-- VSHR (R234). Per-element logical shift right. -/
  | vshr (w : Slot)
  /-- VSRA (R234). Per-element arithmetic shift right. -/
  | vsra (w : Slot)
  /-- VBFX (R234). Per-lane bit-field extract. -/
  | vbfx (w : Slot)
  /-- VBFI (R234). Per-lane bit-field insert. -/
  | vbfi (w : Slot)
  /-- VCLZ (R234). Per-lane count of leading zeros. -/
  | vclz (w : Slot)
  /-- VPOPC (R234). Per-lane population count. -/
  | vpopc (w : Slot)
  /-- VSEL (R236). Per-lane select by a q register. -/
  | vsel (w : Slot)
  /-- VCMP (R235). Per-lane integer compare into a q register. -/
  | vcmp (w : Slot)
  /-- VDOT4 (R237). Per-lane four-byte dot product with accumulator. -/
  | vdot4 (w : Slot)
  /-- VIDX (R238). Writes x plus lane times y in each lane. -/
  | vidx (w : Slot)
  /-- FADD (R240). Per-lane FP32 addition. -/
  | fadd (w : Slot)
  /-- FSUB (R240). Per-lane FP32 subtraction. -/
  | fsub (w : Slot)
  /-- FMUL (R240). Per-lane FP32 multiplication. -/
  | fmul (w : Slot)
  /-- FFMA (R240). Per-lane FP32 fused multiply-add with one rounding. -/
  | ffma (w : Slot)
  /-- FMIN (R240). Per-element fmin_num. -/
  | fmin (w : Slot)
  /-- FMAX (R240). Per-element fmax_num. -/
  | fmax (w : Slot)
  /-- FCMP (R241). Per-lane FP32 compare into a q register. -/
  | fcmp (w : Slot)
  /-- FCLS (R242). Per-lane classification against a class mask. -/
  | fcls (w : Slot)
  /-- FRNDI (R243). Rounds FP32 to an integral value in the mode. -/
  | frndi (w : Slot)
  /-- FDIV (R244). Per-lane correctly rounded FP32 division on the special-function unit. -/
  | fdiv (w : Slot)
  /-- FSQRT (R244). Per-lane correctly rounded FP32 square root. -/
  | fsqrt (w : Slot)
  /-- FRCP (R244). Per-lane FP32 reciprocal within 1 ulp. -/
  | frcp (w : Slot)
  /-- FRSQ (R244). Per-lane FP32 reciprocal square root within 1 ulp. -/
  | frsq (w : Slot)
  /-- FEX2 (R94). Per-lane 2^((a-b)×c), faithful and monotonic. -/
  | fex2 (w : Slot)
  /-- FLG2 (R244). Per-lane FP32 base-2 logarithm. -/
  | flg2 (w : Slot)
  /-- FSIN (R244). Per-lane FP32 sine. -/
  | fsin (w : Slot)
  /-- FCOS (R244). Per-lane FP32 cosine. -/
  | fcos (w : Slot)
  /-- FTANH (R244). Per-lane FP32 hyperbolic tangent. -/
  | ftanh (w : Slot)
  /-- PKFMA (R246). Packed BF16 or FP16 fused multiply-add. -/
  | pkfma (w : Slot)
  /-- PKADD (R246). Packed BF16 or FP16 addition. -/
  | pkadd (w : Slot)
  /-- PKMUL (R246). Packed BF16 or FP16 multiplication. -/
  | pkmul (w : Slot)
  /-- CVT (R248). Converts elements between integer and floating-point types. -/
  | cvt (w : Slot)
  /-- CVTB (R251). Quantises or decodes lanes against a block-scaled slot. -/
  | cvtb (w : Slot)
  /-- CVTE (R250). Encodes or decodes lanes against an unscaled slot format. -/
  | cvte (w : Slot)
  /-- SHFL (R252). Moves values between lanes by index, up, down or xor. -/
  | shfl (w : Slot)
  /-- VRDL (R253). Reads one lane of a vector register into a scalar. -/
  | vrdl (w : Slot)
  /-- VWRL (R253). Writes a scalar into one lane of a vector register. -/
  | vwrl (w : Slot)
  /-- VRED (R254). Reduces active lanes with a fixed tree or exact integer operation. -/
  | vred (w : Slot)
  /-- VSCAN (R255). Forms prefix combinations in ascending lane order. -/
  | vscan (w : Slot)
  /-- VOTE (R256). Ballots or tests a q register over active lanes. -/
  | vote (w : Slot)
  /-- QMOV (R257). Sets a q register from a source. -/
  | qmov (w : Slot)
  /-- QLOG (R257). Combines two q registers through a truth table. -/
  | qlog (w : Slot)
  /-- QCNT (R257). Counts or locates set lanes of a q register. -/
  | qcnt (w : Slot)
  /-- LD (R265). Per-lane load from memory, optionally an acquire. -/
  | ld (w : Slot)
  /-- ST (R265). Per-lane store to memory, optionally a release. -/
  | st (w : Slot)
  /-- LDP (R267). Per-lane load from local or remote scratchpad. -/
  | ldp (w : Slot)
  /-- STP (R267). Per-lane store to local or remote scratchpad. -/
  | stp (w : Slot)
  /-- LDV (R266). Loads whole registers from one contiguous block. -/
  | ldv (w : Slot)
  /-- STV (R266). Stores whole registers to one contiguous block. -/
  | stv (w : Slot)
  /-- ATOM (R268). Per-lane atomic read-modify-write of memory at the line's home. -/
  | atom (w : Slot)
  /-- SATOM (R268). Per-lane atomic read-modify-write of scratchpad. -/
  | satom (w : Slot)
  /-- APND (R270). Appends the group's data to an AP page as one reservation. -/
  | apnd (w : Slot)
  /-- APST (R272). Reads an AP page's append descriptor. -/
  | apst (w : Slot)
  /-- SEAL (R273). Seals an AP page once its reservations complete. -/
  | seal (w : Slot)
  /-- FENCE (R274). Orders the group's accesses at a scope. -/
  | fence (w : Slot)
  /-- PREF (R275). Prefetches lines into the core store and home slice without faulting. -/
  | pref (w : Slot)
  /-- CFLUSH (R276). Writes back, and optionally drops, dirty lines of a range. -/
  | cflush (w : Slot)
  /-- LDSX (R277). Loads MX32 FP4 data expanded to BF16. -/
  | ldsx (w : Slot)
  /-- MONW (R278). Arms the group's watch on a word with a comparison. -/
  | monw (w : Slot)
  /-- MWAIT (R279). Waits on the armed watch or a timeout. -/
  | mwait (w : Slot)
  /-- TREC (R283). Loads a tensor record into a team record slot. -/
  | trec (w : Slot)
  /-- CPY (R287). Copies one tile between tensors and basins. -/
  | cpy (w : Slot)
  /-- CPYX (R290). Copies an INT8 tile through AES-GCM encryption or decryption. -/
  | cpyx (w : Slot)
  /-- CPYR (R291). Copies a tile to another die or a peer module and writes a flag. -/
  | cpyr (w : Slot)
  /-- CPYB (R289). Closes the group's open copy batch. -/
  | cpyb (w : Slot)
  /-- GATH (R292). Gathers rows by index from a tensor into a basin. -/
  | gath (w : Slot)
  /-- COLL (R293). Combines one element from each cluster member's basin. -/
  | coll (w : Slot)
  /-- BCFG (R284). Configures a basin. -/
  | bcfg (w : Slot)
  /-- BPUT (R285). Advances a basin's producer pointer if there is room. -/
  | bput (w : Slot)
  /-- BTAKE (R285). Advances a basin's consumer pointer if elements are held. -/
  | btake (w : Slot)
  /-- TCFG (R304). Configures the matrix tiles and clears them. -/
  | tcfg (w : Slot)
  /-- MMA (R310). Accumulates A rows against a weight panel into a tile. -/
  | mma (w : Slot)
  /-- MLDB (R308). Loads a weight panel from a basin into the weight buffer. -/
  | mldb (w : Slot)
  /-- MSTO (R312). Stores a tile to a basin, optionally converted. -/
  | msto (w : Slot)
  /-- MZERO (R305). Sets named tiles to zero. -/
  | mzero (w : Slot)
  /-- MQ4 (R313). Performs one K step of the first-generation form from vector registers. -/
  | mq4 (w : Slot)
  /-- SRDS (R214). Reads a special register word. -/
  | srds (w : Slot)
  /-- SWRS (R215). Writes a writable special register. -/
  | swrs (w : Slot)
  /-- TRAP (R217). Raises the software trap. -/
  | trap (w : Slot)
  /-- ERET (R218). Leaves handler state and replays or resumes the interrupted clause. -/
  | eret (w : Slot)
  /-- PMAP (R220). Maps a first-touch page from the die's pool. -/
  | pmap (w : Slot)
  /-- PFREE (R222). Purges and frees a frame, optionally to its pool. -/
  | pfree (w : Slot)
  /-- TLBI (R223). Invalidates translations of a range or context at a scope. -/
  | tlbi (w : Slot)
  /-- HALTC (R224). Waits on a hub group's event latch or a timeout. -/
  | haltc (w : Slot)
  /-- DBRK (R217). Raises the breakpoint trap or stops the group for the debugger. -/
  | dbrk (w : Slot)
  /-- CLAUSE_ISSUE (R157). The pipe arbiter chooses a flag-clear clause, draws its price and issues it. -/
  | clauseIssue (g : Nat)
  /-- OPERATION_COMPLETE (R158). A long-latency operation completes and its flag count falls. -/
  | operationComplete (g op : Nat)
  /-- TIMER_TRAP (R216). The group takes the timer trap once %gtime reaches %gtimer. -/
  | timerTrap (g : Nat)
  /-- SLEEP_EXPIRY (R202). A sleeping group becomes eligible when its deadline passes. -/
  | sleepExpiry (g : Nat)
  /-- BARRIER_COMPLETE (R203). A team barrier completes when every remaining group waits at it. -/
  | barrierComplete (team : Nat) (b : Nat)
  /-- CBAR_PHASE_COMPLETE (R205). A cluster phase completes when every member team has arrived. -/
  | cbarPhaseComplete (cluster : Nat)
  /-- WAITC_COMPLETE (R122). An engine counter falls to n and the WAITC completes as an acquire. -/
  | waitcComplete (g : Nat)
  /-- WAITB_COMPLETE (R123). The named batches complete and the WAITB completes. -/
  | waitbComplete (g : Nat)
  /-- MWAIT_WAKE (R279). A write satisfies the watched comparison and the waiting group wakes. -/
  | mwaitWake (g : Nat) (early : Bool)
  /-- MWAIT_TIMEOUT (R279). The MWAIT timeout expires. -/
  | mwaitTimeout (g : Nat)
  /-- WATCH_REREAD (R278). Every 2 us the home re-reads a table-less watched word. -/
  | watchReread (g : Nat)
  /-- WATCH_TABLE_RECHECK (R59). Every 2 us the watch table re-checks every parked comparison. -/
  | watchTableRecheck (die : Nat)
  /-- HALTC_WAKE (R224). An event latch bit or timeout ends a HALTC wait. -/
  | haltcWake (g : Nat)
  /-- STICKY_PRIORITY (R328). A group that has lost 64 arbitrations gains sticky priority. -/
  | stickyPriority (g : Nat)
  /-- CONTROL_INTERVAL (R330). At each 1 us interval the die mints tokens and pounds charge team budgets; the energy that the die measured beside tokens is given in pJ. -/
  | controlInterval (die : Nat) (staticPicojoules : Nat)
  /-- CLAIM (R334). A core raises a token claim after its clause has waited two revolutions. -/
  | claim (core : Nat) (engine : Bool)
  /-- ENERGY_UPDATE (R336). %energy takes its new value at each millisecond boundary. -/
  | energyUpdate (ctx : Nat)
  /-- ENGINE_FIRE (R286). An engine operation fires once its basins hold and have room for its elements. -/
  | engineFire (op : Nat)
  /-- ENGINE_STEP (R295). An engine performs one step after drawing its tokens. -/
  | engineStep (op : Nat)
  /-- ENGINE_RETIRE (R122). An engine operation retires and its class counter falls. -/
  | engineRetire (op : Nat)
  /-- PAIR_ARRIVAL (R311). An MMA.pair operation reaches the follower and is checked there. -/
  | pairArrival (op : Nat)
  /-- CPYX_SETTLE (R411). The key engine settles a CPYX against slot, counter, destination and tag. -/
  | cpyxSettle (op : Nat)
  /-- TOKEN_REQUEST (R112). A core store requests a line's tokens from its home. -/
  | tokenRequest (core line : Nat) (write : Bool)
  /-- PERSISTENT_REQUEST (R113). A token request retried four times becomes persistent and is admitted in order. -/
  | persistentRequest (core line : Nat) (write : Bool)
  /-- LEASE_EXPIRY (R119). An unanswered snoop or recall expires; the line reverts and is poisoned. -/
  | leaseExpiry (line : Nat)
  /-- REMOTE_WRITE_DRAIN (R115). A remote-write buffer line drains at latest 4 us after its first store. -/
  | remoteWriteDrain (die line : Nat)
  /-- APPEND_COMPLETE (R271). An append reservation's bytes are accepted at the home. -/
  | appendComplete (frame offset : Nat)
  /-- SEAL_COMPLETE (R135). SEAL sets the sealed flag once reservations and checks covering the page are done. -/
  | sealComplete (frame : Nat)
  /-- PURGE_ACK (R138). A die acknowledges a replica purge; PFREE completes after all dies. -/
  | purgeAck (frame die : Nat)
  /-- MTU_WALK_COMPLETE (R381). A parked walk ends and the group replays its instruction. -/
  | mtuWalkComplete (g : Nat)
  /-- TIER3_SWAP_OUT (R384). A team parked 50 us on a host-serviced fault is swapped out with its cluster. -/
  | tier3SwapOut (team : Nat)
  /-- TEAM_ADMIT (R48). A pound admits a waiting team whole once registers, scratchpad and budgets allow. -/
  | teamAdmit (cluster x y : Nat)
  /-- LAUNCH_COMPLETE (R55). The completion word is written when clusters exit and checks resolve. -/
  | launchComplete (seq : Nat)
  /-- CLUSTER_SEND (R323). The front end sends a cluster to the chosen die's distributor. -/
  | clusterSend (seq : Nat)
  /-- DEPENDENCE_HOLDS (R322). A launch's dependence is met and it becomes READY. -/
  | dependenceHolds (seq : Nat)
  /-- STEAL_REQUEST (R61). An idle pound requests work and the victim answers under its admit lock. -/
  | stealRequest (thief victim : Nat) (offers : List (Nat × Nat))
  /-- PARTIAL_EVICTION (R326). A priority-3 cluster unplaced for 2 us evicts resident clusters. -/
  | partialEviction (cluster x y : Nat)
  /-- FENCE_TAKES_EFFECT (R18). A fence-pending site with no bound team leaves the table and the generation advances. -/
  | fenceTakesEffect (die site : Nat)
  /-- DEMERIT_DECAY (R358). Each 604,800 s of powered time every nonzero demerit count falls by one. -/
  | demeritDecay
  /-- MACE_SEGMENT (R360). Mace tests one unit of an idle core for one segment. -/
  | maceSegment (core unit : Nat) (outcome : MaceOutcome)
  /-- REPLICA_PLACE (R345). A replica or third run is placed on another core after the previous run exits. -/
  | replicaPlace (check core : Nat)
  /-- CHECK_RESOLVE (R355). The Sluice compares the runs' signatures and commits or discards versions. -/
  | checkResolve (check : Nat)
  /-- TIMEOUT (R342). HOLDMAX after the original exits, its version is committed unchecked. -/
  | timeout (check : Nat)
  /-- HEALTH_RECORD_SIGN (R369). The hub security processor rebuilds and signs the health record. -/
  | healthRecordSign
  /-- LAUNCH_BY_RECORD (R402). A launch packet naming a record is accepted, checked and queued. -/
  | launchByRecord (queue pasid : Nat) (packet : LaunchPacket)
  /-- LAUNCH_BY_REGISTERED_ENTRY (R402). A launch packet naming a registered entry is accepted and queued. -/
  | launchByRegisteredEntry (queue pasid : Nat) (packet : LaunchPacket)
  /-- REGISTER (R404). A packet registers a validated record in an entry. -/
  | register (queue pasid : Nat) (packet : LaunchPacket)
  /-- EMPTY_AN_ENTRY (R404). A packet empties a registered entry. -/
  | emptyAnEntry (queue pasid : Nat) (packet : LaunchPacket)
  /-- LAUNCH_WINDOW_DROP (R401). A malformed access to a launch window is discarded and counted in DROP. -/
  | launchWindowDrop (queue : Nat) (access : WindowAccess)
  /-- ATS_INVALIDATE_REQUEST (R147). The host IOMMU's invalidate is performed as a DEV-scope TLBI and completed. -/
  | atsInvalidateRequest (pasid : Option Nat) (va : BitVec 64) (len : Nat)
  /-- PAGE_REQUEST_GROUP_RESPONSE (R383). The host's response settles every access parked on a page request. -/
  | pageRequestGroupResponse (ctx : Nat) (page : Nat) (ok : Bool)
  /-- HOST_SNOOP (R117). The host-line agent answers a host snoop of a line half; `after` is what the host then writes to the half of its memory. -/
  | hostSnoop (half : Nat) (invalidate : Bool) (after : Option (List (BitVec 8)))
  /-- BACK_INVALIDATE_ANSWER (R118). The host answers a back-invalidate snoop; late answers are discarded. -/
  | backInvalidateAnswer (half : Nat) (data : Option (List (BitVec 8)))
  /-- HOST_MEMORY_ACCESS (R398). A host CXL.mem access to device memory is served. -/
  | hostMemoryAccess (offset : Nat) (access : HostAccess)
  /-- IDE_KM (R397). The host programs an IDE stream key. -/
  | ideKm (stream : Nat)
  /-- IDE_MAC_FAILURE (R408). A failing or out-of-sequence TLP is discarded and its stream errs. -/
  | ideMacFailure (stream : Nat)
  /-- LOCK_INTERFACE_REQUEST (R407). Moves the TDISP interface to CONFIG_LOCKED. -/
  | lockInterfaceRequest
  /-- START_INTERFACE_REQUEST (R407). Moves the TDISP interface to RUN. -/
  | startInterfaceRequest
  /-- STOP_INTERFACE_REQUEST (R407). Returns the interface to CONFIG_UNLOCKED, erasing key slots. -/
  | stopInterfaceRequest
  /-- LINK_DOWN (R407). Loss of the host link sends a running interface to ERROR. -/
  | linkDown
  /-- KEY_LOAD (R409). An SPDM request loads a key slot in RUN. -/
  | keyLoad (slot ctx : Nat) (key : BitVec 256) (salt : BitVec 32) (hwm : BitVec 64)
  /-- CLEAR_FENCE (R415). An SPDM request records fence clearing, effective at cold reset. -/
  | clearFence (die : Nat) (mask : BitVec 144)
  /-- GET_HEALTH (R416). An MCTP message returns bytes of a signed health snapshot. -/
  | getHealth (lastSeq : BitVec 64) (offset len : Nat)
  /-- SPDM_REQUEST (R415). The device answers standard SPDM requests as responder. -/
  | spdmRequest (request : SpdmRequest)
  /-- PEER_PORT_STATE_CHANGE (R413). A Quagil port changes among DOWN, TRAINING and UP. -/
  | peerPortStateChange (port : Nat) (next : PortState)
  /-- PEER_COPY_ARRIVAL (R414). Peer copy data arrive and are written through the receiver's window. -/
  | peerCopyArrival (port : Nat) (offset : Nat) (arrival : PeerArrival) (flag : Bool)
  /-- HR_LATCH (R416). Latches the newest signed health snapshot into BAR0. -/
  | hrLatch
  /-- COLD_RESET (R428). The boot ROM verifies firmware, trains links, builds tables and starts hub core 0. -/
  | coldReset
  /-- RCV_GO (R429). Fills the recovery image buffer, or verifies its image and continues cold reset. -/
  | rcvGo (write : RecoveryWrite)
  /-- FW_UPD_CMD (R430). Verifies a new firmware image and stages it. -/
  | fwUpdCmd (value : BitVec 64)
  /-- HC_GO (R426). Starts a group on a hub core in HC_CTX's context. -/
  | hcGo (hub : Nat) (addr : BitVec 64)
  /-- DOORBELL (R425). Sets a hub group's DOORBELL latch bit. -/
  | doorbell (hub gid : Nat)
  /-- DBG_RESUME_GROUP (R427). A write of 1 resumes the stopped debug group. -/
  | dbgResumeGroup
  /-- DBG_END_TEAM (R427). A write of 2 ends the stopped group's team fatally. -/
  | dbgEndTeam
  /-- CREATE (R431). Creates a partition from a descriptor. -/
  | create (ctx : Nat)
  /-- SWITCHOUT (R389). Halts a partition's cores for saving. -/
  | switchout (ctx : Nat)
  /-- PARTITION_IMAGE_SAVE (R392). Once all cores halt, the image is written to shadow granules. -/
  | partitionImageSave (ctx : Nat)
  /-- SWITCHIN (R392). Restores a switched-out partition onto its sites. -/
  | switchin (ctx : Nat)
  /-- RESET (R394). Resets a partition, ending its work and launches. -/
  | reset (ctx : Nat)
  /-- DESTROY (R431). Destroys an idle partition. -/
  | destroy (ctx : Nat)
  /-- HANG_WATCHDOG_EXPIRY (R393). The partition's hang watchdog expires and resets it. -/
  | hangWatchdogExpiry (ctx : Nat)
  /-- SAVE_TIMER_EXPIRY (R393). An image not saved within 20 us resets the partition. -/
  | saveTimerExpiry (ctx : Nat)
  /-- DR_CTL (R436). Starts a warm reset of a compute die. -/
  | drCtl (die : Nat) (value : BitVec 64)
  /-- DR_STEP_END (R436). A warm-reset step ends and the next begins. -/
  | drStepEnd (die : Nat)
  /-- RAIL_CTL (R418). Starts a change of the vector and matrix operating points. -/
  | railCtl (value : BitVec 64)
  /-- RAIL_VOLTAGE_REACHED (R418). The rail reaches its new voltage and clocks switch or BUSY clears. -/
  | railVoltageReached
  /-- PD_CTL (R421). Sets a pound's gating target and automatic gating. -/
  | pdCtl (die pound : Nat) (value : BitVec 64)
  /-- PD_WAKE (R422). Starts a pound's wake to RUN. -/
  | pdWake (die pound : Nat) (value : BitVec 64)
  /-- AUTOIDLE_EXPIRY (R421). A pound idle for AUTOIDLE us starts automatic gating. -/
  | autoidleExpiry (die pound : Nat)
  /-- POUND_STATE_COMPLETE (R421). A pound completes its power state and moves to the next. -/
  | poundStateComplete (die pound : Nat)
  /-- DISPATCH_AT_LOCK (R337). A dispatch meets a gating pound's admit lock, cancelling or waking it. -/
  | dispatchAtLock (die pound : Nat)
  /-- DROOP_FIRE (R335). A pound's droop detector trips and halves its clocks. -/
  | droopFire (die pound : Nat)
  /-- DROOP_HOLD_EXPIRY (R335). After the hold time clear, the pound's clocks are restored. -/
  | droopHoldExpiry (die pound : Nat)
  /-- FTP64 (R434). Adds a 64 KiB frame to a context's first-touch pool. -/
  | ftp64 (die ctx : Nat) (addr : BitVec 64)
  /-- FTP2M (R434). Adds a 2 MiB frame to a context's first-touch pool. -/
  | ftp2m (die ctx : Nat) (addr : BitVec 64)
  /-- Q_BIND (R435). Binds a queue to a context while it is empty. -/
  | qBind (queue : Nat) (value : BitVec 64)
  /-- SL_INJECT (R362). Arms fault injection on a pipe, site and lane. -/
  | slInject (die : Nat) (value : BitVec 64)
  /-- MGMT_REGISTER_WRITE (R28). A write to a management register with no behaviour of its own. -/
  | mgmtRegisterWrite (addr : Nat) (value : BitVec 64)
  /-- STATION_DELIVERY (R331). In each fabric cycle the ring carries its tokens one station onward, and each station fills its pound's purses or serves open claims. -/
  | stationDelivery (die : Nat)
  /-- UNCORRECTABLE_ERROR (R357). SECDED finds an uncorrectable error in a register file, core store, tile store, slice or HBM, which poisons the data and charges the core a demerit. -/
  | uncorrectableError (site : ErrorSite)
  /-- FROZEN_SETTINGS_CHANGE (R407). A host change to configuration, BAR or IDE settings frozen by CONFIG_LOCKED or RUN sends the TDISP interface to ERROR, erasing every key slot. -/
  | frozenSettingsChange
  deriving DecidableEq, Repr, Inhabited

end Sys2Proof
end

