-- ==== Sys2Proof/Config.lean ====
section
/-!
DEFINITION. The free values of the model: what the spec leaves open. Each is an opaque constant without a body, so no
proof can see a value of it (log 6), and a statement about the machine holds for every value.
-/

namespace Sys2Proof

/-- A free number for each use of it. -/
opaque Config.freeNat : Nat → Nat

/-- A free truth value for each use of it. -/
opaque Config.freeBool : Nat → Bool

/-- Nanoseconds of %clock that pass before a step (log 7). -/
opaque Config.elapsed : Nat → Nat

/-- Vector-rail cycles that a core counts before a step (log 7). -/
opaque Config.cycles : Nat → Nat

/-- The event that happens next when no group has an instruction to issue (log 9). -/
opaque Config.nextEvent : Nat → Instr

/-- Where a special function steps up to a candidate result: the position of its operand from which it may give the
candidate, by function and candidate, where the spec gives an error bound, monotonicity and no value (R93, R94; log 16). -/
opaque Config.threshold : Nat → Nat → Nat

/-- Which candidate a special function gives for an operand where no monotonicity is stated (R93; log 16). -/
opaque Config.candidate : Nat → Nat → Nat

/-- Whether an ECDSA P-384 signature over a SHA-384 digest verifies under the fused key (R429; log 17). -/
opaque Config.verifies : BitVec 384 → BitVec 768 → Bool

/-- The signature that the security processor gives a sequence of bytes (R369; log 17). -/
opaque Config.sign : List Byte → List Byte

/-- The digest that the boot ROM forms over an image in memory (R430; log 17). -/
opaque Config.digest : List Byte → BitVec 384

/-- The digest of the fence store that SPDM reports: SHA-384 over a form of the store that the spec does not give (R415;
log 17). -/
opaque Config.storeDigest : List (List Nat) → BitVec 384

/-- The set of its home slice in which a line lies, which the spec leaves to the device (R124; log 72). -/
opaque Config.setOf : Nat → Nat

/-- The selection keys that the security processor draws (R341). -/
opaque Config.selectionKey : Nat → BitVec 128

end Sys2Proof
end

