-- ==== Sys2Proof/WellFormed.lean ====
section
/-!
DEFINITION. Which terms are operations and events of the part. An instruction's slot carries its own bounds in its
types; the two forms of CBAR agree with MOD[0] (R205). An event names parties that the module has (R10, R12, R24).
Whether an encoding is legal is a matter of the machine: an illegal one traps (R166 to R172).
-/

namespace Sys2Proof

/-- Compute dies are numbered 0 to 3 (R10). -/
def dieOk (d : Nat) : Bool := d < 4

/-- Pounds of a die are numbered 0 to 15 (R12). -/
def poundOk (p : Nat) : Bool := p < 16

/-- Cores: sites of the four dies, then the four hub cores (R12, R24). -/
def coreOk (c : Nat) : Bool := c < 580

/-- Queues are numbered 0 to 63 (R318, R321). -/
def queueOk (q : Nat) : Bool := q < 64

/-- Partitions have context numbers 1 to 255 (R431). -/
def contextOk (c : Nat) : Bool := 1 ≤ c && c < 256

/-- A PASID has 20 bits (R397). -/
def pasidOk (p : Nat) : Bool := p < 1048576

/-- The well-formed terms. -/
def Instr.wf : Instr → Bool
  | .smov _ => true
  | .smovi _ => true
  | .sadd _ => true
  | .ssub _ => true
  | .smul _ => true
  | .smulh _ => true
  | .sdiv _ => true
  | .srem _ => true
  | .smin _ => true
  | .smax _ => true
  | .sand _ => true
  | .sor _ => true
  | .sxor _ => true
  | .sandn _ => true
  | .sshl _ => true
  | .sshr _ => true
  | .ssra _ => true
  | .sclz _ => true
  | .spopc _ => true
  | .sbfx _ => true
  | .sbfi _ => true
  | .scmp _ => true
  | .ssel _ => true
  | .slea _ => true
  | .sld _ => true
  | .sst _ => true
  | .clog _ => true
  | .nop _ => true
  | .bra _ => true
  | .brc _ => true
  | .brv _ => true
  | .bri _ => true
  | .call _ => true
  | .ret _ => true
  | .exit _ => true
  | .yield _ => true
  | .sleep _ => true
  | .bar _ => true
  | .cbarArrive w => w.mod.extractLsb' 0 1 = 0
  | .cbarWait w => w.mod.extractLsb' 0 1 = 1
  | .waitc _ => true
  | .waitb _ => true
  | .klaunch _ => true
  | .sigf _ => true
  | .ifence _ => true
  | .vmov _ => true
  | .vmovi _ => true
  | .vadd _ => true
  | .vsub _ => true
  | .vmul _ => true
  | .vmulh _ => true
  | .vmad _ => true
  | .vmin _ => true
  | .vmax _ => true
  | .vabs _ => true
  | .vneg _ => true
  | .vand _ => true
  | .vor _ => true
  | .vxor _ => true
  | .vnot _ => true
  | .vshl _ => true
  | .vshr _ => true
  | .vsra _ => true
  | .vbfx _ => true
  | .vbfi _ => true
  | .vclz _ => true
  | .vpopc _ => true
  | .vsel _ => true
  | .vcmp _ => true
  | .vdot4 _ => true
  | .vidx _ => true
  | .fadd _ => true
  | .fsub _ => true
  | .fmul _ => true
  | .ffma _ => true
  | .fmin _ => true
  | .fmax _ => true
  | .fcmp _ => true
  | .fcls _ => true
  | .frndi _ => true
  | .fdiv _ => true
  | .fsqrt _ => true
  | .frcp _ => true
  | .frsq _ => true
  | .fex2 _ => true
  | .flg2 _ => true
  | .fsin _ => true
  | .fcos _ => true
  | .ftanh _ => true
  | .pkfma _ => true
  | .pkadd _ => true
  | .pkmul _ => true
  | .cvt _ => true
  | .cvtb _ => true
  | .cvte _ => true
  | .shfl _ => true
  | .vrdl _ => true
  | .vwrl _ => true
  | .vred _ => true
  | .vscan _ => true
  | .vote _ => true
  | .qmov _ => true
  | .qlog _ => true
  | .qcnt _ => true
  | .ld _ => true
  | .st _ => true
  | .ldp _ => true
  | .stp _ => true
  | .ldv _ => true
  | .stv _ => true
  | .atom _ => true
  | .satom _ => true
  | .apnd _ => true
  | .apst _ => true
  | .seal _ => true
  | .fence _ => true
  | .pref _ => true
  | .cflush _ => true
  | .ldsx _ => true
  | .monw _ => true
  | .mwait _ => true
  | .trec _ => true
  | .cpy _ => true
  | .cpyx _ => true
  | .cpyr _ => true
  | .cpyb _ => true
  | .gath _ => true
  | .coll _ => true
  | .bcfg _ => true
  | .bput _ => true
  | .btake _ => true
  | .tcfg _ => true
  | .mma _ => true
  | .mldb _ => true
  | .msto _ => true
  | .mzero _ => true
  | .mq4 _ => true
  | .srds _ => true
  | .swrs _ => true
  | .trap _ => true
  | .eret _ => true
  | .pmap _ => true
  | .pfree _ => true
  | .tlbi _ => true
  | .haltc _ => true
  | .dbrk _ => true
  | .clauseIssue _ => true
  | .operationComplete _ _ => true
  | .timerTrap _ => true
  | .sleepExpiry _ => true
  | .barrierComplete _ b => b < 4
  | .cbarPhaseComplete _ => true
  | .waitcComplete _ => true
  | .waitbComplete _ => true
  | .mwaitWake _ _ => true
  | .mwaitTimeout _ => true
  | .watchReread _ => true
  | .watchTableRecheck d => dieOk d
  | .haltcWake _ => true
  | .stickyPriority _ => true
  | .controlInterval d _ => dieOk d
  | .claim c _ => coreOk c && c < 576
  | .energyUpdate c => c < 256
  | .engineFire _ => true
  | .engineStep _ => true
  | .engineRetire _ => true
  | .pairArrival _ => true
  | .cpyxSettle _ => true
  | .tokenRequest c _ _ => coreOk c
  | .persistentRequest c _ _ => coreOk c
  | .leaseExpiry _ => true
  | .remoteWriteDrain d _ => d ≤ 4
  | .appendComplete _ _ => true
  | .sealComplete _ => true
  | .purgeAck _ d => dieOk d
  | .mtuWalkComplete _ => true
  | .tier3SwapOut _ => true
  | .teamAdmit _ x y => x < 12 && y < 12
  | .launchComplete _ => true
  | .clusterSend _ => true
  | .dependenceHolds _ => true
  | .stealRequest t v offers => t < 64 && v < 64 && offers.all (fun p => p.1 < 12 && p.2 < 12)
  | .partialEviction _ x y => x < 12 && y < 12
  | .fenceTakesEffect d s => dieOk d && s < 144
  | .demeritDecay => true
  | .maceSegment c u _ => c < 576 && u < 13
  | .replicaPlace _ c => c < 576
  | .checkResolve _ => true
  | .timeout _ => true
  | .healthRecordSign => true
  | .launchByRecord q p k => queueOk q && pasidOk p && k.type != 2 && k.type != 3 && k.type != 4
  | .launchByRegisteredEntry q p k => queueOk q && pasidOk p && k.type = 2
  | .register q p k => queueOk q && pasidOk p && k.type = 3
  | .emptyAnEntry q p k => queueOk q && pasidOk p && k.type = 4
  | .launchWindowDrop q _ => queueOk q
  | .atsInvalidateRequest p _ _ => p.all pasidOk
  | .pageRequestGroupResponse c _ _ => contextOk c
  | .hostSnoop _ _ _ => true
  | .backInvalidateAnswer _ _ => true
  | .hostMemoryAccess o _ => o < 412316860416
  | .ideKm s => s < 4
  | .ideMacFailure s => s < 4
  | .lockInterfaceRequest => true
  | .startInterfaceRequest => true
  | .stopInterfaceRequest => true
  | .linkDown => true
  | .keyLoad s c _ _ _ => s < 32 && c < 256
  | .clearFence d _ => dieOk d
  | .getHealth _ _ l => l ≤ 64
  | .spdmRequest _ => true
  | .peerPortStateChange p _ => p < 9
  | .peerCopyArrival p _ _ _ => p < 9
  | .hrLatch => true
  | .coldReset => true
  | .rcvGo _ => true
  | .fwUpdCmd _ => true
  | .hcGo h _ => h < 4
  | .doorbell h g => h < 4 && g < 16
  | .dbgResumeGroup => true
  | .dbgEndTeam => true
  | .create c => contextOk c
  | .switchout c => contextOk c
  | .partitionImageSave c => contextOk c
  | .switchin c => contextOk c
  | .reset c => contextOk c
  | .destroy c => contextOk c
  | .hangWatchdogExpiry c => contextOk c
  | .saveTimerExpiry c => contextOk c
  | .drCtl d _ => dieOk d
  | .drStepEnd d => dieOk d
  | .railCtl _ => true
  | .railVoltageReached => true
  | .pdCtl d p _ => dieOk d && poundOk p
  | .pdWake d p _ => dieOk d && poundOk p
  | .autoidleExpiry d p => dieOk d && poundOk p
  | .poundStateComplete d p => dieOk d && poundOk p
  | .dispatchAtLock d p => dieOk d && poundOk p
  | .droopFire d p => dieOk d && poundOk p
  | .droopHoldExpiry d p => dieOk d && poundOk p
  | .ftp64 d c _ => dieOk d && c < 256
  | .ftp2m d c _ => dieOk d && c < 256
  | .qBind q _ => queueOk q
  | .slInject d _ => dieOk d
  | .mgmtRegisterWrite _ _ => true
  | .stationDelivery d => dieOk d
  | .uncorrectableError _ => true
  | .frozenSettingsChange => true

end Sys2Proof
end

