-- ==== Sys2Proof/Decode.lean ====
section
/-!
DEFINITION. From bits to instructions and back (R150, R164 to R174).

`decodeWord` reads one slot of 160 bits; what it refuses it names. `encode` writes the slot of an instruction from
the same tables. Fetch lines and line words (R150 to R152) have their fields here too.
-/

namespace Sys2Proof

/-- Why a slot is no instruction. Each is the illegal-instruction trap (R166, R168, R169, R174). -/
inductive DecodeError where
  | shortInput
  | unassignedOp
  | reservedType
  | reservedFlagSelector
  | reservedBits
  | operandBits
  deriving DecidableEq, Repr, Inhabited

/-- The TY codes (R166). -/
def Ty.decode (x : BitVec 4) : Option Ty :=
  if x = 0x0 then some .b32 else if x = 0x1 then some .u32 else if x = 0x2 then some .s32
  else if x = 0x3 then some .u16x2 else if x = 0x4 then some .s16x2 else if x = 0x5 then some .u8x4
  else if x = 0x6 then some .s8x4 else if x = 0x7 then some .f32 else if x = 0x8 then some .bf16x2
  else if x = 0x9 then some .f16x2 else if x = 0xA then some .u64 else if x = 0xB then some .s64
  else if x = 0xC then some .b64 else none

/-- The code of a TY (R166). -/
def Ty.encode : Ty → BitVec 4
  | .b32 => 0x0 | .u32 => 0x1 | .s32 => 0x2 | .u16x2 => 0x3 | .s16x2 => 0x4 | .u8x4 => 0x5 | .s8x4 => 0x6
  | .f32 => 0x7 | .bf16x2 => 0x8 | .f16x2 => 0x9 | .u64 => 0xA | .s64 => 0xB | .b64 => 0xC

/-- The kinds of operand fields, with the bits that must be zero (R169). -/
def Operand.decode (x : BitVec 12) : Option Operand :=
  let kind := x.extractLsb' 10 2
  if kind = 0 then
    if x.extractLsb' 8 2 = 0 then some (.vec (x.extractLsb' 0 8)) else none
  else if kind = 1 then
    if x.extractLsb' 6 4 = 0 then some (.scalar (x.extractLsb' 0 6)) else none
  else if kind = 2 then some (.special (x.extractLsb' 0 10))
  else some (.imm (x.extractLsb' 0 10))

/-- The bits of an operand field (R169). -/
def Operand.encode : Operand → BitVec 12
  | .vec i => 0#4 ++ i
  | .scalar i => 1#2 ++ (0#4 ++ i)
  | .special n => 2#2 ++ n
  | .imm v => 3#2 ++ v

/-- The SF codes (R164). -/
def FlagSel.decode (x : BitVec 2) : Option FlagSel :=
  if x = 0 then some .none else if x = 1 then some .setA else if x = 2 then some .setB else Option.none

/-- The code of an SF (R164). -/
def FlagSel.encode : FlagSel → BitVec 2
  | .none => 0 | .setA => 1 | .setB => 2

/-- One bit of a slot as a truth value. -/
def slotBit (x : BitVec 160) (i : Nat) : Bool := x.extractLsb' i 1 = 1#1

/-- A truth value as one bit. -/
def bitOf (b : Bool) : BitVec 1 := if b then 1#1 else 0#1

/-- The fields of a slot other than OP (R164). -/
def decodeSlot (x : BitVec 160) : Except DecodeError Slot :=
  if x.extractLsb' 158 2 ≠ 0 then .error .reservedBits
  else
    match FlagSel.decode (x.extractLsb' 156 2), Ty.decode (x.extractLsb' 10 4) with
    | none, _ => .error .reservedFlagSelector
    | some _, none => .error .reservedType
    | some sf, some ty =>
      match Operand.decode (x.extractLsb' 71 12), Operand.decode (x.extractLsb' 59 12),
        Operand.decode (x.extractLsb' 47 12), Operand.decode (x.extractLsb' 35 12),
        Operand.decode (x.extractLsb' 23 12) with
      | some c, some b, some a, some d1, some d0 =>
        .ok { sf := sf, mod := x.extractLsb' 128 28, yld := slotBit x 127, reuse := x.extractLsb' 124 3,
              stall := x.extractLsb' 120 4, bnd := slotBit x 119, hint := x.extractLsb' 115 4,
              imm := x.extractLsb' 83 32, c := c, b := b, a := a, d1 := d1, d0 := d0,
              lgNeg := slotBit x 22, lg := x.extractLsb' 18 4, sgNeg := slotBit x 17,
              sg := x.extractLsb' 14 3, ty := ty }
      | _, _, _, _, _ => .error .operandBits

/-- The bits of a slot with opcode `op` (R164). -/
def encodeSlot (op : BitVec 10) (w : Slot) : BitVec 160 :=
  0#2 ++ (w.sf.encode ++ (w.mod ++ (bitOf w.yld ++ (w.reuse ++ (w.stall ++ (bitOf w.bnd ++ (w.hint ++ (w.imm ++
  (w.c.encode ++ (w.b.encode ++ (w.a.encode ++ (w.d1.encode ++ (w.d0.encode ++
  (bitOf w.lgNeg ++ (w.lg ++ (bitOf w.sgNeg ++ (w.sg ++ (w.ty.encode ++ op))))))))))))))))))

/-- The opcode map (R174). CBAR has the one opcode 0x08B, and MOD[0] tells its two forms apart (R205). -/
def instrOf (op : BitVec 10) (w : Slot) : Option Instr :=
  match op.toNat with
  | 0x000 => some (.smov w)
  | 0x001 => some (.smovi w)
  | 0x002 => some (.sadd w)
  | 0x003 => some (.ssub w)
  | 0x004 => some (.smul w)
  | 0x005 => some (.smulh w)
  | 0x006 => some (.sdiv w)
  | 0x007 => some (.srem w)
  | 0x008 => some (.smin w)
  | 0x009 => some (.smax w)
  | 0x00A => some (.sand w)
  | 0x00B => some (.sor w)
  | 0x00C => some (.sxor w)
  | 0x00D => some (.sandn w)
  | 0x00E => some (.sshl w)
  | 0x00F => some (.sshr w)
  | 0x010 => some (.ssra w)
  | 0x011 => some (.sclz w)
  | 0x012 => some (.spopc w)
  | 0x013 => some (.sbfx w)
  | 0x014 => some (.sbfi w)
  | 0x015 => some (.scmp w)
  | 0x016 => some (.ssel w)
  | 0x017 => some (.slea w)
  | 0x018 => some (.sld w)
  | 0x019 => some (.sst w)
  | 0x01A => some (.clog w)
  | 0x080 => some (.nop w)
  | 0x081 => some (.bra w)
  | 0x082 => some (.brc w)
  | 0x083 => some (.brv w)
  | 0x084 => some (.bri w)
  | 0x085 => some (.call w)
  | 0x086 => some (.ret w)
  | 0x087 => some (.exit w)
  | 0x088 => some (.yield w)
  | 0x089 => some (.sleep w)
  | 0x08A => some (.bar w)
  | 0x08B => some (if w.mod.extractLsb' 0 1 = 0 then .cbarArrive w else .cbarWait w)
  | 0x08C => some (.waitc w)
  | 0x08D => some (.waitb w)
  | 0x08E => some (.klaunch w)
  | 0x08F => some (.sigf w)
  | 0x090 => some (.ifence w)
  | 0x100 => some (.vmov w)
  | 0x101 => some (.vmovi w)
  | 0x102 => some (.vadd w)
  | 0x103 => some (.vsub w)
  | 0x104 => some (.vmul w)
  | 0x105 => some (.vmulh w)
  | 0x106 => some (.vmad w)
  | 0x107 => some (.vmin w)
  | 0x108 => some (.vmax w)
  | 0x109 => some (.vabs w)
  | 0x10A => some (.vneg w)
  | 0x10B => some (.vand w)
  | 0x10C => some (.vor w)
  | 0x10D => some (.vxor w)
  | 0x10E => some (.vnot w)
  | 0x10F => some (.vshl w)
  | 0x110 => some (.vshr w)
  | 0x111 => some (.vsra w)
  | 0x112 => some (.vbfx w)
  | 0x113 => some (.vbfi w)
  | 0x114 => some (.vclz w)
  | 0x115 => some (.vpopc w)
  | 0x116 => some (.vsel w)
  | 0x117 => some (.vcmp w)
  | 0x118 => some (.vdot4 w)
  | 0x119 => some (.vidx w)
  | 0x180 => some (.fadd w)
  | 0x181 => some (.fsub w)
  | 0x182 => some (.fmul w)
  | 0x183 => some (.ffma w)
  | 0x184 => some (.fmin w)
  | 0x185 => some (.fmax w)
  | 0x186 => some (.fcmp w)
  | 0x187 => some (.fcls w)
  | 0x188 => some (.frndi w)
  | 0x189 => some (.fdiv w)
  | 0x18A => some (.fsqrt w)
  | 0x18B => some (.frcp w)
  | 0x18C => some (.frsq w)
  | 0x18D => some (.fex2 w)
  | 0x18E => some (.flg2 w)
  | 0x18F => some (.fsin w)
  | 0x190 => some (.fcos w)
  | 0x191 => some (.ftanh w)
  | 0x192 => some (.pkfma w)
  | 0x193 => some (.pkadd w)
  | 0x194 => some (.pkmul w)
  | 0x200 => some (.cvt w)
  | 0x201 => some (.cvtb w)
  | 0x202 => some (.cvte w)
  | 0x203 => some (.shfl w)
  | 0x204 => some (.vrdl w)
  | 0x205 => some (.vwrl w)
  | 0x206 => some (.vred w)
  | 0x207 => some (.vscan w)
  | 0x208 => some (.vote w)
  | 0x209 => some (.qmov w)
  | 0x20A => some (.qlog w)
  | 0x20B => some (.qcnt w)
  | 0x280 => some (.ld w)
  | 0x281 => some (.st w)
  | 0x282 => some (.ldp w)
  | 0x283 => some (.stp w)
  | 0x284 => some (.ldv w)
  | 0x285 => some (.stv w)
  | 0x286 => some (.atom w)
  | 0x287 => some (.satom w)
  | 0x288 => some (.apnd w)
  | 0x289 => some (.apst w)
  | 0x28A => some (.seal w)
  | 0x28B => some (.fence w)
  | 0x28C => some (.pref w)
  | 0x28D => some (.cflush w)
  | 0x28E => some (.ldsx w)
  | 0x28F => some (.monw w)
  | 0x290 => some (.mwait w)
  | 0x300 => some (.trec w)
  | 0x301 => some (.cpy w)
  | 0x302 => some (.cpyx w)
  | 0x303 => some (.cpyr w)
  | 0x304 => some (.cpyb w)
  | 0x305 => some (.gath w)
  | 0x306 => some (.coll w)
  | 0x307 => some (.bcfg w)
  | 0x308 => some (.bput w)
  | 0x309 => some (.btake w)
  | 0x30A => some (.tcfg w)
  | 0x30B => some (.mma w)
  | 0x30C => some (.mldb w)
  | 0x30D => some (.msto w)
  | 0x30E => some (.mzero w)
  | 0x30F => some (.mq4 w)
  | 0x380 => some (.srds w)
  | 0x381 => some (.swrs w)
  | 0x382 => some (.trap w)
  | 0x383 => some (.eret w)
  | 0x384 => some (.pmap w)
  | 0x385 => some (.pfree w)
  | 0x386 => some (.tlbi w)
  | 0x387 => some (.haltc w)
  | 0x388 => some (.dbrk w)
  | _ => none

/-- The opcode and the slot of an instruction; an event has none. -/
def Instr.opSlot : Instr → Option (BitVec 10 × Slot)
  | .smov w => some (0x000, w)
  | .smovi w => some (0x001, w)
  | .sadd w => some (0x002, w)
  | .ssub w => some (0x003, w)
  | .smul w => some (0x004, w)
  | .smulh w => some (0x005, w)
  | .sdiv w => some (0x006, w)
  | .srem w => some (0x007, w)
  | .smin w => some (0x008, w)
  | .smax w => some (0x009, w)
  | .sand w => some (0x00A, w)
  | .sor w => some (0x00B, w)
  | .sxor w => some (0x00C, w)
  | .sandn w => some (0x00D, w)
  | .sshl w => some (0x00E, w)
  | .sshr w => some (0x00F, w)
  | .ssra w => some (0x010, w)
  | .sclz w => some (0x011, w)
  | .spopc w => some (0x012, w)
  | .sbfx w => some (0x013, w)
  | .sbfi w => some (0x014, w)
  | .scmp w => some (0x015, w)
  | .ssel w => some (0x016, w)
  | .slea w => some (0x017, w)
  | .sld w => some (0x018, w)
  | .sst w => some (0x019, w)
  | .clog w => some (0x01A, w)
  | .nop w => some (0x080, w)
  | .bra w => some (0x081, w)
  | .brc w => some (0x082, w)
  | .brv w => some (0x083, w)
  | .bri w => some (0x084, w)
  | .call w => some (0x085, w)
  | .ret w => some (0x086, w)
  | .exit w => some (0x087, w)
  | .yield w => some (0x088, w)
  | .sleep w => some (0x089, w)
  | .bar w => some (0x08A, w)
  | .cbarArrive w => some (0x08B, w)
  | .cbarWait w => some (0x08B, w)
  | .waitc w => some (0x08C, w)
  | .waitb w => some (0x08D, w)
  | .klaunch w => some (0x08E, w)
  | .sigf w => some (0x08F, w)
  | .ifence w => some (0x090, w)
  | .vmov w => some (0x100, w)
  | .vmovi w => some (0x101, w)
  | .vadd w => some (0x102, w)
  | .vsub w => some (0x103, w)
  | .vmul w => some (0x104, w)
  | .vmulh w => some (0x105, w)
  | .vmad w => some (0x106, w)
  | .vmin w => some (0x107, w)
  | .vmax w => some (0x108, w)
  | .vabs w => some (0x109, w)
  | .vneg w => some (0x10A, w)
  | .vand w => some (0x10B, w)
  | .vor w => some (0x10C, w)
  | .vxor w => some (0x10D, w)
  | .vnot w => some (0x10E, w)
  | .vshl w => some (0x10F, w)
  | .vshr w => some (0x110, w)
  | .vsra w => some (0x111, w)
  | .vbfx w => some (0x112, w)
  | .vbfi w => some (0x113, w)
  | .vclz w => some (0x114, w)
  | .vpopc w => some (0x115, w)
  | .vsel w => some (0x116, w)
  | .vcmp w => some (0x117, w)
  | .vdot4 w => some (0x118, w)
  | .vidx w => some (0x119, w)
  | .fadd w => some (0x180, w)
  | .fsub w => some (0x181, w)
  | .fmul w => some (0x182, w)
  | .ffma w => some (0x183, w)
  | .fmin w => some (0x184, w)
  | .fmax w => some (0x185, w)
  | .fcmp w => some (0x186, w)
  | .fcls w => some (0x187, w)
  | .frndi w => some (0x188, w)
  | .fdiv w => some (0x189, w)
  | .fsqrt w => some (0x18A, w)
  | .frcp w => some (0x18B, w)
  | .frsq w => some (0x18C, w)
  | .fex2 w => some (0x18D, w)
  | .flg2 w => some (0x18E, w)
  | .fsin w => some (0x18F, w)
  | .fcos w => some (0x190, w)
  | .ftanh w => some (0x191, w)
  | .pkfma w => some (0x192, w)
  | .pkadd w => some (0x193, w)
  | .pkmul w => some (0x194, w)
  | .cvt w => some (0x200, w)
  | .cvtb w => some (0x201, w)
  | .cvte w => some (0x202, w)
  | .shfl w => some (0x203, w)
  | .vrdl w => some (0x204, w)
  | .vwrl w => some (0x205, w)
  | .vred w => some (0x206, w)
  | .vscan w => some (0x207, w)
  | .vote w => some (0x208, w)
  | .qmov w => some (0x209, w)
  | .qlog w => some (0x20A, w)
  | .qcnt w => some (0x20B, w)
  | .ld w => some (0x280, w)
  | .st w => some (0x281, w)
  | .ldp w => some (0x282, w)
  | .stp w => some (0x283, w)
  | .ldv w => some (0x284, w)
  | .stv w => some (0x285, w)
  | .atom w => some (0x286, w)
  | .satom w => some (0x287, w)
  | .apnd w => some (0x288, w)
  | .apst w => some (0x289, w)
  | .seal w => some (0x28A, w)
  | .fence w => some (0x28B, w)
  | .pref w => some (0x28C, w)
  | .cflush w => some (0x28D, w)
  | .ldsx w => some (0x28E, w)
  | .monw w => some (0x28F, w)
  | .mwait w => some (0x290, w)
  | .trec w => some (0x300, w)
  | .cpy w => some (0x301, w)
  | .cpyx w => some (0x302, w)
  | .cpyr w => some (0x303, w)
  | .cpyb w => some (0x304, w)
  | .gath w => some (0x305, w)
  | .coll w => some (0x306, w)
  | .bcfg w => some (0x307, w)
  | .bput w => some (0x308, w)
  | .btake w => some (0x309, w)
  | .tcfg w => some (0x30A, w)
  | .mma w => some (0x30B, w)
  | .mldb w => some (0x30C, w)
  | .msto w => some (0x30D, w)
  | .mzero w => some (0x30E, w)
  | .mq4 w => some (0x30F, w)
  | .srds w => some (0x380, w)
  | .swrs w => some (0x381, w)
  | .trap w => some (0x382, w)
  | .eret w => some (0x383, w)
  | .pmap w => some (0x384, w)
  | .pfree w => some (0x385, w)
  | .tlbi w => some (0x386, w)
  | .haltc w => some (0x387, w)
  | .dbrk w => some (0x388, w)
  | .clauseIssue _ => none
  | .operationComplete _ _ => none
  | .timerTrap _ => none
  | .sleepExpiry _ => none
  | .barrierComplete _ _ => none
  | .cbarPhaseComplete _ => none
  | .waitcComplete _ => none
  | .waitbComplete _ => none
  | .mwaitWake _ _ => none
  | .mwaitTimeout _ => none
  | .watchReread _ => none
  | .watchTableRecheck _ => none
  | .haltcWake _ => none
  | .stickyPriority _ => none
  | .controlInterval _ _ => none
  | .claim _ _ => none
  | .energyUpdate _ => none
  | .engineFire _ => none
  | .engineStep _ => none
  | .engineRetire _ => none
  | .pairArrival _ => none
  | .cpyxSettle _ => none
  | .tokenRequest _ _ _ => none
  | .persistentRequest _ _ _ => none
  | .leaseExpiry _ => none
  | .remoteWriteDrain _ _ => none
  | .appendComplete _ _ => none
  | .sealComplete _ => none
  | .purgeAck _ _ => none
  | .mtuWalkComplete _ => none
  | .tier3SwapOut _ => none
  | .teamAdmit _ _ _ => none
  | .launchComplete _ => none
  | .clusterSend _ => none
  | .dependenceHolds _ => none
  | .stealRequest _ _ _ => none
  | .partialEviction _ _ _ => none
  | .fenceTakesEffect _ _ => none
  | .demeritDecay => none
  | .maceSegment _ _ _ => none
  | .replicaPlace _ _ => none
  | .checkResolve _ => none
  | .timeout _ => none
  | .healthRecordSign => none
  | .launchByRecord _ _ _ => none
  | .launchByRegisteredEntry _ _ _ => none
  | .register _ _ _ => none
  | .emptyAnEntry _ _ _ => none
  | .launchWindowDrop _ _ => none
  | .atsInvalidateRequest _ _ _ => none
  | .pageRequestGroupResponse _ _ _ => none
  | .hostSnoop _ _ _ => none
  | .backInvalidateAnswer _ _ => none
  | .hostMemoryAccess _ _ => none
  | .ideKm _ => none
  | .ideMacFailure _ => none
  | .lockInterfaceRequest => none
  | .startInterfaceRequest => none
  | .stopInterfaceRequest => none
  | .linkDown => none
  | .keyLoad _ _ _ _ _ => none
  | .clearFence _ _ => none
  | .getHealth _ _ _ => none
  | .spdmRequest _ => none
  | .peerPortStateChange _ _ => none
  | .peerCopyArrival _ _ _ _ => none
  | .hrLatch => none
  | .coldReset => none
  | .rcvGo _ => none
  | .fwUpdCmd _ => none
  | .hcGo _ _ => none
  | .doorbell _ _ => none
  | .dbgResumeGroup => none
  | .dbgEndTeam => none
  | .create _ => none
  | .switchout _ => none
  | .partitionImageSave _ => none
  | .switchin _ => none
  | .reset _ => none
  | .destroy _ => none
  | .hangWatchdogExpiry _ => none
  | .saveTimerExpiry _ => none
  | .drCtl _ _ => none
  | .drStepEnd _ => none
  | .railCtl _ => none
  | .railVoltageReached => none
  | .pdCtl _ _ _ => none
  | .pdWake _ _ _ => none
  | .autoidleExpiry _ _ => none
  | .poundStateComplete _ _ => none
  | .dispatchAtLock _ _ => none
  | .droopFire _ _ => none
  | .droopHoldExpiry _ _ => none
  | .ftp64 _ _ _ => none
  | .ftp2m _ _ _ => none
  | .qBind _ _ => none
  | .slInject _ _ => none
  | .mgmtRegisterWrite _ _ => none
  | .stationDelivery _ => none
  | .uncorrectableError _ => none
  | .frozenSettingsChange => none

/-- An event, which no code holds. -/
def Instr.isEvent (i : Instr) : Bool := i.opSlot.isNone

/-- Decode one slot. -/
def decodeWord (x : BitVec 160) : Except DecodeError Instr :=
  match decodeSlot x with
  | .error e => .error e
  | .ok w =>
    match instrOf (x.extractLsb' 0 10) w with
    | some i => .ok i
    | none => .error .unassignedOp

/-- The slot that stands for an instruction; none for an event, which no code holds. -/
def encode (i : Instr) : Option (BitVec 160) :=
  match i.opSlot with
  | some (op, w) => some (encodeSlot op w)
  | none => none

/-- Bytes in memory order as one little-endian number (R3). -/
def leNat : List Byte → Nat
  | [] => 0
  | b :: bs => b.toNat + 256 * leNat bs

/-- The first `n` bytes of a number, little-endian (R3). -/
def leBytes : Nat → Nat → List Byte
  | 0, _ => []
  | n + 1, x => BitVec.ofNat 8 x :: leBytes n (x / 256)

/-- Decode the first slot of a sequence of bytes, and give the bytes after it. -/
def decodeBytes (bytes : List Byte) : Except DecodeError (Instr × List Byte) :=
  if bytes.length < 20 then .error .shortInput
  else
    match decodeWord (BitVec.ofNat 160 (leNat (bytes.take 20))) with
    | .error e => .error e
    | .ok i => .ok (i, bytes.drop 20)

/-- The instruction that the decoder reads from a slot whose low `nbits` bits are `w` and whose other bits are 0. -/
def decodeTableWord (nbits w : Nat) : Option Instr :=
  match decodeBytes (leBytes 20 (w % 2 ^ nbits)) with
  | .ok (i, _) => some i
  | .error _ => none

/-! ## Readings of the fields -/

/-- A TY of 64 bits (R166). -/
def Ty.wide : Ty → Bool
  | .u64 => true
  | .s64 => true
  | .b64 => true
  | _ => false

/-- A TY that reads sources as two's complement (R187). -/
def Ty.signed : Ty → Bool
  | .s32 => true
  | .s64 => true
  | .s16x2 => true
  | .s8x4 => true
  | _ => false

/-- The field value 0xE00 that selects IMM (R169). -/
def Operand.isImmField (o : Operand) : Bool := o == .imm 0x200

/-- The number that a source names as a scalar register, s0 for none. -/
def Operand.scalarIndex : Operand → Nat
  | .scalar i => i.toNat
  | _ => 0

/-- The number that a field names as a vector register. -/
def Operand.vecIndex : Operand → Nat
  | .vec i => i.toNat
  | _ => 0

/-- The number that a field names as a special register. -/
def Operand.specialIndex : Operand → Nat
  | .special n => n.toNat
  | _ => 0

/-! ## Fetch lines -/

/-- Slot `k` of a fetch line (R150). -/
def lineSlot (line : BitVec 512) (k : Nat) : BitVec 160 := line.extractLsb' (160 * k) 160

/-- The line word of a fetch line (R150). -/
def lineWord (line : BitVec 512) : BitVec 32 := line.extractLsb' 480 32

/-- The exclusive OR of bits `start` to `start + n - 1` of a line. -/
def lineParity (line : BitVec 512) (start : Nat) : Nat → Bool
  | 0 => false
  | n + 1 => Bool.xor (line.getLsbD (start + n)) (lineParity line start n)

/-- Both parity checks of R152. -/
def lineParityOk (line : BitVec 512) : Bool :=
  (line.getLsbD 480 == lineParity line 0 240) &&
  (line.getLsbD 481 == Bool.xor (lineParity line 240 240) (lineParity line 482 30))

/-- The C bit of a line word (R151). -/
def headerC (h : BitVec 32) : Bool := h.getLsbD 7

/-- The TGT bit of slot `k` (R151). -/
def headerTgt (h : BitVec 32) (k : Nat) : Bool := h.getLsbD (4 + k)

/-- The WAIT mask (R151). -/
def headerWait (h : BitVec 32) : BitVec 12 := h.extractLsb' 8 12

/-- SETA (R151). -/
def headerSetA (h : BitVec 32) : BitVec 4 := h.extractLsb' 20 4

/-- SETB (R151). -/
def headerSetB (h : BitVec 32) : BitVec 4 := h.extractLsb' 24 4

/-- PAIR (R151). -/
def headerPair (h : BitVec 32) : BitVec 2 := h.extractLsb' 2 2

/-- A malformed line word (R153); SETA and SETB are compared in header lines, whose fields they are (log 20). -/
def lineWordMalformed (h : BitVec 32) : Bool :=
  h.extractLsb' 28 4 != 0 || headerPair h == 3 ||
  (!headerC h && (h.extractLsb' 8 20 != 0 || h.extractLsb' 4 3 != 0)) ||
  (headerC h && ((12 ≤ (headerSetA h).toNat && (headerSetA h).toNat ≤ 14) ||
    (12 ≤ (headerSetB h).toNat && (headerSetB h).toNat ≤ 14) ||
    (headerSetA h == headerSetB h && headerSetA h != 0xF)))

/-- The canonical NOP (R155). -/
def canonicalNop : BitVec 160 := 0x1C080#160

/-- The canonical NOP that carries BND. -/
def boundaryNop : BitVec 160 := 0x1C080#160 ||| (1#160 <<< 119)

/-- A line word with the parity bits of its line set right (R152). -/
def lineWithParity (s0 s1 s2 : BitVec 160) (h : BitVec 32) : BitVec 512 :=
  let base : BitVec 512 := (h.extractLsb' 2 30 ++ 0#2) ++ (s2 ++ (s1 ++ s0))
  let p0 := lineParity base 0 240
  let p1 := Bool.xor (lineParity base 240 240) (lineParity base 482 30)
  (h.extractLsb' 2 30 ++ (bitOf p1 ++ bitOf p0)) ++ (s2 ++ (s1 ++ s0))

end Sys2Proof
end

