-- ==== Sys2Proof/Machine/Parts.lean ====
section
/-!
DEFINITION. The parts of the machine's state as plain records: groups, teams, clusters, launches, cores, pounds,
dies, contexts, checks and the hub. Each field's docstring ends with its width, the rule that names it and its
value when the part comes into being.
-/

namespace Sys2Proof.Machine

open Sys2Proof

/-! ## Groups -/

/-- A register that a class L instruction makes pending (R159). -/
inductive DestReg where
  | vec (index : Nat)
  | scalar (index : Nat)
  deriving DecidableEq, Repr, Inhabited

/-- A pending mark: the register, the flag its instruction set and that instruction's slot address (R159). -/
structure Mark where
  reg : DestReg
  flag : Nat
  slot : Nat
  /-- The number of the operation that placed the mark. [number | R161 | at issue] -/
  op : Nat := 0
  deriving DecidableEq, Repr, Inhabited

/-- One register write that a long-latency operation makes when it completes. -/
inductive RegWrite where
  | vec (reg lane : Nat) (value : Lane)
  | scalar (reg : Nat) (value : Word)
  deriving DecidableEq, Repr, Inhabited

/-- The value of a register write, as a log records it (R350). -/
def RegWrite.word : RegWrite → Word
  | .vec _ _ v => v.zeroExtend 64
  | .scalar _ v => v

/-- A trap or fault as it is reported (R370, R372, R375). -/
structure Cause where
  /-- Cause code. [8 bits | R370 | 0] -/
  code : Nat := 0
  /-- ARG of the cause word. [16 bits | R375 | 0] -/
  arg : Nat := 0
  /-- FADDR. [64 bits | R372 | 0] -/
  faddr : Word := 0
  /-- The failing lanes. [64 lanes | R372 | 0] -/
  lanes : BitVec 64 := 0
  /-- The fault came from an engine operation of this class. [2 bits | R375 | none] -/
  engine : Option (BitVec 2) := none
  /-- Imprecise position. [1 bit | R375 | 0] -/
  imprecise : Bool := false
  /-- Entry or Deferred position. [1 bit | R375 | 0] -/
  entry : Bool := false
  /-- Deferred position. [1 bit | R375 | 0] -/
  deferred : Bool := false
  deriving DecidableEq, Repr, Inhabited

/-- The work that is left when a class L operation completes (OPERATION_COMPLETE). -/
inductive Task where
  | plain
  /-- A special-function operation: those of a group complete in issue order (R229). -/
  | special
  /-- PMAP, which goes on past a partition halt (R390). -/
  | mapping
  /-- CFLUSH, which completes once the homes have accepted every write, and goes on past a partition halt (R276, R390). -/
  | flush
  | klaunch (queue : Nat) (packet : LaunchPacket) (ctx : Nat) (dest : Option Nat)
  | seal (frame : Nat) (dest : Option Nat)
  | append (frame offset : Nat)
  | purge (frame size : Nat) (pool : Bool)
  | invalidate (ctx : Option Nat) (va len : Nat) (scope : BitVec 3) (die : Nat)
  | record (slot : Nat) (bytes : BitVec 512)
  deriving DecidableEq, Repr, Inhabited

/-- A long-latency operation in flight (R158): its flag, its slot address and what its completion writes. -/
structure Flight where
  /-- The operation's number within its group. [number | R158 | at issue] -/
  op : Nat
  /-- The flag whose count falls at completion. [f0 to f11 | R158 | at issue] -/
  flag : Nat
  /-- The address of the instruction. [64 bits | R264 | at issue] -/
  slot : Nat
  /-- The register writes of the completion. [list | R158 | at issue] -/
  writes : List RegWrite
  /-- The flags of %fpstat that the completion raises. [7 bits | R86 | at issue] -/
  fp : BitVec 7
  /-- The deferred fault that the operation met. [record | R264 | at issue] -/
  fault : Option Cause
  /-- What else the completion does. [variant | R158 | at issue] -/
  task : Task
  /-- The destination registers of the instruction. [list | R159, R374 | at issue] -/
  dests : List DestReg := []
  deriving DecidableEq, Repr, Inhabited

/-- A deferred fault that the group owes (R264): the flag that carries it and the faulting instruction. -/
structure Owed where
  flag : Nat
  slot : Nat
  cause : Cause
  deriving DecidableEq, Repr, Inhabited

/-- The clause in progress (R155 to R157): its entry slot, its header and its slots not yet issued. -/
structure ClausePos where
  /-- Entry slot address. [64 bits | R155 | at clause issue] -/
  entry : Nat
  /-- Header word. [32 bits | R151 | at clause issue] -/
  header : BitVec 32
  /-- Slots not yet issued, with their addresses: the clause buffer. [list of 160 bits | R156 | at clause issue] -/
  rest : List (Nat × BitVec 160)
  deriving DecidableEq, Repr, Inhabited

/-- Where a trap resumes (R374). -/
inductive Resume where
  | entrySlot (slot : Nat)
  | instruction (clause : ClausePos) (skip : Bool)
  deriving DecidableEq, Repr, Inhabited

/-- The hidden trap state of a group (R374). -/
structure Hidden where
  /-- Saved s1. [64 bits | R374 | at trap entry] -/
  s1 : Word
  /-- Saved s2. [64 bits | R374 | at trap entry] -/
  s2 : Word
  /-- Saved s3. [64 bits | R374 | at trap entry] -/
  s3 : Word
  /-- Saved q15. [64 lanes | R374 | at trap entry] -/
  q15 : BitVec 64
  /-- Resume position. [variant | R374 | at trap entry] -/
  resume : Resume
  /-- The slot address the trap reported. [64 bits | R374 | at trap entry] -/
  slot : Nat
  /-- The operations that earlier issues of the trapping instruction put in flight. [list | R161 | at trap entry] -/
  own : List Nat := []
  /-- The trap that the handler serves: what a fatal report carries when the handler executes EXIT. [record | R377 | at trap entry] -/
  cause : Cause
  deriving DecidableEq, Repr, Inhabited

/-- What a group waits for (R58). -/
inductive WaitKind where
  | sleep (deadline : Nat)
  | bar (b : Nat)
  | cbarArrive (dest : Option Nat)
  | cbarWait (phase : Nat)
  | waitc (cls n : Nat) (scope : BitVec 3)
  | waitb (n : Nat) (scope : BitVec 3)
  | mwait (deadline : Option Nat) (d0 d1 : Option Nat)
  | haltc (mask : BitVec 2) (deadline : Option Nat) (dest : Option Nat)
  deriving DecidableEq, Repr, Inhabited

/-- A wait after a clause (R58): the waiting instruction, for a trap that is reported at it, and what it waits for. -/
structure Wait where
  slot : Nat
  word : BitVec 160
  header : BitVec 32
  kind : WaitKind
  deriving DecidableEq, Repr, Inhabited

/-- What a translated access needs of the page entry (R142, R143). -/
inductive AccessKind where
  | read | write | execute
  deriving DecidableEq, Repr, Inhabited

/-- A group parked on walks (R381, R383). -/
structure Parked where
  /-- The translations the group waits for. [list of address and permission | R381 | at parking] -/
  needs : List (Nat × AccessKind)
  /-- The page-table entry whose page request the group waits for. [52 bits | R383 | none] -/
  request : Option Nat
  /-- The address whose walk ended at that entry. [64 bits | R383 | none] -/
  address : Option Nat := none
  /-- When the host-serviced parking began. [ns | R384 | at parking] -/
  since : Nat
  deriving DecidableEq, Repr, Inhabited

/-- A watch (R278). -/
structure Watch where
  /-- Physical address of the word. [52 bits | R278 | at MONW] -/
  pa : Nat
  /-- Eight bytes rather than four. [1 bit | R278 | at MONW] -/
  wide : Bool
  /-- Condition code. [0 to 5 | R278 | at MONW] -/
  cond : BitVec 4
  /-- The comparand. [64 bits | R278 | at MONW] -/
  ref : Word
  /-- Scope. [3 bits | R278 | at MONW] -/
  scope : BitVec 3
  /-- The watch is held in a watch table: slice index plus 144 times the die. [number | R278 | at MONW] -/
  home : Option Nat
  /-- The value that satisfied the comparison. [64 bits | R279 | none] -/
  hit : Option Word
  deriving DecidableEq, Repr, Inhabited

/-- One group (R35). -/
structure Group where
  /-- The core the group runs on: die * 144 + site, or 576 + h for hub core h. [number | R35, R24 | at start] -/
  core : Nat
  /-- The group's team. [key | R35 | at start] -/
  team : Nat
  /-- The context of the group, %ctx. [8 bits | R39, R426 | at start] -/
  ctx : Nat
  /-- %gid. [16 bits | R39 | at start] -/
  gid : Nat
  /-- Team-local index t; the group issues on pipe t mod 4. [number | R45 | at start] -/
  tindex : Nat := 0
  /-- %width: 16, 32 or 64 lanes. [number | R39 | at start] -/
  width : Nat := 16
  /-- Vector registers of the partition of the register file, 8 times VREGS. [number | R40 | at start] -/
  vregs : Nat := 64
  /-- System mode. [1 bit | R184 | at start] -/
  system : Bool := false
  /-- Handler state. [1 bit | R184 | 0] -/
  handler : Bool := false
  /-- The program counter, always a slot address. [64 bits | R150 | ENTRY, R51] -/
  pc : Nat
  /-- s1 to s63; s0 reads zero. [64 bits each | R171 | 0, R51] -/
  sregs : Tab Word := []
  /-- c0 to c6; c7 reads true. [1 bit each | R171 | 0, R51] -/
  cregs : BitVec 7 := 0
  /-- q1 to q15; q0 is the launch mask. [1 bit per lane | R171 | 0, R51] -/
  qregs : Tab (BitVec 64) := []
  /-- Vector registers: register * 64 + lane. [32 bits per lane | R171 | 0, R51] -/
  vecs : Tab Lane := []
  /-- Completion flag counts of f0 to f11. [count | R158 | 0, R51] -/
  flags : Tab Nat := []
  /-- Pending marks. [list | R159 | none] -/
  marks : List Mark := []
  /-- Long-latency operations in flight. [list | R158 | none] -/
  flights : List Flight := []
  /-- Number of the next long-latency operation. [number | model's own | 0] -/
  nextOp : Nat := 0
  /-- %mxcnt, the MX counter. [64 bits | R172, R122 | 0, R51] -/
  mxcnt : Nat := 0
  /-- %gacnt, the GA counter. [64 bits | R172, R122 | 0, R51] -/
  gacnt : Nat := 0
  /-- %cocnt, the CO counter. [64 bits | R172, R122 | 0, R51] -/
  cocnt : Nat := 0
  /-- %cbopen, the number of the last batch closed. [64 bits | R172, R289 | 0, R51] -/
  cbopen : Nat := 0
  /-- %cbdone, the last completed batch. [64 bits | R172, R289 | 0, R51] -/
  cbdone : Nat := 0
  /-- Copies of each batch not yet completed, by batch number; the open batch is cbopen + 1. [count | R289 | 0] -/
  batches : Tab Nat := []
  /-- The open batch holds at least one copy. [1 bit | R54, R289 | 0] -/
  batchUsed : Bool := false
  /-- %fpstat: BN, SAT, IV, DZ, OF, UF, NX. [7 bits | R86 | 0] -/
  fpstat : BitVec 7 := 0
  /-- %sig, the register signature. [64 bits | R212 | 0] -/
  sig : Word := 0
  /-- %gtime up to the last time the group became resident. [64 bits | R396 | 0, R51] -/
  gtBase : Nat := 0
  /-- %clock when the group last became resident; none while %gtime stands. [ns | R396 | at start] -/
  gtSince : Option Nat := none
  /-- %gtimer. [64 bits | R216 | 0] -/
  gtimer : Word := 0
  /-- The stochastic count. [32 bits | R83 | 0] -/
  stoch : BitVec 32 := 0
  /-- The CBAR arrival count a_g. [count | R205 | 0] -/
  arrivals : Nat := 0
  /-- Event latch of a hub-core group: bit 0 DOORBELL, bit 1 IRQ. [2 bits | R224 | 0] -/
  latch : BitVec 2 := 0
  /-- Hidden trap state. [record | R374 | none] -/
  hidden : Option Hidden := none
  /-- The clause in progress; none between clauses. [record | R155 | none] -/
  clause : Option ClausePos := none
  /-- The lanes for which the next issue is a re-issue (ERET, or the end of a parked walk). [64 lanes | R161, R376 | none] -/
  replay : Option (BitVec 64) := none
  /-- The operations that earlier issues of the instruction about to be re-issued put in flight. [list | R161 | none] -/
  replayOps : List Nat := []
  /-- The wait after a clause. [record | R58 | none] -/
  wait : Option Wait := none
  /-- The parked access. [record | R381 | none] -/
  parked : Option Parked := none
  /-- The armed watch. [record | R278 | none] -/
  watch : Option Watch := none
  /-- The watch was lost. [1 bit | R279 | 0] -/
  watchLost : Bool := false
  /-- Deferred faults owed, oldest first. [list | R264 | none] -/
  owed : List Owed := []
  /-- The first refusal of a flagless access. [record | R386 | none] -/
  refused : Option Cause := none
  /-- Faults of engine operations not yet taken, with the operation. [list | R385 | none] -/
  engFaults : List (Nat × Cause) := []
  /-- The group ends its team's way at the next clause boundary, with this cause. [8 bits | R378, R380 | none] -/
  doomed : Option Nat := none
  /-- Lines of other dies that the group's completed copies have written, with their batches, until a WAITB makes the group's
  core drop its copies of them. [list | R123 | none] -/
  copied : List (Nat × Nat) := []
  /-- %clock at the group's previous clause boundary or the end of its wait. [ns | R327 | at start] -/
  age : Nat := 0
  /-- Arbitrations lost since the last issue. [count | R328 | 0] -/
  losses : Nat := 0
  /-- Sticky priority. [1 bit | R328 | 0] -/
  sticky : Bool := false
  /-- The last boundary carried YLD. [1 bit | R160 | 0] -/
  yielded : Bool := false
  /-- EXIT has issued and waits for the group's engine operations. [record | R54 | none] -/
  exiting : Option Wait := none
  /-- The group stands stopped at a DBRK. [1 bit | R427 | 0] -/
  debugStop : Bool := false
  /-- Faults that the walks of the parked access ended in: 64 KiB page, permission, cause code. [list | R381 | none] -/
  walkFaults : List (Nat × AccessKind × Nat) := []
  /-- The instruction waits at issue, holding its pipe. [1 bit | R58 | 0] -/
  holding : Bool := false
  /-- It takes the barrier-deadlock trap once its operations into s1 to s3 have completed. [1 bit | R204, R374 | 0] -/
  barTrap : Bool := false
  /-- The widest scope of the FENCE.rel and FENCE.ar that it has executed: its later stores and atomics are releases at that
  scope. [3 bits | R105 | none] -/
  fenced : Option Nat := none
  /-- The group has taken the recorded fault of its team's stopped array. [1 bit | R316 | 0] -/
  arrayFaultTaken : Bool := false
  /-- Number of log values the run's group has taken. [count | R350 | 0] -/
  logPos : Nat := 0
  /-- Number of copies and gathers the run's group has issued. [count | R350 | 0] -/
  copyPos : Nat := 0
  deriving DecidableEq, Repr, Inhabited

/-! ## Teams, basins and engine operations -/

/-- A basin (R284). -/
structure Basin where
  /-- Base offset. [32 bits | R284 | 0] -/
  base : Nat := 0
  /-- Element size E. [bytes | R284 | 0] -/
  esize : Nat := 0
  /-- Element count K; 0 while unconfigured. [count | R284 | 0] -/
  count : Nat := 0
  /-- Producer pointer P. [count modulo 2^32 | R284, R285 | 0] -/
  prod : BitVec 32 := 0
  /-- Consumer pointer Q. [count modulo 2^32 | R284, R285 | 0] -/
  cons : BitVec 32 := 0
  deriving DecidableEq, Repr, Inhabited

/-- The header of a virtual engine queue (R294). -/
structure EngineQueue where
  /-- ISSUED. [64 bits | R294 | 0] -/
  issued : Nat := 0
  /-- RETIRED. [64 bits | R294 | 0] -/
  retired : Nat := 0
  /-- PROG. [64 bits | R294 | 0] -/
  prog : Nat := 0
  /-- STATE.HALTED. [1 bit | R294 | 0] -/
  halted : Bool := false
  /-- STATE.FAULT with the cause code. [1 + 8 bits | R294 | 0] -/
  fault : Option Nat := none
  deriving DecidableEq, Repr, Inhabited

/-- A panel descriptor with the stream it holds in the weight buffer (R308). -/
structure Panel where
  /-- Weight-buffer offset w. [bytes | R308 | at MLDB] -/
  offset : Nat
  /-- Columns n. [count | R308 | at MLDB] -/
  cols : Nat
  /-- K steps s. [count | R308 | at MLDB] -/
  steps : Nat
  /-- The slot number k and its descriptor. [64 bits | R308 | at MLDB] -/
  slot : BitVec 64
  /-- 2:4 compressed. [1 bit | R308 | at MLDB] -/
  sparse : Bool
  /-- The column stream taken from the input basin. [bytes | R306, R308 | none until performed] -/
  data : List Byte
  /-- The side stream. [bytes | R307 | none until performed] -/
  side : List Byte
  deriving DecidableEq, Repr, Inhabited

/-- A matrix array with its tile store, weight buffer, configuration and issue view (R297, R300). -/
structure MatrixArray where
  /-- Rows and columns of tiles 0 to 7 as performed. [8 pairs | R304 | absent, R297] -/
  config : Tab (Nat × Nat) := []
  /-- Rows and columns of tiles 0 to 7 in the issue view. [8 pairs | R300 | absent, R297] -/
  view : Tab (Nat × Nat) := []
  /-- Tile words: tile * 65,536 + row * columns + column. [32 bits each | R304 | 0, R297] -/
  words : Tab (BitVec 32) := []
  /-- Panels of the weight buffer as performed. [16 panels | R308 | invalid, R297] -/
  panels : Tab Panel := []
  /-- Panel descriptors of the issue view. [16 panels | R300 | invalid, R297] -/
  viewPanels : Tab Panel := []
  deriving DecidableEq, Repr, Inhabited

/-- The classes of engine operations, in the order of CLS (R375). -/
inductive EngineClass where
  | copy | gather | coll | matrix
  deriving DecidableEq, Repr, Inhabited

/-- One side of a copy (R287). -/
inductive CopyEnd where
  | tensor (record : BitVec 512)
  | basin (index : Nat)
  deriving DecidableEq, Repr, Inhabited

/-- What an engine operation does, captured at issue. -/
inductive EngineKind where
  | cpy (src dst : CopyEnd) (origin : List Nat)
  | cpyx (enc : Bool) (src dst : BitVec 512) (origin : List Nat) (slot block : Nat)
  | replayed (writes : List (Nat × Nat × List Byte)) (status : List (Nat × Nat × Word))
  | cpyr (peer : Option Nat) (src dst : BitVec 512) (origin : List Nat) (flag : Option Nat) (value : BitVec 32)
  | suppressed
  | gath (record : BitVec 512) (n origin : Nat)
  | coll (op : Nat) (all : Bool) (ty : Ty) (root round size : Nat) (logged : Option (List Byte))
  | tcfg (tiles : Tab (Nat × Nat))
  | mma (tile panel : Nat) (desc : BitVec 64) (pair : Bool)
  | mldb (index : Nat) (what : Panel)
  | msto (tile : Nat) (cv s32 zero : Bool) (desc : BitVec 64) (stoch : BitVec 32)
  | mzero (mask : BitVec 8)
  | mq4 (tile fuse : Nat) (aDesc bDesc : BitVec 64) (a b : List Byte) (row col : Nat)
  deriving DecidableEq, Repr, Inhabited

/-- An engine operation in flight (R294, R295). -/
structure EngineOp where
  /-- Class. [2 bits | R294 | at issue] -/
  cls : EngineClass
  /-- Team and group that issued it. [keys | R294 | at issue] -/
  team : Nat
  group : Nat
  /-- Slot address of the instruction. [64 bits | R316 | at issue] -/
  slot : Nat
  /-- What it does. [variant | R294 | at issue] -/
  kind : EngineKind
  /-- Input basins with the elements it takes of each. [list | R286 | at issue] -/
  ins : List (Nat × Nat) := []
  /-- Output basins with the elements it produces in each. [list | R286 | at issue] -/
  outs : List (Nat × Nat) := []
  /-- Basins that it names, whether it takes from them or not. [list | R284 | at issue] -/
  names : List Nat := []
  /-- Lines of other dies that it has written. [list | R123 | none] -/
  wrote : List Nat := []
  /-- The port was not UP at issue. [1 bit | R414 | at issue] -/
  portDown : Bool := false
  /-- It has fired: Q of each input basin and P of each output basin at that moment. [counts | R286 | none] -/
  fired : Option (List Nat × List Nat) := none
  /-- Steps completed. [64 bits | R294 | 0] -/
  prog : Nat := 0
  /-- Tokens drawn for the next step. [tokens | R303, R333 | 0] -/
  paid : Nat := 0
  /-- %clock since which its next draw has not been covered. [ns | R334 | none] -/
  hungry : Option Nat := none
  /-- Its last step is done. [1 bit | R122 | 0] -/
  done : Bool := false
  /-- It is stopped at a fault until its handler's ERET. [1 bit | R295, R376 | 0] -/
  stopped : Bool := false
  /-- The batch it belongs to. [64 bits | R289 | at issue] -/
  batch : Nat := 0
  /-- The next fresh key when MMA.pair reached the follower and passed its checks. [key | R311 | none] -/
  arrived : Option Nat := none
  /-- The follower's team to which MMA.pair was bound when it arrived. [key | R311 | none] -/
  follower : Option Nat := none
  /-- Cores and sub-arrays whose last K step showed a residue mismatch and is to be performed again. [list | R315 | none] -/
  redo : List (Nat × Nat) := []
  /-- The key slot was erased while the operation was queued. [1 bit | R411 | 0] -/
  erased : Bool := false
  /-- Parked on a walk. [record | R381 | none] -/
  parked : Option Parked := none
  /-- Conversion flags to be raised at retirement. [7 bits | R86 | 0] -/
  fp : BitVec 7 := 0
  /-- The elements that a COLL has from its members' firings, by member. [bytes | R293 | none] -/
  captured : Tab (List Byte) := []
  /-- Which bytes of a member's element were poisoned, by member. [marks | R120, R293 | none] -/
  tainted : Tab (List Bool) := []
  /-- Its number among the group's copies and gathers of a run under check. [count | R350 | 0] -/
  ordinal : Nat := 0
  /-- Log values of host memory it has taken. [count | R350 | 0] -/
  logPos : Nat := 0
  deriving DecidableEq, Repr, Inhabited

/-- Where a team is (R57, R65). -/
inductive Residency where
  | waiting | resident | evicted | swapped | switchedOut | exited
  deriving DecidableEq, Repr, Inhabited

/-- A team keeps its place on its core, registers, groups, ways and charges, while it is resident or its partition is switched
out: R388 releases them at an eviction or swap-out, and R389 to R392 release nothing (log 87). -/
def Residency.placed (r : Residency) : Bool := r = .resident || r = .switchedOut

/-- A team (R35), with the identity its groups read (R39). -/
structure Team where
  /-- Its core. [number | R35 | at admission] -/
  core : Nat
  /-- The launch; none for a hub-core group. [sequence number | R35 | at admission] -/
  launch : Option Nat := none
  /-- The cluster; none for a replica, a third run or a hub-core group. [key | R344 | at admission] -/
  cluster : Option Nat := none
  /-- Member index m. [number | R45 | at admission] -/
  member : Nat := 0
  /-- Number of members M. [number | R44 | at admission] -/
  members : Nat := 1
  /-- %clusterid. [32 bits | R39 | at admission] -/
  clusterId : Nat := 0
  /-- Context of the team. [8 bits | R39 | at admission] -/
  ctx : Nat := 0
  /-- Live groups. [list of keys | R54 | at admission] -/
  groups : List Nat := []
  /-- Groups, lanes and registers it was admitted with. [bytes of register file | R48 | at admission] -/
  regBytes : Nat := 0
  /-- Number of groups it was admitted with. [count | R48 | at admission] -/
  groupCount : Nat := 0
  /-- SCRATCH. [bytes | R97 | at admission] -/
  scratchSize : Nat := 0
  /-- Scratchpad contents by offset. [bytes | R97 | 0, R51] -/
  scratch : Tab Byte := []
  /-- Base set b of the pinned lines. [0 to 448 | R98 | at admission] -/
  baseSet : Nat := 0
  /-- Poisoned scratchpad lines. [set of line numbers | R120 | none] -/
  poison : List Nat := []
  /-- Basins 0 to 15. [16 records | R284 | unconfigured] -/
  basins : Tab Basin := []
  /-- Record slots 0 to 7. [8 records of 512 bits | R283 | empty] -/
  records : Tab (BitVec 512) := []
  /-- Virtual engine queues: 0 copy, 1 gather, 2 collective, 3 matrix. [4 headers | R294 | 0] -/
  queues : Tab EngineQueue := []
  /-- Which 16 KiB of the context's engine-queue area it holds. [number | R294, R432 | at admission] -/
  area : Nat := 0
  /-- Number of COLL issued. [count | R293 | 0] -/
  collCount : Nat := 0
  /-- Where the team is. [variant | R57, R65 | waiting] -/
  residency : Residency := .waiting
  /-- Energy charge per control interval. [tokens | R324 | at admission] -/
  energy : Nat := 0
  /-- Current charge, in units of 0.5 A. [number | R324 | at admission] -/
  current : Nat := 0
  /-- %clock at admission. [ns | R326 | at admission] -/
  admitted : Nat := 0
  /-- The check and the run this team is: 0 original, 1 replica, 2 third run. [pair | R345 | none] -/
  run : Option (Nat × Nat) := none
  /-- The team is under check, %redund.CHK. [1 bit | R340, R341 | at admission] -/
  checked : Bool := false
  /-- Store signature of the run. [64 bits | R348 | 0] -/
  storeSig : Word := 0
  /-- Register signature so far: sum over groups that ended. [64 bits | R349 | 0] -/
  regSig : Word := 0
  /-- The run ended at once with this cause and slot address. [16 + 48 bits | R349 | none] -/
  runEnd : Option (Nat × Nat) := none
  /-- The team ended by a fatal trap or an abort. [1 bit | R378 | 0] -/
  fatal : Bool := false
  /-- The array is stopped for the team: the recorded fault and the faulting instruction's address. [record | R316 | none] -/
  arrayStop : Option (Cause × Nat) := none
  /-- A matrix save slot is allotted in the swap area. [1 bit | R298 | 0] -/
  saveSlot : Bool := false
  /-- Matrix save slot. [528,384 bytes | R298 | none] -/
  arraySave : Option MatrixArray := none
  /-- The team owned its core's array at the halt of its partition. [1 bit | R298 | 0] -/
  heldArray : Bool := false
  /-- Host-serviced parking or eviction put the team's image in the swap area. [1 bit | R388 | 0] -/
  inSwap : Bool := false
  /-- A replica or third run stands stopped, resident, while the swap area cannot hold its image. [1 bit | R388 | 0] -/
  stopped : Bool := false
  /-- A line of the team's saved image is poisoned. [1 bit | R395 | 0] -/
  imagePoison : Bool := false
  deriving DecidableEq, Repr, Inhabited

/-- Where a cluster stands between its launch and its exit (R323, R61, R54). -/
inductive ClusterState where
  | frontEnd | distributor | pound (p : Nat) | started | evicted | swapped | exited
  deriving DecidableEq, Repr, Inhabited

/-- Why a cluster stands stopped while its image finds no room in the swap area (R388): for a tier-3 swap-out, or for the
eviction that another cluster waits for. -/
inductive StopFor where
  | swap
  | evict (incoming : Nat)
  deriving DecidableEq, Repr, Inhabited

/-- A cluster (R35). -/
structure Cluster where
  /-- Its launch. [sequence number | R35 | when sent] -/
  launch : Nat
  /-- Linear index c. [32 bits | R39 | when sent] -/
  index : Nat
  /-- The die it was sent to. [0 to 3 | R323 | when sent] -/
  die : Nat
  /-- Where it stands. [variant | R323 | distributor] -/
  state : ClusterState := .distributor
  /-- Origin of its rectangle, once chosen. [site coordinates | R44 | none] -/
  origin : Option (Nat × Nat) := none
  /-- The teams by member index. [list of keys | R45 | none until admission] -/
  teams : List Nat := []
  /-- Completed-phase count P. [count | R205 | 0] -/
  phase : Nat := 0
  /-- %clock at which it came to its distributor. [ns | R326 | when sent] -/
  since : Nat := 0
  /-- It is resident and stopped while the swap area cannot hold its image. [variant | R388 | none] -/
  stopped : Option StopFor := none
  deriving DecidableEq, Repr, Inhabited

/-! ## Launches and queues -/

/-- A launch record (R40). -/
structure LaunchRecord where
  /-- ENTRY. [64 bits | R40 | from memory] -/
  entry : Word
  /-- FMTVER. [16 bits | R40 | from memory] -/
  fmtver : BitVec 16
  /-- WIDTH. [8 bits | R40 | from memory] -/
  width : BitVec 8
  /-- VREGS. [8 bits | R40 | from memory] -/
  vregs : BitVec 8
  /-- GPC. [16 bits | R40 | from memory] -/
  gpc : BitVec 16
  /-- CLW and CLH. [8 bits each | R40 | from memory] -/
  clw : BitVec 8
  clh : BitVec 8
  /-- GRIDX, GRIDY, GRIDZ. [32 bits each | R40 | from memory] -/
  gridx : BitVec 32
  gridy : BitVec 32
  gridz : BitVec 32
  /-- SCRATCH. [32 bits | R40 | from memory] -/
  scratch : BitVec 32
  /-- SLOT0 to SLOT7. [8 of 64 bits | R40 | from memory] -/
  slots : List (BitVec 64)
  /-- REDUND. [8 bits | R40 | from memory] -/
  redund : BitVec 8
  /-- ENERGY, CURRENT, PRIO. [8 bits each | R40 | from memory] -/
  energy : BitVec 8
  current : BitVec 8
  prio : BitVec 8
  /-- ATTR. [16 bits | R40 | from memory] -/
  attr : BitVec 16
  /-- Every reserved byte is zero. [1 bit | R40 | from memory] -/
  reservedZero : Bool
  /-- PARAM. [64 bits | R40 | from memory] -/
  param : Word
  /-- TREC0 to TREC3. [4 of 64 bits | R40 | from memory] -/
  trecs : List Word
  /-- HOLDMAX. [32 bits | R40 | from memory] -/
  holdmax : BitVec 32
  deriving DecidableEq, Repr, Inhabited

/-- The states of a launch (R321). -/
inductive LaunchState where
  | queued | waiting | ready | placing | running | resolving | completed
  deriving DecidableEq, Repr, Inhabited

/-- A dependence (R210). -/
inductive Dependence where
  | none
  | after (seq : Nat)
  | word (va : Nat) (value : Word)
  deriving DecidableEq, Repr, Inhabited

/-- A launch (R319 to R321). -/
structure Launch where
  /-- Its queue. [0 to 63 | R321 | at acceptance] -/
  queue : Nat
  /-- Its context. [8 bits | R401 | at acceptance] -/
  ctx : Nat
  /-- Its record. [256 bytes | R43 | at acceptance] -/
  record : LaunchRecord
  /-- Its state. [variant | R321 | at acceptance] -/
  state : LaunchState
  /-- Completion-word address; 0 for none. [64 bits | R401 | at acceptance] -/
  cw : Word
  /-- Signal the MSI-X vector. [1 bit | R401 | at acceptance] -/
  irq : Bool
  /-- Its dependence. [64 bits | R210 | at acceptance] -/
  dep : Dependence
  /-- The front end's watch on the word of its dependence, while it waits at the head. [record | R322 | none] -/
  watch : Option Watch := none
  /-- Arguments to be delivered. [256 bits | R403 | at acceptance] -/
  args : Option (BitVec 256)
  /-- Clusters already sent. [count | R323 | 0] -/
  sent : Nat := 0
  /-- Clusters that have exited. [count | R55 | 0] -/
  exited : Nat := 0
  /-- Clusters never placed. [count | R67 | 0] -/
  unplaced : Nat := 0
  /-- No further cluster is placed. [1 bit | R67, R356, R380 | 0] -/
  closed : Bool := false
  /-- Fatal traps. [count | R378 | 0] -/
  traps : Nat := 0
  /-- First fatal report: cause word, team id, slot address. [record | R378, R406 | none] -/
  report : Option (BitVec 32 × BitVec 32 × Word) := none
  /-- A NONREPRO outcome. [1 bit | R356 | 0] -/
  nonrepro : Bool := false
  /-- Aborted under ABORTONTRAP. [1 bit | R380 | 0] -/
  aborted : Bool := false
  /-- Failed the placement test. [1 bit | R67 | 0] -/
  unplaceable : Bool := false
  /-- Its context was lost. [1 bit | R394, R407 | 0] -/
  contextLost : Bool := false
  /-- A die reset ended work of it. [1 bit | R437 | 0] -/
  dieReset : Bool := false
  deriving DecidableEq, Repr, Inhabited

/-- One of the 64 queues (R321) with its registers (R406). -/
structure Queue where
  /-- Q_STAT.EN and CTX: the binding. [1 + 8 bits | R406, R435 | 0] -/
  ctx : Option Nat := none
  /-- Q_BIND.CTX as last written. [8 bits | R424, R435 | 0] -/
  bindCtx : BitVec 8 := 0
  /-- Launches in the queue, oldest first, those that run or resolve among them; their number is Q_STAT.DEPTH. [up to 256 | R321, R406 | none] -/
  fifo : List Nat := []
  /-- Q_STAT.DROP. [16 bits | R406 | 0] -/
  drop : BitVec 16 := 0
  /-- FR_CAUSE. [64 bits | R406 | DESIGN CHOICE 0 (log 4)] -/
  frCause : Word := 0
  /-- FR_SLOT. [64 bits | R406 | DESIGN CHOICE 0 (log 4)] -/
  frSlot : Word := 0
  /-- FR_SEQ. [64 bits | R406 | DESIGN CHOICE 0 (log 4)] -/
  frSeq : Word := 0
  deriving DecidableEq, Repr, Inhabited

/-! ## Translation, cores, pounds and dies -/

/-- A translation held in a TLB (R145). -/
structure TlbEntry where
  /-- Context. [8 bits | R145 | when kept] -/
  ctx : Nat
  /-- First virtual address of the page. [57 bits | R145 | when kept] -/
  va : Nat
  /-- Page size in bytes. [65,536 or 2,097,152 | R142 | when kept] -/
  size : Nat
  /-- Physical address of the page. [52 bits | R142 | when kept] -/
  pa : Nat
  /-- HOME. [3 bits | R142 | when kept] -/
  home : Nat
  /-- D as held. [1 bit | R144 | when kept] -/
  dirty : Bool
  /-- SEALED. [1 bit | R136 | when kept] -/
  sealed : Bool
  /-- CONF. [1 bit | R142 | when kept] -/
  conf : Bool
  /-- X, W and R. [3 bits | R142 | when kept] -/
  exec : Bool
  write : Bool
  read : Bool
  /-- KIND: 0 SO, 1 RC, 2 UO, 3 AP. [2 bits | R142 | when kept] -/
  kind : BitVec 2
  deriving DecidableEq, Repr, Inhabited

/-- A core of a compute die or of the hub. -/
structure Core where
  /-- Core purse. [0 to 4,096 tokens | R332 | DESIGN CHOICE 0 (log 4)] -/
  purse : Nat := 0
  /-- Engine purse. [0 to 4,096 tokens | R332 | DESIGN CHOICE 0 (log 4)] -/
  enginePurse : Nat := 0
  /-- Open claim of the core purse: amount still to serve. [tokens | R334 | none] -/
  claim : Option Nat := none
  /-- Open claim of the engine purse. [tokens | R334 | none] -/
  engineClaim : Option Nat := none
  /-- First-level TLB. [256 entries | R145 | DESIGN CHOICE empty (log 4)] -/
  tlb : List TlbEntry := []
  /-- Instruction cache: physical line address to line. [512 bits each | R126 | DESIGN CHOICE empty (log 4)] -/
  icache : Tab (BitVec 512) := []
  /-- Untracked copies of memory homed elsewhere, by 64-byte half: a line of device memory is held whole, of a host line
  one half may be. [64 bytes each | R114, R117 | DESIGN CHOICE empty (log 4)] -/
  copies : Tab (List Byte) := []
  /-- %cycles. [64 bits | R396 | DESIGN CHOICE 0 (log 4)] -/
  cycles : Nat := 0
  /-- The team that owns the matrix array. [key | R297 | none] -/
  owner : Option Nat := none
  /-- The matrix array. [record | R297 | cleared] -/
  array : MatrixArray := {}
  /-- The unit Mace is testing. [0 to 12 | R360 | none] -/
  mace : Option Nat := none
  /-- Ways of its core store that the last gating of its pound has gated. [0 to 8,192 | R129 | 0] -/
  gated : Nat := 0
  /-- Segments done in the current Mace pass. [0 to 19 | R360 | 0] -/
  maceSegments : Nat := 0
  /-- %clock at the end of the last full Mace pass. [ns | R360 | 0] -/
  maceLast : Nat := 0
  deriving DecidableEq, Repr, Inhabited

/-- The pound power states, in the order of PD_STAT.STATE (R420). -/
inductive PoundState where
  | run | drain | quiet | save | clkoff | railoff | off | railon | clkon | restore
  deriving DecidableEq, Repr, Inhabited

/-- A pound with its registers (R419, R420). -/
structure Pound where
  /-- PD_CTL.AUTOIDLE. [16 bits | R420 | 100] -/
  autoidle : BitVec 16 := 100
  /-- PD_CTL.AUTOTGT. [2 bits | R420 | 1] -/
  autotgt : BitVec 2 := 1
  /-- PD_CTL.TARGET. [2 bits | R420 | 0] -/
  target : BitVec 2 := 0
  /-- PD_STAT.DROOP. [1 bit | R420 | 0] -/
  droop : Bool := false
  /-- PD_STAT.LOCK. [1 bit | R420 | 0] -/
  lock : Bool := false
  /-- PD_STAT.STATE. [4 bits | R420 | 0 RUN] -/
  state : PoundState := .run
  /-- PD_RET.CRC. [32 bits | R420 | 0] -/
  retCrc : BitVec 32 := 0
  /-- PD_RET.RV. [1 bit | R420 | 0] -/
  retValid : Bool := false
  /-- PD_RET.KEEPIC. [1 bit | R420 | 0] -/
  keepic : Bool := false
  /-- PD_ACK.SEQ. [16 bits | R420 | 0] -/
  ackSeq : BitVec 16 := 0
  /-- PD_ACK.STATE. [4 bits | R420 | 0] -/
  ackState : BitVec 4 := 0
  /-- PD_ACK.CODE. [8 bits | R420 | 0] -/
  ackCode : BitVec 8 := 0
  /-- DRP_CTL.HOLD. [8 bits | R419 | 2] -/
  hold : BitVec 8 := 2
  /-- DRP_CTL.THRESH. [5 bits | R419 | 4] -/
  thresh : BitVec 5 := 4
  /-- DRP_CNT. [32 bits | R419 | 0] -/
  droops : BitVec 32 := 0
  /-- %clock since which the detector has stayed clear. [ns | R335 | 0] -/
  droopSince : Nat := 0
  /-- A wake is in progress or waits for the state to complete. [1 bit | R421, R422 | 0] -/
  waking : Bool := false
  /-- %clock since which the pound has held no team and no queued block. [ns | R421 | 0] -/
  idleSince : Nat := 0
  /-- Team control blocks queued at the pound: clusters in order. [list of keys | R61 | none] -/
  blocks : List Nat := []
  /-- TAE walk-ahead TLB. [4,096 entries | R145 | DESIGN CHOICE empty (log 4)] -/
  taeTlb : List TlbEntry := []
  deriving DecidableEq, Repr, Inhabited

/-- A line of a remote-write buffer (R115). -/
structure RwLine where
  /-- Physical line number. [45 bits | R115 | at the first store] -/
  line : Nat
  /-- Written bytes by offset within the line. [bytes | R115 | at the first store] -/
  bytes : Tab Byte
  /-- %clock of the first store. [ns | R115 | at the first store] -/
  since : Nat
  /-- Groups that stored to it, each with the virtual address of the first of its bytes. [addresses by key | R386 | at the first store] -/
  groups : Tab Nat
  deriving DecidableEq, Repr, Inhabited

/-- SL_INJECT (R361). -/
structure Inject where
  /-- ARM. [1 bit | R361 | 0] -/
  arm : Bool := false
  /-- RUNS. [2 bits | R361 | 0] -/
  runs : BitVec 2 := 0
  /-- PIPE. [2 bits | R361 | 0] -/
  pipe : BitVec 2 := 0
  /-- SITE. [8 bits | R361 | 0] -/
  site : BitVec 8 := 0
  /-- LANE. [6 bits | R361 | 0] -/
  lane : BitVec 6 := 0
  /-- BIT. [5 bits | R361 | 0] -/
  bit : BitVec 5 := 0
  /-- COUNT. [32 bits | R361 | 0] -/
  count : BitVec 32 := 0
  deriving DecidableEq, Repr, Inhabited

/-- The health items of one site (R367). -/
structure SiteHealth where
  /-- RCNT of sub-arrays 0 to 3. [8 bits | R367 | 0] -/
  retries : BitVec 8 := 0
  /-- MACEFAIL. [13 bits | R367 | 0] -/
  maceFail : BitVec 13 := 0
  /-- MACERUN. [1 bit | R367 | 0] -/
  maceRun : Bool := false
  /-- DEM, the demerit count in the fence store. [4 bits | R357 | 0] -/
  demerits : BitVec 4 := 0
  /-- Suspect bits of sub-arrays 0 to 3. [4 bits | R366 | 0] -/
  subSuspect : BitVec 4 := 0
  deriving DecidableEq, Repr, Inhabited

/-- A compute die (R10). -/
structure Die where
  /-- Disabled sites, %harvestd and ORG_HVMASK. [144 bits | R16, R19 | DESIGN CHOICE sites 128 to 143 (log 2)] -/
  disabled : BitVec 144
  /-- Defective sites, ORG_DEFECT. [144 bits | R16, R28 | DESIGN CHOICE none (log 2)] -/
  defective : BitVec 144 := 0
  /-- Fenced-site mask, %harvest4 and ORG_FENCE. [144 bits | R17 | from the fence store, DESIGN CHOICE 0 (log 2)] -/
  fenced : BitVec 144 := 0
  /-- Fence-pending sites. [144 bits | R17 | 0] -/
  fencePending : BitVec 144 := 0
  /-- Fences whose clearing has been accepted. [144 bits | R359, R415 | 0] -/
  clearPending : BitVec 144 := 0
  /-- Fence generation. [16 bits | R18 | from the fence store, DESIGN CHOICE 0 (log 2)] -/
  fenceGen : BitVec 16 := 0
  /-- Logical-to-physical table, %lpt and ORG_LPT. [128 of 8 bits | R21, R22 | built as R22] -/
  lpt : List (BitVec 8)
  /-- Vault positions: bound granule and owning context. [512 entries of 16 bits | R27, R433 | none bound] -/
  vault : Tab (BitVec 16 × Nat) := []
  /-- Site health and demerits by site. [144 records | R357, R367 | 0] -/
  sites : Tab SiteHealth := []
  /-- SL_CTL.THRESH. [4 bits | R361 | 3] -/
  thresh : BitVec 4 := 3
  /-- SL_CTL.INJEN. [1 bit | R361 | 0] -/
  injen : Bool := false
  /-- SL_INJECT. [64 bits | R361 | 0] -/
  inject : Inject := {}
  /-- Checks opened since cold reset. [30 bits | R346 | 0] -/
  checkCount : BitVec 30 := 0
  /-- Mint of the current control interval. [tokens | R330 | DESIGN CHOICE 50,000,000 (log 4)] -/
  mint : Nat := 50000000
  /-- Part of the mint not yet injected. [tokens | R331 | 0] -/
  mintLeft : Nat := 0
  /-- Energy measured over the previous interval beside the tokens, S. [pJ | R330 | DESIGN CHOICE 0 (log 4)] -/
  measured : Nat := 0
  /-- Number of the control interval whose mint was last begun. [us | R330 | 0] -/
  interval : Nat := 0
  /-- Tokens on the ring before each of the 16 stations. [16 counts | R331 | 0] -/
  ring : List Nat := []
  /-- Remote-write buffer, oldest first. [64 lines | R115 | empty] -/
  rwb : List RwLine := []
  /-- MTU TLB. [196,608 entries | R145 | DESIGN CHOICE empty (log 4)] -/
  tlb : List TlbEntry := []
  /-- Error record: poisoned 4 KiB regions. [set of region addresses | R119 | none] -/
  poisoned : List Nat := []
  /-- First-touch pools of 64 KiB frames, by context. [lists of frames | R382, R434 | empty] -/
  pool64 : Tab (List Nat) := []
  /-- First-touch pools of 2 MiB frames, by context. [lists of frames | R382, R434 | empty] -/
  pool2m : Tab (List Nat) := []
  /-- Counters of the health record: resolved, MATCHED, VOTED, NONREPRO, PERTURBED, UNCHECKED, detected-only, residue retries. [8 of 64 bits | R366 | 0] -/
  counters : List Nat := [0, 0, 0, 0, 0, 0, 0, 0]
  /-- Slice suspect bits. [144 bits | R366 | 0] -/
  sliceSuspect : BitVec 144 := 0
  /-- Pseudo-channel suspect bits of the die's two stacks. [128 bits | R366 | 0] -/
  channelSuspect : BitVec 128 := 0
  /-- DR_STAT step of the die. [0 to 6 | R436 | 0] -/
  resetStep : Nat := 0
  /-- DR_STAT error replies. [32 bits | R436 | 0] -/
  resetErrors : BitVec 32 := 0
  deriving DecidableEq, Repr, Inhabited

/-! ## Memory beside the bytes -/

/-- Who holds the 256 tokens of a line (R112). -/
structure LineTokens where
  /-- Tokens by core; the rest are at the home slice. [counts | R112 | all at home] -/
  held : Tab Nat := []
  /-- The core that holds the owner token. [core | R112 | none] -/
  owner : Option Nat := none
  /-- The line's last value written back, while the owner's copy is dirty. [128 bytes | R119 | none] -/
  clean : Option (List Byte) := none
  /-- Persistent requests in order of arrival: core and whether for writing. [list | R113 | none] -/
  persistent : List (Nat × Bool) := []
  /-- Failed tries of a core's token request. [counts | R113 | none] -/
  tries : Tab Nat := []
  /-- A recall is outstanding since this time. [ns | R119 | none] -/
  recalled : Option Nat := none
  deriving DecidableEq, Repr, Inhabited

/-- A reservation of an AP page (R131). -/
structure Reservation where
  /-- Offset and length. [bytes | R131 | at APND] -/
  offset : Nat
  len : Nat
  /-- Every byte is written. [1 bit | R131 | 0] -/
  written : Bool
  /-- The check whose version holds the bytes. [key | R131 | none] -/
  check : Option Nat
  /-- The check of the team that appends: its own bytes do not perturb it. [key | R353 | at APND] -/
  owner : Option Nat := none
  deriving DecidableEq, Repr, Inhabited

/-- An append descriptor (R130). -/
structure AppendDesc where
  /-- Page size. [bytes | R270 | at creation] -/
  size : Nat
  /-- Reserved tail. [bytes | R130 | 0] -/
  reserved : Nat := 0
  /-- Published tail. [bytes | R130 | 0] -/
  published : Nat := 0
  /-- SEAL has arrived. [1 bit | R135 | 0] -/
  arrived : Bool := false
  /-- Sealed flag. [1 bit | R130 | 0] -/
  sealed : Bool := false
  /-- Final length. [bytes | R130 | 0] -/
  final : Nat := 0
  /-- Reservations not yet complete, in order. [list | R131 | none] -/
  open_ : List Reservation := []
  /-- Mappings of the page that walks have met: context and virtual address. [list | R130, R138 | none] -/
  maps : List (Nat × Nat) := []
  deriving DecidableEq, Repr, Inhabited

/-- CXL.cache states (R117). -/
inductive CxlState where
  | invalid | shared | exclusive | modified
  deriving DecidableEq, Repr, Inhabited

/-- A back-invalidate snoop towards the host (R118, R119). -/
structure Snoop where
  /-- The half of device memory. [64-byte half number | R118 | when sent] -/
  half : Nat
  /-- When the snoop was sent. [ns | R119 | when sent] -/
  since : Nat
  /-- Device writes that wait for the answer, by physical address. [bytes | R118 | when written] -/
  writes : Tab Byte
  /-- The snoop has been sent; at most 4,096 sent ones are outstanding, and another waits. [1 bit | R398 | when written] -/
  asked : Bool := true
  deriving DecidableEq, Repr, Inhabited

/-- An Invalidate Completion that waits until every die has purged the sealed frames that the host has unmapped (R138,
R147). -/
structure PendingCompletion where
  /-- PASID of the request. [20 bits | R399 | from the request] -/
  pasid : Option Nat
  /-- The frames under purge, with their sizes. [list | R138 | at the invalidation] -/
  frames : List (Nat × Nat)
  deriving DecidableEq, Repr, Inhabited

/-- A write of the front end that is parked until the host serves its page (R143, R383): a completion word, or a part of the
engine-queue area. -/
structure OwedWrite where
  /-- Context of the write. [8 bits | R143 | at the walk] -/
  ctx : Nat
  /-- Virtual address. [57 bits | R143 | at the walk] -/
  va : Nat
  /-- The bytes. [list | R143 | at the walk] -/
  bytes : List Byte
  /-- The MSI-X vector that follows the write. [none or 6 bits | R405 | at the walk] -/
  irq : Option Nat
  /-- The entry of the request on which the write is parked; none while no request could be sent. [52 bits | R383, R399 | at the walk] -/
  request : Option Nat
  deriving DecidableEq, Repr, Inhabited

/-- A page request outstanding (R383). -/
structure PageRequest where
  /-- Context. [8 bits | R383 | when sent] -/
  ctx : Nat
  /-- Physical address of the entry with V = 0. [52 bits | R383 | when sent] -/
  entry : Nat
  /-- Number of the 4 KiB page named. [45 bits | R383 | when sent] -/
  page : Nat
  deriving DecidableEq, Repr, Inhabited

/-! ## Contexts -/

/-- Where a partition stands (R389 to R394, R431). -/
inductive PartState where
  | switchedIn | halting | saving | switchedOut | restoring
  deriving DecidableEq, Repr, Inhabited

/-- A partition (R431, R432). -/
structure Partition where
  /-- DIES. [4 bits | R432 | from the descriptor] -/
  dies : BitVec 4
  /-- FLAGS: DEBUG, WATCH, SLX, NOHANDLER. [4 bits | R432 | from the descriptor] -/
  debug : Bool
  watch : Bool
  slx : Bool
  /-- PASID. [20 bits | R432 | from the descriptor] -/
  pasid : Nat
  /-- HENTRY; none under NOHANDLER. [64 bits | R373, R432 | from the descriptor] -/
  hentry : Option Nat
  /-- EQBASE and EQSIZE. [64 bits each | R432 | from the descriptor] -/
  eqBase : Nat
  eqSize : Nat
  /-- SWAPBASE and SWAPSIZE. [64 bits each | R388, R432 | from the descriptor] -/
  swapBase : Nat
  swapSize : Nat
  /-- SPILLBASE and SPILLSIZE. [64 bits each | R124, R432 | from the descriptor] -/
  spillBase : Nat
  spillSize : Nat
  /-- WDOG in us. [32 bits | R393, R432 | from the descriptor] -/
  wdog : Nat
  /-- CORES by die. [4 of 8 bits | R432 | from the descriptor] -/
  cores : List Nat
  /-- PORTS. [9 bits | R432 | from the descriptor] -/
  ports : BitVec 9
  /-- Peer-window table. [16 of 64 bits | R433 | from memory] -/
  window : List (BitVec 64)
  /-- Selection key. [128 bits | R341 | drawn at creation] -/
  key : BitVec 128
  /-- Where it stands. [variant | R431 | switched in] -/
  state : PartState := .switchedIn
  /-- Energy counted for the control intervals before the current one, in units of 16 fJ. [count | R336 | 0] -/
  energyAcc : Nat := 0
  /-- Tokens drawn in the control interval of the last draw. [count | R336 | 0] -/
  energyTokens : Nat := 0
  /-- F of that interval, in thousandths. [count | R330, R336 | 0] -/
  energyFactor : Nat := 0
  /-- The number of that interval. [us | R336 | 0] -/
  energyInterval : Nat := 0
  /-- %energy. [64 bits | R336 | 0] -/
  energy : Nat := 0
  /-- Number of the millisecond boundary of %clock at which %energy last changed. [count | R336 | 0] -/
  energyAt : Nat := 0
  /-- Running time counted by the hang watchdog. [ns | R393 | 0] -/
  watchdog : Nat := 0
  /-- %clock at the halt of the last core. [ns | R393 | none] -/
  haltedAt : Option Nat := none
  /-- Units of the version spill area taken. [count | R350 | 0] -/
  spillUnits : Nat := 0
  deriving DecidableEq, Repr, Inhabited

/-! ## Checked execution -/

/-- States of a check (R347). -/
inductive CheckState where
  | open_ | queued | replay | vote | done
  deriving DecidableEq, Repr, Inhabited

/-- One entry of a run's log (R350). -/
structure LogEntry where
  gid : Nat
  op : BitVec 10
  lanes : BitVec 64
  operands : List Word
  values : List Word
  /-- The fault of a reply that the operation met instead of values: its cause code and address. [8 + 64 bits | R264, R350 | none] -/
  fault : Option (Nat × Nat) := none
  deriving DecidableEq, Repr, Inhabited

/-- An operation with its operands whose effect leaves a run before its check is resolved and that a later run suppresses (R296,
R368). -/
structure Effect where
  gid : Nat
  op : Nat
  operands : List Word
  deriving DecidableEq, Repr, Inhabited

/-- One run of a check (R345). -/
structure Run where
  /-- The core of the run. [core | R345 | at placement] -/
  core : Nat
  /-- The team while it runs. [key | R345 | at placement] -/
  team : Option Nat
  /-- It has exited. [1 bit | R347 | 0] -/
  exited : Bool := false
  /-- Store signature at exit. [64 bits | R348 | 0] -/
  storeSig : Word := 0
  /-- Register signature at exit. [64 bits | R349 | 0] -/
  regSig : Word := 0
  /-- Held bytes by physical address. [bytes | R124, R351 | none] -/
  held : Tab Byte := []
  /-- Appended bytes held: frame, offset, bytes. [list | R131 | none] -/
  appends : List (Nat × Nat × List Byte) := []
  /-- Deferred SEALs by frame. [list | R351 | none] -/
  seals : List Nat := []
  /-- STATUS words of CPYX written on commit. [list of address and value | R296 | none] -/
  statuses : List (Nat × Word) := []
  /-- Lines of its version, appended ones among them, that lie in the ways of their slices. [set | R124 | none] -/
  ways : List Nat := []
  /-- Lines of its version that an engine's write has marked poisoned. [set | R120, R343 | none] -/
  poisons : List Nat := []
  /-- An operand comparison with the log differed. [1 bit | R368 | 0] -/
  differed : Bool := false
  /-- Its operations that later runs suppress, with their operands. [list | R296, R368 | none] -/
  effects : List Effect := []
  deriving DecidableEq, Repr, Inhabited

/-- What a CPYX wrote: virtual and physical addresses with bytes, and its STATUS word with both its addresses. -/
structure CopyLog where
  bytes : List (Nat × Nat × List Byte)
  status : List (Nat × Nat × Word)
  deriving DecidableEq, Repr, Inhabited

/-- A check (R345 to R355). -/
structure Check where
  /-- The die whose Sluice holds it. [0 to 3 | R346 | at opening] -/
  die : Nat
  /-- Check id. [32 bits | R346 | at opening] -/
  id : BitVec 32
  /-- Launch. [sequence number | R345 | at opening] -/
  launch : Nat
  /-- %teamid, %clusterid, member and members of the original. [identity | R39 | at opening] -/
  teamId : Nat
  clusterId : Nat
  member : Nat
  members : Nat
  /-- Context. [8 bits | R39 | at opening] -/
  ctx : Nat
  /-- State. [variant | R347 | OPEN] -/
  state : CheckState := .open_
  /-- Runs: original, replica, third run. [up to 3 | R345 | the original] -/
  runs : List Run
  /-- The original's log, oldest first. [list | R350 | none] -/
  log : List LogEntry := []
  /-- What each CPYX of the original wrote, by the operation's number. [list | R296 | none] -/
  copies : Tab CopyLog := []
  /-- Read-set filter: set bit numbers. [4,096 bits | R352 | 0] -/
  filter : BitVec 4096 := 0
  /-- Input-perturbed. [1 bit | R353 | 0] -/
  perturbed : Bool := false
  /-- Bytes have been committed before the check resolved. [1 bit | R342, R355 | 0] -/
  exposed : Bool := false
  /-- Bytes of the original's version that have been committed early, by physical address. [set | R355 | none] -/
  early : Tab Bool := []
  /-- %clock at the original's exit. [ns | R342 | none] -/
  exitedAt : Option Nat := none
  /-- Spill-area units taken. [count | R350 | 0] -/
  units : Nat := 0
  /-- The check of the other team of the physical pair. [key | R317, R341 | none] -/
  pair : Option Nat := none
  /-- An injection touched a run. [1 bit | R362 | 0] -/
  injected : Bool := false
  /-- HOLDMAX has run out and the original's version has been committed. [1 bit | R342 | 0] -/
  timedOut : Bool := false
  deriving DecidableEq, Repr, Inhabited

/-- An event entry of the health record (R368). -/
structure HealthEvent where
  /-- SEQ. [64 bits | R368 | at the event] -/
  seq : Nat
  /-- KIND, Die, Site, FLAGS, Unit, demerit count. [8 bits each | R368 | at the event] -/
  kind : BitVec 8
  die : BitVec 8
  site : BitVec 8
  flags : BitVec 8
  unit : BitVec 8
  demerits : BitVec 8
  /-- Offset 0x10. [64 bits | R368 | at the event] -/
  launch : Word
  /-- Check id. [32 bits | R368 | at the event] -/
  check : BitVec 32
  /-- %teamid. [32 bits | R368 | at the event] -/
  team : BitVec 32
  deriving DecidableEq, Repr, Inhabited

/-- A signed snapshot of the health record (R369). -/
structure Snapshot where
  lastSeq : Nat
  bytes : List Byte
  deriving DecidableEq, Repr, Inhabited

/-! ## Links and hub -/

/-- TDISP states (R407). -/
inductive TdispState where
  | unlocked | locked | run | error
  deriving DecidableEq, Repr, Inhabited

/-- A key slot (R409). -/
structure KeySlot where
  /-- AES key. [256 bits | R409 | at KEY_LOAD] -/
  key : BitVec 256
  /-- Salt. [32 bits | R409 | at KEY_LOAD] -/
  salt : BitVec 32
  /-- Owning context. [8 bits | R409 | at KEY_LOAD] -/
  ctx : Nat
  /-- High-water mark. [64 bits | R409 | at KEY_LOAD] -/
  hwm : BitVec 64
  deriving DecidableEq, Repr, Inhabited

/-- A selective IDE stream (R397, R408): programmed, and in the error state. -/
structure IdeStream where
  programmed : Bool := false
  err : Bool := false
  deriving DecidableEq, Repr, Inhabited

/-- Where an SPDM session stands (R415). -/
inductive SpdmSession where
  | closed | exchanged | established
  deriving DecidableEq, Repr, Inhabited

/-- The algorithms of the SPDM responder (R415). -/
inductive SpdmAlgorithm where
  | ecdsaP384 | sha384 | secp384r1 | aes256Gcm
  deriving DecidableEq, Repr, Inhabited

/-- What the responder answers to a standard request (R415): the versions, algorithms, certificate slots and measurements
that the answer reports. -/
structure SpdmAnswer where
  request : SpdmRequest
  versions : List Nat := []
  algorithms : List SpdmAlgorithm := []
  slots : List Nat := []
  measurements : List (BitVec 384) := []
  deriving DecidableEq, Repr, Inhabited

/-- What the module sends outside. -/
inductive Msg where
  | msix (vector : Nat)
  | pageRequest (pasid page : Nat)
  | invalidateCompletion (pasid : Option Nat)
  | backInvalidate (half : Nat)
  | snoopAnswer (half : Nat) (data : Option (List Byte))
  | hostData (bytes : List Byte) (poison : Bool)
  | spdm (answer : SpdmAnswer)
  | health (lastSeq : Nat) (bytes : List Byte)
  | peerData (port offset : Nat) (bytes : List Byte) (poison : Bool)
  | peerFlag (port offset : Nat) (value : Word)
  deriving DecidableEq, Repr, Inhabited

/-- A registered-kernel entry (R318): its record and the context it is bound to. -/
structure Registered where
  record : LaunchRecord
  ctx : Nat
  deriving DecidableEq, Repr, Inhabited

/-- The boot stages of the ROM (R428, R429). -/
inductive BootState where
  | running | recovery
  deriving DecidableEq, Repr, Inhabited

/-- The hub die: front end, links, security processor and management registers. -/
structure Hub where
  /-- Queues 0 to 63. [64 records | R321 | empty, unbound] -/
  queues : Tab Queue := []
  /-- Registered-kernel entries 0 to 63. [64 records | R318 | empty] -/
  entries : Tab Registered := []
  /-- Next sequence number. [57 bits | R319 | 1] -/
  nextSeq : Nat := 1
  /-- RAIL_STAT vector point in force. [2 bits | R418 | 0] -/
  railVec : BitVec 2 := 0
  /-- RAIL_STAT matrix point in force. [2 bits | R418 | 0] -/
  railMat : BitVec 2 := 0
  /-- RAIL_CTL vector and matrix points. [2 + 2 bits | R418 | 0] -/
  railCtlVec : BitVec 2 := 0
  railCtlMat : BitVec 2 := 0
  /-- RAIL_STAT.BUSY. [1 bit | R418 | 0] -/
  railBusy : Bool := false
  /-- The vector voltage, the matrix voltage still have to change. [1 bit each | R418 | 0] -/
  railVecPending : Bool := false
  railMatPending : Bool := false
  /-- The points before the change, for the factors of R330. [2 + 2 bits | R418 | 0] -/
  railOldVec : BitVec 2 := 0
  railOldMat : BitVec 2 := 0
  /-- Number of the control interval in which the last change ended. [us | R418 | none] -/
  railEnd : Option Nat := none
  /-- The fastest points of the changes that ended in that interval, old and new. [2 + 2 bits | R418 | 0] -/
  railPastVec : BitVec 2 := 0
  railPastMat : BitVec 2 := 0
  /-- HUB_HENTRY. [64 bits | R424 | DESIGN CHOICE 0 (log 4)] -/
  hentry : Word := 0
  /-- HC_CTX of hub cores 0 to 3. [8 bits each | R424, R426 | 0] -/
  hcCtx : Tab (BitVec 8) := []
  /-- IRQ_STAT. [7 bits | R424, R425 | DESIGN CHOICE 0 (log 4)] -/
  irqStat : BitVec 7 := 0
  /-- IRQ_EN. [7 bits | R424 | 0] -/
  irqEn : BitVec 7 := 0
  /-- IRQ_TGT. [6 bits | R424 | 0] -/
  irqTgt : BitVec 6 := 0
  /-- PT_ARG. [64 bits | R424 | DESIGN CHOICE 0 (log 4)] -/
  ptArg : Word := 0
  /-- PT_STAT.BUSY. [1 bit | R431 | DESIGN CHOICE 0 (log 4)] -/
  ptBusy : Bool := false
  /-- PT_STAT.CTX. [8 bits | R431 | DESIGN CHOICE 0 (log 4)] -/
  ptCtx : BitVec 8 := 0
  /-- PT_STAT.RESULT. [8 bits | R431 | DESIGN CHOICE 0 (log 4)] -/
  ptResult : BitVec 8 := 0
  /-- Groups stopped by DBRK, oldest first; DBG_STOP and DBG_SLOT report the first. [list of group and slot | R424, R427 | none] -/
  stopped : List (Nat × Nat) := []
  /-- FW_UPD_ADDR. [64 bits | R424, R430 | DESIGN CHOICE 0 (log 4)] -/
  fwAddr : Word := 0
  /-- FW_UPD_LEN. [64 bits | R424, R430 | DESIGN CHOICE 0 (log 4)] -/
  fwLen : Word := 0
  /-- FW_UPD_CMD status. [2 bits | R430 | DESIGN CHOICE 0 (log 4)] -/
  fwStat : BitVec 2 := 0
  /-- The firmware image in flash. [image | R429 | DESIGN CHOICE version 0, entry 0x100 (log 3)] -/
  flash : Option FirmwareImage := none
  /-- The image staged in the update region. [image | R430 | none] -/
  staged : Option FirmwareImage := none
  /-- Version of the running image. [64 bits | R439 | DESIGN CHOICE 0 (log 3)] -/
  fwVersion : Word := 0
  /-- The ROM runs the firmware, or waits in the recovery layout. [variant | R429 | running] -/
  boot : BootState := .running
  /-- RCV_STAT. [64 bits | R429 | 0] -/
  rcvStat : Word := 0
  /-- The image in the recovery buffer that the ROM verifies. [image | R429 | none] -/
  rcvImage : Option FirmwareImage := none
  /-- The recovery image buffer of 32 MiB, by offset; unlisted bytes read zero. [bytes | R429 | DESIGN CHOICE zeros (log 81)] -/
  rcvBuffer : Tab Byte := []
  /-- Module serial number. [64 bits | R439 | DESIGN CHOICE 0 (log 2)] -/
  serial : Word := 0
  /-- TDISP state. [variant | R407 | DESIGN CHOICE CONFIG_UNLOCKED (log 4)] -/
  tdisp : TdispState := .unlocked
  /-- IDE streams 0 to 3. [4 records | R397, R408 | not programmed] -/
  ide : Tab IdeStream := []
  /-- The SPDM session. [variant | R409, R415 | closed] -/
  session : SpdmSession := .closed
  /-- Copies of peers of which bytes have come and the flag word has not, by port and copy. [list | R414 | none] -/
  peerArriving : List (Nat × Nat) := []
  /-- Copies of peers that have failed here, by port and copy. [list | R414 | none] -/
  peerFailed : List (Nat × Nat) := []
  /-- Flag words of peers' copies that wait until the host has answered for the data: context, address, bytes. [list | R118, R414 | none] -/
  heldFlags : List (Nat × Nat × List Byte) := []
  /-- MSI-X vectors that wait until the host has answered for the completion word. [list | R118, R405 | none] -/
  owedIrqs : List Nat := []
  /-- Writes of the front end that are parked until the host serves their pages. [list | R143, R383 | none] -/
  owedWrites : List OwedWrite := []
  /-- Key slots 0 to 31. [32 records | R409 | empty] -/
  keys : Tab KeySlot := []
  /-- Quagil ports 0 to 8. [9 states | R413 | DESIGN CHOICE DOWN (log 4)] -/
  ports : Tab PortState := []
  /-- Event sequence number of the newest event, in the fence store. [64 bits | R368 | DESIGN CHOICE 0 (log 2)] -/
  lastSeq : Nat := 0
  /-- The newest events, oldest first. [29 entries | R366, R368 | none] -/
  events : List HealthEvent := []
  /-- Powered seconds counted for decay before %clock read zero. [64 bits | R366 | DESIGN CHOICE 0 (log 2)] -/
  powered : Nat := 0
  /-- Decays of the demerit counts so far. [count | R358 | DESIGN CHOICE 0 (log 2)] -/
  decays : Nat := 0
  /-- Signed snapshots, newest first. [2 of 4 KiB | R369, R416 | none] -/
  snapshots : List Snapshot := []
  /-- The snapshot latched into BAR0. [4 KiB | R400, R416 | DESIGN CHOICE none (log 4)] -/
  latched : Option Snapshot := none
  /-- Remote-write buffer of the hub die, oldest first. [64 lines | R115, R100 | empty] -/
  rwb : List RwLine := []
  deriving DecidableEq, Repr, Inhabited

end Sys2Proof.Machine
end

