-- ==== Sys2Proof/Machine/State.lean ====
section
/-!
DEFINITION. The state of the machine, the reasons a step can stop, and the state after reset.

`State` is plain data. It holds what the spec gives the module, and the model's own fields (`freeIx`, `nextKey`,
`agenda`, `cur`, `sent`), which are marked as such.
-/

namespace Sys2Proof.Machine

open Sys2Proof

/-- Why a step stops with a fault. -/
inductive Fault where
  /-- Raised by `exec` of an instruction when the state names no running group to issue it. Safe: nothing is
  claimed of such a state. -/
  | noGroup
  deriving DecidableEq, Repr, Inhabited

/-- Why a step is refused. -/
inductive Refusal where
  /-- Raised by `exec` for an instruction whose meaning is not written yet. Safe: nothing is claimed of it. -/
  | notModelled (mnemonic : String)
  deriving DecidableEq, Repr, Inhabited

/-- The state of the module. -/
structure State where
  /-- %clock. [64 bits, ns | R31 | DESIGN CHOICE 0 (log 4)] -/
  now : Nat := 0
  /-- Index of the next free value: the MODEL's own. [counter | model's own | DESIGN CHOICE 0 (log 6)] -/
  freeIx : Nat := 0
  /-- Next fresh key for groups, teams, clusters, engine operations and checks: the MODEL's own. [counter | model's own | DESIGN CHOICE 1 (log 6)] -/
  nextKey : Nat := 1
  /-- The group whose instruction issues next: the MODEL's own. [key | model's own | DESIGN CHOICE the firmware group 0 (log 6)] -/
  cur : Nat := 0
  /-- Events from outside still to happen, first one first: the MODEL's own. [list | model's own | DESIGN CHOICE empty (log 6)] -/
  agenda : List Instr := []
  /-- What the module has sent outside, newest first: the MODEL's own. [list | model's own | DESIGN CHOICE empty (log 6)] -/
  sent : List Msg := []
  /-- Running groups by key. [table | R35 | the firmware group of hub core 0, R428] -/
  groups : Tab Group := []
  /-- Teams by key. [table | R35 | the firmware team] -/
  teams : Tab Team := []
  /-- Clusters by key. [table | R35 | none] -/
  clusters : Tab Cluster := []
  /-- Launches by sequence number. [table | R319 | none, R428] -/
  launches : Tab Launch := []
  /-- Cores: die * 144 + site, and 576 + h; an unlisted core is as `{}`. [580 records | R12, R24 | as the fields say] -/
  cores : Tab Core := []
  /-- Pounds: die * 16 + pound; an unlisted pound is as `{}`. [64 records | R12 | RUN, R428] -/
  pounds : Tab Pound := []
  /-- Compute dies 0 to 3. [4 records | R10 | as the fields say] -/
  dies : Tab Die := []
  /-- Engine operations in flight by key. [table | R294 | none] -/
  ops : Tab EngineOp := []
  /-- Checks open at the Sluices by key. [table, at most 4,096 a die | R346 | none] -/
  checks : Tab Check := []
  /-- Partitions by context number 1 to 255. [table | R431 | none, R428] -/
  parts : Tab Partition := []
  /-- %ptroot of each context, 0 included. [64 bits each | R140 | 0] -/
  ptroots : Tab Word := []
  /-- Memory by physical address: HBM, vault positions and host memory. [bytes over 52-bit addresses | R25 | DESIGN CHOICE an unlisted byte reads 0 (log 1)] -/
  mem : Tab Byte := []
  /-- Poisoned lines by line number. [set | R120 | none] -/
  poison : Tab Bool := []
  /-- Append descriptors by page address. [table | R130 | none] -/
  appends : Tab AppendDesc := []
  /-- Confidential bindings: 64 KiB frame number to context. [table | R412 | none] -/
  bound : Tab Nat := []
  /-- Tokens of lines by line number; an unlisted line has all its tokens at home. [table | R112 | all at home] -/
  tokens : Tab LineTokens := []
  /-- Halves of device memory that the host holds, by 64-byte half number. [set | R118 | none] -/
  hostHeld : Tab Bool := []
  /-- The host-line agent's CXL.cache state of halves of host memory. [2 bits each | R117 | I] -/
  agent : Tab CxlState := []
  /-- Bytes that have reached their homes for the device, and that the host sees once it has answered for the writes before them: STATUS
  words. [list | R118, R411 | none] -/
  lateWords : Tab Byte := []
  /-- Back-invalidate snoops, those that still wait to be sent among them. [at most 4,096 sent | R398 | none] -/
  snoops : List Snoop := []
  /-- Replicas of sealed lines in the slices of other dies: line number * 4 + die. [128 bytes each | R137 | none] -/
  replicas : Tab (List Byte) := []
  /-- Purges in progress: page address to the dies that have not acknowledged. [table | R138 | none] -/
  purges : Tab (List Nat) := []
  /-- Invalidate Completions that wait for purges. [list | R138, R147 | none] -/
  completions : List PendingCompletion := []
  /-- Page requests outstanding. [at most 512 | R383, R399 | none] -/
  requests : List PageRequest := []
  /-- The hub die. [record | R10 | as the fields say] -/
  hub : Hub := {}
  deriving DecidableEq, Repr

/-- The die that has every site 128 to 143 disabled (log 2), its table built as R22 says. -/
def Die.fresh : Die :=
  { disabled := 0xFFFF00000000000000000000000000000000#144
    lpt := (List.range 128).map (BitVec.ofNat 8) }

/-- The address of the first fetch line of the firmware image (log 3). -/
def firmwareEntry : Nat := 0x100

/-- The group that the boot ROM starts on hub core 0 (R428, R426). -/
def firmwareGroup : Group :=
  { core := 576, team := 0, ctx := 0, gid := 0, width := 16, vregs := 64, system := true,
    pc := firmwareEntry, gtSince := some 0 }

/-- The team of one group that stands for a hub-core group (log 5). -/
def firmwareTeam : Team :=
  { core := 576, groups := [0], regBytes := 16 * 64 * 4, groupCount := 1, residency := .resident }

/-- The image in the flash that the boot ROM accepted (log 3). -/
def firmwareImage : FirmwareImage :=
  { magic := 0x4C524D4657454147#64, version := 0, length := 0x100, entry := 0x100, restZero := true,
    digest := 0, signature := 0 }

/-- The machine at the end of cold reset (R428). -/
def State.reset : State :=
  { groups := [(0, firmwareGroup)]
    teams := [(0, firmwareTeam)]
    dies := [(0, Die.fresh), (1, Die.fresh), (2, Die.fresh), (3, Die.fresh)]
    hub := { flash := some firmwareImage } }

end Sys2Proof.Machine
end

