-- ==== Sys2Proof/Machine/Bits.lean ====
section
/-!
DEFINITION. Bit fields, byte sequences and the accessors of the state's tables, by which every other file reads and
writes groups, teams, cores, pounds, dies and the rest.
-/

namespace Sys2Proof.Machine

open Sys2Proof

/-- The outcome of a step. -/
abbrev Out := Host.Outcome State Fault Refusal

/-! ## Numbers and bytes -/

/-- Bits `lo` to `lo + n - 1` of a number. -/
def bits (x lo n : Nat) : Nat := x / 2 ^ lo % 2 ^ n

/-- One bit of a number. -/
def bit (x i : Nat) : Bool := x / 2 ^ i % 2 == 1

/-- A number as a truth value's 0 or 1. -/
def natOf (b : Bool) : Nat := if b then 1 else 0

/-- wrap(x, n) of the formats chapter: the value of x modulo 2^n. -/
def wrapInt (x : Int) (n : Nat) : Nat := (x % (2 ^ n : Int)).toNat

/-- The two's complement value of an n-bit number. -/
def signedOf (x n : Nat) : Int := if x % 2 ^ n < 2 ^ (n - 1) then (x % 2 ^ n : Nat) else (x % 2 ^ n : Nat) - (2 ^ n : Nat)

/-- Round a count of bytes or lines up. -/
def ceilDiv (x n : Nat) : Nat := (x + n - 1) / n

/-- The value of a nonempty list's position, with a default. -/
def nth {α : Type} (d : α) : List α → Nat → α
  | [], _ => d
  | x :: _, 0 => x
  | _ :: xs, n + 1 => nth d xs n

/-- Replace one position of a list. -/
def setNth {α : Type} (v : α) : List α → Nat → List α
  | [], _ => []
  | _ :: xs, 0 => v :: xs
  | x :: xs, n + 1 => x :: setNth v xs n

/-- The bytes of a 64-bit word, low byte first. -/
def wordBytes (n : Nat) (x : Word) : List Byte := leBytes n x.toNat

/-- A word from bytes, low byte first. -/
def bytesWord (bs : List Byte) : Word := BitVec.ofNat 64 (leNat bs)

/-- The lane numbers below `n` whose bits are set in a mask, ascending. -/
def lanesOf (m : BitVec 64) (n : Nat) : List Nat := (List.range n).filter (fun l => m.getLsbD l)

/-- The mask of a list of lanes. -/
def maskOf (ls : List Nat) : BitVec 64 := ls.foldl (fun m l => m ||| (1#64 <<< l)) 0

/-- The number of set bits. -/
def popCount (n : Nat) (x : Nat) : Nat := ((List.range n).filter (fun i => bit x i)).length

/-! ## Free values -/

/-- A free number, and the state in which the next free value is another one (log 6). -/
def State.freeNat (s : State) : Nat × State := (Config.freeNat s.freeIx, { s with freeIx := s.freeIx + 1 })

/-- A free truth value. -/
def State.freeBool (s : State) : Bool × State := (Config.freeBool s.freeIx, { s with freeIx := s.freeIx + 1 })

/-- A fresh key. -/
def State.fresh (s : State) : Nat × State := (s.nextKey, { s with nextKey := s.nextKey + 1 })

/-! ## Tables of the state -/

def State.group (s : State) (k : Nat) : Option Group := Tab.find s.groups k
def State.setGroup (s : State) (k : Nat) (g : Group) : State := { s with groups := Tab.insert s.groups k g }
def State.modGroup (s : State) (k : Nat) (f : Group → Group) : State := { s with groups := Tab.modify s.groups k f }

def State.team (s : State) (k : Nat) : Option Team := Tab.find s.teams k
def State.setTeam (s : State) (k : Nat) (t : Team) : State := { s with teams := Tab.insert s.teams k t }
def State.modTeam (s : State) (k : Nat) (f : Team → Team) : State := { s with teams := Tab.modify s.teams k f }

def State.cluster (s : State) (k : Nat) : Option Cluster := Tab.find s.clusters k
def State.modCluster (s : State) (k : Nat) (f : Cluster → Cluster) : State :=
  { s with clusters := Tab.modify s.clusters k f }

def State.launch (s : State) (k : Nat) : Option Launch := Tab.find s.launches k
def State.modLaunch (s : State) (k : Nat) (f : Launch → Launch) : State :=
  { s with launches := Tab.modify s.launches k f }

def State.core (s : State) (k : Nat) : Core := Tab.read {} s.cores k
def State.modCore (s : State) (k : Nat) (f : Core → Core) : State :=
  { s with cores := Tab.write {} s.cores k (f (s.core k)) }

def State.pound (s : State) (k : Nat) : Pound := Tab.read {} s.pounds k
def State.modPound (s : State) (k : Nat) (f : Pound → Pound) : State :=
  { s with pounds := Tab.write {} s.pounds k (f (s.pound k)) }

def State.die (s : State) (k : Nat) : Die := Tab.read Die.fresh s.dies k
def State.modDie (s : State) (k : Nat) (f : Die → Die) : State := { s with dies := Tab.modify s.dies k f }

def State.part (s : State) (k : Nat) : Option Partition := Tab.find s.parts k
def State.modPart (s : State) (k : Nat) (f : Partition → Partition) : State :=
  { s with parts := Tab.modify s.parts k f }

def State.check (s : State) (k : Nat) : Option Check := Tab.find s.checks k
def State.modCheck (s : State) (k : Nat) (f : Check → Check) : State := { s with checks := Tab.modify s.checks k f }

def State.op (s : State) (k : Nat) : Option EngineOp := Tab.find s.ops k
def State.modOp (s : State) (k : Nat) (f : EngineOp → EngineOp) : State := { s with ops := Tab.modify s.ops k f }

/-- The number of an engine class, as CLS numbers it (R375). -/
def EngineClass.index : EngineClass → Nat
  | .copy => 0
  | .gather => 1
  | .coll => 2
  | .matrix => 3

/-- The header of a team's virtual engine queue of a class (R294). -/
def Team.engineQueue (t : Team) (c : EngineClass) : EngineQueue := Tab.read {} t.queues c.index

/-- Change the header of a virtual engine queue. -/
def Team.modEngineQueue (t : Team) (c : EngineClass) (f : EngineQueue → EngineQueue) : Team :=
  { t with queues := Tab.write {} t.queues c.index (f (t.engineQueue c)) }

def State.queue (s : State) (q : Nat) : Queue := Tab.read {} s.hub.queues q
def State.modHub (s : State) (f : Hub → Hub) : State := { s with hub := f s.hub }
def State.modQueue (s : State) (q : Nat) (f : Queue → Queue) : State :=
  s.modHub (fun h => { h with queues := Tab.write {} h.queues q (f (s.queue q)) })

/-- Send a message outside. -/
def State.send (s : State) (m : Msg) : State := { s with sent := m :: s.sent }

/-! ## Places -/

/-- The die of a core; 4 for a hub core (R24). -/
def coreDie (core : Nat) : Nat := if core < 576 then core / 144 else 4

/-- The site index of a core of a compute die. -/
def coreSite (core : Nat) : Nat := core % 144

/-- The pound of a site within its die (R12). -/
def sitePound (site : Nat) : Nat := site / 12 / 3 * 4 + site % 12 / 3

/-- The key of the pound of a core of a compute die. -/
def corePound (core : Nat) : Nat := coreDie core * 16 + sitePound (coreSite core)

/-- The sites of a pound, ascending. -/
def poundSites (p : Nat) : List Nat := (List.range 144).filter (fun i => sitePound i = p)

/-- The other site of the physical pair (R12). -/
def partnerSite (site : Nat) : Nat := if site % 2 = 0 then site + 1 else site - 1

/-- The Invalidate Queue Depth: the Invalidate Requests that may be outstanding (R399). -/
def invalidateDepth : Nat := 32

/-- A site is enabled: neither disabled nor fenced (R16, R17). -/
def Die.siteUp (d : Die) (site : Nat) : Bool := !d.disabled.getLsbD site && !d.fenced.getLsbD site

/-- A core has clocks and power: a hub core, or one whose site is not disabled (R16). -/
def State.corePowered (s : State) (core : Nat) : Bool :=
  decide (576 ≤ core) || !(s.die (coreDie core)).disabled.getLsbD (coreSite core)

/-- A site can take new work: enabled and no fence pending (R17, R44). -/
def Die.siteFree (d : Die) (site : Nat) : Bool := d.siteUp site && !d.fencePending.getLsbD site

/-- The logical id of a site, if its table holds one (R21). -/
def Die.logicalId (d : Die) (site : Nat) : Option Nat :=
  d.lpt.findIdx? (fun e => e.toNat = site)

/-- The table of R22 for the given masks. -/
def buildLpt (disabled fenced : BitVec 144) : List (BitVec 8) :=
  let up := (List.range 144).filter (fun i => !disabled.getLsbD i && !fenced.getLsbD i)
  ((up.map (BitVec.ofNat 8)) ++ List.replicate 128 0xFF#8).take 128

/-! ## Registers of a group -/

/-- Scalar register i; s0 reads as zero (R171). -/
def Group.s (g : Group) (i : Nat) : Word := if i = 0 then 0 else Tab.read 0 g.sregs i

/-- Write scalar register i; s0 discards the write (R171). -/
def Group.setS (g : Group) (i : Nat) (v : Word) : Group :=
  if i = 0 then g else { g with sregs := Tab.write 0 g.sregs i v }

/-- Condition bit i; c7 reads as true (R171). -/
def Group.c (g : Group) (i : Nat) : Bool := if 7 ≤ i then true else g.cregs.getLsbD i

/-- Write condition bit i; c7 discards the write (R171). -/
def Group.setC (g : Group) (i : Nat) (v : Bool) : Group :=
  if 7 ≤ i then g
  else { g with cregs := if v then g.cregs ||| (1#7 <<< i) else g.cregs &&& ~~~(1#7 <<< i) }

/-- The launch mask, which q0 reads (R37). -/
def Group.q0 (g : Group) : BitVec 64 := BitVec.ofNat 64 (2 ^ g.width - 1)

/-- Lane predicate register i; q0 reads as the launch mask (R171). -/
def Group.q (g : Group) (i : Nat) : BitVec 64 := if i = 0 then g.q0 else Tab.read 0 g.qregs i

/-- Write a lane predicate register; q0 discards the write, and lanes at or above the width stay zero (R171, R187). -/
def Group.setQ (g : Group) (i : Nat) (v : BitVec 64) : Group :=
  if i = 0 then g else { g with qregs := Tab.write 0 g.qregs i (v &&& g.q0) }

/-- Lane l of vector register r (R171). -/
def Group.v (g : Group) (r l : Nat) : Lane := Tab.read 0 g.vecs (r * 64 + l)

/-- Write lane l of vector register r (R171). -/
def Group.setV (g : Group) (r l : Nat) (x : Lane) : Group := { g with vecs := Tab.write 0 g.vecs (r * 64 + l) x }

/-- Lane l of the pair whose even register is r (R166). -/
def Group.v64 (g : Group) (r l : Nat) : Word := g.v (r + 1) l ++ g.v r l

/-- Write lane l of the pair whose even register is r (R166). -/
def Group.setV64 (g : Group) (r l : Nat) (x : Word) : Group :=
  (g.setV r l (x.extractLsb' 0 32)).setV (r + 1) l (x.extractLsb' 32 32)

/-- The count of flag f (R158). -/
def Group.flag (g : Group) (f : Nat) : Nat := Tab.read 0 g.flags f

/-- Set the count of flag f. -/
def Group.setFlag (g : Group) (f n : Nat) : Group := { g with flags := Tab.write 0 g.flags f n }

/-- %gtime (R396). -/
def Group.gtime (g : Group) (now : Nat) : Nat :=
  match g.gtSince with
  | some t => g.gtBase + (now - t)
  | none => g.gtBase

/-- The group stops being resident: %gtime stands (R396). -/
def Group.stopTime (g : Group) (now : Nat) : Group := { g with gtBase := g.gtime now, gtSince := none }

/-- The group becomes resident: %gtime runs on (R396). -/
def Group.startTime (g : Group) (now : Nat) : Group :=
  match g.gtSince with
  | some _ => g
  | none => { g with gtSince := some now }

/-- One register write of a long-latency operation. -/
def Group.apply (g : Group) : RegWrite → Group
  | .vec r l x => g.setV r l x
  | .scalar r x => g.setS r x

/-- active(LG): the launch mask's lanes that the lane guard enables (R7, R36, R37, R165). -/
def Group.active (g : Group) (w : Slot) : BitVec 64 :=
  if w.lgNeg then g.q0 &&& ~~~(g.q w.lg.toNat) else g.q0 &&& g.q w.lg.toNat

/-- The scalar guard (R165). -/
def Group.guard (g : Group) (w : Slot) : Bool := Bool.xor w.sgNeg (g.c w.sg.toNat)

/-! ## Slot addresses -/

/-- The line of a slot address (R150). -/
def lineOf (a : Nat) : Nat := a / 64 * 64

/-- The slot number of an address (R150). -/
def slotIndex (a : Nat) : Nat := a % 64 / 20

/-- A slot address: bits [5:0] are 0x00, 0x14 or 0x28 (R150). -/
def isSlotAddress (a : Nat) : Bool := a % 64 = 0 || a % 64 = 20 || a % 64 = 40

/-- The slot after a slot, in address order (R155). -/
def nextSlot (a : Nat) : Nat := if a % 64 = 40 then lineOf a + 64 else a + 20

/-- Slot 0 of the next line. -/
def nextLine (a : Nat) : Nat := lineOf a + 64

end Sys2Proof.Machine
end

