-- ==== Sys2Proof/Machine/Crypto.lean ====
section
/-!
DEFINITION. The checksums and ciphers that the spec names: the CRC of %sig and of store signatures (R212, R348), the
CRC-32C (R83), AES-128 and AES-256 of FIPS 197 (R341) and AES-GCM (R290, R410).
-/

namespace Sys2Proof.Machine

open Sys2Proof

/-! ## CRCs -/

/-- One bit of the signature loop (R212). -/
def sigBit (sig : Word) (b : Bool) : Word :=
  let top := Bool.xor (sig.getLsbD 63) b
  if top then (sig <<< 1) ^^^ 0x42F0E1EBA9EA3693#64 else sig <<< 1

/-- Fold bits 0 to n - 1 of a byte. -/
def sigBits (x : Byte) : Nat → Nat → Word → Word
  | 0, _, sig => sig
  | n + 1, i, sig => sigBits x n (i + 1) (sigBit sig (x.getLsbD i))

/-- The signature loop over bytes (R212). -/
def sigFold (sig : Word) (bytes : List Byte) : Word := bytes.foldl (fun a x => sigBits x 8 0 a) sig

/-- The CRC of a record from an initial value of zero (R348). -/
def sigCrc (bytes : List Byte) : Word := sigFold 0 bytes

/-- Eight steps of the reflected CRC-32C. -/
def crc32cBits : Nat → BitVec 32 → BitVec 32
  | 0, c => c
  | n + 1, c => crc32cBits n (if c.getLsbD 0 then (c >>> 1) ^^^ 0x82F63B78#32 else c >>> 1)

/-- The CRC-32C of a sequence of bytes (R83). -/
def crc32c (bytes : List Byte) : BitVec 32 :=
  (bytes.foldl (fun c x => crc32cBits 8 (c ^^^ (0#24 ++ x))) 0xFFFFFFFF#32) ^^^ 0xFFFFFFFF#32

/-! ## AES -/

/-- Multiplication by x in the AES field. -/
def xtime (a : Byte) : Byte := if a.getLsbD 7 then (a <<< 1) ^^^ 0x1B#8 else a <<< 1

/-- Multiplication in the AES field. -/
def gmul : Nat → Byte → Byte → Byte
  | 0, _, _ => 0
  | n + 1, a, b => (if b.getLsbD 0 then a else 0) ^^^ gmul n (xtime a) (b >>> 1)

/-- The 254th power: the inverse in the AES field, 0 for 0. -/
def ginv (a : Byte) : Byte :=
  let m := gmul 8
  let a2 := m a a
  let a3 := m a2 a
  let a6 := m a3 a3
  let a7 := m a6 a
  let a14 := m a7 a7
  let a15 := m a14 a
  let a30 := m a15 a15
  let a31 := m a30 a
  let a62 := m a31 a31
  let a63 := m a62 a
  let a126 := m a63 a63
  let a127 := m a126 a
  m a127 a127

/-- The S-box of FIPS 197. -/
def sbox (a : Byte) : Byte :=
  let b := ginv a
  b ^^^ b.rotateLeft 1 ^^^ b.rotateLeft 2 ^^^ b.rotateLeft 3 ^^^ b.rotateLeft 4 ^^^ 0x63#8

/-- Byte-wise exclusive OR of two lists. -/
def xorBytes (a b : List Byte) : List Byte := List.zipWith (· ^^^ ·) a b

/-- The words of the key schedule in reverse order, `n` of them still to be made. -/
def expandKey (nk : Nat) : Nat → Nat → Byte → List (List Byte) → List (List Byte)
  | 0, _, _, ws => ws
  | n + 1, i, rcon, ws =>
    let prev := nth [] ws 0
    let back := nth [] ws (nk - 1)
    if i % nk = 0 then
      let t := (nth 0 prev 1 :: nth 0 prev 2 :: nth 0 prev 3 :: [nth 0 prev 0]).map sbox
      let w := xorBytes back (xorBytes t [rcon, 0, 0, 0])
      expandKey nk n (i + 1) (xtime rcon) (w :: ws)
    else if nk = 8 ∧ i % 8 = 4 then
      expandKey nk n (i + 1) rcon (xorBytes back (prev.map sbox) :: ws)
    else expandKey nk n (i + 1) rcon (xorBytes back prev :: ws)

/-- Cut bytes into groups of four. -/
def fours : Nat → List Byte → List (List Byte)
  | 0, _ => []
  | n + 1, bs => bs.take 4 :: fours n (bs.drop 4)

/-- The round keys of a key of 4 * nk bytes, each 16 bytes. -/
def roundKeys (key : List Byte) (nk : Nat) : List (List Byte) :=
  let words := (expandKey nk (4 * (nk + 7) - nk) nk 1 (fours nk key).reverse).reverse
  (List.range (nk + 7)).map (fun r => ((words.drop (4 * r)).take 4).flatten)

/-- ShiftRows on a block in column order. -/
def shiftRows (b : List Byte) : List Byte :=
  (List.range 16).map (fun i => nth 0 b ((i + 4 * (i % 4)) % 16))

/-- MixColumns on one column. -/
def mixColumn (c : List Byte) : List Byte :=
  let a := fun i => nth 0 c (i % 4)
  (List.range 4).map (fun i => xtime (a i) ^^^ (xtime (a (i + 1)) ^^^ a (i + 1)) ^^^ a (i + 2) ^^^ a (i + 3))

/-- The rounds after the first key addition. -/
def aesRounds : List (List Byte) → List Byte → List Byte
  | [], b => b
  | [k], b => xorBytes (shiftRows (b.map sbox)) k
  | k :: ks, b => aesRounds ks (xorBytes ((fours 4 (shiftRows (b.map sbox))).map mixColumn).flatten k)

/-- AES encryption of one block with the given round keys (FIPS 197). -/
def aesBlock (keys : List (List Byte)) (b : List Byte) : List Byte :=
  match keys with
  | [] => b
  | k :: ks => aesRounds ks (xorBytes b k)

/-- AES-128 encryption (R341). -/
def aes128 (key block : List Byte) : List Byte := aesBlock (roundKeys key 4) block

/-- The hash of the selection (R341): output bytes 0 and 1 of the encryption of the input block. -/
def selectionHash (key : BitVec 128) (seq : Nat) (teamId : Nat) : Nat :=
  let out := aes128 (leBytes 16 key.toNat) (leBytes 8 seq ++ leBytes 4 teamId ++ [0, 0, 0, 0])
  (nth 0 out 0).toNat + 256 * (nth 0 out 1).toNat

/-! ## GCM -/

/-- A block as the field element of GHASH: bit 0 of byte 0 is the highest bit (SP 800-38D). -/
def beNat (bs : List Byte) : Nat := bs.foldl (fun a b => a * 256 + b.toNat) 0

/-- The bytes of a number, high byte first. -/
def beBytes (n x : Nat) : List Byte := (leBytes n x).reverse

/-- Multiplication in the GHASH field, blocks as big-endian numbers. -/
def ghashMul : Nat → BitVec 128 → BitVec 128 → BitVec 128 → BitVec 128
  | 0, z, _, _ => z
  | n + 1, z, v, x =>
    ghashMul n (if x.getLsbD 127 then z ^^^ v else z)
      (if v.getLsbD 0 then (v >>> 1) ^^^ 0xE1000000000000000000000000000000#128 else v >>> 1) (x <<< 1)

/-- Cut bytes into blocks of 16, the last one filled with zeros. -/
def blocks16 : Nat → List Byte → List (List Byte)
  | 0, _ => []
  | n + 1, bs => (bs.take 16 ++ List.replicate (16 - (bs.take 16).length) 0#8) :: blocks16 n (bs.drop 16)

/-- The blocks of a sequence of bytes. -/
def blocksOf (bs : List Byte) : List (List Byte) := blocks16 (ceilDiv bs.length 16) bs

/-- GHASH over blocks. -/
def ghash (h : BitVec 128) (blocks : List (List Byte)) : BitVec 128 :=
  blocks.foldl (fun y b => ghashMul 128 0 h (y ^^^ BitVec.ofNat 128 (beNat b))) 0

/-- Counter mode from counter `c` on. -/
def ctrMode (keys : List (List Byte)) (iv : List Byte) : Nat → List (List Byte) → List Byte
  | _, [] => []
  | c, b :: bs => xorBytes b (aesBlock keys (iv ++ beBytes 4 c)) ++ ctrMode keys iv (c + 1) bs

/-- The text and the tag of AES-GCM-256 for a text in, with `ofText` telling whether the text in is the ciphertext. -/
def gcm (key : BitVec 256) (iv aad text : List Byte) (isCipher : Bool) : List Byte × List Byte :=
  let keys := roundKeys (leBytes 32 key.toNat) 8
  let h : BitVec 128 := BitVec.ofNat 128 (beNat (aesBlock keys (List.replicate 16 0#8)))
  let out := (ctrMode keys iv 2 (blocksOf text)).take text.length
  let cipher := if isCipher then text else out
  let lens := beBytes 8 (8 * aad.length) ++ beBytes 8 (8 * cipher.length)
  let y := ghash h (blocksOf aad ++ blocksOf cipher ++ [lens])
  (out, xorBytes (beBytes 16 y.toNat) (aesBlock keys (iv ++ beBytes 4 1)))

end Sys2Proof.Machine
end

