-- ==== Sys2Proof/Machine/Memory.lean ====
section
/-!
DEFINITION. Physical memory: the address map (R25 to R28), what a byte reads as, tokens (R112), the remote-write
buffers (R115), poison (R120), append descriptors (R130 to R133), and `commit`, the one operation by which bytes
reach memory.
-/

namespace Sys2Proof.Machine

open Sys2Proof

/-! ## The address map -/

/-- The regions of the physical address map (R25). -/
inductive Region where
  | hbm (die : Nat)
  | host
  | vault (die pos : Nat)
  | management
  | unmapped
  deriving DecidableEq, Repr

/-- The region of a physical address (R25, R27). -/
def region (pa : Nat) : Region :=
  if pa < 0x8000000000 then
    if pa % 0x2000000000 < 0x1800000000 then .hbm (pa / 0x2000000000) else .unmapped
  else if pa < 0x4000000000000 then .unmapped
  else if pa < 0x8000000000000 then .host
  else if pa < 0xF000000000000 then .unmapped
  else if pa < 0xF000080000000 then
    .vault ((pa - 0xF000000000000) / 0x20000000) ((pa - 0xF000000000000) % 0x20000000 / 0x100000)
  else if pa < 0xF800000000000 then .unmapped
  else if pa < 0x10000000000000 then .management
  else .unmapped

/-- The die at which a location is homed; none for host memory and the rest. -/
def homeDie (pa : Nat) : Option Nat :=
  match region pa with
  | .hbm d => some d
  | .vault d _ => some d
  | _ => none

/-- The line of a physical address (R4). -/
def lineNo (pa : Nat) : Nat := pa / 128

/-- A range lies wholly in device HBM (R25, R141). -/
def inHbm (pa len : Nat) : Bool :=
  match region pa, region (pa + len - 1) with
  | .hbm d, .hbm e => d == e
  | _, _ => false

/-- The slice that caches a line of HBM (R14), or that holds a vault granule (R100). -/
def State.sliceOf (s : State) (pa : Nat) : Nat :=
  match region pa with
  | .vault d pos =>
    match Tab.find (s.die d).vault pos with
    | some (e, _) => (e.extractLsb' 0 8).toNat
    | none => 0
  | _ => lineNo pa % 144

/-- The stack that holds a line of die d's HBM (R15). -/
def stackOf (d pa : Nat) : Nat := 2 * d + (natOf (bit pa 8) + natOf (bit pa 16)) % 2

/-- The pseudo-channel that holds a line (R15). -/
def channelOf (pa : Nat) : Nat := bits pa 9 6 ^^^ bits pa 17 6

/-- The device physical address of an offset of the HDM decoder (R398). -/
def hdmAddress (o : Nat) : Nat := o / 103079215104 * 0x2000000000 + o % 103079215104

/-- A vault position is bound (R27). -/
def State.vaultBound (s : State) (d pos : Nat) : Bool :=
  match Tab.find (s.die d).vault pos with
  | some (e, _) => e.getLsbD 15
  | none => false

/-- A vault position is marked shadow (R99). -/
def State.vaultShadow (s : State) (d pos : Nat) : Bool :=
  match Tab.find (s.die d).vault pos with
  | some (e, _) => e.getLsbD 14
  | none => false

/-- The block number and the offset of an address of management space (R28). -/
def mgmtPlace (pa : Nat) : Nat × Nat := ((pa - 0xF800000000000) / 0x10000000, (pa - 0xF800000000000) % 0x10000000)

/-- A register, or a place that reads zero, lies at an address of management space: in a die's block those of R28, R361, R420 and
R434, in the hub's block every offset (R424). -/
def registerAt (pa : Nat) : Bool :=
  let (b, off) := mgmtPlace (pa / 8 * 8)
  if b < 4 then
    decide (off < 0x100) || off = 0x1000 || off = 0x1008 || off = 0x1010 ||
    (decide (0x2000 ≤ off) && decide (off < 0x2400)) ||
    (decide (0x3000 ≤ off) && decide (off < 0x5000) && decide (off % 32 < 24))
  else b = 4

/-- The die that answers for a location: that of its home, or of its management block (R28). -/
def answeringDie (pa : Nat) : Option Nat :=
  match region pa with
  | .hbm d => some d
  | .vault d _ => some d
  | .management => if (mgmtPlace pa).1 < 4 then some (mgmtPlace pa).1 else none
  | _ => none

/-- A die answers with the error reply during steps 4 and 5 of its warm reset (R436, R437). -/
def State.dieDown (s : State) (d : Nat) : Bool := (s.die d).resetStep == 4 || (s.die d).resetStep == 5

/-- The die that answers for a location answers nothing (R436, R437). -/
def State.silent (s : State) (pa : Nat) : Bool :=
  match answeringDie pa with
  | some d => s.dieDown d
  | none => false

/-- An access to this location receives the error reply (R26, R27, R28, R437). -/
def State.errorReply (s : State) (pa : Nat) : Bool :=
  s.silent pa || (match region pa with
    | .hbm _ => false
    | .host => false
    | .vault d pos => !s.vaultBound d pos
    | .management => !registerAt pa
    | .unmapped => true)

/-- Count an error reply of a die, when it is one that the die gives under warm reset (R436). -/
def State.countReply (s : State) (d : Nat) : State :=
  if s.dieDown d then s.modDie d (fun x => { x with resetErrors := x.resetErrors + 1 }) else s

/-- Count an error reply at a location that a die under warm reset gives (R436). -/
def State.countError (s : State) (pa : Nat) : State :=
  match answeringDie pa with
  | some d => s.countReply d
  | none => s

/-- A write of a register of a compute die; in steps 4 and 5 of its warm reset it gets the error reply and does nothing (R436,
R437). -/
def State.dieWrite (s : State) (d : Nat) (act : State → State) : State :=
  if s.dieDown d then s.countReply d else act s

/-! ## Bytes -/

/-- What a byte that nothing has written reads as (log 1). -/
def emptyByte : Byte := 0

/-- The byte at a physical address. -/
def State.byte (s : State) (pa : Nat) : Byte := Tab.read emptyByte s.mem pa

/-- Put bytes into memory, each at its own address. -/
def State.setBytes (s : State) (ws : List (Nat × Byte)) : State :=
  { s with mem := ws.foldl (fun m p => Tab.write emptyByte m p.1 p.2) s.mem
           lateWords := ws.foldl (fun t p => Tab.remove t p.1) s.lateWords }

/-- `n` bytes of memory from a physical address. -/
def State.bytes (s : State) (pa n : Nat) : List Byte := (List.range n).map (fun i => s.byte (pa + i))

/-- The 8-byte word at a physical address. -/
def State.word (s : State) (pa : Nat) : Word := bytesWord (s.bytes pa 8)

/-- The 64-byte half of a device or host address. -/
def halfOf (pa : Nat) : Nat := pa / 64

/-- A byte that waits for a back-invalidate answer. -/
def State.snoopedByte (s : State) (pa : Nat) : Option Byte :=
  match s.snoops.find? (fun x => x.half = halfOf pa) with
  | some x => Tab.find x.writes pa
  | none => none

/-- The byte that the home of a location answers with: a write that waits for the host, or memory. -/
def State.homeByte (s : State) (pa : Nat) : Byte :=
  ((s.snoopedByte pa).or (Tab.find s.lateWords pa)).getD (s.byte pa)

/-- Bytes with their addresses. -/
def atAddr (pa : Nat) (bs : List Byte) : List (Nat × Byte) := (List.range bs.length).map (fun i => (pa + i, nth 0 bs i))

/-- The memory holds its canonical form. -/
def Memory.wf (m : Tab Byte) : Bool := Tab.wf emptyByte m

/-- A line is poisoned (R120). -/
def State.poisoned (s : State) (line : Nat) : Bool := Tab.read false s.poison line

/-- Mark a line poisoned, or clear the mark (R120). -/
def State.setPoison (s : State) (line : Nat) (p : Bool) : State := { s with poison := Tab.write false s.poison line p }

/-- Mark the 4 KiB region of an address poisoned in its die's error record (R119). -/
def State.recordPoison (s : State) (pa : Nat) : State :=
  match homeDie pa with
  | some d =>
    let r := pa / 4096 * 4096
    s.modDie d (fun x => if x.poisoned.contains r then x else { x with poisoned := r :: x.poisoned })
  | none => s

/-! ## Append descriptors -/

/-- The page address under which an address has an append descriptor (R130). -/
def State.appendPage (s : State) (pa : Nat) : Option Nat :=
  let small := pa / 65536 * 65536
  let big := pa / 2097152 * 2097152
  match Tab.find s.appends small with
  | some _ => some small
  | none =>
    match Tab.find s.appends big with
    | some d => if d.size = 2097152 then some big else none
    | none => none

/-- The descriptor of a page is made at the first access through an AP entry (R130); it keeps the context and the virtual address of
every mapping that the device has used, so that an invalidation finds the page when the host unmaps it (R138). -/
def State.ensureAppend (s : State) (page size : Nat) (mapping : Nat × Nat) : State :=
  match Tab.find s.appends page with
  | some d =>
    if d.maps.contains mapping then s
    else { s with appends := Tab.insert s.appends page { d with maps := d.maps ++ [mapping] } }
  | none => { s with appends := Tab.insert s.appends page { size := size, maps := [mapping] } }

/-- A byte of an AP page at or above the published tail (R133). -/
def State.unpublished (s : State) (pa : Nat) : Bool :=
  match s.appendPage pa with
  | some p =>
    match Tab.find s.appends p with
    | some d => d.published ≤ pa - p
    | none => false
  | none => false

/-! ## Watches -/

/-- A watched comparison (R278). -/
def watchHolds (cond : BitVec 4) (wide : Bool) (x ref : Word) : Bool :=
  let n := if wide then 64 else 32
  let a := x.toNat % 2 ^ n
  let b := ref.toNat % 2 ^ n
  if cond = 0 then a = b else if cond = 1 then a ≠ b
  else if cond = 2 then b ≤ a else if cond = 3 then a < b
  else if cond = 4 then signedOf b n ≤ signedOf a n else signedOf a n < signedOf b n

/-- The watched word as it stands at its home; bytes above an AP page's published tail read zero. -/
def State.watchedWord (s : State) (w : Watch) : Word :=
  bytesWord ((List.range (if w.wide then 8 else 4)).map
    (fun i => if s.unpublished (w.pa + i) then 0 else s.homeByte (w.pa + i)))

/-- Evaluate a watch, recording the value that satisfies it. -/
def State.evalWatch (s : State) (w : Watch) : Watch :=
  match w.hit with
  | some _ => w
  | none => if watchHolds w.cond w.wide (s.watchedWord w) w.ref then { w with hit := some (s.watchedWord w) } else w

/-- A write to these addresses evaluates a watch on them that a table holds (R278). -/
def State.touchWatch (s : State) (as : List Nat) (w : Watch) : Watch :=
  if w.home.isSome && as.any (fun a => w.pa ≤ a && a < w.pa + (if w.wide then 8 else 4)) then s.evalWatch w else w

/-- A write to these addresses meets the watches of groups and those of the front end (R278, R322). -/
def State.touchWatches (s : State) (as : List Nat) : State :=
  { s with
    groups := Tab.mapWith (fun _ g => { g with watch := g.watch.map (s.touchWatch as) }) s.groups
    launches := Tab.mapWith (fun _ l => { l with watch := l.watch.map (s.touchWatch as) }) s.launches }

/-! ## Read-set filters -/

/-- The two filter bits of a line (R352). -/
def filterBits (pa : Nat) : Nat × Nat := (bits pa 7 12, bits pa 7 12 ^^^ bits pa 19 12)

/-- A check's filter is live: from the first read that it holds until the check has left REPLAY or VOTE (R352). -/
def Check.live (c : Check) : Bool := c.state != .done && c.filter != 0

/-- A committed write perturbs every live check but `origin` whose two filter bits are set (R353). -/
def State.perturb (s : State) (origin : Option Nat) (as : List Nat) : State :=
  { s with checks := Tab.mapWith (fun k c =>
      if c.live && some k != origin &&
          as.any (fun a => c.filter.getLsbD (filterBits a).1 && c.filter.getLsbD (filterBits a).2) then
        { c with perturbed := true }
      else c) s.checks }

/-! ## Tokens -/

/-- Who holds tokens of a line. -/
def State.lineTokens (s : State) (line : Nat) : LineTokens := Tab.read {} s.tokens line

def State.setTokens (s : State) (line : Nat) (t : LineTokens) : State := { s with tokens := Tab.write {} s.tokens line t }

/-- Tokens that rest at the home slice (R112). -/
def LineTokens.atHome (t : LineTokens) : Nat := 256 - (t.held.map Prod.snd).foldl (· + ·) 0

/-- Give a core one token at least, from the home slice, where the owner token goes last, or from a holder of more than one (R112). -/
def LineTokens.forRead (t : LineTokens) (core : Nat) : LineTokens :=
  let t := { t with tries := Tab.remove t.tries core }
  if 0 < Tab.read 0 t.held core then t
  else if 0 < t.atHome then
    { t with held := Tab.insert t.held core 1, owner := if t.atHome = 1 && t.owner.isNone then some core else t.owner }
  else
    match t.held.find? (fun p => 1 < p.2) with
    | some (k, n) => { t with held := Tab.insert (Tab.insert t.held k (n - 1)) core 1 }
    | none => { t with held := [(core, 256)], owner := some core }

/-- Give a core all 256 tokens (R112). -/
def LineTokens.forWrite (t : LineTokens) (core : Nat) : LineTokens :=
  { t with held := [(core, 256)], owner := some core, recalled := none, tries := Tab.remove t.tries core }

/-- A core store holds a line for reading, or for writing (R112). -/
def LineTokens.holds (t : LineTokens) (core : Nat) (write : Bool) : Bool :=
  if write then Tab.read 0 t.held core = 256 else decide (0 < Tab.read 0 t.held core)

/-- An ordinary request of a core is refused while another core's persistent request is admitted (R113). -/
def LineTokens.refuses (t : LineTokens) (core : Nat) (write : Bool) : Bool :=
  match t.persistent with
  | (c, _) :: _ => c != core && !t.holds core write
  | [] => false

/-- Return every token to the home slice, the data with the owner token (R112). -/
def LineTokens.home (t : LineTokens) : LineTokens := { t with held := [], owner := none, clean := none, recalled := none }

/-- A core gives its tokens home; what it held dirty is written back (R112, R129). -/
def LineTokens.leave (t : LineTokens) (core : Nat) : LineTokens :=
  { t with held := Tab.remove t.held core
           owner := if t.owner = some core then none else t.owner
           clean := if t.owner = some core then none else t.clean
           recalled := if t.owner = some core then none else t.recalled }

/-- The request that is admitted has every token of the line (R113). -/
def LineTokens.serve (t : LineTokens) : LineTokens :=
  match t.persistent with
  | (core, _) :: _ => t.forWrite core
  | [] => t

/-- A core that gates asks for nothing more: its queued requests are withdrawn and the next persistent request is served (R113,
R423). -/
def LineTokens.withdraw (t : LineTokens) (core : Nat) : LineTokens :=
  if t.persistent.any (fun p => p.1 = core) then
    { t with persistent := t.persistent.filter (fun p => p.1 != core), tries := Tab.remove t.tries core }.serve
  else { t with tries := Tab.remove t.tries core }

/-- Ways of a core store are pinned for a scratchpad of some lines: a dirty line that held one is written back first. Which
lines those are is free (R98; log 76). -/
def State.displace (s : State) (core lines : Nat) : State :=
  if lines = 0 then s
  else
    let dirty := Tab.keys (s.tokens.filter (fun p => p.2.owner = some core && p.2.clean.isSome))
    dirty.foldl (fun a l =>
      let r := a.freeBool
      if r.1 then r.2.setTokens l ((r.2.lineTokens l).leave core) else r.2) s

/-- The core's pound is in a state from QUIET to RESTORE, in which it holds no tokens, no translation and no watch
(R423). -/
def State.gatedCore (s : State) (core : Nat) : Bool :=
  decide (core < 576) && (match (s.pound (corePound core)).state with
    | .run => false
    | .drain => false
    | _ => true)

/-- A core store of the home die holds a line for reading (R112). -/
def State.tokenRead (s : State) (core pa : Nat) : State :=
  match homeDie pa with
  | some d =>
    if coreDie core = d then s.setTokens (lineNo pa) ((s.lineTokens (lineNo pa)).forRead core) else s
  | none => s

/-- A core store of the home die holds a line for writing; the value last written back is kept for a lease that
expires (R112, R119). -/
def State.tokenWrite (s : State) (core pa : Nat) : State :=
  match homeDie pa with
  | some d =>
    if coreDie core = d then
      let t := s.lineTokens (lineNo pa)
      let base := match t.clean with
        | some b => b
        | none => (List.range 128).map (fun i => s.homeByte (lineNo pa * 128 + i))
      s.setTokens (lineNo pa) { (t.forWrite core) with clean := some base }
    else s.setTokens (lineNo pa) (s.lineTokens (lineNo pa)).home
  | none => s

/-- An access of a core has to wait for tokens of one of these lines (R113). -/
def State.tokensRefused (s : State) (core : Nat) (write : Bool) (lines : List Nat) : Bool :=
  lines.any (fun l => homeDie (l * 128) = some (coreDie core) && (s.lineTokens l).refuses core write)

/-- The home slice gathers a line's tokens (R269). -/
def State.tokenHome (s : State) (pa : Nat) : State :=
  match homeDie pa with
  | some _ => s.setTokens (lineNo pa) (s.lineTokens (lineNo pa)).home
  | none => s

/-- The home slices gather the tokens of the lines that a write at the homes touches (R112, R269). -/
def State.homeLines (s : State) (ws : List (Nat × Byte)) : State :=
  ((ws.map (fun p => lineNo p.1)).eraseDups).foldl (fun a l => a.tokenHome (l * 128)) s

/-! ## Commit -/

/-- Snoops that have been sent and not answered (R398). -/
def State.snoopsOut (s : State) : Nat := (s.snoops.filter (fun x => x.asked)).length

/-- Hold these writes until the host has answered a back-invalidate snoop for their half; the snoop is sent at once while
fewer than 4,096 are outstanding (R118, R398). -/
def State.snoopWrite (s : State) (half : Nat) (ws : List (Nat × Byte)) : State :=
  let put := fun (t : Tab Byte) => ws.foldl (fun t p => Tab.insert t p.1 p.2) t
  let late := ws.foldl (fun t p => Tab.remove t p.1) s.lateWords
  match s.snoops.find? (fun x => x.half = half) with
  | some _ =>
    { s with
      lateWords := late
      snoops := s.snoops.map (fun x => if x.half = half then { x with writes := put x.writes } else x) }
  | none =>
    let now := decide (s.snoopsOut < 4096)
    { s with
      lateWords := late
      snoops := s.snoops ++ [{ half := half, since := s.now, writes := put [], asked := now }]
      sent := if now then .backInvalidate half :: s.sent else s.sent }

/-- A snoop that has waited to be sent goes out when an earlier one is over (R398). -/
def State.sendSnoop (s : State) : State :=
  match s.snoops.find? (fun x => !x.asked) with
  | some x =>
    if s.snoopsOut < 4096 then
      { s with snoops := s.snoops.map (fun y => if y.half = x.half then { y with asked := true, since := s.now } else y)
               sent := .backInvalidate x.half :: s.sent }
    else s
  | none => s

/-- Device writes wait for the host's answers (R118). -/
def State.snoopsOwed (s : State) : Bool := s.snoops.any (fun x => !x.writes.isEmpty)

/-- A write covers its whole line, which clears the line's poison (R120). -/
def coversLine (line : Nat) (ws : List (Nat × Byte)) : Bool :=
  (List.range 128).all (fun i => ws.any (fun p => p.1 = line * 128 + i))

/-- The lines that a write covers lose their poison (R120). -/
def State.clearCovered (s : State) (ws : List (Nat × Byte)) : State :=
  ((ws.map (fun p => lineNo p.1)).eraseDups).foldl (fun a l => if a.poisoned l && coversLine l ws then a.setPoison l false else a) s

/-- Bytes stand in memory, and the host-line agent holds halves of host memory that were written in M (R117). -/
def State.settle (s : State) (ws : List (Nat × Byte)) : State :=
  ws.foldl (fun a p =>
    if region p.1 = .host then { a with agent := Tab.write .invalid a.agent (halfOf p.1) .modified } else a) (s.setBytes ws)

/-- Bytes reach their homes: those of halves that the host holds wait for its answer (R118); lines written whole lose
their poison (R120). -/
def State.enter (s : State) (ws : List (Nat × Byte)) : State :=
  let isHeld := fun (p : Nat × Byte) => Tab.read false s.hostHeld (halfOf p.1)
  let late := ws.filter isHeld
  let now := ws.filter (fun p => !isHeld p)
  let s1 := (if now.isEmpty then s else s.settle now).clearCovered ws
  late.foldl (fun a p => a.snoopWrite (halfOf p.1) [p]) s1

/-- A write is seen by watches and by the read sets of other checks (R278, R353). -/
def State.announce (s : State) (origin : Option Nat) (ws : List (Nat × Byte)) : State :=
  (s.touchWatches (ws.map Prod.fst)).perturb origin (ws.map Prod.fst)

/-- The host's own data enter memory: no snoop goes before them (R118). -/
def State.place (s : State) (ws : List (Nat × Byte)) : State :=
  (((s.homeLines ws).settle ws).clearCovered ws).announce none ws

/-- The one operation by which device writes reach memory (R117, R118, R120, R278, R353). -/
def State.commit (s : State) (origin : Option Nat) (ws : List (Nat × Byte)) : State :=
  if ws.isEmpty then s else (s.enter ws).announce origin ws

/-- Bytes reach their homes after the home slices have gathered the tokens of their lines (R112, R118, R269). -/
def State.homeEnter (s : State) (ws : List (Nat × Byte)) : State := (s.homeLines ws).enter ws

/-- A device write made at the homes of its lines (R112, R269). -/
def State.homeCommit (s : State) (origin : Option Nat) (ws : List (Nat × Byte)) : State := (s.homeLines ws).commit origin ws

/-- A word that the host may see only after the device writes before it: at its home at once, where nothing waits for the host, else
seen by the device alone until the host has answered (R118, R411). -/
def State.commitLate (s : State) (origin : Option Nat) (ws : List (Nat × Byte)) : State :=
  if s.snoopsOwed then
    let s1 := s.homeLines ws
    let s2 : State := { s1 with lateWords := ws.foldl (fun t p => Tab.insert t p.1 p.2) s1.lateWords }
    s2.announce origin ws
  else s.homeCommit origin ws

/-- Every byte of a range of whole lines is cleared at its home, tokens and poison with it; halves that the host holds take their
zeros once it has answered (R118, R120). -/
def State.zeroRange (s : State) (pa len : Nat) : State :=
  let inside := fun (a : Nat) => decide (pa ≤ a) && decide (a < pa + len)
  let held := (Tab.keys (s.hostHeld.filter (fun p => p.2))).filter (fun h => inside (h * 64))
  let s1 : State :=
    { s with
      lateWords := s.lateWords.filter (fun p => !inside p.1)
      mem := s.mem.filter (fun p => !inside p.1 || held.contains (halfOf p.1))
      poison := s.poison.filter (fun p => !inside (p.1 * 128))
      tokens := (Tab.mapWith (fun l t => if inside (l * 128) then t.home else t) s.tokens).filter (fun p => p.2 != {}) }
  held.foldl (fun a h => a.snoopWrite h (atAddr (h * 64) (List.replicate 64 0))) s1

/-! ## The remote-write buffers -/

/-- A group keeps the first refusal of a flagless access (R386). -/
def State.refuse (s : State) (group : Nat) (c : Cause) : State :=
  s.modGroup group (fun g => match g.refused with
    | some _ => g
    | none => { g with refused := some { c with imprecise := true } })

/-- A line of the buffer arrives at its home, or is refused there (R115, R386). -/
def State.arrive (s : State) (l : RwLine) : State :=
  let pa := l.line * 128
  if s.errorReply pa then
    (l.groups.foldl (fun a g => a.refuse g.1 { code := 0x21, faddr := BitVec.ofNat 64 g.2 }) s).countError pa
  else s.homeCommit none (l.bytes.map (fun p => (pa + p.1, p.2)))

/-- The remote-write buffer of a die; 4 is the hub die (R114, R115). -/
def State.rwb (s : State) (die : Nat) : List RwLine := if die < 4 then (s.die die).rwb else s.hub.rwb

/-- Change the remote-write buffer of a die. -/
def State.modRwb (s : State) (die : Nat) (f : List RwLine → List RwLine) : State :=
  if die < 4 then s.modDie die (fun d => { d with rwb := f d.rwb }) else s.modHub (fun h => { h with rwb := f h.rwb })

/-- Drain one line of a die's remote-write buffer. -/
def State.drainLine (s : State) (die line : Nat) : State :=
  match (s.rwb die).find? (fun l => l.line = line) with
  | some l => (s.modRwb die (fun x => x.filter (fun y => y.line ≠ line))).arrive l
  | none => s

/-- Drain every line of a die's remote-write buffer that a condition selects (R115). -/
def State.drainWhere (s : State) (die : Nat) (sel : Nat → Bool) : State :=
  (((s.rwb die).map RwLine.line).filter sel).foldl (fun a l => a.drainLine die l) s

/-- Drain the whole buffer, as a release at DEV or SYS scope does (R115). -/
def State.drainAll (s : State) (die : Nat) : State := s.drainWhere die (fun _ => true)

/-- A store enters the buffer; when no line is free the oldest drains first (R115). `va` is the virtual address of the first of
the bytes, which a refusal of the line reports to the group (R386). -/
def State.bufferStore (s : State) (die : Nat) (group : Option Nat) (va line : Nat) (ws : List (Nat × Byte)) : State :=
  let join := fun (t : Tab Nat) => match group with
    | some g => if (Tab.find t g).isSome then t else Tab.insert t g va
    | none => t
  let upd := fun (t : Tab Byte) => ws.foldl (fun a p => Tab.insert a (p.1 - line * 128) p.2) t
  if (s.rwb die).any (fun l => l.line = line) then
    s.modRwb die (fun x => x.map (fun l =>
      if l.line = line then { l with bytes := upd l.bytes, groups := join l.groups } else l))
  else
    let s1 := if 64 ≤ (s.rwb die).length then
        match (s.rwb die) with
        | l :: _ => s.drainLine die l.line
        | [] => s
      else s
    s1.modRwb die (fun x => x ++ [{ line := line, bytes := upd [], since := s.now, groups := join [] }])

/-- A byte that the buffer of a die holds. -/
def State.bufferedByte (s : State) (die pa : Nat) : Option Byte :=
  match (s.rwb die).find? (fun l => l.line = lineNo pa) with
  | some l => Tab.find l.bytes (pa % 128)
  | none => none

/-! ## Who accesses -/

/-- The party of an access: its group, its team, its core, its context and its mode. -/
structure Who where
  group : Option Nat
  team : Option Nat
  core : Nat
  ctx : Nat
  system : Bool
  deriving DecidableEq, Repr, Inhabited

/-- A group as the party of its accesses. -/
def Group.who (g : Group) (k : Nat) : Who :=
  { group := some k, team := some g.team, core := g.core, ctx := g.ctx, system := g.system }

/-- The check and the run of the party's team, if it is under check. -/
def State.runOf (s : State) (who : Who) : Option (Nat × Nat) :=
  match who.team with
  | some t =>
    match s.team t with
    | some x => x.run
    | none => none
  | none => none

/-- The run record. -/
def State.runRec (s : State) (c r : Nat) : Option Run :=
  match s.check c with
  | some x => x.runs[r]?
  | none => none

/-- Change a run record. -/
def State.modRun (s : State) (c r : Nat) (f : Run → Run) : State :=
  s.modCheck c (fun x => { x with runs := match x.runs[r]? with
    | some y => setNth (f y) x.runs r
    | none => x.runs })

/-- A byte of the held version of the party's run (R124, R351). -/
def State.heldByte (s : State) (who : Who) (pa : Nat) : Option Byte :=
  match s.runOf who with
  | some (c, r) =>
    match s.runRec c r with
    | some x => Tab.find x.held pa
    | none => none
  | none => none

/-- The location is homed elsewhere for the party: on another die, or in host memory (R114, R115). -/
def remote (core pa : Nat) : Bool := homeDie pa != some (coreDie core)

/-- The byte that a load of the party reads when it goes to the home: zero above a published tail, the party's held
version, the buffer of its own die, a write that waits for the host, and else memory. -/
def State.seenByte (s : State) (who : Who) (pa : Nat) : Byte :=
  if s.unpublished pa then 0
  else
    match s.heldByte who pa with
    | some b => b
    | none =>
      match if remote who.core pa then s.bufferedByte (coreDie who.core) pa else none with
      | some b => b
      | none => s.homeByte pa

/-! ## Untracked copies and replicas -/

/-- The descriptor of the append page of an address says that the page is sealed. -/
def State.sealedAt (s : State) (pa : Nat) : Bool :=
  match s.appendPage pa with
  | some a => (match Tab.find s.appends a with
    | some d => d.sealed
    | none => false)
  | none => false

/-- Drop the untracked copies of a core, as its acquire at DEV or SYS scope does; lines of sealed pages stay
(R114, R137). -/
def State.dropCopies (s : State) (core : Nat) : State :=
  s.modCore core (fun c => { c with copies := c.copies.filter (fun p => s.sealedAt (p.1 * 64)) })

/-- Drop lines from the core stores that a condition selects. -/
def State.dropLines (s : State) (lines : List Nat) (cores : Nat → Bool) : State :=
  { s with cores := Tab.mapWith (fun k c =>
      if cores k then { c with copies := c.copies.filter (fun p => !lines.contains (p.1 / 2)) } else c) s.cores }

/-- Drop one line from every core store. -/
def State.dropLine (s : State) (line : Nat) : State := s.dropLines [line] (fun _ => true)

/-- The replica of a half of a sealed line in the slices of a compute die (R137). -/
def State.replicaHalf (s : State) (die half : Nat) : Option (List Byte) :=
  if die < 4 then (Tab.find s.replicas (half / 2 * 4 + die)).map (fun bs => (bs.drop (half % 2 * 64)).take 64) else none

/-- Of these halves, those that the party's load reads from a copy, with the bytes: the core store's untracked copy, or a
replica in its die's slices. Each is a free choice, since a copy may be gone at any time (R114, R116, R137; log 11). -/
def State.staleHalves (s : State) (who : Who) : List Nat → Tab (List Byte) × State
  | [] => ([], s)
  | h :: hs =>
    match (Tab.find (s.core who.core).copies h).or (s.replicaHalf (coreDie who.core) h) with
    | some bs =>
      let (b, s1) := s.freeBool
      let (r, s2) := s1.staleHalves who hs
      (if b then Tab.insert r h bs else r, s2)
    | none => s.staleHalves who hs

/-- The byte that a load reads, given the halves it reads from a copy; the party's own later stores lie over the copy. -/
def State.loadedByte (s : State) (who : Who) (stale : Tab (List Byte)) (pa : Nat) : Byte :=
  match Tab.find stale (halfOf pa) with
  | some bs =>
    if !s.unpublished pa && (s.heldByte who pa).isNone && (s.bufferedByte (coreDie who.core) pa).isNone then
      nth 0 bs (pa % 64)
    else s.seenByte who pa
  | none => s.seenByte who pa

/-- The core store keeps a copy of a half homed elsewhere, without tracking (R114); bytes that the die's own buffer
still holds are among it. -/
def State.keepCopy (s : State) (who : Who) (half : Nat) : State :=
  let own := fun (pa : Nat) => s.bufferedByte (coreDie who.core) pa
  let bs := (List.range 64).map (fun i => (own (half * 64 + i)).getD (s.homeByte (half * 64 + i)))
  s.modCore who.core (fun c => { c with copies := Tab.insert c.copies half bs })

/-- A load of a sealed line homed on another die may leave a replica in the slices of the core's die, as a free choice;
ordinary replacement is the free choice of a later load not to find it (R137). -/
def State.keepReplica (s : State) (who : Who) (line : Nat) : State :=
  match homeDie (line * 128) with
  | some d =>
    if coreDie who.core < 4 && d != coreDie who.core && s.sealedAt (line * 128) then
      let (b, s1) := s.freeBool
      let key := line * 4 + coreDie who.core
      { s1 with replicas := if b then Tab.insert s1.replicas key ((List.range 128).map (fun i => s1.homeByte (line * 128 + i)))
                            else Tab.remove s1.replicas key }
    else s
  | none => s

/-- A read of a run under check sets the filter bits of its lines (R352). -/
def State.enterFilter (s : State) (who : Who) (lines : List Nat) : State :=
  match s.runOf who with
  | some (c, _) => s.modCheck c (fun x => { x with filter := lines.foldl (fun f l =>
      f ||| (1#4096 <<< (filterBits (l * 128)).1) ||| (1#4096 <<< (filterBits (l * 128)).2)) x.filter })
  | none => s

/-- A line is poisoned for a party: at its home, unless the party's run holds the whole line, or in the run's own version
(R120, R124, R343). -/
def State.poisonedFor (s : State) (who : Who) (line : Nat) : Bool :=
  match s.runOf who with
  | some (c, r) =>
    match s.runRec c r with
    | some x => x.poisons.contains line || (s.poisoned line && !coversLine line x.held)
    | none => s.poisoned line
  | none => s.poisoned line

/-- What a read of memory gives: the bytes, whether they are poisoned, whether the reply was the error reply. -/
structure Loaded where
  bytes : List Byte
  poison : Bool
  error : Bool
  state : State

/-- The lines that `n` bytes from a physical address touch. -/
def linesOf (pa n : Nat) : List Nat :=
  (List.range (lineNo (pa + n - 1) - lineNo pa + 1)).map (fun i => lineNo pa + i)

/-- A core store may hold a line: of an append page only one wholly below the published tail (R101). -/
def State.storable (s : State) (line : Nat) : Bool := !s.unpublished (line * 128 + 127)

/-- The core's own copies follow the core's own stores. -/
def State.updateCopy (s : State) (core : Nat) (ws : List (Nat × Byte)) : State :=
  let put := fun (t : Tab (List Byte)) (p : Nat × Byte) => Tab.modify t (halfOf p.1) (fun bs => setNth p.2 bs (p.1 % 64))
  s.modCore core (fun c => { c with copies := ws.foldl put c.copies })

/-- The halves that `n` bytes from a physical address touch (R117). -/
def halvesOf (pa n : Nat) : List Nat :=
  (List.range (halfOf (pa + n - 1) - halfOf pa + 1)).map (fun i => halfOf pa + i)

/-- The host-line agent holds the halves that a read of host memory misses to, in S or in E, as the host grants them
(R117). -/
def State.agentRead (s : State) (stale : Tab (List Byte)) (pa n : Nat) : State :=
  if region pa = .host then
    (halvesOf pa n).foldl (fun a h =>
      if (Tab.find stale h).isSome || Tab.read .invalid a.agent h != .invalid then a
      else
        let (b, a1) := a.freeBool
        { a1 with agent := Tab.write .invalid a1.agent h (if b then .exclusive else .shared) }) s
  else s

/-- What a core store keeps of a line after a load of these halves: the tokens of a line of its own die, else copies of
those halves that did not come from one; a line of device memory is held whole, of a host line only the halves read
(R112, R114, R117). -/
def State.cacheLine (s : State) (who : Who) (stale : Tab (List Byte)) (halves : List Nat) (line : Nat) : State :=
  if remote who.core (line * 128) then
    let mine := if region (line * 128) = .host then halves.filter (fun h => h / 2 = line) else [line * 2, line * 2 + 1]
    (mine.foldl (fun a h => if (Tab.find stale h).isSome then a else a.keepCopy who h) s).keepReplica who line
  else s.tokenRead who.core (line * 128)

/-- Read `n` bytes of one page at a physical address. `cached` says whether the page's kind lets a core store hold the
lines (R101). Lines of device memory enter the read set of a run under check (R352). -/
def State.load (s : State) (who : Who) (cached : Bool) (pa n : Nat) : Loaded :=
  if s.errorReply pa then { bytes := List.replicate n 0, poison := false, error := true, state := s.countError pa }
  else
    let lines := linesOf pa n
    let held := if cached then lines.filter s.storable else []
    let halves := (halvesOf pa n).filter (fun h => held.contains (h / 2))
    let (stale, s1) := s.staleHalves who (halves.filter (fun h => remote who.core (h * 64)))
    let bs := (List.range n).map (fun i => s1.loadedByte who stale (pa + i))
    let s2 := held.foldl (fun a l => a.cacheLine who stale halves l) s1
    { bytes := bs, poison := lines.any (s1.poisonedFor who), error := false
      state := (s2.agentRead stale pa n).enterFilter who (lines.filter (fun l => (homeDie (l * 128)).isSome)) }

end Sys2Proof.Machine
end

