-- ==== Sys2Proof/Machine/Translate.lean ====
section
/-!
DEFINITION. Translation (R140 to R146): page entries, walks with their outcomes, the TLBs, the checks that a held
translation meets, and confidential bindings (R412).
-/

namespace Sys2Proof.Machine

open Sys2Proof

/-! ## Entries -/

/-- Fields of a page or table entry (R142). -/
def pteV (e : Nat) : Bool := bit e 0
def pteT (e : Nat) : Bool := bit e 1
def ptePS (e : Nat) : Bool := bit e 2
def pteKind (e : Nat) : Nat := bits e 3 2
def pteR (e : Nat) : Bool := bit e 5
def pteW (e : Nat) : Bool := bit e 6
def pteX (e : Nat) : Bool := bit e 7
def pteFT (e : Nat) : Bool := bit e 8
def pteConf (e : Nat) : Bool := bit e 9
def pteSealed (e : Nat) : Bool := bit e 10
def pteA (e : Nat) : Bool := bit e 11
def pteD (e : Nat) : Bool := bit e 12
def pteHome (e : Nat) : Nat := bits e 13 3
def pteFrame (e : Nat) : Nat := bits e 16 36 * 65536
def pteNext (e : Nat) : Nat := bits e 8 44 * 256
def pteNS (e : Nat) : Bool := bit e 2

/-- A valid table entry is well formed at a place where NS must be as told (R142, R143). -/
def tableEntryOk (e : Nat) (nsMustBeZero : Bool) (size : Nat) : Bool :=
  pteT e && bits e 52 12 = 0 && bits e 3 5 = 0 && !(nsMustBeZero && pteNS e) &&
  pteNext e % size = 0 && inHbm (pteNext e) size

/-- HOME agrees with FRAME (R142, R143): the die for HBM and vault frames, 4 for host memory and management space.
DESIGN CHOICE (log 63): R142 names no home for a frame in an unmapped range, so any HOME of 0 to 4 agrees there, and the
access that follows receives the error reply of R26. -/
def homeAgrees (e : Nat) : Bool :=
  match region (pteFrame e) with
  | .hbm d => pteHome e = d
  | .vault d _ => pteHome e = d
  | .host => pteHome e = 4
  | .management => pteHome e = 4
  | .unmapped => pteHome e ≤ 4

/-- A valid page entry is well formed for a level that takes pages of the given kind (R142, R143). -/
def pageEntryOk (e : Nat) (big : Bool) : Bool :=
  !pteT e && bits e 52 12 = 0 && ptePS e == big && pteHome e ≤ 4 && homeAgrees e &&
  !(big && bits e 16 5 != 0)

/-! ## Walks -/

/-- What a walk meets. -/
inductive WalkOut where
  /-- A page entry with V = 1: its physical address, its value, the page size. -/
  | page (at_ entry size : Nat)
  /-- An entry with V = 0: its physical address, its value, the level it stands in (2 MiB level or sub-node), and
  whether a table entry should stand there. -/
  | invalid (at_ entry : Nat) (leaf : Bool)
  | format
  /-- The home of the entry at this address answers with the error reply (R436; log 90). -/
  | error (at_ : Nat)
  deriving DecidableEq, Repr

/-- The size of the first node of a level that a pointer with this NS names (R141). -/
def nodeSize (ns : Bool) : Nat := if ns then 4096 else 2097152

/-- The 8-byte entry of a node as its home reads it (R118, R144, R145). -/
def State.entryAt (s : State) (a : Nat) : Nat := leNat ((List.range 8).map (fun i => s.homeByte (a + i)))

/-- The step through a level built of one or two tiers: the address of the entry for an index of 18 bits, or what
stops the walk before it (R141). -/
def State.levelEntry (s : State) (node : Nat) (ns : Bool) (index : Nat) : Sum Nat WalkOut :=
  if !ns then .inl (node + 8 * index)
  else
    let at1 := node + 8 * (index / 512)
    let e := s.entryAt at1
    if s.errorReply at1 then .inr (.error at1)
    else if !pteV e then .inr (.invalid at1 e false)
    else if !tableEntryOk e true 4096 then .inr .format
    else .inl (pteNext e + 8 * (index % 512))

/-- A walk from a context's root (R140, R141, R143). -/
def State.walk (s : State) (ctx va : Nat) : WalkOut :=
  let root := (Tab.read 0 s.ptroots ctx).toNat
  let rootNode := bits root 8 44 * 256
  let rootNs := bit root 2
  if !bit root 0 || rootNode % nodeSize rootNs != 0 || !inHbm rootNode (nodeSize rootNs) then .format
  else
    match s.levelEntry rootNode rootNs (bits va 39 18) with
    | .inr o => o
    | .inl at1 =>
      let e1 := s.entryAt at1
      if s.errorReply at1 then .error at1
      else if !pteV e1 then .invalid at1 e1 false
      else if !tableEntryOk e1 false (nodeSize (pteNS e1)) then .format
      else
        match s.levelEntry (pteNext e1) (pteNS e1) (bits va 21 18) with
        | .inr o => o
        | .inl at2 =>
          let e2 := s.entryAt at2
          if s.errorReply at2 then .error at2
          else if !pteV e2 then .invalid at2 e2 true
          else if pteT e2 then
            if !tableEntryOk e2 true 256 then .format
            else
              let at3 := pteNext e2 + 8 * bits va 16 5
              let e3 := s.entryAt at3
              if s.errorReply at3 then .error at3
              else if !pteV e3 then .invalid at3 e3 true
              else if pageEntryOk e3 false then .page at3 e3 65536 else .format
          else if pageEntryOk e2 true then .page at2 e2 2097152 else .format

/-- The translation that a page entry gives (R142). -/
def entryOf (ctx va entry size : Nat) : TlbEntry :=
  { ctx := ctx, va := va / size * size, size := size, pa := pteFrame entry, home := pteHome entry, dirty := pteD entry,
    sealed := pteSealed entry, conf := pteConf entry, exec := pteX entry, write := pteW entry, read := pteR entry,
    kind := BitVec.ofNat 2 (pteKind entry) }

/-- The physical address of a virtual address of the page. -/
def TlbEntry.phys (e : TlbEntry) (va : Nat) : Nat := e.pa + (va - e.va)

/-- A TLB entry covers an address of a context. -/
def TlbEntry.covers (e : TlbEntry) (ctx va : Nat) : Bool := e.ctx = ctx && e.va ≤ va && va < e.va + e.size

/-- The frame of an address is bound to another context (R412). -/
def State.boundElsewhere (s : State) (ctx pa : Nat) : Bool :=
  match Tab.find s.bound (pa / 65536) with
  | some c => c != ctx
  | none => false

/-- The checks on a translation that the walk or the TLB gives (R28, R99, R143, R412): 0x12 when one fails. -/
def State.permission (s : State) (who : Who) (e : TlbEntry) (va : Nat) (kind : AccessKind) : Option Nat :=
  let pa := e.phys va
  let allowed := match kind with
    | .read => e.read
    | .write => e.write
    | .execute => e.exec
  let mgmt := region pa = .management
  let shadow := match region pa with
    | .vault d pos => s.vaultShadow d pos
    | _ => false
  if !allowed || (mgmt && (e.kind != 0 || !who.system)) || (shadow && !who.system) || s.boundElsewhere who.ctx pa then
    some 0x12
  else none

/-- Where the MTU of a party's accesses keeps its TLB; a hub core has no die of its own. -/
def State.mtuTlb (s : State) (core : Nat) : List TlbEntry := if coreDie core < 4 then (s.die (coreDie core)).tlb else []

/-- A translation that the core's or the MTU's TLB holds (R145). -/
def State.heldEntry (s : State) (who : Who) (va : Nat) : Option TlbEntry :=
  match (s.core who.core).tlb.find? (fun e => e.covers who.ctx va) with
  | some e => some e
  | none => (s.mtuTlb who.core).find? (fun e => e.covers who.ctx va)

/-- Every virtual address of a context-0 group of a hub core stands for the equal physical address while %ptroot.V is
0 (R426). -/
def identityEntry (va : Nat) : TlbEntry :=
  { ctx := 0, va := va / 65536 * 65536, size := 65536, pa := va / 65536 * 65536, home := 4, dirty := true,
    sealed := false, conf := false, exec := true, write := true, read := true,
    kind := if region va = .management then 0 else 1 }

/-- The identity map of R426 is in force for the party. -/
def State.identityMapped (s : State) (who : Who) : Bool :=
  576 ≤ who.core && who.ctx = 0 && !bit (Tab.read 0 s.ptroots 0).toNat 0

/-- What the translation of one address gives at issue. -/
inductive Xlat where
  | ok (e : TlbEntry)
  | miss
  | fault (code : Nat)
  deriving DecidableEq, Repr

/-- A walk fault that the parked access's walk already ended in. -/
def walkFaultAt (fs : List (Nat × AccessKind × Nat)) (va : Nat) (kind : AccessKind) : Option Nat :=
  (fs.find? (fun f => f.1 = va / 65536 && f.2.1 = kind)).map (fun f => f.2.2)

/-- Translate an address for an access (R140, R143, R144, R381). -/
def State.translate (s : State) (who : Who) (known : List (Nat × AccessKind × Nat)) (va : Nat) (kind : AccessKind) :
    Xlat :=
  if 2 ^ 57 ≤ va then .fault 0x10
  else if s.identityMapped who then
    match s.permission who (identityEntry va) va kind with
    | some c => .fault c
    | none => .ok (identityEntry va)
  else if !bit (Tab.read 0 s.ptroots who.ctx).toNat 0 then .fault 0x13
  else
    match walkFaultAt known va kind with
    | some c => .fault c
    | none =>
      match s.heldEntry who va with
      | none => .miss
      | some e =>
        match s.permission who e va kind with
        | some c => .fault c
        | none => if kind = .write && !e.dirty then .miss else .ok e

/-- The translation that run-ahead uses: held in a TLB, or what the walk ends in, with the permission; nothing is marked, filled
or raised, and it stops at any other outcome (R148). -/
def State.aheadEntry (s : State) (who : Who) (known : List (Nat × AccessKind × Nat)) (va : Nat) (kind : AccessKind) :
    Option TlbEntry :=
  match s.translate who known va kind with
  | .ok e => some e
  | .fault _ => none
  | .miss =>
    match s.walk who.ctx va with
    | .page _ x size =>
      let e := entryOf who.ctx va x size
      if (s.permission who e va kind).isNone then some e else none
    | _ => none

/-- Keep a translation in a TLB of `cap` entries, the oldest leaving first. -/
def keepEntry (cap : Nat) (e : TlbEntry) (t : List TlbEntry) : List TlbEntry :=
  (e :: t.filter (fun x => !(x.ctx = e.ctx && x.va = e.va && x.size = e.size))).take cap

/-- The TLBs of a party keep a translation (R145). -/
def State.keep (s : State) (core : Nat) (e : TlbEntry) : State :=
  let s1 := s.modCore core (fun c => { c with tlb := keepEntry 256 e c.tlb })
  if coreDie core < 4 then s1.modDie (coreDie core) (fun d => { d with tlb := keepEntry 196608 e d.tlb }) else s1

/-- The first mapping of a frame through an entry with CONF = 1 binds its 64 KiB frames to the context (R412). -/
def State.bindFrames (s : State) (ctx pa size : Nat) : State :=
  let fs := (List.range (size / 65536)).map (fun i => pa / 65536 + i)
  { s with bound := fs.foldl (fun t f => match Tab.find t f with
    | some _ => t
    | none => Tab.insert t f ctx) s.bound }

/-- A context has a confidential mapping: a frame is bound to it (R407, R412). -/
def State.confidential (s : State) (ctx : Nat) : Bool := s.bound.any (fun p => p.2 = ctx)

/-- What the MTU finds for one address of a party (R143, R144, R383). -/
inductive Found where
  | kept
  | fault (code : Nat)
  | host (entry : Nat)
  deriving DecidableEq, Repr

/-- A page-table update is one device write at the entry's home (R118, R144, R220). -/
def State.setEntry (s : State) (at_ old new : Nat) : State :=
  if new = old then s else s.homeCommit none (atAddr at_ (leBytes 8 new))

/-- A page entry after the MTU has loaded it: A is set, whatever the permission check then says (R144). -/
def touched (e : Nat) : Nat := if pteA e then e else e + 2 ^ 11

/-- A walk for one address of a party: what it finds, the translation, and the state after it. The walk sets A in the
page entry that it loads and D for a permitted write, binds confidential frames and creates the descriptor of an AP page
(R130, R138, R143, R144, R412). -/
def State.walkFor (s : State) (who : Who) (va : Nat) (kind : AccessKind) : Found × TlbEntry × State :=
  match s.walk who.ctx va with
  | .format => (.fault 0x13, default, s)
  | .error at_ => (.fault 0x21, default, s.countError at_)
  | .invalid at_ e _ => if pteFT e then (.fault 0x11, default, s) else (.host at_, default, s)
  | .page at_ e size =>
    let t := entryOf who.ctx va e size
    match s.permission who t va kind with
    | some c => (.fault c, t, s.setEntry at_ e (touched e))
    | none =>
      let e1 := touched e + (if kind = .write && !pteD e then 2 ^ 12 else 0)
      let s1 := s.setEntry at_ e e1
      let s2 := if t.conf then s1.bindFrames who.ctx t.pa size else s1
      let s3 := if t.kind = 3 then s2.ensureAppend t.pa size (who.ctx, t.va) else s2
      match s3.permission who t va kind with
      | some c => (.fault c, t, s3)
      | none => (.kept, { t with dirty := pteD e1 }, s3)

/-- The MTU performs a walk and the party's TLBs keep what it gives (R143, R145). -/
def State.mtuWalk (s : State) (who : Who) (va : Nat) (kind : AccessKind) : Found × State :=
  match s.walkFor who va kind with
  | (.kept, t, s1) => (.kept, s1.keep who.core t)
  | (f, _, s1) => (f, s1)

/-- The front end and the firmware's agents read and write in a context without keeping translations; hub context 0 is
mapped to itself (R402, R403, R405, R426). -/
def frontWho (ctx : Nat) : Who := { group := none, team := none, core := 576, ctx := ctx, system := false }

/-- What an access of the front end comes to: its result, a refusal, or an entry with V = 0 and FT = 0 that the host is to serve
(R143, R383). -/
inductive Fronted (α : Type) where
  | done (x : α)
  | refused
  | host (entry : Nat)

/-- The result of an access of the front end, if it has one. -/
def Fronted.value {α : Type} : Fronted α → Option α
  | .done x => some x
  | .refused => none
  | .host _ => none

/-- The physical address of a virtual address of a context for the front end, where its walk, or the identity map of hub context
0, gives the permission (R28, R143, R426). -/
def State.frontPhys (s : State) (ctx va : Nat) (kind : AccessKind) : Fronted Nat × State :=
  if 2 ^ 57 ≤ va then (.refused, s)
  else if s.identityMapped (frontWho ctx) then
    (if (s.permission (frontWho ctx) (identityEntry va) va kind).isSome then .refused else .done va, s)
  else
    match s.walkFor (frontWho ctx) va kind with
    | (.kept, t, s1) => (.done (t.phys va), s1)
    | (.fault _, _, s1) => (.refused, s1)
    | (.host entry, _, s1) => (.host entry, s1)

/-- Read bytes of a context for the front end, within one page; an error reply refuses it and is counted (R436). -/
def State.frontRead (s : State) (ctx va n : Nat) : Fronted (List Byte) × State :=
  match s.frontPhys ctx va .read with
  | (.done pa, s1) =>
    if s1.errorReply pa then (.refused, s1.countError pa)
    else (.done ((List.range n).map (fun i => s1.seenByte (frontWho ctx) (pa + i))), s1)
  | (.refused, s1) => (.refused, s1)
  | (.host entry, s1) => (.host entry, s1)

/-- Write bytes of a context for the front end, within one page. A word that lies in an AP page is not written: bytes below its tail
never change and those above it are no data yet (R133; log 64). -/
def State.frontWrite (s : State) (ctx va : Nat) (bs : List Byte) : Fronted Unit × State :=
  match s.frontPhys ctx va .write with
  | (.done pa, s1) =>
    if s1.errorReply pa then (.refused, s1.countError pa)
    else if (s1.appendPage pa).isSome then (.refused, s1)
    else (.done (), s1.homeCommit none (atAddr pa bs))
  | (.refused, s1) => (.refused, s1)
  | (.host entry, s1) => (.host entry, s1)

/-- Ask the host for a page: at most one request for each entry, and 512 in all (R383, R399). `none` while no request can be
sent. -/
def State.askHost (s : State) (ctx entry va : Nat) : Option State :=
  if s.requests.any (fun r => r.ctx = ctx && r.entry = entry) then some s
  else if 512 ≤ s.requests.length then none
  else
    let pasid := match s.part ctx with
      | some p => p.pasid
      | none => 0
    some { (s.send (.pageRequest pasid (va / 4096))) with
      requests := s.requests ++ [{ ctx := ctx, entry := entry, page := va / 4096 }] }

/-- MSI-X vector q is signalled once the device's writes are visible to the host (R118, R405). -/
def State.signal (s : State) (irq : Option Nat) : State :=
  match irq with
  | none => s
  | some q => if s.snoopsOwed then s.modHub (fun h => { h with owedIrqs := h.owedIrqs ++ [q] }) else s.send (.msix q)

/-- The front end writes bytes of a context and then signals an interrupt. While the host serves their page the write is parked,
and the interrupt with it; a refused write is not made (R143, R383, R405; log 25). -/
def State.frontStore (s : State) (ctx va : Nat) (bs : List Byte) (irq : Option Nat) : State :=
  let s0 := s.modHub (fun h => { h with owedWrites := h.owedWrites.filter (fun w => !(w.ctx = ctx && w.va = va && w.irq.isNone)) })
  match s0.frontWrite ctx va bs with
  | (.host entry, s1) =>
    let (asked, s2) := match s1.askHost ctx entry va with
      | some t => (some entry, t)
      | none => (none, s1)
    s2.modHub (fun h => { h with
      owedWrites := h.owedWrites ++ [{ ctx := ctx, va := va, bytes := bs, irq := irq, request := asked }] })
  | (_, s1) => s1.signal irq

/-- The host has answered a request: the writes parked on it are made, or refused, and those that could send no request walk again
(R383). -/
def State.payOwed (s : State) (ctx entry : Nat) (ok : Bool) : State :=
  let mine := fun (w : OwedWrite) => w.ctx = ctx && w.request = some entry
  let due := s.hub.owedWrites.filter (fun w => mine w || w.request.isNone)
  let s1 := s.modHub (fun h => { h with owedWrites := h.owedWrites.filter (fun w => !(mine w || w.request.isNone)) })
  due.foldl (fun a w => if !ok && mine w then a.signal w.irq else a.frontStore w.ctx w.va w.bytes w.irq) s1

/-- Drop the translations of a context and range from every TLB of the dies that a scope covers (R146). -/
def State.dropTranslations (s : State) (ctx : Option Nat) (va len : Nat) (dies : Nat → Bool) : State :=
  let hit := fun (e : TlbEntry) =>
    (match ctx with
      | some c => e.ctx = c
      | none => true) && va < e.va + e.size && e.va < va + len
  { s with
    cores := Tab.mapWith (fun k c => if dies (coreDie k) then { c with tlb := c.tlb.filter (fun e => !hit e) } else c) s.cores
    dies := Tab.mapWith (fun k d => if dies k then { d with tlb := d.tlb.filter (fun e => !hit e) } else d) s.dies
    pounds := Tab.mapWith
      (fun k p => if dies (k / 16) then { p with taeTlb := p.taeTlb.filter (fun e => !hit e) } else p) s.pounds }

end Sys2Proof.Machine
end

