-- ==== Sys2Proof/Machine/Life.lean ====
section
/-!
DEFINITION. How work ends and what follows: interrupts of the hub (R425), health events and demerits (R357, R358,
R368), append reservations (R131 to R135), the resolution of checks (R350 to R356), the ends of groups, teams and
clusters (R54), fatal traps (R377 to R380) and completion words (R405).
-/

namespace Sys2Proof.Machine

open Sys2Proof

/-! ## Interrupts and the health record -/

/-- An event sets its bit of IRQ_STAT, and the IRQ latch of the group that IRQ_TGT names when the bit is enabled
(R425). -/
def State.raiseIrq (s : State) (i : Nat) : State :=
  let s1 := s.modHub (fun h => { h with irqStat := h.irqStat ||| (1#7 <<< i) })
  if s1.hub.irqEn.getLsbD i then
    let core := 576 + s1.hub.irqTgt.toNat / 16
    let gid := s1.hub.irqTgt.toNat % 16
    let set := fun (_ : Nat) (g : Group) =>
      if g.core = core && g.gid = gid then { g with latch := g.latch ||| 2#2 } else g
    { s1 with groups := Tab.mapWith set s1.groups }
  else s1

/-- A new event of the health record (R368); the oldest of more than 29 leaves. -/
def State.addEvent (s : State) (kind : BitVec 8) (die site flags unit dem : Nat) (launch : Word) (check team : BitVec 32) :
    State :=
  let seq := s.hub.lastSeq + 1
  let e : HealthEvent :=
    { seq := seq, kind := kind, die := BitVec.ofNat 8 die, site := BitVec.ofNat 8 site,
      flags := BitVec.ofNat 8 flags, unit := BitVec.ofNat 8 unit, demerits := BitVec.ofNat 8 dem, launch := launch,
      check := check, team := team }
  let s1 := s.modHub (fun h => { h with lastSeq := seq, events := (h.events ++ [e]).drop (h.events.length + 1 - 29) })
  s1.raiseIrq 4

/-- The health items of a site. -/
def Die.health (d : Die) (site : Nat) : SiteHealth := Tab.read {} d.sites site

def State.modSite (s : State) (die site : Nat) (f : SiteHealth → SiteHealth) : State :=
  s.modDie die (fun d => { d with sites := Tab.write {} d.sites site (f (d.health site)) })

/-- The demerit count of a site. -/
def State.demerits (s : State) (die site : Nat) : Nat := ((s.die die).health site).demerits.toNat

/-- A counter of the health record's die block goes up by one (R366). -/
def State.countHealth (s : State) (die i : Nat) : State :=
  s.modDie die (fun d => { d with counters := setNth (nth 0 d.counters i + 1) d.counters i })

/-- The tokens of a line that a core which is being fenced holds: they come home, or a recall of them stays unanswered for
now (R119, R358). -/
def State.recallLine (s : State) (core line : Nat) : State :=
  let r := s.freeBool
  let t := s.lineTokens line
  if r.1 then
    r.2.setTokens line (t.leave core)
  else r.2.setTokens line { t with recalled := some s.now }

/-- The decision to fence a site: its caches are drained and its tokens recalled, its watches are lost, and the site is
fence-pending; a disabled site is never fenced (R16, R17, R279, R358). -/
def State.fenceDecision (s : State) (die site : Nat) (inj : Bool) : State :=
  if (s.die die).disabled.getLsbD site || (s.die die).fencePending.getLsbD site || (s.die die).fenced.getLsbD site then s
  else
    let core := die * 144 + site
    let s1 := s.modDie die (fun d => { d with fencePending := d.fencePending ||| (1#144 <<< site) })
    let lines := Tab.keys (s1.tokens.filter (fun p => (Tab.find p.2.held core).isSome))
    let s1' := lines.foldl (fun a l => a.recallLine core l) s1
    let s2 := { s1' with
      groups := Tab.mapWith (fun _ g =>
        if g.core = core && g.watch.isSome then { g with watch := none, watchLost := true } else g) s1'.groups }
    let s3 := s2.modCore core (fun c => { c with copies := [] })
    s3.addEvent 0x04 die site (natOf inj) 0xFF (s3.demerits die site) 0 0 0

/-- A charge adds to the demerit count of an enabled site (R357). -/
def State.addDemerits (s : State) (die site n : Nat) : State :=
  if (s.die die).disabled.getLsbD site then s else s.modSite die site (fun h => { h with demerits := BitVec.ofNat 4 (min 15 (h.demerits.toNat + n)) })

/-- A site whose count has reached the threshold of its die is fenced (R358). -/
def State.fenceIfDue (s : State) (die site : Nat) (inj : Bool) : State :=
  if (s.die die).thresh.toNat ≤ s.demerits die site then s.fenceDecision die site inj else s

/-- Charge a site; at the threshold of its die it is fenced (R357, R358). -/
def State.charge (s : State) (die site n : Nat) (inj : Bool) : State := (s.addDemerits die site n).fenceIfDue die site inj

/-! ## Append pages -/

/-- The published tail advances over complete reservations, as a DEV-scope release (R132). -/
def AppendDesc.publish (d : AppendDesc) : AppendDesc :=
  let rest := d.open_.dropWhile (fun r => r.written && r.check.isNone)
  { d with open_ := rest
           published := match rest with
             | r :: _ => r.offset
             | [] => d.reserved }

/-- A version of an open check covers bytes of the page: held stores, held appends, or bytes committed early whose check
is pending (R135). -/
def State.pageHeld (s : State) (page size : Nat) : Bool :=
  let inside := fun (a : Nat) => decide (page ≤ a) && decide (a < page + size)
  s.checks.any (fun p => p.2.early.any (fun b => inside b.1) ||
    p.2.runs.any (fun r => r.held.any (fun b => inside b.1) || r.appends.any (fun q => q.1 = page)))

/-- SEAL sets the sealed flag once every reservation is complete and no version covers the page (R135). -/
def State.sealNow (s : State) (page : Nat) : State :=
  match Tab.find s.appends page with
  | some d =>
    if d.arrived && !d.sealed && d.open_.isEmpty && !s.pageHeld page d.size then
      { s with appends := Tab.insert s.appends page { d with sealed := true, final := d.published } }
    else s
  | none => s

/-- Let the published tail of a page advance; the bytes it passes become visible, each reservation's as a write of the
team that appended it (R132, R278, R353). -/
def State.publish (s : State) (page : Nat) : State :=
  match Tab.find s.appends page with
  | none => s
  | some d =>
    let passed := d.open_.takeWhile (fun r => r.written && r.check.isNone)
    let s1 := { s with appends := Tab.insert s.appends page d.publish }
    passed.foldl (fun a r =>
      let as := (List.range r.len).map (fun i => page + r.offset + i)
      (a.touchWatches as).perturb r.owner as) s1

/-- A reservation's bytes are all accepted, or are kept as a held version of a check (R131, R271). -/
def State.acceptReservation (s : State) (page offset : Nat) : State :=
  { s with appends := Tab.modify s.appends page (fun d => { d with open_ := d.open_.map (fun r =>
      if r.offset = offset then { r with written := true } else r) }) }

/-- The bytes with which a reservation of a check completes: those that the committed version appends there, and zero
where it appends none (R131, R355). -/
def reservedBytes (page : Nat) (r : Reservation) (appends : List (Nat × Nat × List Byte)) : List (Nat × Byte) :=
  let bs := match appends.find? (fun p => p.1 = page && p.2.1 = r.offset) with
    | some p => p.2.2
    | none => []
  (List.range r.len).map (fun i => (page + r.offset + i, nth 0 bs i))

/-- The reservations of a check that a predicate selects are complete: with the bytes of the version that is committed,
or zero (R131). -/
def State.settleReservations (s : State) (c : Nat) (appends : List (Nat × Nat × List Byte))
    (which : Nat → Reservation → Bool) : State :=
  let mine := fun (page : Nat) (r : Reservation) => decide (r.check = some c) && which page r
  let s1 := s.appends.foldl (fun a p =>
    (p.2.open_.filter (mine p.1)).foldl (fun b r => b.homeEnter (reservedBytes p.1 r appends)) a) s
  let s2 := { s1 with appends := Tab.mapWith (fun page d => { d with open_ := d.open_.map (fun r =>
      if mine page r then { r with check := none, written := true } else r) }) s1.appends }
  (Tab.keys s2.appends).foldl State.publish s2

/-- SEAL arrives at a page's home (R135). -/
def State.sealArrive (s : State) (page : Nat) : State :=
  { s with appends := Tab.modify s.appends page (fun d => { d with arrived := true }) }

/-! ## Checks -/

/-- The flags byte of an event of a check (R368). -/
def eventFlags (inj contained detected : Bool) : Nat := natOf inj + 2 * natOf contained + 4 * natOf detected

/-- Commit what a run's version holds: its held bytes, its appends at the original's reservations and its STATUS words,
as one release, STATUS words after the rest (R411). Bytes that the original's version has committed early are not rewritten by another version. The core
stores of the run drop the lines (R108, R125, R351, R355). `all` says that the version is final, so that a reservation
for which it holds no bytes completes too. Bytes for a die in steps 4 and 5 of its warm reset get the error reply and are lost
(R436). -/
def State.commitBytes (s : State) (c r : Nat) (all : Bool) : State :=
  match s.runRec c r with
  | none => s
  | some x =>
    let early := match s.check c with
      | some y => if r = 0 then [] else y.early
      | none => []
    let words := x.statuses.flatMap (fun p => atAddr p.1 (wordBytes 8 p.2))
    let fresh := fun (ws : List (Nat × Byte)) => ws.filter (fun p => !s.silent p.1 && (Tab.find early p.1).isNone)
    let lines := ((fresh (x.held ++ words)).map (fun p => lineNo p.1)).eraseDups
    let refused := (((x.held ++ words).filter (fun p => s.silent p.1)).map (fun p => lineNo p.1)).eraseDups
    let data := (refused.foldl (fun a l => a.countError (l * 128)) s).homeCommit (some c) (fresh x.held)
    let s1 := (if words.isEmpty then data else data.commitLate (some c) (fresh words)).dropLines lines (fun k => k = x.core)
    let s2 := s1.settleReservations c x.appends
      (fun page q => all || x.appends.any (fun p => p.1 = page && p.2.1 = q.offset))
    let s3 := (x.poisons.filter lines.contains).foldl (fun a l => a.setPoison l true) s2
    s3.modRun c r (fun y => { y with held := [], appends := [], statuses := [], ways := [], poisons := [] })

/-- Commit a run's version and perform its deferred SEALs; one that meets the error reply is lost (R125, R351, R355, R438). -/
def State.commitRun (s : State) (c r : Nat) : State :=
  match s.runRec c r with
  | none => s
  | some x =>
    let s1 := s.commitBytes c r true
    let s2 := x.seals.foldl (fun a f => if a.errorReply f then a.countError f else (a.sealArrive f).sealNow f) s1
    s2.modRun c r (fun y => { y with seals := [] })

/-- A pound that no team and no block occupies any more counts its idle time from now (R421). -/
def State.markIdle (s : State) (core : Nat) : State :=
  if core < 576 then
    let p := corePound core
    let busy := s.teams.any (fun x => x.2.residency = .resident && x.2.core < 576 && corePound x.2.core = p)
    if busy || !(s.pound p).blocks.isEmpty then s else s.modPound p (fun x => { x with idleSince := s.now })
  else s

/-- Blocks leave a pound's queue; its idle time counts from now (R421). -/
def Pound.dropBlocks (p : Pound) (out : Nat → Bool) (now : Nat) : Pound :=
  if p.blocks.any out then { p with blocks := p.blocks.filter (fun c => !out c), idleSince := now } else p

/-- Clusters leave the pounds that queue them. -/
def State.dropBlocks (s : State) (out : Nat → Bool) : State :=
  { s with pounds := Tab.mapWith (fun _ p => p.dropBlocks out s.now) s.pounds }

/-- A cluster has not been admitted yet: it stands at the front end, at a distributor or in a pound's queue. -/
def ClusterState.unstarted : ClusterState → Bool
  | .frontEnd => true
  | .distributor => true
  | .pound _ => true
  | _ => false

/-- A cluster leaves the pound that queues it. -/
def State.unqueue (s : State) (c : Nat) : State := s.dropBlocks (· == c)

/-- A cluster that has not started is withdrawn. -/
def State.withdraw (s : State) (c : Nat) : State :=
  let s1 := s.unqueue c
  { s1 with clusters := Tab.remove s1.clusters c }

/-- The unstarted clusters of a launch. -/
def State.unstartedOf (s : State) (seq : Nat) : List Nat :=
  (s.clusters.filter (fun p => p.2.launch = seq && p.2.state.unstarted)).map Prod.fst

/-- A team that owned its core's array leaves it unowned and unreadable; an MMA.pair that has reached it still works on it until it
retires (R297, R311). -/
def State.dropArray (s : State) (core team : Nat) : State :=
  if (s.core core).owner = some team then
    let used := s.ops.any (fun p => p.2.follower = some team)
    s.modCore core (fun c => { c with owner := none, array := if used then c.array else {} })
  else s

/-- Take a team out of the machine with its groups and engine operations. -/
def State.removeTeam (s : State) (t : Nat) : State :=
  match s.team t with
  | none => s
  | some x =>
    let s1 : State :=
      { s with
        groups := s.groups.filter (fun p => p.2.team != t)
        ops := s.ops.filter (fun p => p.2.team != t)
        teams := Tab.remove s.teams t }
    let s2 := s1.dropArray x.core t
    let s3 := s2.modHub (fun h => { h with stopped := h.stopped.filter (fun p => (Tab.find s2.groups p.1).isSome) })
    if x.residency = .resident then s3.markIdle x.core else s3

/-- A check's entry is freed: later runs stop, their teams go, the original's team is no longer held, and the spill
units return (R350, R353). -/
def State.freeCheck (s : State) (c : Nat) : State :=
  match s.check c with
  | none => s
  | some x =>
    let later := (Tab.keys s.teams).filter (fun t => match s.team t with
      | some y => match y.run with
        | some (d, r) => d = c && 0 < r
        | none => false
      | none => false)
    let s1 := later.foldl State.removeTeam s
    let forget := fun (_ : Nat) (y : Team) => match y.run with
      | some (d, _) => if d = c then { y with run := none } else y
      | none => y
    let s2 := { s1 with teams := Tab.mapWith forget s1.teams }
    let s3 := s2.modPart x.ctx (fun p => { p with spillUnits := p.spillUnits - x.units })
    let s4 := s3.settleReservations c [] (fun _ _ => true)
    { s4 with checks := Tab.remove s4.checks c }

/-- The core of a run. -/
def Check.coreOf (c : Check) (r : Nat) : Nat := match c.runs[r]? with
  | some x => x.core
  | none => 0

/-- End a check with the original's version committed unchecked (R350, R353, R355): counter 4 PERTURBED or 5
UNCHECKED. -/
def State.endUnchecked (s : State) (c counter : Nat) : State :=
  match s.check c with
  | none => s
  | some x => (((s.commitRun c 0).countHealth x.die 0).countHealth x.die counter).freeCheck c

/-- The capacity of a partition's version spill area in units (R350). -/
def Partition.spillCapacity (p : Partition) : Nat := (p.spillSize - p.spillSize / 64) / 128

/-- Take spill units for a check; while the area is full, the oldest OPEN, QUEUED or REPLAY check of the partition is
released unchecked (R350). -/
def State.takeUnits : Nat → State → Nat → Nat → State
  | 0, s, _, _ => s
  | fuel + 1, s, c, n =>
    match s.check c with
    | none => s
    | some x =>
      match s.part x.ctx with
      | none => s
      | some p =>
        if p.spillUnits + n ≤ p.spillCapacity then
          (s.modPart x.ctx (fun p => { p with spillUnits := p.spillUnits + n })).modCheck c
            (fun y => { y with units := y.units + n })
        else
          match s.checks.find? (fun q => q.2.ctx = x.ctx &&
              (q.2.state = CheckState.open_ || q.2.state = CheckState.queued || q.2.state = CheckState.replay)) with
          | some (k, _) => State.takeUnits fuel (s.endUnchecked k 5) c n
          | none => s

/-- Take spill units with as many releases as there are checks. -/
def State.spill (s : State) (c n : Nat) : State := State.takeUnits (s.checks.length + 1) s c n

/-! ## Completion of launches -/

/-- The completion word (R405). -/
def completionWord (status arg seq : Nat) : Word :=
  BitVec.ofNat 64 (status * 2 ^ 56 + min arg 0xFFFF * 2 ^ 40 + seq % 2 ^ 40)

/-- Write a completion word as a SYS-scope release and signal the MSI-X vector once the word is visible (R55, R118, R405). Where the word's
page is refused, no word is written; while the host serves it, the word is parked (R143, R383; log 25). -/
def State.complete (s : State) (ctx : Nat) (cw : Word) (irq : Bool) (q : Nat) (word : Word) : State :=
  let s1 := [0, 1, 2, 3, 4].foldl State.drainAll s
  let vector := if irq then some q else none
  if cw = 0 then s1.signal vector else s1.frontStore ctx cw.toNat (wordBytes 8 word) vector

/-- The IDE stream, 0 to 3, on which a TLP comes, or none, is free; a TLP of a stream in the error state is discarded (R397, R408;
log 82). -/
def State.onLink (s : State) (act : State → State) : State :=
  if s.hub.ide.any (fun p => p.2.err) then
    let (n, s1) := s.freeNat
    if (Tab.read {} s.hub.ide (n % 5)).err then s1 else act s1
  else act s

/-- Clusters of a launch (R40). -/
def LaunchRecord.clusters (r : LaunchRecord) : Nat := r.gridx.toNat * r.gridy.toNat * r.gridz.toNat

/-- Lanes of a group (R40). -/
def LaunchRecord.lanes (r : LaunchRecord) : Nat := if r.width = 0 then 16 else if r.width = 1 then 32 else 64

/-- Sites of the cluster shape (R40). -/
def LaunchRecord.sites (r : LaunchRecord) : Nat := r.clw.toNat * r.clh.toNat

/-- Vector registers per lane (R40). -/
def LaunchRecord.registers (r : LaunchRecord) : Nat := r.vregs.toNat * 8

/-- PAIRED, FULLCLUSTER, ABORTONTRAP (R40). -/
def LaunchRecord.paired (r : LaunchRecord) : Bool := r.attr.getLsbD 0
def LaunchRecord.full (r : LaunchRecord) : Bool := r.attr.getLsbD 1
def LaunchRecord.abortOnTrap (r : LaunchRecord) : Bool := r.attr.getLsbD 2

/-- The redundancy level, policy and XDIE (R40). -/
def LaunchRecord.level (r : LaunchRecord) : Nat := (r.redund.extractLsb' 0 3).toNat
def LaunchRecord.policy (r : LaunchRecord) : Nat := (r.redund.extractLsb' 3 2).toNat
def LaunchRecord.xdie (r : LaunchRecord) : Bool := r.redund.getLsbD 5

/-- Every cluster of a launch has been sent and none has come back to the front end, or no more will be sent (R321,
R436). -/
def State.allSent (s : State) (seq : Nat) (l : Launch) : Bool :=
  l.closed || (l.sent = l.record.clusters &&
    !s.clusters.any (fun p => p.2.launch = seq && p.2.state = .frontEnd))

/-- A launch's state after one of its clusters exits or is withdrawn (R321). -/
def State.advanceLaunch (s : State) (seq : Nat) : State :=
  match s.launch seq with
  | none => s
  | some l =>
    let live := s.clusters.any (fun p => p.2.launch = seq)
    if s.allSent seq l && (l.state = .placing || l.state = .running || l.state = .ready || l.state = .resolving) then
      s.modLaunch seq (fun x => { x with state := if live then .running else .resolving })
    else s

/-! ## Ends of groups, teams and clusters -/

/-- A cluster exits when all its teams have exited; its scratchpads, basins and barriers go with it (R54). -/
def State.clusterExit (s : State) (k : Nat) : State :=
  match s.cluster k with
  | none => s
  | some c =>
    if c.teams.all (fun t => match s.team t with
        | some x => x.residency = .exited
        | none => true) then
      let s1 := c.teams.foldl State.removeTeam s
      let s2 := { s1 with clusters := Tab.remove s1.clusters k }
      (s2.modLaunch c.launch (fun l => { l with exited := l.exited + 1 })).advanceLaunch c.launch
    else s

/-- A team whose last group has ended exits (R54, R345, R347). -/
def State.teamExit (s : State) (k : Nat) : State :=
  match s.team k with
  | none => s
  | some t =>
    let s1 := s.modTeam k (fun x => { x with residency := .exited, energy := 0, current := 0, arraySave := none, saveSlot := false })
    let s2 := s1.dropArray t.core k
    let s3 := match t.run with
      | some (c, r) =>
        let reg := match t.runEnd with
          | some (code, slot) => BitVec.ofNat 64 (code % 2 ^ 16 + slot % 2 ^ 48 * 2 ^ 16)
          | none => t.regSig
        let s4 := s2.modRun c r (fun x => { x with exited := true, team := none, storeSig := t.storeSig, regSig := reg })
        if r = 0 then
          s4.modCheck c (fun x => { x with
            state := (if x.state = CheckState.open_ then CheckState.queued else x.state)
            exitedAt := some s.now })
        else s4
      | none => s2
    let s5 := match t.cluster with
      | some c => s3.clusterExit c
      | none => s3.removeTeam k
    s5.markIdle t.core

/-- The contribution of a group to its run's register signature (R349). -/
def Group.signature (g : Group) : Word := sigCrc (leBytes 2 g.gid ++ wordBytes 8 g.sig)

/-- A group ends: its registers go, its signature is folded, and its team exits when it was the last (R54, R349). -/
def State.endGroup (s : State) (k : Nat) : State :=
  match s.group k with
  | none => s
  | some g =>
    let s1 := { s with groups := Tab.remove s.groups k }
    let s2 := s1.modHub (fun h => { h with stopped := h.stopped.filter (fun p => p.1 != k) })
    let s3 := s2.modTeam g.team (fun t => { t with groups := t.groups.filter (· != k), regSig := t.regSig + g.signature })
    match s3.team g.team with
    | some t => if t.groups.isEmpty then s3.teamExit g.team else s3
    | none => s3

/-! ## Fatal traps -/

/-- The cause word (R375). `dbl` says the trap was taken in handler state. -/
def Cause.word (c : Cause) (dbl : Bool) : BitVec 32 :=
  BitVec.ofNat 32 (c.code % 256 + 256 * natOf c.deferred + 512 * natOf c.entry + 1024 * natOf c.imprecise +
    2048 * natOf dbl + (match c.engine with
      | some cls => 4096 * cls.toNat + 16384
      | none => 0) + c.arg % 65536 * 65536)

/-- %teamid of a team (R39). -/
def Team.teamId (t : Team) : Nat := t.clusterId * 16 + t.member

/-- An operation of the group is outstanding whose completion does more than write the group's registers. -/
def Group.owesTask (g : Group) : Bool := g.flights.any (fun f => match f.task with
  | .plain => false
  | .special => false
  | .mapping => false
  | .flush => false
  | _ => true)

/-- A group stops for good: it ends at once, or when its outstanding operations have completed (R378). -/
def State.stopGroup (s : State) (k code : Nat) : State :=
  match s.group k with
  | none => s
  | some g =>
    if g.owesTask then
      s.modGroup k (fun x => { x with doomed := some code, clause := none, wait := none, parked := none, exiting := none,
                                      hidden := none, handler := false, debugStop := false, holding := false })
    else s.endGroup k

/-- Every group of a team ends: a waiting one at once, one in the middle of a clause, parked on a walk or not, at its next
boundary (R58, R378). -/
def State.stopTeam (s : State) (t code : Nat) : State :=
  match s.team t with
  | none => s
  | some x =>
    let s1 := { s with ops := s.ops.filter (fun p => p.2.team != t) }
    x.groups.foldl (fun a k =>
      match a.group k with
      | some g =>
        if g.clause.isSome && !g.debugStop then a.modGroup k (fun y => { y with doomed := some code })
        else a.stopGroup k code
      | none => a) s1

/-- An original's check ends at a fatal trap: its version is discarded, without a replica and without a demerit
(R347, R379). -/
def State.discardCheck (s : State) (c : Nat) : State :=
  match s.check c with
  | none => s
  | some x => ((s.modRun c 0 (fun y => { y with held := [], appends := [], seals := [], statuses := [], ways := [], poisons := [] })).countHealth
      x.die 0).freeCheck c

/-- ABORTONTRAP: no further cluster is placed and every running team of the launch ends with cause 0x30 (R380). -/
def State.abortLaunch (s : State) (seq : Nat) : State :=
  let s1 := s.modLaunch seq (fun l => { l with aborted := true, closed := true })
  let teams := (Tab.keys s1.teams).filter (fun t => match s1.team t with
    | some x => x.launch = some seq && x.residency != .exited
    | none => false)
  let s2 := teams.foldl (fun a t => a.stopTeam t 0x30) s1
  ((s2.unstartedOf seq).foldl State.withdraw s2).advanceLaunch seq

/-- A fatal trap of a group ends its whole team (R378 to R380). -/
def State.fatalTrap (s : State) (k : Nat) (c : Cause) (dbl : Bool) (slot : Nat) : State :=
  match s.group k with
  | none => s
  | some g =>
    match s.team g.team with
    | none => s.stopGroup k c.code
    | some t =>
      match t.run with
      | some (_, _ + 1) =>
        ((s.modTeam g.team (fun x => { x with fatal := true, runEnd := some (c.code, slot) })).stopGroup k c.code).stopTeam g.team c.code
      | _ =>
        let s1 := s.modTeam g.team (fun x => { x with fatal := true })
        let s2 := match t.launch with
          | some seq => s1.modLaunch seq (fun l => { l with
              traps := l.traps + 1
              report := match l.report with
                | some r => some r
                | none => some (c.word dbl, BitVec.ofNat 32 t.teamId, BitVec.ofNat 64 slot) })
          | none => s1
        let s3 := match t.run with
          | some (chk, _) => s2.discardCheck chk
          | none => s2
        let s4 := (s3.stopGroup k c.code).stopTeam g.team c.code
        match t.launch with
        | some seq =>
          match s4.launch seq with
          | some l => if l.record.abortOnTrap && !l.aborted then s4.abortLaunch seq else s4
          | none => s4
        | none => s4

end Sys2Proof.Machine
end

