-- ==== Sys2Proof/Machine/Ops.lean ====
section
/-!
DEFINITION. The shared operations on a group: moving past an instruction, taking a trap and returning from it (R374 to
R377), parking on a walk (R381), putting a long-latency operation in flight and completing it (R158, R159).
-/

namespace Sys2Proof.Machine

open Sys2Proof

/-! ## Moving on -/

/-- The boundary of a clause has issued: the group stands at slot 0 of the next line, or at a branch target, and its
next clause is a fresh one (R155, R157, R160). -/
def Group.endClause (g : Group) (now target : Nat) (yld : Bool) : Group :=
  { g with clause := none, pc := target, replay := none, replayOps := [], walkFaults := [], holding := false, age := now, yielded := yld }

/-- Move past an instruction that has issued (R155, R157). -/
def Group.advance (g : Group) (now : Nat) (w : Slot) : Group :=
  if w.bnd then g.endClause now (nextLine g.pc) w.yld
  else
    { g with
      pc := nextSlot g.pc
      clause := g.clause.map (fun c => { c with rest := c.rest.drop 1 })
      replay := none
      replayOps := []
      walkFaults := []
      holding := false }

/-- A group that is to end with its team ends at its clause boundary (R378, R380). -/
def State.settleDoom (s : State) (k : Nat) : State :=
  match s.group k with
  | some g => if g.doomed.isSome && g.clause.isNone && !g.owesTask then s.endGroup k else s
  | none => s

/-- Move group k past the instruction it has issued. -/
def State.advance (s : State) (k : Nat) (w : Slot) : State :=
  (s.modGroup k (fun g => g.advance s.now w)).settleDoom k

/-- Group k has taken a branch as its clause's boundary (R196). -/
def State.branchTo (s : State) (k : Nat) (w : Slot) (target : Nat) : State :=
  (s.modGroup k (fun g => g.endClause s.now target w.yld)).settleDoom k

/-- An instruction waits at issue, holding its pipe and the rest of its clause (R58). -/
def State.hold (s : State) (k : Nat) : State := s.modGroup k (fun g => { g with holding := true })

/-! ## Traps -/

/-- The handler entry that governs a group (R373, R424, R426). -/
def State.handlerEntry (s : State) (g : Group) : Option Nat :=
  if 576 ≤ g.core then (if s.hub.hentry = 0 then none else some s.hub.hentry.toNat)
  else
    match s.part g.ctx with
    | some p => p.hentry
    | none => none

/-- A register is s1, s2 or s3. -/
def DestReg.onTrap : DestReg → Bool
  | .scalar r => 1 ≤ r && r ≤ 3
  | .vec _ => false

/-- A flight's destination includes s1, s2 or s3 (R374). -/
def Flight.touchesTrap (f : Flight) : Bool := f.dests.any DestReg.onTrap

/-- A completion that only writes the group's registers and flags. -/
def Task.writesOnly : Task → Bool
  | .plain => true
  | .special => true
  | .mapping => true
  | _ => false

/-- Complete a flight that leaves no task: its writes and flags take effect, its fault is owed, its flag's count falls
(R158, R86, R264). -/
def Group.land (g : Group) (f : Flight) : Group :=
  let g1 : Group := match f.fault with
    | some c => { g with owed := g.owed ++ [{ flag := f.flag, slot := f.slot, cause := c }] }
    | none => { f.writes.foldl Group.apply g with fpstat := g.fpstat ||| f.fp }
  let g2 := g1.setFlag f.flag (g1.flag f.flag - 1)
  { g2 with flights := g2.flights.filter (fun x => x.op != f.op) }

/-- Trap entry waits for the flights whose destination includes s1 to s3, and clears those registers' marks (R374). -/
def Group.settleTrapRegs (g : Group) : Group :=
  let g1 := (g.flights.filter (fun f => f.touchesTrap && f.task.writesOnly)).foldl Group.land g
  { g1 with marks := g1.marks.filter (fun m => !m.reg.onTrap) }

/-- Some flight into s1 to s3 has a task that only its completion event can end. -/
def Group.trapMustWait (g : Group) : Bool := g.flights.any (fun f => f.touchesTrap && !f.task.writesOnly)

/-- Registers, mode and program counter at trap entry (R374). -/
def Group.enterHandler (g : Group) (entry now : Nat) (c : Cause) (slot : Nat) (resume : Resume) : Group :=
  let g1 := g.settleTrapRegs
  let h : Hidden := { s1 := g1.s 1, s2 := g1.s 2, s3 := g1.s 3, q15 := g1.q 15, resume := resume, slot := slot,
                      own := g1.replayOps, cause := c }
  let g2 := ((g1.setS 1 ((c.word false).zeroExtend 64)).setS 2 c.faddr).setS 3 (BitVec.ofNat 64 slot)
  let g3 := g2.setQ 15 c.lanes
  { g3 with
    hidden := some h
    handler := true
    pc := entry
    clause := none
    replay := none
    replayOps := []
    walkFaults := []
    holding := false
    barTrap := false
    wait := none
    exiting := none
    gtimer := (if c.code = 0x0C then 0 else g3.gtimer)
    age := now }

/-- Taking a trap (R374, R377): the one operation by which every trap and fault is taken. It is fatal without a handler
entry and in handler state; a group that is to end with its team ends there (R378); entry waits while a flight into s1
to s3 waits for its own completion event. -/
def State.takeTrap (s : State) (k : Nat) (c : Cause) (slot : Nat) (resume : Resume) : State :=
  match s.group k with
  | none => s
  | some g =>
    match g.doomed, s.handlerEntry g with
    | some code, _ => s.stopGroup k code
    | none, none => s.fatalTrap k c g.handler slot
    | none, some entry =>
      if g.handler then s.fatalTrap k c true slot
      else if g.trapMustWait then s.hold k
      else s.setGroup k (g.enterHandler entry s.now c slot resume)

/-- The clause in progress, with the trapping instruction at its head. -/
def Group.clauseHere (g : Group) : ClausePos :=
  match g.clause with
  | some c => c
  | none =>
    match g.wait with
    | some w => { entry := w.slot, header := w.header, rest := [(w.slot, w.word)] }
    | none =>
      match g.exiting with
      | some w => { entry := w.slot, header := w.header, rest := [(w.slot, w.word)] }
      | none => { entry := g.pc, header := 0, rest := [] }

/-- A trap from TRAP or DBRK resumes after the instruction (R218). -/
def Cause.skips (c : Cause) : Bool := c.code = 0x0A || c.code = 0x0B

/-- A trap at the instruction that group k issues or waits at (R161, R371). -/
def State.trapAt (s : State) (k : Nat) (c : Cause) : State :=
  match s.group k with
  | none => s
  | some g =>
    let slot := match g.wait, g.exiting with
      | some w, _ => w.slot
      | none, some w => w.slot
      | none, none => g.pc
    s.takeTrap k c slot (.instruction g.clauseHere c.skips)

/-- A trap at the entry slot of a clause (R371): no instruction of the clause takes effect. `reported` is the slot
address that s3 receives. -/
def State.trapEntry (s : State) (k : Nat) (c : Cause) (reported : Nat) : State :=
  match s.group k with
  | none => s
  | some g => s.takeTrap k { c with lanes := g.q0, entry := true } reported (.entrySlot g.pc)

/-- Return from a handler (R376, R218): restore s1, s2, s3 and q15, leave handler state, and resume with the lanes that
q15 held, or after the instruction. Engine operations of the group that a fault stopped go on (R295). -/
def Group.returnFrom (g : Group) (h : Hidden) (now : Nat) (skip : Bool) : Group :=
  let mask := g.q 15
  let g1 := (((g.setS 1 h.s1).setS 2 h.s2).setS 3 h.s3).setQ 15 h.q15
  let g2 := { g1 with hidden := none, handler := false, walkFaults := [], holding := false, age := now }
  match h.resume with
  | .entrySlot slot => { g2 with clause := none, pc := slot, replay := none }
  | .instruction c sk =>
    if skip || sk || mask = 0 then
      match c.rest with
      | [] => { g2 with clause := none, pc := nextLine h.slot, replay := none }
      | [(a, _)] => { g2 with clause := none, pc := nextLine a, replay := none }
      | _ :: (a, x) :: r => { g2 with clause := some { c with rest := (a, x) :: r }, pc := a, replay := none }
    else
      match c.rest with
      | [] => { g2 with clause := none, pc := h.slot, replay := none }
      | (a, x) :: r => { g2 with clause := some { c with rest := (a, x) :: r }, pc := a, replay := some mask,
                                   replayOps := h.own }

/-- The bytes of a queue's header in the engine-queue area (R294). -/
def EngineQueue.header (q : EngineQueue) : List Byte :=
  let code := match q.fault with
    | some c => 2 + 256 * c
    | none => 0
  leBytes 8 q.issued ++ leBytes 8 q.retired ++ leBytes 8 q.prog ++ leBytes 4 (code + (if q.halted then 1 else 0)) ++
    List.replicate 36 0

/-- Write the entries of a queue from number `i` on: what an entry holds is free, for only the device reads it (R294). -/
def State.writeEntries (s : State) (ctx base : Nat) : Nat → Nat → State
  | _, 0 => s
  | i, n + 1 =>
    let (v, s1) := s.freeNat
    (s1.frontStore ctx (base + 64 + 64 * i) (leBytes 64 v) none).writeEntries ctx base (i + 1) n

/-- The device writes a queue's header and entries, as the class stops at a step boundary (R294, log 45). -/
def State.writeQueue (s : State) (team : Nat) (c : EngineClass) : State :=
  match s.team team with
  | some t =>
    (match s.part t.ctx with
    | some p =>
      let base := p.eqBase + 16384 * t.area + 4096 * c.index
      let n := (s.ops.filter (fun o => o.2.team = team && o.2.cls = c)).length
      (s.frontStore t.ctx base (t.engineQueue c).header none).writeEntries t.ctx base 0 n
    | none => s)
  | none => s

/-- The engines of a team stop at step boundaries: each class with an unretired operation is halted and written, also one that
a fault of one of its operations has halted before (R294, R295). -/
def State.stopQueues (s : State) (team : Nat) : State :=
  [EngineClass.copy, .gather, .coll, .matrix].foldl (fun a c =>
    match a.team team with
    | some _ =>
      if a.ops.any (fun o => o.2.team = team && o.2.cls = c) then
        (a.modTeam team (fun x => x.modEngineQueue c (fun q => { q with halted := true }))).writeQueue team c
      else a
    | none => a) s

/-- The engines of a team go on: a class stays halted only at a fault (R295). -/
def State.resumeQueues (s : State) (team : Nat) : State :=
  s.modTeam team (fun t => { t with queues := Tab.mapWith (fun _ q => { q with halted := q.fault.isSome }) t.queues })

/-- A class of a team still stands at a fault: one of its operations is stopped, a group has a fault of it to take, or the
array is stopped for good (R295, R316). -/
def State.classFaulted (s : State) (team : Nat) (t : Team) (c : Nat) : Bool :=
  s.ops.any (fun p => p.2.team = team && p.2.cls.index = c && p.2.stopped) ||
  s.groups.any (fun p => p.2.team = team && p.2.engFaults.any (fun f => f.2.engine = some (BitVec.ofNat 2 c))) ||
  (c = 3 && t.arrayStop.isSome)

/-- The engine operations of a group that a fault stopped go on from their PROG, once their fault has been taken; the headers
of the classes that no fault holds any more say so (R294, R295, R376). -/
def State.resumeEngines (s : State) (k : Nat) : State :=
  match s.group k with
  | none => s
  | some g =>
    let owed := g.engFaults.map Prod.fst
    let go := fun (i : Nat) (o : EngineOp) => o.group = k && o.stopped && !owed.contains i
    let s1 := { s with ops := Tab.mapWith (fun i o => if go i o then { o with stopped := false } else o) s.ops }
    s1.modTeam g.team (fun t => { t with queues := Tab.mapWith (fun c q =>
      if q.fault.isSome && !s1.classFaulted g.team t c then { q with halted := false, fault := none } else q) t.queues })

/-! ## Parking -/

/-- A group stops at an instruction whose translations need a walk; no lane performs anything (R381). -/
def State.park (s : State) (k : Nat) (needs : List (Nat × AccessKind)) : State :=
  s.modGroup k (fun g => { g with parked := some { needs := needs, request := none, since := s.now } })

/-! ## Long-latency operations -/

/-- The flag that an instruction's SF names in its clause's header (R158). -/
def Group.flagOf (g : Group) (w : Slot) : Nat :=
  match w.sf with
  | .none => 15
  | .setA => (headerSetA g.clauseHere.header).toNat
  | .setB => (headerSetB g.clauseHere.header).toNat

/-- Put a long-latency operation in flight: its flag's count rises and its destinations become pending (R158, R159). -/
def Group.depart (g : Group) (w : Slot) (dests : List DestReg) (writes : List RegWrite) (fp : BitVec 7)
    (fault : Option Cause) (task : Task) : Group :=
  let f := g.flagOf w
  let g1 := g.setFlag f (g.flag f + 1)
  { g1 with
    marks := g1.marks ++ (dests.filter (fun d => d != .scalar 0)).map (fun d => { reg := d, flag := f, slot := g.pc, op := g.nextOp })
    flights := g1.flights ++ [{ op := g.nextOp, flag := f, slot := g.pc, writes := writes, fp := fp, fault := fault
                                task := task, dests := dests }]
    nextOp := g.nextOp + 1 }

/-! ## Energy -/

/-- Rails' factors in thousandths (R330). -/
def vecFactor (p : BitVec 2) : Nat := nth 1000 [1000, 800, 660, 540] p.toNat
def matFactor (p : BitVec 2) : Nat := nth 1000 [1000, 830, 680, 550] p.toNat

/-- The number of the control interval (R330). -/
def State.intervalNow (s : State) : Nat := s.now / 1000

/-- The factor of a rail: the greater of those of its old and new points while a change is in progress (R330, R418). -/
def pointFactor (f : BitVec 2 → Nat) (busy : Bool) (old new now : BitVec 2) : Nat :=
  if busy then max (f old) (f new) else f now

/-- F of the current interval, in thousandths: of every change of the rails that the interval overlaps, in progress or ended in
it, the factors of the faster points count (R330, R418). -/
def State.factor (s : State) : Nat :=
  let h := s.hub
  let f := max (pointFactor vecFactor h.railBusy h.railOldVec h.railCtlVec h.railVec)
    (pointFactor matFactor h.railBusy h.railOldMat h.railCtlMat h.railMat)
  if h.railEnd = some s.intervalNow then max f (max (vecFactor h.railPastVec) (matFactor h.railPastMat)) else f

/-- The mint of an interval, from the energy in pJ that the die measured beside its tokens; F is given in thousandths
(R330). -/
def mintOf (measured factor : Nat) : Nat := max 6250000 ((800000000 - measured) * 1000 / (16 * factor))

/-- The tokens of an interval that is over count with its F (R336). -/
def Partition.settleInterval (p : Partition) (now : Nat) : Partition :=
  if p.energyInterval = now / 1000 then p
  else { p with
    energyAcc := p.energyAcc + p.energyTokens * p.energyFactor
    energyTokens := 0
    energyFactor := 0
    energyInterval := now / 1000 }

/-- At a millisecond boundary of %clock %energy takes the whole millijoules counted up to it; 62,500,000,000 units of 16 fJ are
one millijoule (R336). -/
def Partition.settleMs (p : Partition) (now : Nat) : Partition :=
  let q := p.settleInterval now
  if q.energyAt < now / 1000000 then { q with energy := q.energyAcc / 62500000000, energyAt := now / 1000000 } else q

/-- Tokens drawn by a context's work count towards its %energy (R336). -/
def State.countEnergy (s : State) (ctx tokens : Nat) : State :=
  s.modPart ctx (fun p =>
    let q := p.settleMs s.now
    { q with energyTokens := q.energyTokens + tokens, energyFactor := max q.energyFactor s.factor })

end Sys2Proof.Machine
end

