-- ==== Sys2Proof/Machine/Operands.lean ====
section
/-!
DEFINITION. Operands: special registers (R172, R214), scalar and per-lane source values (R170, R187), and the kinds of
fields that an instruction accepts (R169).
-/

namespace Sys2Proof.Machine

open Sys2Proof

/-! ## Special registers -/

/-- %coreid (R24). -/
def State.coreId (s : State) (core : Nat) : Nat :=
  if core < 576 then
    match (s.die (coreDie core)).logicalId (coreSite core) with
    | some l => coreDie core * 128 + l
    | none => coreDie core * 128 + 0xFF
  else 512 + (core - 576)

/-- A site has no partner in service (R13). -/
def Die.unpaired (d : Die) (site : Nat) : Bool := !d.siteUp (partnerSite site)

/-- %pair (R24). -/
def State.pairId (s : State) (core : Nat) : Nat :=
  if core < 576 then
    let d := s.die (coreDie core)
    if d.unpaired (coreSite core) then 0xFF
    else match d.logicalId (partnerSite (coreSite core)) with
      | some l => l
      | none => 0xFF
  else 0xFF

/-- A word of a 144-bit mask (R19). -/
def maskWord (m : BitVec 144) (w : Nat) : Word := BitVec.ofNat 64 (m.toNat / 2 ^ (64 * w) % 2 ^ 64)

/-- A word of %harvest4 (R19). -/
def State.fenceWord (s : State) (die w : Nat) : Word :=
  if 4 ≤ die then 0
  else
    let d := s.die die
    if w = 2 then maskWord d.fenced 2 ||| BitVec.ofNat 64 (d.fenceGen.toNat * 2 ^ 48) else maskWord d.fenced w

/-- A word of %lpt (R21). -/
def State.lptWord (s : State) (die w : Nat) : Word :=
  if 4 ≤ die then 0xFFFFFFFFFFFFFFFF#64 else bytesWord (((s.die die).lpt.drop (8 * w)).take 8)

/-- %redund (R340). -/
def State.redund (s : State) (g : Group) : Word :=
  match s.team g.team with
  | some t =>
    match t.launch with
    | some seq =>
      match s.launch seq with
      | some l => (l.record.redund.extractLsb' 0 6).zeroExtend 64 ||| (if t.checked then 0x40#64 else 0)
      | none => 0
    | none => 0
  | none => 0

/-- %energy of a context (R336). -/
def State.energyOf (s : State) (ctx : Nat) : Nat := match s.part ctx with
  | some p => (p.settleMs s.now).energy
  | none => 0

/-- The team of a group, with a default for a group without one. -/
def State.teamOf (s : State) (g : Group) : Team := (s.team g.team).getD { core := g.core }

/-- What a special register number names (R172). -/
inductive SpecialKind where
  | cbit (i : Nat)
  | qreg (i : Nat)
  | laneid
  | value
  | unassigned
  deriving DecidableEq, Repr

/-- The assigned special registers (R172). -/
def specialKind (n : Nat) : SpecialKind :=
  if n < 8 then .cbit n
  else if 0x10 ≤ n ∧ n < 0x20 then .qreg (n - 0x10)
  else if n = 0x40 then .laneid
  else if (0x20 ≤ n ∧ n ≤ 0x2B) ∨ (0x30 ≤ n ∧ n ≤ 0x32) ∨ n = 0x34 ∨ n = 0x35 ∨ (0x41 ≤ n ∧ n ≤ 0x49) ∨
      (0x50 ≤ n ∧ n ≤ 0x54) ∨ n = 0x58 ∨ n = 0x60 ∨ n = 0x61 ∨ (0x70 ≤ n ∧ n ≤ 0x74) ∨ n = 0x78 ∨ n = 0x80 then .value
  else .unassigned

/-- The Source column of R172. -/
def specialIsSource (n : Nat) : Bool :=
  n < 8 || (0x10 ≤ n && n < 0x20) || (0x40 ≤ n && n ≤ 0x49) || (0x50 ≤ n && n ≤ 0x52)

/-- Words that SRDS selects of a register (R214). -/
def specialWords (n : Nat) : Nat := if 0x70 ≤ n ∧ n ≤ 0x74 then 3 else if n = 0x78 then 16 else 1

/-- The value of a register that holds one value per group (R172, R214). -/
def State.special (s : State) (g : Group) (n word : Nat) : Word :=
  let t := s.teamOf g
  let ofN := fun (x : Nat) => BitVec.ofNat 64 x
  match specialKind n with
  | .cbit i => if g.c i then 1 else 0
  | .qreg i => g.q i
  | .laneid => 0
  | .unassigned => 0
  | .value =>
    if n ≤ 0x2B then ofN (g.flag (n - 0x20))
    else if n = 0x30 then ofN g.mxcnt
    else if n = 0x31 then ofN g.gacnt
    else if n = 0x32 then ofN g.cocnt
    else if n = 0x34 then ofN g.cbopen
    else if n = 0x35 then ofN g.cbdone
    else if n = 0x41 then ofN g.width
    else if n = 0x42 then ofN g.gid
    else if n = 0x43 then ofN t.member
    else if n = 0x44 then ofN t.clusterId
    else if n = 0x45 then ofN t.teamId
    else if n = 0x46 then ofN (s.coreId g.core)
    else if n = 0x47 then ofN (coreDie g.core)
    else if n = 0x48 then ofN (s.pairId g.core)
    else if n = 0x49 then ofN g.ctx
    else if n = 0x50 then ofN s.now
    else if n = 0x51 then ofN (s.core g.core).cycles
    else if n = 0x52 then ofN (g.gtime s.now)
    else if n = 0x53 then g.gtimer
    else if n = 0x54 then ofN (s.energyOf g.ctx)
    else if n = 0x58 then g.fpstat.zeroExtend 64
    else if n = 0x60 then s.redund g
    else if n = 0x61 then g.sig
    else if n ≤ 0x73 then maskWord (s.die (n - 0x70)).disabled word
    else if n = 0x74 then s.fenceWord (coreDie g.core) word
    else if n = 0x78 then s.lptWord (coreDie g.core) word
    else Tab.read 0 s.ptroots g.ctx

/-! ## Source values -/

/-- The value of a scalar source, before it is cut to the operating width (R170, R187). -/
def State.scalarSource (s : State) (g : Group) (w : Slot) (o : Operand) : Word :=
  match o with
  | .vec _ => 0
  | .scalar i => g.s i.toNat
  | .special n => s.special g n.toNat 0
  | .imm v => if v = 0x200 then w.imm.signExtend 64 else v.signExtend 64

/-- A scalar source at the operating width of the TY: the number that the TY reads (R187). -/
def State.scalarInt (s : State) (g : Group) (w : Slot) (o : Operand) : Int :=
  let x := s.scalarSource g w o
  let n := if w.ty.wide then 64 else 32
  if w.ty.signed then signedOf x.toNat n else (x.toNat % 2 ^ n : Nat)

/-- A scalar result written at the operating width (R187). -/
def scalarResult (ty : Ty) (x : Int) : Word :=
  if ty.wide then BitVec.ofNat 64 (wrapInt x 64)
  else if ty.signed then (BitVec.ofNat 32 (wrapInt x 32)).signExtend 64
  else (BitVec.ofNat 32 (wrapInt x 32)).zeroExtend 64

/-- The value of a 32-bit or packed source in one lane (R170, R172, R227). -/
def State.laneSource (s : State) (g : Group) (w : Slot) (o : Operand) (l : Nat) : Lane :=
  match o with
  | .vec r => g.v r.toNat l
  | .scalar i => (g.s i.toNat).extractLsb' 0 32
  | .special n =>
    match specialKind n.toNat with
    | .laneid => BitVec.ofNat 32 l
    | .qreg i => if (g.q i).getLsbD l then 1 else 0
    | _ => (s.special g n.toNat 0).extractLsb' 0 32
  | .imm v => if v = 0x200 then w.imm else v.signExtend 32

/-- The value of a 64-bit source in one lane (R166, R170). -/
def State.laneSource64 (s : State) (g : Group) (w : Slot) (o : Operand) (l : Nat) : Word :=
  match o with
  | .vec r => g.v64 r.toNat l
  | .scalar i => g.s i.toNat
  | .special n =>
    match specialKind n.toNat with
    | .laneid => BitVec.ofNat 64 l
    | .qreg i => if (g.q i).getLsbD l then 1 else 0
    | _ => s.special g n.toNat 0
  | .imm v =>
    if v = 0x200 then (if w.ty = .u64 then w.imm.zeroExtend 64 else w.imm.signExtend 64) else v.signExtend 64

/-! ## Kinds of fields -/

/-- The kinds that a field of an instruction accepts (R169). -/
structure Kinds where
  /-- The value 0x000 for an unused or optional field. -/
  zero : Bool := false
  vec : Bool := false
  scalar : Bool := false
  imm : Bool := false
  /-- A special register that is a source and holds one value per group (R187). -/
  source : Bool := false
  /-- A special register that is a source and holds a value per lane too. -/
  lanes : Bool := false
  cbit : Bool := false
  qreg : Bool := false
  /-- Every assigned special register, as SRDS and SWRS name it. -/
  special : Bool := false
  deriving DecidableEq, Repr

/-- A field that the instruction does not use. -/
def Kinds.unused : Kinds := { zero := true }

/-- A field accepts an operand (R169, R172). -/
def Kinds.accepts (k : Kinds) : Operand → Bool
  | .vec i => k.vec || (k.zero && i == 0)
  | .scalar _ => k.scalar
  | .imm _ => k.imm
  | .special n =>
    let n := n.toNat
    (k.cbit && decide (n < 8)) || (k.qreg && decide (0x10 ≤ n) && decide (n < 0x20)) ||
    (k.source && specialIsSource n && decide (n ≠ 0x40)) || (k.lanes && specialIsSource n) ||
    (k.special && decide (specialKind n ≠ .unassigned))

end Sys2Proof.Machine
end

