-- ==== Sys2Proof/Machine/Flags.lean ====
section
/-!
DEFINITION. The flags of %fpstat (R86) and the exact values that the floating-point operations compute with: formats
(R68 to R70), decoding, IEEE 754-2019 arithmetic on exact values, and rounding with its flags (R82, R83, R85).
-/

namespace Sys2Proof.Machine

open Sys2Proof

/-! ## Flags -/

/-- The flags of one result, in the bits of %fpstat (R86). -/
abbrev FpFlags := BitVec 7

def flagNX : FpFlags := 1
def flagUF : FpFlags := 2
def flagOF : FpFlags := 4
def flagDZ : FpFlags := 8
def flagIV : FpFlags := 16
def flagSAT : FpFlags := 32
def flagBN : FpFlags := 64

/-- OR flags into %fpstat (R86). -/
def Group.raise (g : Group) (f : FpFlags) : Group := { g with fpstat := g.fpstat ||| f }

/-! ## Formats -/

/-- A floating-point format (R68): widths, bias, its largest finite magnitude code, and its special codes. -/
structure Fmt where
  width : Nat
  mbits : Nat
  bias : Nat
  maxCode : Nat
  inf : Option Nat
  nan : Option Nat
  deriving DecidableEq, Repr

def fp32 : Fmt := { width := 32, mbits := 23, bias := 127, maxCode := 0x7F7FFFFF, inf := some 0x7F800000, nan := some 0x7FC00000 }
def bf16 : Fmt := { width := 16, mbits := 7, bias := 127, maxCode := 0x7F7F, inf := some 0x7F80, nan := some 0x7FC0 }
def fp16 : Fmt := { width := 16, mbits := 10, bias := 15, maxCode := 0x7BFF, inf := some 0x7C00, nan := some 0x7E00 }
def e4m3 : Fmt := { width := 8, mbits := 3, bias := 7, maxCode := 0x7E, inf := none, nan := some 0x7F }
def e5m2 : Fmt := { width := 8, mbits := 2, bias := 15, maxCode := 0x7B, inf := some 0x7C, nan := some 0x7E }
def e3m2 : Fmt := { width := 6, mbits := 2, bias := 3, maxCode := 0x1F, inf := none, nan := none }
def e2m3 : Fmt := { width := 6, mbits := 3, bias := 1, maxCode := 0x1F, inf := none, nan := none }
def e2m1 : Fmt := { width := 4, mbits := 1, bias := 1, maxCode := 0x7, inf := none, nan := none }

/-- The format of an EFMT code (R79); none for the integer formats 0x9 and 0xA. -/
def efmtFloat (e : Nat) : Option Fmt :=
  if e = 1 then some fp32 else if e = 2 then some bf16 else if e = 3 then some fp16 else if e = 4 then some e4m3
  else if e = 5 then some e5m2 else if e = 6 then some e3m2 else if e = 7 then some e2m3 else if e = 8 then some e2m1
  else none

/-- The width of an EFMT code (R68). -/
def efmtWidth (e : Nat) : Nat :=
  match efmtFloat e with
  | some f => f.width
  | none => if e = 9 then 8 else 4

/-! ## Exact values -/

/-- An exact value: NaN, an infinity, or (-1)^neg × num ÷ den × 2^exp with den positive. A zero keeps its sign. -/
inductive Exact where
  | nan
  | inf (neg : Bool)
  | fin (neg : Bool) (num den : Nat) (exp : Int)
  deriving DecidableEq, Repr

def Exact.zero (neg : Bool) : Exact := .fin neg 0 1 0
def Exact.one : Exact := .fin false 1 1 0
def Exact.ofInt (x : Int) : Exact := .fin (decide (x < 0)) x.natAbs 1 0

def Exact.isNan : Exact → Bool
  | .nan => true
  | _ => false

def Exact.isInf : Exact → Bool
  | .inf _ => true
  | _ => false

def Exact.isZero : Exact → Bool
  | .fin _ n _ _ => n = 0
  | _ => false

def Exact.neg? : Exact → Bool
  | .nan => false
  | .inf s => s
  | .fin s _ _ _ => s

def Exact.withSign (s : Bool) : Exact → Exact
  | .nan => .nan
  | .inf _ => .inf s
  | .fin _ n d e => .fin s n d e

def Exact.negate (x : Exact) : Exact := x.withSign (!x.neg?)
def Exact.abs (x : Exact) : Exact := x.withSign false

/-- 2^k of an integer exponent as a factor of a numerator and of a denominator. -/
def shiftUp (k : Int) : Nat := 2 ^ k.toNat

/-- Numerators of two magnitudes over one denominator. -/
def common (n1 d1 : Nat) (e1 : Int) (n2 d2 : Nat) (e2 : Int) : Nat × Nat × Nat × Int :=
  let e := min e1 e2
  let a := n1 * shiftUp (e1 - e)
  let b := n2 * shiftUp (e2 - e)
  if d1 = d2 then (a, b, d1, e) else (a * d2, b * d1, d1 * d2, e)

/-- Compare two values that are not NaN: less than. -/
def Exact.lt : Exact → Exact → Bool
  | .nan, _ => false
  | _, .nan => false
  | .inf s, .inf t => s && !t
  | .inf s, .fin _ _ _ _ => s
  | .fin _ _ _ _, .inf t => !t
  | .fin s n1 d1 e1, .fin t n2 d2 e2 =>
    let (a, b, _, _) := common n1 d1 e1 n2 d2 e2
    let x : Int := if s then -(a : Int) else a
    let y : Int := if t then -(b : Int) else b
    decide (x < y)

/-- Equality of two values that are not NaN; zeros are equal (R241). -/
def Exact.eq (x y : Exact) : Bool := !x.isNan && !y.isNan && !x.lt y && !y.lt x

/-- The exact sum; an exact zero of two unlike signs is negative when `down` (R239). -/
def Exact.add (down : Bool) : Exact → Exact → Exact × FpFlags
  | .nan, _ => (.nan, 0)
  | _, .nan => (.nan, 0)
  | .inf s, .inf t => if s = t then (.inf s, 0) else (.nan, flagIV)
  | .inf s, _ => (.inf s, 0)
  | _, .inf t => (.inf t, 0)
  | .fin s n1 d1 e1, .fin t n2 d2 e2 =>
    let (a, b, d, e) := common n1 d1 e1 n2 d2 e2
    if s = t then (.fin s (a + b) d e, 0)
    else if a = b then (.zero down, 0)
    else if b < a then (.fin s (a - b) d e, 0)
    else (.fin t (b - a) d e, 0)

/-- The exact product. -/
def Exact.mul : Exact → Exact → Exact × FpFlags
  | .nan, _ => (.nan, 0)
  | _, .nan => (.nan, 0)
  | .inf s, .inf t => (.inf (s != t), 0)
  | .inf s, .fin t n _ _ => if n = 0 then (.nan, flagIV) else (.inf (s != t), 0)
  | .fin s n _ _, .inf t => if n = 0 then (.nan, flagIV) else (.inf (s != t), 0)
  | .fin s n1 d1 e1, .fin t n2 d2 e2 => (.fin (s != t) (n1 * n2) (d1 * d2) (e1 + e2), 0)

/-- The exact quotient (R93). -/
def Exact.div : Exact → Exact → Exact × FpFlags
  | .nan, _ => (.nan, 0)
  | _, .nan => (.nan, 0)
  | .inf _, .inf _ => (.nan, flagIV)
  | .inf s, .fin t _ _ _ => (.inf (s != t), 0)
  | .fin s _ _ _, .inf t => (.zero (s != t), 0)
  | .fin s n1 d1 e1, .fin t n2 d2 e2 =>
    if n2 = 0 then (if n1 = 0 then (.nan, flagIV) else (.inf (s != t), flagDZ))
    else (.fin (s != t) (n1 * d2) (d1 * n2) (e1 - e2), 0)

/-- The exact x × y + z; 0 × ∞ is invalid even when z is a NaN (R240). -/
def Exact.fma (down : Bool) (x y z : Exact) : Exact × FpFlags :=
  let (p, f) := x.mul y
  let (r, h) := p.add down z
  (r, f ||| h)

/-! ## Codes -/

/-- decode(code, fmt) (R69, R70, R95). -/
def decodeFloat (f : Fmt) (code : Nat) : Exact :=
  let neg := bit code (f.width - 1)
  let mag := code % 2 ^ (f.width - 1)
  if f.maxCode < mag then (if f.inf = some mag then .inf neg else .nan)
  else
    let e := mag / 2 ^ f.mbits
    let m := mag % 2 ^ f.mbits
    if e = 0 then .fin neg m 1 (1 - (f.bias : Int) - f.mbits)
    else .fin neg (2 ^ f.mbits + m) 1 ((e : Int) - f.bias - f.mbits)

/-- A code with a sign. -/
def signed (f : Fmt) (neg : Bool) (mag : Nat) : Nat := if neg then mag + 2 ^ (f.width - 1) else mag

/-- The canonical NaN; +0 for a format without one. -/
def Fmt.nanCode (f : Fmt) : Nat := f.nan.getD 0

/-- A code is subnormal. -/
def Fmt.isSubnormal (f : Fmt) (code : Nat) : Bool :=
  let mag := code % 2 ^ (f.width - 1)
  decide (0 < mag) && decide (mag < 2 ^ f.mbits)

/-- A code is a NaN. -/
def Fmt.isNan (f : Fmt) (code : Nat) : Bool := (decodeFloat f code).isNan

/-! ## Rounding -/

/-- Floor of the base-2 logarithm of a positive n ÷ d × 2^e. -/
def floorLog2 (n d : Nat) (e : Int) : Int :=
  let l : Int := (Nat.log2 n : Int) - Nat.log2 d
  let ge := if 0 ≤ l then decide (d * shiftUp l ≤ n) else decide (d ≤ n * shiftUp (-l))
  (if ge then l else l - 1) + e

/-- The integer part and the fraction of n ÷ d × 2^e in steps of 2^q: quotient, remainder, divisor. -/
def inSteps (n d : Nat) (e q : Int) : Nat × Nat × Nat :=
  let a := n * shiftUp (e - q)
  let b := d * shiftUp (q - e)
  (a / b, a % b, b)

/-- A rounding mode (R82). -/
inductive Mode where
  | rne | rtz | rup | rdn
  deriving DecidableEq, Repr

def modeOf (x : Nat) : Mode := if x = 0 then .rne else if x = 1 then .rtz else if x = 2 then .rup else .rdn

/-- A magnitude k + r ÷ b rounds away from zero. -/
def roundsUp (m : Mode) (neg : Bool) (k r b : Nat) : Bool :=
  match m with
  | .rne => decide (b < 2 * r) || (2 * r = b && k % 2 = 1)
  | .rtz => false
  | .rup => !neg && r != 0
  | .rdn => neg && r != 0

/-- The magnitude code at or below a positive magnitude on the format's grid, continued beyond its largest finite
value, with the remainder. DESIGN CHOICE (log 92): R83 does not give the next magnitude above the largest finite one; the model takes
that of the continued grid. -/
def gridFloor (f : Fmt) (n d : Nat) (e : Int) : Nat × Nat × Nat :=
  let l := floorLog2 n d e
  let emin : Int := 1 - f.bias
  let top := max l emin
  let (k, r, b) := inSteps n d e (top - f.mbits)
  (k + (top - emin).toNat * 2 ^ f.mbits, r, b)

/-- A positive magnitude is tiny after rounding with an unbounded exponent (R86). -/
def isTiny (f : Fmt) (m : Mode) (neg : Bool) (n d : Nat) (e : Int) : Bool :=
  let l := floorLog2 n d e
  let emin : Int := 1 - f.bias
  if emin ≤ l then false
  else
    let (k, r, b) := inSteps n d e (l - f.mbits)
    !(l + 1 = emin && roundsUp m neg k r b && k + 1 = 2 ^ (f.mbits + 1))

/-- A code and the flags of a rounding. -/
structure Rounded where
  code : Nat
  flags : FpFlags
  deriving DecidableEq, Repr

/-- The result of an overflow outside slot control: IEEE 754-2019 for the mode (R82). -/
def overflowCode (f : Fmt) (m : Mode) (neg : Bool) : Nat :=
  let toInf := match m with
    | .rne => true
    | .rtz => false
    | .rup => !neg
    | .rdn => neg
  match f.inf with
  | some i => signed f neg (if toInf then i else f.maxCode)
  | none => signed f neg f.maxCode

/-- round(x, fmt, mode) for a format with infinities and a NaN (R82). -/
def round (f : Fmt) (m : Mode) (x : Exact) : Rounded :=
  match x with
  | .nan => { code := f.nanCode, flags := 0 }
  | .inf s => { code := signed f s (f.inf.getD f.maxCode), flags := 0 }
  | .fin s n d e =>
    if n = 0 then { code := signed f s 0, flags := 0 }
    else
      let (k, r, b) := gridFloor f n d e
      let c := if roundsUp m s k r b then k + 1 else k
      if f.maxCode < c then { code := overflowCode f m s, flags := flagOF ||| flagNX }
      else
        { code := signed f s c
          flags := (if r = 0 then 0 else flagNX) ||| (if r != 0 && isTiny f m s n d e then flagUF else 0) }

/-- A subnormal result under .ftz becomes a zero of its sign, with UF and NX (R85, R239). -/
def flushResult (f : Fmt) (ftz : Bool) (r : Rounded) : Rounded :=
  if ftz && f.isSubnormal r.code then
    { code := signed f (bit r.code (f.width - 1)) 0, flags := r.flags ||| flagUF ||| flagNX }
  else r

/-- A subnormal input under .ftz is read as a zero of its sign (R85). -/
def flushInput (f : Fmt) (ftz : Bool) (code : Nat) : Nat :=
  if ftz && f.isSubnormal code then signed f (bit code (f.width - 1)) 0 else code

/-- Rounding to an integer of the range [lo, hi] (R82). -/
def roundInt (m : Mode) (lo hi : Int) (x : Exact) : Int × FpFlags :=
  match x with
  | .nan => (0, flagIV)
  | .inf s => (if s then lo else hi, flagIV)
  | .fin s n d e =>
    let (k, r, b) := inSteps n d e 0
    let c := if roundsUp m s k r b then k + 1 else k
    let v : Int := if s then -(c : Int) else c
    if v < lo then (lo, flagIV) else if hi < v then (hi, flagIV) else (v, if r = 0 then 0 else flagNX)

/-- How a conversion under slot control rounds: RNE, or stochastically with the 16 bits of R83. -/
inductive SlotMode where
  | rne
  | stochastic (bits : Nat)
  deriving DecidableEq, Repr

/-- The result of an overflow under slot control (R79, R82). -/
def slotOverflow (f : Fmt) (ovf neg : Bool) : Rounded :=
  if ovf && (f.inf.isSome || f.nan.isSome) then
    { code := match f.inf with
        | some i => signed f neg i
        | none => f.nanCode
      flags := flagOF ||| flagNX }
  else { code := signed f neg f.maxCode, flags := flagSAT ||| flagOF ||| flagNX }

/-- Rounding of a finite value under slot control (R82, R83). DESIGN CHOICE (log 92): a magnitude at or above the continued grid’s first
step beyond the largest finite value always overflows. -/
def roundSlotFin (f : Fmt) (sm : SlotMode) (ovf neg : Bool) (n d : Nat) (e : Int) : Rounded :=
  if n = 0 then { code := signed f neg 0, flags := 0 }
  else
    let (k, r, b) := gridFloor f n d e
    match sm with
    | .rne =>
      let c := if roundsUp .rne neg k r b then k + 1 else k
      if f.maxCode < c then slotOverflow f ovf neg
      else { code := signed f neg c
             flags := (if r = 0 then 0 else flagNX) ||| (if r != 0 && isTiny f .rne neg n d e then flagUF else 0) }
    | .stochastic bits =>
      if f.maxCode < k then slotOverflow f ovf neg
      else
        let c := if 65536 ≤ r * 65536 / b + bits then k + 1 else k
        if f.maxCode < c then slotOverflow f ovf neg
        else { code := signed f neg c
               flags := (if r = 0 then 0 else flagNX) ||| (if r != 0 && decide (c < 2 ^ f.mbits) then flagUF else 0) }

/-- round(x, fmt, QRND) under slot control; `block` says that an infinite x is an overflow in any format (R82, R84). -/
def roundSlot (f : Fmt) (sm : SlotMode) (ovf block : Bool) (x : Exact) : Rounded :=
  match x with
  | .nan => match f.nan with
    | some c => { code := c, flags := 0 }
    | none => { code := 0, flags := flagIV }
  | .inf s =>
    match f.inf with
    | some i => if block then slotOverflow f ovf s else { code := signed f s i, flags := 0 }
    | none => slotOverflow f ovf s
  | .fin s n d e => roundSlotFin f sm ovf s n d e

/-! ## Minimum and maximum -/

/-- The order of fmin_num and fmax_num: −0 below +0 (R85). -/
def Exact.below (x y : Exact) : Bool := x.lt y || (x.isZero && y.isZero && x.neg? && !y.neg?)

/-- fmin_num on codes of one format (R85). -/
def fminNum (f : Fmt) (a b : Nat) : Nat :=
  let x := decodeFloat f a
  let y := decodeFloat f b
  if x.isNan then (if y.isNan then f.nanCode else b) else if y.isNan then a else if y.below x then b else a

/-- fmax_num on codes of one format (R85). -/
def fmaxNum (f : Fmt) (a b : Nat) : Nat :=
  let x := decodeFloat f a
  let y := decodeFloat f b
  if x.isNan then (if y.isNan then f.nanCode else b) else if y.isNan then a else if x.below y then b else a

/-! ## Square roots -/

/-- Integer square root, bit by bit. -/
def isqrtFrom : Nat → Nat → Nat → Nat
  | 0, _, r => r
  | i + 1, n, r => if (r + 2 ^ i) * (r + 2 ^ i) ≤ n then isqrtFrom i n (r + 2 ^ i) else isqrtFrom i n r

def isqrt (n : Nat) : Nat := isqrtFrom (Nat.log2 n / 2 + 1) n 0

/-- A value that rounds as the square root of a positive n × 2^e does: the root to 64 bits, between two steps where it
is not exact. -/
def sqrtExact (n : Nat) (e : Int) : Exact :=
  let odd := e % 2 = 1
  let m := if odd then 2 * n else n
  let h := (if odd then e - 1 else e) / 2
  let k : Nat := 64
  let big := m * 2 ^ (2 * k)
  let r := isqrt big
  if r * r = big then .fin false r 1 (h - (k : Int)) else .fin false (2 * r + 1) 1 (h - (k : Int) - 1)

end Sys2Proof.Machine
end

