-- ==== Sys2Proof/Machine/Issue.lean ====
section
/-!
DEFINITION. Issue: the form of an instruction's encoding, the order of checks 3 and 4 of R175, the scalar guard, and
what becomes of a body's result.
-/

namespace Sys2Proof.Machine

open Sys2Proof

/-- What the encoding of an instruction must look like (R158, R160, R165 to R171). -/
structure Form where
  /-- The accepted TYs; the empty list means that TY must be 0x0 (R186). -/
  tys : List Ty := []
  d0 : Kinds := .unused
  d1 : Kinds := .unused
  a : Kinds := .unused
  b : Kinds := .unused
  c : Kinds := .unused
  /-- The MOD bits that the instruction's chapter allocates (R168). -/
  mod : BitVec 28 := 0
  /-- Class L: SF names a flag (R158). -/
  long : Bool := false
  /-- Class C or W: the instruction must carry BND (R160). -/
  boundary : Bool := false
  /-- The instruction acts on lanes, so that LG is free (R165). -/
  lanes : Bool := false
  /-- HINT applies (R167). -/
  hint : Bool := false
  /-- IMM has its own meaning, so that no field may select it (R170). -/
  immOwn : Bool := false
  /-- Registers that each vector field names, by default two for a 64-bit TY and one else: D0, A, B, C. -/
  n0 : Option Nat := none
  na : Option Nat := none
  nb : Option Nat := none
  nc : Option Nat := none
  /-- A vector field that names a pair need not be even, since its width is no TY's. -/
  anyIndex : Bool := false

/-- Registers that a vector field names. -/
def regCount (w : Slot) (n : Option Nat) : Nat := n.getD (if w.ty.wide then 2 else 1)

/-- A vector field lies in the group's partition, and a pair's index is even (R166, R171). DESIGN CHOICE (log 94): R166's
trap for an odd index covers the fields that TY makes pairs. -/
def vecOk (f : Form) (w : Slot) (g : Group) (k : Kinds) (o : Operand) (n : Option Nat) : Bool :=
  match o with
  | .vec i =>
    if k.vec then
      decide (i.toNat + regCount w n ≤ g.vregs) && (f.anyIndex || regCount w n = 1 || i.toNat % 2 = 0)
    else true
  | _ => true

/-- The fields that hold 0xE00. -/
def immFields (w : Slot) : Nat :=
  natOf w.a.isImmField + natOf w.b.isImmField + natOf w.c.isImmField

/-- SF fits the class and the header (R158). -/
def flagOk (f : Form) (w : Slot) (g : Group) : Bool :=
  match w.sf with
  | .none => !f.long
  | _ => f.long && decide (g.flagOf w < 12)

/-- A REUSE bit stands only on a field of vector kind (R162). -/
def reuseOk (f : Form) (w : Slot) : Bool :=
  let on := fun (i : Nat) (k : Kinds) (o : Operand) => !w.reuse.getLsbD i || (k.vec && match o with
    | .vec _ => true
    | _ => false)
  on 0 f.a w.a && on 1 f.b w.b && on 2 f.c w.c

/-- An encoding is legal (check 3 of R175): R158, R160, R162 and R165 to R171. -/
def legal (f : Form) (w : Slot) (g : Group) : Bool :=
  flagOk f w g && (!f.boundary || w.bnd) && (!w.yld || w.bnd) && reuseOk f w &&
  (if f.tys.isEmpty then w.ty = .b32 else f.tys.contains w.ty) &&
  (if f.hint then decide (w.hint.toNat ≤ 4) else w.hint == 0) &&
  (w.mod &&& ~~~f.mod == 0) && (f.lanes || (w.lg == 0 && !w.lgNeg)) &&
  (decide (immFields w ≤ (if f.immOwn then 0 else 1))) &&
  f.d0.accepts w.d0 && f.d1.accepts w.d1 && f.a.accepts w.a && f.b.accepts w.b && f.c.accepts w.c &&
  vecOk f w g f.d0 w.d0 f.n0 && vecOk f w g f.a w.a f.na && vecOk f w g f.b w.b f.nb && vecOk f w g f.c w.c f.nc

/-- The registers that a field names. -/
def fieldRegs (w : Slot) (k : Kinds) (o : Operand) (n : Option Nat) : List DestReg :=
  match o with
  | .vec i => if k.vec then (List.range (regCount w n)).map (fun j => .vec (i.toNat + j)) else []
  | .scalar i => [.scalar i.toNat]
  | _ => []

/-- The registers that an instruction reads or writes through its fields (R159). -/
def formRegs (f : Form) (w : Slot) : List DestReg :=
  fieldRegs w f.d0 w.d0 f.n0 ++ fieldRegs w f.d1 w.d1 none ++ fieldRegs w f.a w.a f.na ++ fieldRegs w f.b w.b f.nb ++
  fieldRegs w f.c w.c f.nc

/-- A pending register is read or written (R159); a re-issue passes over the marks of its own earlier issues (R161). -/
def hazard (g : Group) (regs : List DestReg) : Bool :=
  g.marks.any (fun m => regs.contains m.reg && !(m.slot = g.pc && g.replayOps.contains m.op))

/-- What an instruction's own effect comes to. -/
inductive Result where
  /-- It took effect; the group moves past it. -/
  | done (s : State)
  /-- A trap or fault of its own; `s` holds what the other lanes have done. -/
  | trap (s : State) (c : Cause)
  /-- Translations are missing: the group parks (R381). -/
  | park (s : State) (needs : List (Nat × AccessKind))
  /-- It waits at issue (R58). -/
  | stay (s : State)
  /-- It took effect and has moved the group itself. -/
  | moved (s : State)

/-- Trap entry of group k waits for an operation into s1 to s3 that only its own event completes (R374). -/
def State.trapWaits (s : State) (k : Nat) : Bool :=
  match s.group k with
  | some g => (s.handlerEntry g).isSome && !g.handler && g.trapMustWait
  | none => false

/-- The operations that this issue of the instruction has put in flight are its own at its re-issue (R161). -/
def State.ownOps (s before : State) (k : Nat) : State :=
  let first := match before.group k with
    | some g => g.nextOp
    | none => 0
  s.modGroup k (fun g => { g with replayOps := g.replayOps ++ (List.range (g.nextOp - first)).map (fun i => first + i) })

/-- An instruction of class L that traps has issued all the same: where it put nothing in flight, its flag's count rises and
its destinations become pending for an operation that does nothing (R158, R159, R161). -/
def State.departTrapped (s before : State) (k : Nat) (f : Form) (w : Slot) : State :=
  match s.group k, before.group k with
  | some g, some g0 =>
    if g.nextOp = g0.nextOp then
      s.setGroup k (g.depart w (fieldRegs w f.d0 w.d0 f.n0 ++ fieldRegs w f.d1 w.d1 none) [] 0 none .plain)
    else s
  | _, _ => s

/-- The trap of an instruction that issued in state `before`, after what it has done: one of class L keeps what it has put
in flight (R158, R161). -/
def State.issueTrap (s before : State) (k : Nat) (f : Form) (w : Slot) (c : Cause) : State :=
  (if f.long then (s.departTrapped before k f w).ownOps before k else s).trapAt k c

/-- What becomes of a result for group k; `before` is the state at issue, to which an instruction returns whose trap
entry has to wait (R374). -/
def finish (before : State) (k : Nat) (f : Form) (w : Slot) : Result → State
  | .done s => s.advance k w
  | .trap s c => if before.trapWaits k then before.hold k else s.issueTrap before k f w c
  | .park s needs => s.park k needs
  | .stay s => s.hold k
  | .moved s => s

/-- A trap whose failing lanes are all of q0 (R372, R374). -/
def trapAll (g : Group) (code : Nat) (faddr : Word) : Cause := { code := code, faddr := faddr, lanes := g.q0 }

/-- Issue one instruction of the current group: check 3, check 4, the scalar guard, and the body (R165, R175). `ok`
holds the instruction's own encoding rules, `more` the registers it names beyond its fields. -/
def issue (f : Form) (ok : Group → Bool) (more : Group → List DestReg) (w : Slot) (s : State)
    (body : Nat → Group → Result) : Out :=
  match s.group s.cur with
  | none => .fault .noGroup
  | some g =>
    if !(legal f w g && ok g) then .next (s.trapAt s.cur (trapAll g 0x01 0))
    else if hazard g (formRegs f w ++ more g) then .next (s.trapAt s.cur (trapAll g 0x03 0))
    else if !g.guard w then .next (s.advance s.cur w)
    else .next (finish s s.cur f w (body s.cur g))

/-- An instruction without encoding rules beyond its form. -/
def always : Group → Bool := fun _ => true

/-- An instruction that names no register beyond its fields. -/
def noMore : Group → List DestReg := fun _ => []

/-- The lanes that an instruction acts on: active(LG), and only the replay lanes at a re-issue (R161, R165). -/
def Group.lanes (g : Group) (w : Slot) : BitVec 64 :=
  match g.replay with
  | some m => g.active w &&& m
  | none => g.active w

end Sys2Proof.Machine
end

