-- ==== Sys2Proof/Machine/Inject.lean ====
section
/-!
DEFINITION. Fault injection (R362): what SL_INJECT does to the vector results of groups 2 and 3.
-/

namespace Sys2Proof.Machine

open Sys2Proof

/-- RUNS selects the run of a team (R361): 0 all, 1 originals and teams not under check, 2 later runs. -/
def runsSelect (runs : BitVec 2) (run : Option (Nat × Nat)) : Bool :=
  let later := match run with
    | some (_, r) => decide (0 < r)
    | none => false
  if runs = 0 then true else if runs = 1 then !later else if runs = 2 then later else false

/-- The armed injection that strikes an instruction of group g which writes the given lanes (R362). -/
def State.injectionFor (s : State) (g : Group) (w : Slot) : Option Inject :=
  if 576 ≤ g.core then none
  else
    let d := s.die (coreDie g.core)
    let i := d.inject
    if d.injen && i.arm && i.count != 0 && i.site.toNat = coreSite g.core && i.pipe.toNat = g.tindex % 4 &&
        runsSelect i.runs (s.teamOf g).run && (g.lanes w).getLsbD i.lane.toNat then some i
    else none

/-- COUNT falls by one; at zero ARM is cleared (R361, R362). -/
def Inject.fire (i : Inject) : Inject := { i with count := i.count - 1, arm := i.arm && i.count != 1 }

/-- The struck lane's bit of the value written to D0 is inverted. -/
def Inject.strike (i : Inject) (w : Slot) (g : Group) : Group :=
  let r := w.d0.vecIndex
  let l := i.lane.toNat
  let flip := fun (x : Lane) => x ^^^ (1#32 <<< i.bit.toNat)
  let late := fun (x : RegWrite) => match x with
    | .vec a b v => if a = r && b = l then .vec a b (flip v) else x
    | .scalar _ _ => x
  match w.sf with
  | .none => g.setV r l (flip (g.v r l))
  | _ => { g with flights := g.flights.map (fun f =>
      if f.op + 1 = g.nextOp then { f with writes := f.writes.map late } else f) }

/-- Group k, as it stood, has executed an instruction of groups 2 and 3 with a vector destination and stands as told; an
armed injection strikes the result (R362). -/
def State.putVec (s : State) (k : Nat) (w : Slot) (before after : Group) : State :=
  match s.injectionFor before w with
  | none => s.setGroup k after
  | some i =>
    let s1 := (s.setGroup k (i.strike w after)).modDie (coreDie before.core) (fun d => { d with inject := d.inject.fire })
    match (s.teamOf before).run with
    | some (c, _) => s1.modCheck c (fun x => { x with injected := true })
    | none => s1

end Sys2Proof.Machine
end

