-- ==== Sys2Proof/Machine/Scalar.lean ====
section
/-!
DEFINITION. The scalar and address instructions (R186 to R192).
-/

namespace Sys2Proof.Machine

open Sys2Proof

/-- The six scalar TYs (R188). -/
def scalarTys : List Ty := [.u64, .s64, .b64, .u32, .s32, .b32]

/-- A scalar source field (R187). -/
def Kinds.scalarSrc : Kinds := { scalar := true, imm := true, source := true }

/-- A scalar register field. -/
def Kinds.scalarReg : Kinds := { scalar := true }

/-- A condition bit field. -/
def Kinds.cond : Kinds := { cbit := true }

/-- A scalar ALU form with sources A, or A and B, or A, B and C. -/
def aluForm (n : Nat) : Form :=
  { tys := scalarTys, d0 := .scalarReg, a := .scalarSrc
    b := if 2 ≤ n then .scalarSrc else .unused
    c := if 3 ≤ n then .scalarSrc else .unused }

/-- The operating width (R187). -/
def opWidth (ty : Ty) : Nat := if ty.wide then 64 else 32

/-- The effect of a scalar ALU instruction: the expression's exact value, written at the operating width (R188). -/
def scalarAlu (f : Form) (ok : Group → Bool) (w : Slot) (s : State) (op : Int → Int → Int → Int) : Out :=
  issue f ok noMore w s (fun k g =>
    let x := s.scalarInt g w w.a
    let y := s.scalarInt g w w.b
    let z := s.scalarInt g w w.c
    .done (s.setGroup k (g.setS w.d0.scalarIndex (scalarResult w.ty (op x y z)))))

/-- An operation on the bit patterns of the sources at the operating width. -/
def onBits (ty : Ty) (op : Nat → Nat → Nat) (x y : Int) : Int :=
  (op (wrapInt x (opWidth ty)) (wrapInt y (opWidth ty)) : Nat)

/-- SDIV (R189). -/
def divide (x y : Int) : Int := if y = 0 then -1 else Int.tdiv x y

/-- SREM (R189). -/
def remainder (x y : Int) : Int := if y = 0 then x else Int.tmod x y

/-- The position and effective length of a field-control value (R189). -/
def fieldControl (ty : Ty) (fc : Int) : Nat × Nat :=
  let v := wrapInt fc 64
  let pos := v % 128
  let len := v / 256 % 128
  (pos, if opWidth ty ≤ pos then 0 else min len (opWidth ty - pos))

/-- SBFX (R189). -/
def extractField (ty : Ty) (x fc : Int) : Int :=
  let (pos, len) := fieldControl ty fc
  if len = 0 then 0
  else
    let v := wrapInt x (opWidth ty) / 2 ^ pos % 2 ^ len
    if ty.signed then signedOf v len else (v : Nat)

/-- SBFI (R189). -/
def insertField (ty : Ty) (x y fc : Int) : Int :=
  let (pos, len) := fieldControl ty fc
  if len = 0 then x
  else
    let v := wrapInt x (opWidth ty)
    let kept := v % 2 ^ pos + v / 2 ^ (pos + len) * 2 ^ (pos + len)
    (kept + wrapInt y (opWidth ty) % 2 ^ len * 2 ^ pos : Nat)

/-- Number of bits up to the highest set bit. -/
def bitLength (x : Nat) : Nat := if x = 0 then 0 else Nat.log2 x + 1

/-- The comparisons of SCMP and BRC (R190). -/
def compareInt (cond : Nat) (x y : Int) : Bool :=
  if cond = 0 then x = y else if cond = 1 then x ≠ y else if cond = 2 then x < y
  else if cond = 3 then x ≤ y else if cond = 4 then y < x else y ≤ x

def execSmov (w : Slot) (s : State) : Out := scalarAlu (aluForm 1) always w s (fun x _ _ => x)
def execSadd (w : Slot) (s : State) : Out := scalarAlu (aluForm 2) always w s (fun x y _ => x + y)
def execSsub (w : Slot) (s : State) : Out := scalarAlu (aluForm 2) always w s (fun x y _ => x - y)
def execSmul (w : Slot) (s : State) : Out := scalarAlu (aluForm 2) always w s (fun x y _ => x * y)

/-- SMULH: the high bits of the exact product, rounded down (R188). -/
def execSmulh (w : Slot) (s : State) : Out :=
  scalarAlu (aluForm 2) always w s (fun x y _ => Int.fdiv (x * y) (2 ^ opWidth w.ty : Nat))

def execSdiv (w : Slot) (s : State) : Out := scalarAlu (aluForm 2) always w s (fun x y _ => divide x y)
def execSrem (w : Slot) (s : State) : Out := scalarAlu (aluForm 2) always w s (fun x y _ => remainder x y)
def execSmin (w : Slot) (s : State) : Out := scalarAlu (aluForm 2) always w s (fun x y _ => min x y)
def execSmax (w : Slot) (s : State) : Out := scalarAlu (aluForm 2) always w s (fun x y _ => max x y)
def execSand (w : Slot) (s : State) : Out := scalarAlu (aluForm 2) always w s (fun x y _ => onBits w.ty (· &&& ·) x y)
def execSor (w : Slot) (s : State) : Out := scalarAlu (aluForm 2) always w s (fun x y _ => onBits w.ty (· ||| ·) x y)
def execSxor (w : Slot) (s : State) : Out := scalarAlu (aluForm 2) always w s (fun x y _ => onBits w.ty (· ^^^ ·) x y)

/-- SANDN: x AND NOT y (R188). -/
def execSandn (w : Slot) (s : State) : Out :=
  scalarAlu (aluForm 2) always w s (fun x y _ => onBits w.ty (fun a b => a &&& (2 ^ opWidth w.ty - 1 - b)) x y)

/-- SSHL: 0 from a full width on (R189). -/
def execSshl (w : Slot) (s : State) : Out :=
  scalarAlu (aluForm 2) always w s (fun x y _ =>
    onBits w.ty (fun a n => if opWidth w.ty ≤ n then 0 else a * 2 ^ n) x y)

/-- SSHR on the unsigned value (R189). -/
def execSshr (w : Slot) (s : State) : Out :=
  scalarAlu (aluForm 2) always w s (fun x y _ =>
    onBits w.ty (fun a n => if opWidth w.ty ≤ n then 0 else a / 2 ^ n) x y)

/-- SSRA on the two's complement value, whatever the TY (R189). -/
def execSsra (w : Slot) (s : State) : Out :=
  scalarAlu (aluForm 2) always w s (fun x y _ =>
    let v := signedOf (wrapInt x (opWidth w.ty)) (opWidth w.ty)
    let n := wrapInt y (opWidth w.ty)
    if opWidth w.ty ≤ n then (if v < 0 then -1 else 0) else Int.fdiv v (2 ^ n : Nat))

def execSclz (w : Slot) (s : State) : Out :=
  scalarAlu (aluForm 1) always w s (fun x _ _ => (opWidth w.ty - bitLength (wrapInt x (opWidth w.ty)) : Nat))

def execSpopc (w : Slot) (s : State) : Out :=
  scalarAlu (aluForm 1) always w s (fun x _ _ => (popCount (opWidth w.ty) (wrapInt x (opWidth w.ty)) : Nat))

def execSbfx (w : Slot) (s : State) : Out := scalarAlu (aluForm 2) always w s (fun x fc _ => extractField w.ty x fc)
def execSbfi (w : Slot) (s : State) : Out := scalarAlu (aluForm 3) always w s (fun x y fc => insertField w.ty x y fc)

/-- SLEA: base plus index times 2^sh plus an optional offset, modulo 2^64 (R188). -/
def execSlea (w : Slot) (s : State) : Out :=
  scalarAlu { aluForm 2 with tys := [.u64], c := { Kinds.scalarSrc with zero := true }, mod := 0x7 } always w s
    (fun x y z => x + y * (2 ^ (w.mod.extractLsb' 0 3).toNat : Nat) + z)

/-- SMOVI: the immediate, zero-extended, sign-extended or into the high half (R192). -/
def execSmovi (w : Slot) (s : State) : Out :=
  issue { tys := [.b64], d0 := .scalarReg, mod := 0x3, immOwn := true } (fun _ => decide (w.mod ≠ 3)) noMore w s
    (fun k g =>
      let d := w.d0.scalarIndex
      let v : Word := if w.mod = 0 then w.imm.zeroExtend 64 else if w.mod = 1 then w.imm.signExtend 64
        else w.imm ++ (g.s d).extractLsb' 0 32
      .done (s.setGroup k (g.setS d v)))

/-- The condition bit that a C field names. -/
def Group.condOf (g : Group) (o : Operand) : Bool := g.c o.specialIndex

/-- SCMP's combination of its comparison with a condition bit (R190). -/
def execScmp (w : Slot) (s : State) : Out :=
  let comb := (w.mod.extractLsb' 3 2).toNat
  let cond := (w.mod.extractLsb' 0 3).toNat
  issue { tys := scalarTys, d0 := .cond, a := .scalarSrc, b := .scalarSrc, c := { Kinds.cond with zero := true }, mod := 0x1F }
    (fun _ => decide (cond ≤ 5) && decide (comb ≠ 3) && (decide (comb = 0) == (w.c == .vec 0))) noMore w s
    (fun k g =>
      let r := compareInt cond (s.scalarInt g w w.a) (s.scalarInt g w w.b)
      let v := if comb = 1 then r && g.condOf w.c else if comb = 2 then r || g.condOf w.c else r
      .done (s.setGroup k (g.setC w.d0.specialIndex v)))

/-- SSEL: x when the condition bit is 1, y otherwise (R191). -/
def execSsel (w : Slot) (s : State) : Out :=
  issue { aluForm 2 with c := .cond } always noMore w s (fun k g =>
    let v := if g.condOf w.c then s.scalarInt g w w.a else s.scalarInt g w w.b
    .done (s.setGroup k (g.setS w.d0.scalarIndex (scalarResult w.ty v))))

/-- CLOG: bit 2a + b of the truth table (R191). -/
def execClog (w : Slot) (s : State) : Out :=
  issue { tys := [.b32], d0 := .cond, a := .cond, b := .cond, mod := 0xF } always noMore w s (fun k g =>
    .done (s.setGroup k (g.setC w.d0.specialIndex
      (w.mod.getLsbD (2 * natOf (g.condOf w.a) + natOf (g.condOf w.b))))))

end Sys2Proof.Machine
end

