-- ==== Sys2Proof/Machine/Vector.lean ====
section
/-!
DEFINITION. The vector integer and logic instructions (R226 to R238).
-/

namespace Sys2Proof.Machine

open Sys2Proof

/-! ## Elements -/

/-- The width of a TY's elements (R71, R232). -/
def elemWidth (ty : Ty) : Nat :=
  match ty with
  | .u16x2 | .s16x2 | .bf16x2 | .f16x2 => 16
  | .u8x4 | .s8x4 => 8
  | .u64 | .s64 | .b64 => 64
  | .b32 | .u32 | .s32 | .f32 => 32

/-- The number of a TY's elements in a lane. -/
def elemCount (ty : Ty) : Nat :=
  match ty with
  | .u16x2 | .s16x2 | .bf16x2 | .f16x2 => 2
  | .u8x4 | .s8x4 => 4
  | _ => 1

/-- The elements of a lane's value, element 0 first (R71). -/
def splitElems (ty : Ty) (x : Nat) : List Nat :=
  (List.range (elemCount ty)).map (fun k => bits x (k * elemWidth ty) (elemWidth ty))

/-- A lane's value from its elements, element 0 first. -/
def joinElems (width : Nat) : List Nat → Nat
  | [] => 0
  | x :: xs => x % 2 ^ width + 2 ^ width * joinElems width xs

/-- The value of a source in one lane at the TY's lane width. -/
def State.laneValue (s : State) (g : Group) (w : Slot) (o : Operand) (l : Nat) : Nat :=
  if w.ty.wide then (s.laneSource64 g w o l).toNat else (s.laneSource g w o l).toNat

/-- The elements of a source in one lane. -/
def State.laneElems (s : State) (g : Group) (w : Slot) (o : Operand) (l : Nat) : List Nat :=
  splitElems w.ty (s.laneValue g w o l)

/-- Write one lane of a vector destination at the TY's lane width. -/
def Group.setLane (g : Group) (ty : Ty) (r l x : Nat) : Group :=
  if ty.wide then g.setV64 r l (BitVec.ofNat 64 x) else g.setV r l (BitVec.ofNat 32 x)

/-- A vector source field (R227). -/
def Kinds.vecSrc : Kinds := { vec := true, scalar := true, imm := true, lanes := true }

/-- A vector register field. -/
def Kinds.vecReg : Kinds := { vec := true }

/-- The value of an element as the TY reads it (R232). -/
def readElem (ty : Ty) (n x : Nat) : Int := if ty.signed then signedOf x n else (x : Nat)

/-- Least and greatest value of a TY's element. -/
def elemMin (ty : Ty) (n : Nat) : Int := if ty.signed then -(2 ^ (n - 1) : Nat) else 0
def elemMax (ty : Ty) (n : Nat) : Int := if ty.signed then (2 ^ (n - 1) : Nat) - 1 else (2 ^ n : Nat) - 1

/-- sat(x, lo, hi): the value, and SAT when the clamp changed it (R95). -/
def satInt (x lo hi : Int) : Int × FpFlags :=
  if x < lo then (lo, flagSAT) else if hi < x then (hi, flagSAT) else (x, 0)

/-- The result of one element, wrapped or saturated (R232). -/
def finishElem (ty : Ty) (sat : Bool) (x : Int) : Nat × FpFlags :=
  let n := elemWidth ty
  if sat then
    let (v, f) := satInt x (elemMin ty n) (elemMax ty n)
    (wrapInt v n, f)
  else (wrapInt x n, 0)

/-- Write lane by lane what `value` gives for each active lane, and raise the OR of the flags (R86, R226). -/
def Group.eachLane (g : Group) (w : Slot) (value : Nat → Nat × FpFlags) : Group :=
  (lanesOf (g.lanes w) g.width).foldl (fun a l =>
    let (x, f) := value l
    (a.setLane w.ty w.d0.vecIndex l x).raise f) g

/-! ## Integer operations -/

/-- The TY groups of R232. -/
def usTys : List Ty := [.u32, .s32, .u16x2, .s16x2, .u8x4, .s8x4, .u64, .s64]
def logicTys : List Ty := [.b32, .b64]
def intTys : List Ty := usTys ++ logicTys
def shiftTys : List Ty := [.b32, .b64, .u16x2, .u8x4]

/-- A vector form with one to three sources. -/
def vecForm (tys : List Ty) (n : Nat) : Form :=
  { tys := tys, d0 := .vecReg, lanes := true, a := .vecSrc
    b := if 2 ≤ n then .vecSrc else .unused
    c := if 3 ≤ n then .vecSrc else .unused }

/-- .sat only with a u or s TY (R232). -/
def satOk (w : Slot) : Group → Bool := fun _ => !w.mod.getLsbD 0 || !(logicTys.contains w.ty)

/-- The loop of R232: the expression of each element's exact values, wrapped or saturated. -/
def vecInt (f : Form) (ok : Group → Bool) (w : Slot) (s : State) (sat : Bool) (op : Int → Int → Int → Int) : Out :=
  issue f ok noMore w s (fun k g =>
    .done (s.putVec k w g (g.eachLane w (fun l =>
      let n := elemWidth w.ty
      let xs := s.laneElems g w w.a l
      let ys := s.laneElems g w w.b l
      let zs := s.laneElems g w w.c l
      let rs := (List.range (elemCount w.ty)).map (fun i => finishElem w.ty sat
        (op (readElem w.ty n (nth 0 xs i)) (readElem w.ty n (nth 0 ys i)) (readElem w.ty n (nth 0 zs i))))
      (joinElems n (rs.map Prod.fst), rs.foldl (fun a r => a ||| r.2) 0)))))

/-- An instruction of R233 that .sat may modify. -/
def vecSat (tys : List Ty) (n : Nat) (w : Slot) (s : State) (op : Int → Int → Int → Int) : Out :=
  vecInt { vecForm tys n with mod := 1 } (satOk w) w s (w.mod.getLsbD 0) op

/-- An instruction of R233 without .sat. -/
def vecPlain (tys : List Ty) (n : Nat) (w : Slot) (s : State) (op : Int → Int → Int → Int) : Out :=
  vecInt (vecForm tys n) always w s false op

/-- An operation on an element's bit patterns. -/
def onElem (ty : Ty) (op : Nat → Nat → Nat) (x y : Int) : Int :=
  (op (wrapInt x (elemWidth ty)) (wrapInt y (elemWidth ty)) : Nat)

def execVadd (w : Slot) (s : State) : Out := vecSat intTys 2 w s (fun x y _ => x + y)
def execVsub (w : Slot) (s : State) : Out := vecSat intTys 2 w s (fun x y _ => x - y)
def execVmul (w : Slot) (s : State) : Out := vecSat usTys 2 w s (fun x y _ => x * y)

/-- VMULH: floor(x × y ÷ 2^32) (R233). -/
def execVmulh (w : Slot) (s : State) : Out :=
  vecPlain [.u32, .s32] 2 w s (fun x y _ => Int.fdiv (x * y) (2 ^ 32))

def execVmad (w : Slot) (s : State) : Out := vecSat [.u32, .s32, .u16x2, .s16x2] 3 w s (fun x y z => x * y + z)
def execVmin (w : Slot) (s : State) : Out := vecPlain usTys 2 w s (fun x y _ => min x y)
def execVmax (w : Slot) (s : State) : Out := vecPlain usTys 2 w s (fun x y _ => max x y)
def execVabs (w : Slot) (s : State) : Out := vecSat [.s32, .s64, .s16x2, .s8x4] 1 w s (fun x _ _ => (x.natAbs : Int))
def execVneg (w : Slot) (s : State) : Out := vecSat [.s32, .s64, .s16x2, .s8x4] 1 w s (fun x _ _ => -x)
def execVand (w : Slot) (s : State) : Out := vecPlain logicTys 2 w s (fun x y _ => onElem w.ty (· &&& ·) x y)
def execVor (w : Slot) (s : State) : Out := vecPlain logicTys 2 w s (fun x y _ => onElem w.ty (· ||| ·) x y)
def execVxor (w : Slot) (s : State) : Out := vecPlain logicTys 2 w s (fun x y _ => onElem w.ty (· ^^^ ·) x y)
def execVnot (w : Slot) (s : State) : Out := vecPlain logicTys 1 w s (fun x _ _ => -x - 1)

/-- VSHL, VSHR and VSRA on elements (R234). -/
def execVshl (w : Slot) (s : State) : Out :=
  vecPlain shiftTys 2 w s (fun x y _ => onElem w.ty (fun a m => if elemWidth w.ty ≤ m then 0 else a * 2 ^ m) x y)

def execVshr (w : Slot) (s : State) : Out :=
  vecPlain shiftTys 2 w s (fun x y _ => onElem w.ty (fun a m => if elemWidth w.ty ≤ m then 0 else a / 2 ^ m) x y)

def execVsra (w : Slot) (s : State) : Out :=
  vecPlain shiftTys 2 w s (fun x y _ =>
    let n := elemWidth w.ty
    let v := signedOf (wrapInt x n) n
    let m := wrapInt y n
    if n ≤ m then (if v < 0 then -1 else 0) else Int.fdiv v (2 ^ m : Nat))

/-- VBFX: field control per lane from B (R234). -/
def execVbfx (w : Slot) (s : State) : Out :=
  vecPlain [.u32, .s32, .b32] 2 w s (fun x fc _ => extractField w.ty x fc)

/-- VBFI: field control per lane from C (R234). -/
def execVbfi (w : Slot) (s : State) : Out :=
  vecPlain [.u32, .s32, .b32] 3 w s (fun x y fc => insertField w.ty x y fc)

def execVclz (w : Slot) (s : State) : Out :=
  vecPlain logicTys 1 w s (fun x _ _ => (elemWidth w.ty - bitLength (wrapInt x (elemWidth w.ty)) : Nat))

def execVpopc (w : Slot) (s : State) : Out :=
  vecPlain logicTys 1 w s (fun x _ _ => (popCount (elemWidth w.ty) (wrapInt x (elemWidth w.ty)) : Nat))

/-- VMOV (R236). -/
def execVmov (w : Slot) (s : State) : Out := vecPlain logicTys 1 w s (fun x _ _ => x)

/-- VMOVI (R236). -/
def execVmovi (w : Slot) (s : State) : Out :=
  issue { tys := logicTys, d0 := .vecReg, lanes := true, mod := 1, immOwn := true } always noMore w s (fun k g =>
    let v : Word := if w.mod.getLsbD 0 then w.imm.signExtend 64 else w.imm.zeroExtend 64
    .done (s.putVec k w g (g.eachLane w (fun _ => (if w.ty.wide then v.toNat else w.imm.toNat, 0)))))

/-- The lane's bit of the q register that a field names. -/
def Group.qBit (g : Group) (o : Operand) (l : Nat) : Bool := (g.q (o.specialIndex - 0x10)).getLsbD l

/-- A field that names a q register. -/
def Kinds.qReg : Kinds := { qreg := true }

/-- VSEL (R236). -/
def execVsel (w : Slot) (s : State) : Out :=
  issue { vecForm logicTys 2 with c := .qReg } always noMore w s (fun k g =>
    .done (s.putVec k w g (g.eachLane w (fun l =>
      (s.laneValue g w (if g.qBit w.c l then w.a else w.b) l, 0)))))

/-- Write the active lanes' bits of the q register that D0 names (R226, R235). -/
def Group.eachQ (g : Group) (w : Slot) (value : Nat → Bool) : Group :=
  let i := w.d0.specialIndex - 0x10
  let act := g.lanes w
  let set := maskOf ((lanesOf act g.width).filter value)
  g.setQ i ((g.q i &&& ~~~act) ||| set)

/-- Combine a comparison with the q register in C: 0 none, 1 and, 2 or (R235). -/
def Group.combineQ (g : Group) (w : Slot) (comb l : Nat) (r : Bool) : Bool :=
  if comb = 1 then r && g.qBit w.c l else if comb = 2 then r || g.qBit w.c l else r

/-- C is 0x000 exactly without a combination (R235). -/
def combOk (w : Slot) (comb : Nat) : Bool := decide (comb ≠ 3) && (decide (comb = 0) == (w.c == .vec 0))

/-- VCMP (R235). -/
def execVcmp (w : Slot) (s : State) : Out :=
  let cond := (w.mod.extractLsb' 0 3).toNat
  let comb := (w.mod.extractLsb' 3 2).toNat
  issue { tys := scalarTys, d0 := .qReg, a := .vecSrc, b := .vecSrc, c := { Kinds.qReg with zero := true }, lanes := true
          mod := 0x1F } (fun _ => decide (cond ≤ 5) && combOk w comb) noMore w s (fun k g =>
    let n := elemWidth w.ty
    .done (s.setGroup k (g.eachQ w (fun l => g.combineQ w comb l
      (compareInt cond (readElem w.ty n (s.laneValue g w w.a l)) (readElem w.ty n (s.laneValue g w w.b l)))))))

/-- VDOT4 (R237). -/
def execVdot4 (w : Slot) (s : State) : Out :=
  issue { vecForm [.u8x4, .s8x4] 3 with mod := 0x3 } always noMore w s (fun k g =>
    let aSigned := w.ty.signed
    let bSigned := aSigned != w.mod.getLsbD 1
    let either := aSigned || bSigned
    let byte := fun (sg : Bool) (x : Nat) => if sg then signedOf x 8 else (x : Int)
    .done (s.putVec k w g (g.eachLane w (fun l =>
      let xs := splitElems .u8x4 (s.laneSource g w w.a l).toNat
      let ys := splitElems .u8x4 (s.laneSource g w w.b l).toNat
      let c := (s.laneSource g w w.c l).toNat
      let z : Int := if either then signedOf c 32 else (c : Nat)
      let sum := z + ((List.range 4).map (fun i => byte aSigned (nth 0 xs i) * byte bSigned (nth 0 ys i))).foldl (· + ·) 0
      let ty : Ty := if either then .s32 else .u32
      if w.mod.getLsbD 0 then
        let (v, f) := satInt sum (elemMin ty 32) (elemMax ty 32)
        (wrapInt v 32, f)
      else (wrapInt sum 32, 0)))))

/-- VIDX: x + lane × y (R238). -/
def execVidx (w : Slot) (s : State) : Out :=
  issue (vecForm [.u32, .u64] 2) always noMore w s (fun k g =>
    .done (s.putVec k w g (g.eachLane w (fun l =>
      ((s.laneValue g w w.a l + l * s.laneValue g w w.b l) % 2 ^ elemWidth w.ty, 0)))))

end Sys2Proof.Machine
end

