-- ==== Sys2Proof/Machine/Float.lean ====
section
/-!
DEFINITION. The fixed-latency floating-point instructions (R239 to R243, R246).
-/

namespace Sys2Proof.Machine

open Sys2Proof

/-- The element format of a floating-point TY. -/
def fmtOf (ty : Ty) : Fmt := if ty = .bf16x2 then bf16 else if ty = .f16x2 then fp16 else fp32

/-- The fields of MOD that group 3 shares (R239). -/
def fpFtz (w : Slot) : Bool := w.mod.getLsbD 2
def fpMode (w : Slot) : Mode := modeOf (w.mod.extractLsb' 0 2).toNat

/-- What a floating-point form accepts: number of sources, mode, .ftz, source modifiers. -/
def fpForm (tys : List Ty) (n : Nat) (mode ftz mods : Bool) : Form :=
  { vecForm tys n with
    mod := (if mode then 0x3 else 0) ||| (if ftz then 0x4 else 0) ||| (if mods then 0x18 else 0) |||
      (if mods && decide (2 ≤ n) then 0x60 else 0) ||| (if mods && decide (3 ≤ n) then 0x180 else 0) }

/-- A modifier stands only on a source of vector kind (R239). -/
def modifiersOk (w : Slot) : Bool :=
  let ok := fun (i : Nat) (o : Operand) => !(w.mod.getLsbD i || w.mod.getLsbD (i + 1)) || match o with
    | .vec _ => true
    | _ => false
  ok 3 w.a && ok 5 w.b && ok 7 w.c

/-- The three steps by which an element of a source is read (R239). `i` is the position of its negation bit. -/
def readFp (f : Fmt) (w : Slot) (i : Nat) (code : Nat) : Nat :=
  let c1 := flushInput f (fpFtz w) code
  let c2 := if w.mod.getLsbD (i + 1) then c1 % 2 ^ (f.width - 1) else c1
  if w.mod.getLsbD i then c2 ^^^ 2 ^ (f.width - 1) else c2

/-- The loop of R239 on element codes: `op` gives the code and the flags of one element. -/
def Group.fpLanes (g : Group) (s : State) (w : Slot) (op : Nat → Nat → Nat → Nat × FpFlags) : Group :=
  let f := fmtOf w.ty
  g.eachLane w (fun l =>
    let xs := s.laneElems g w w.a l
    let ys := s.laneElems g w w.b l
    let zs := s.laneElems g w w.c l
    let rs := (List.range (elemCount w.ty)).map (fun i =>
      op (readFp f w 3 (nth 0 xs i)) (readFp f w 5 (nth 0 ys i)) (readFp f w 7 (nth 0 zs i)))
    (joinElems f.width (rs.map Prod.fst), rs.foldl (fun a r => a ||| r.2) 0))

/-- Round an exact result with its flags (R82, R239). -/
def roundResult (f : Fmt) (m : Mode) (ftz : Bool) (x : Exact × FpFlags) : Nat × FpFlags :=
  let r := flushResult f ftz (round f m x.1)
  (r.code, r.flags ||| x.2)

/-- An arithmetic instruction of R240: exact operation, one rounding. -/
def fpArith (tys : List Ty) (n : Nat) (w : Slot) (s : State) (op : Bool → Exact → Exact → Exact → Exact × FpFlags) : Out :=
  issue (fpForm tys n true true true) (fun _ => modifiersOk w) noMore w s (fun k g =>
    let f := fmtOf w.ty
    let m := fpMode w
    .done (s.putVec k w g (g.fpLanes s w (fun x y z =>
      roundResult f m (fpFtz w) (op (m = .rdn) (decodeFloat f x) (decodeFloat f y) (decodeFloat f z))))))

def packedTys : List Ty := [.bf16x2, .f16x2]

def execFadd (w : Slot) (s : State) : Out := fpArith [.f32] 2 w s (fun down x y _ => x.add down y)
def execFsub (w : Slot) (s : State) : Out := fpArith [.f32] 2 w s (fun down x y _ => x.add down y.negate)
def execFmul (w : Slot) (s : State) : Out := fpArith [.f32] 2 w s (fun _ x y _ => x.mul y)
def execFfma (w : Slot) (s : State) : Out := fpArith [.f32] 3 w s (fun down x y z => x.fma down y z)
def execPkadd (w : Slot) (s : State) : Out := fpArith packedTys 2 w s (fun down x y _ => x.add down y)
def execPkmul (w : Slot) (s : State) : Out := fpArith packedTys 2 w s (fun _ x y _ => x.mul y)
def execPkfma (w : Slot) (s : State) : Out := fpArith packedTys 3 w s (fun down x y z => x.fma down y z)

/-- FMIN and FMAX on codes (R240). -/
def fpMinMax (w : Slot) (s : State) (op : Fmt → Nat → Nat → Nat) : Out :=
  issue (fpForm (.f32 :: packedTys) 2 false true true) (fun _ => modifiersOk w) noMore w s (fun k g =>
    .done (s.putVec k w g (g.fpLanes s w (fun x y _ => (op (fmtOf w.ty) x y, 0)))))

def execFmin (w : Slot) (s : State) : Out := fpMinMax w s fminNum
def execFmax (w : Slot) (s : State) : Out := fpMinMax w s fmaxNum

/-- The conditions of FCMP (R241). -/
def compareFp (cond : Nat) (x y : Exact) : Bool :=
  let un := x.isNan || y.isNan
  if cond = 0 then x.eq y else if cond = 1 then !x.eq y else if cond = 2 then !un && x.lt y
  else if cond = 3 then !un && !y.lt x else if cond = 4 then !un && y.lt x else if cond = 5 then !un && !x.lt y
  else if cond = 6 then !un else un

/-- FCMP (R241). -/
def execFcmp (w : Slot) (s : State) : Out :=
  let cond := (w.mod.extractLsb' 9 3).toNat
  let comb := (w.mod.extractLsb' 12 2).toNat
  let f : Form := { fpForm [.f32] 2 false true true with d0 := .qReg, c := { Kinds.qReg with zero := true } }
  issue { f with mod := f.mod ||| 0x3E00 } (fun _ => modifiersOk w && combOk w comb) noMore w s (fun k g =>
    .done (s.setGroup k (g.eachQ w (fun l => g.combineQ w comb l
      (compareFp cond (decodeFloat fp32 (readFp fp32 w 3 (s.laneSource g w w.a l).toNat))
        (decodeFloat fp32 (readFp fp32 w 5 (s.laneSource g w w.b l).toNat)))))))

/-- The class bit of an FP32 code (R242). -/
def classBit (code : Nat) : Nat :=
  match decodeFloat fp32 code with
  | .nan => 8
  | .inf s => if s then 0 else 7
  | .fin s n _ _ =>
    if n = 0 then (if s then 3 else 4)
    else if fp32.isSubnormal code then (if s then 2 else 5)
    else (if s then 1 else 6)

/-- The class mask of FCLS: a small immediate from 0 to 511 (R242). -/
def classMask (w : Slot) : Option Nat :=
  match w.b with
  | .imm v => if v.toNat < 512 then some v.toNat else none
  | _ => none

/-- FCLS (R242). -/
def execFcls (w : Slot) (s : State) : Out :=
  issue { tys := [.f32], d0 := .qReg, a := .vecSrc, b := { imm := true }, lanes := true } (fun _ => (classMask w).isSome)
    noMore w s (fun k g =>
      .done (s.setGroup k (g.eachQ w (fun l => bit ((classMask w).getD 0) (classBit (s.laneSource g w w.a l).toNat)))))

/-- The integral value nearest to x in the mode, with the sign of x (R243). -/
def roundIntegral (m : Mode) : Exact → Exact
  | .nan => .nan
  | .inf s => .inf s
  | .fin s n d e =>
    let (k, r, b) := inSteps n d e 0
    .fin s (if roundsUp m s k r b then k + 1 else k) 1 0

/-- FRNDI (R243). -/
def execFrndi (w : Slot) (s : State) : Out :=
  issue (fpForm [.f32] 1 true true true) (fun _ => modifiersOk w) noMore w s (fun k g =>
    .done (s.putVec k w g (g.fpLanes s w (fun x _ _ =>
      ((round fp32 .rne (roundIntegral (fpMode w) (decodeFloat fp32 x))).code, 0)))))

end Sys2Proof.Machine
end

