-- ==== Sys2Proof/Machine/Scaled.lean ====
section
/-!
DEFINITION. Block scaling (R72 to R78), format-slot descriptors (R79 to R81), stochastic rounding (R83) and block
quantisation (R84).
-/

namespace Sys2Proof.Machine

open Sys2Proof

/-! ## Slot descriptors -/

/-- Fields of a format-slot descriptor (R79). -/
def slotV (d : BitVec 64) : Bool := d.getLsbD 63
def slotSeed (d : BitVec 64) : Nat := (d.extractLsb' 16 16).toNat
def slotOvf (d : BitVec 64) : Bool := d.getLsbD 12
def slotQrnd (d : BitVec 64) : Bool := d.getLsbD 11
def slotBand (d : BitVec 64) : Bool := d.getLsbD 10
def slotPlace (d : BitVec 64) : Bool := d.getLsbD 9
def slotSfmt (d : BitVec 64) : Nat := (d.extractLsb' 7 2).toNat
def slotGeom (d : BitVec 64) : Nat := (d.extractLsb' 4 3).toNat
def slotEfmt (d : BitVec 64) : Nat := (d.extractLsb' 0 4).toNat

/-- A descriptor is valid (R80). -/
def slotValid (d : BitVec 64) : Bool :=
  let e := slotEfmt d
  let geom := slotGeom d
  if !slotV d then d == 0
  else
    decide (1 ≤ e) && decide (e ≤ 10) && decide (geom ≤ 3) && decide (slotSfmt d ≤ 2) &&
    (if geom = 0 then decide (slotSfmt d = 0) && !slotPlace d && !slotBand d
     else decide (slotSfmt d = (if geom = 1 then 1 else 2)) && decide (4 ≤ e) && decide (e ≤ 8)) &&
    (!slotBand d || geom = 1) && (!slotOvf d || decide (e ≤ 5)) &&
    (!slotQrnd d || (decide (2 ≤ e) && decide (e ≤ 8))) && (slotQrnd d || slotSeed d = 0) &&
    d.extractLsb' 32 31 == 0 && d.extractLsb' 13 3 == 0

/-- The descriptor of slot k of the group's launch (R43, R79); a hub-core group has no launch and no slots. -/
def State.slotDesc (s : State) (g : Group) (k : Nat) : BitVec 64 :=
  match (s.teamOf g).launch with
  | some seq => match s.launch seq with
    | some l => nth 0 l.record.slots k
    | none => 0
  | none => 0

/-- The block size B of a geometry (R72). -/
def blockSize (geom : Nat) : Nat := if geom = 1 then 8 else if geom = 2 then 16 else 32

/-- The floating-point format of a descriptor that holds one. -/
def slotFmt (d : BitVec 64) : Fmt := (efmtFloat (slotEfmt d)).getD fp32

/-! ## Scales -/

/-- decode_scale of an E3M5 code other than 0x00 (R73). -/
def decodeE3M5 (c : Nat) : Exact :=
  if c = 0xFF then .nan
  else
    let e := c / 32
    let m := c % 32
    if e = 0 then .fin false m 1 (-7) else .fin false (32 + m) 1 ((e : Int) - 8)

/-- decode_scale of an E8M0 code (R74). -/
def decodeE8M0 (c : Nat) : Exact := if c = 0xFF then .nan else .fin false 1 1 ((c : Int) - 127)

/-- decode_scaled (R77). DESIGN CHOICE (log 68): the rule fixes the value NaN of zero times infinity and states no flag of it;
the model raises none. -/
def decodeScaled (d : BitVec 64) (code scale : Nat) (micro : Bool) (band : Exact) : Exact :=
  if slotGeom d = 1 && scale = 0 then .zero false
  else
    let s := if slotGeom d = 1 then decodeE3M5 scale else decodeE8M0 scale
    match s with
    | .nan => .nan
    | _ =>
      let half := if micro then (s.mul (.fin false 1 1 (-1))).1 else s
      let b := if slotBand d then band else .one
      (((decodeFloat (slotFmt d) code).mul half).1.mul b).1

/-! ## Stochastic rounding -/

/-- stoch_bits (R83). -/
def stochBits (team gid pos count seed : Nat) : Nat :=
  (crc32c (leBytes 4 team ++ leBytes 2 gid ++ leBytes 4 pos ++ leBytes 4 count ++ leBytes 2 seed)).toNat % 65536

/-- How the group's conversion of the element at a position rounds under a descriptor (R83). -/
def State.slotMode (s : State) (g : Group) (d : BitVec 64) (count : BitVec 32) (pos : Nat) : SlotMode :=
  if slotQrnd d then .stochastic (stochBits (s.teamOf g).teamId g.gid pos count.toNat (slotSeed d)) else .rne

/-- The group's stochastic count goes up by one at an instruction that converts stochastically (R83). DESIGN CHOICE (log 68):
an instruction with an active lane counts also where every block returns early or every value is NaN or infinite, so that no
tuple is used; the rule does not say whether it then performs a stochastic conversion. -/
def Group.countStochastic (g : Group) (d : BitVec 64) (any : Bool) : Group :=
  if slotQrnd d && any then { g with stoch := g.stoch + 1 } else g

/-! ## Quantisation -/

/-- A quantised block (R84). -/
structure Quantised where
  scale : Nat
  micro : List Bool
  codes : List Nat
  flags : FpFlags

/-- The exponent of the largest finite value (R84). -/
def emaxOf (f : Fmt) : Int := (f.maxCode / 2 ^ f.mbits : Nat) - (f.bias : Int)

/-- The greater of two magnitudes that are not NaN. -/
def Exact.maxOf (x y : Exact) : Exact := if x.lt y then y else x

/-- The exact quotient by a positive finite value. -/
def Exact.over (x y : Exact) : Exact := (x.div y).1

/-- The least finite E3M5 value not below a magnitude, bounded to [2^-7, 31]: its code (R84). -/
def e3m5Above (x : Exact) : Nat :=
  ((List.range 254).map (· + 1)).find? (fun c => !(decodeE3M5 c).lt x) |>.getD 0xFE

/-- The exponent floor(log2 x) of a positive finite value. -/
def Exact.log2 : Exact → Int
  | .fin _ n d e => if n = 0 then 0 else floorLog2 n d e
  | _ => 0

/-- An integer bounded to a range. -/
def clampInt (x lo hi : Int) : Int := max lo (min x hi)

/-- quantise_block (R84). DESIGN CHOICE (log 68): the pseudocode gives no micro bits where it returns early; the model gives
them clear. DESIGN CHOICE (log 91): m is 0 where no element is finite, for which R84 gives no m. -/
def quantiseBlock (d : BitVec 64) (xs : List Exact) (band : Exact) (mode : Nat → SlotMode) : Quantised :=
  let f := slotFmt d
  let geom := slotGeom d
  let none_ := xs.map (fun _ => 0)
  let noMicro := List.replicate (xs.length / 2) false
  let badBand := match band with
    | .fin s n _ _ => s || n = 0
    | _ => true
  if badBand then { scale := 0xFF, micro := noMicro, codes := none_, flags := flagIV ||| flagBN }
  else if xs.any Exact.isNan && f.nan.isNone then
    { scale := 0xFF, micro := noMicro, codes := none_, flags := flagIV ||| flagBN }
  else
    let fin := xs.filter (fun x => !x.isNan && !x.isInf)
    let m := (fin.map (fun x => x.abs.over band)).foldl Exact.maxOf (.zero false)
    let maxe := decodeFloat f f.maxCode
    if geom = 1 && m.isZero then { scale := 0, micro := noMicro, codes := none_, flags := 0 }
    else
      let code := if geom = 1 then e3m5Above (m.over maxe)
        else (clampInt (if m.isZero then 0 else m.log2 - emaxOf f) (-127) 127 + 127).toNat
      let s := if geom = 1 then decodeE3M5 code else decodeE8M0 code
      let limit := ((s.mul maxe).1.mul (.fin false 1 1 (-1))).1
      let pairOk := fun (p : Nat) =>
        let es := ((xs.drop (2 * p)).take 2).filter (fun x => !x.isNan)
        geom = 2 && !es.isEmpty && es.all (fun x => !limit.lt (x.abs.over band))
      let micro := (List.range (xs.length / 2)).map pairOk
      let rounded := (List.range xs.length).map (fun i =>
        let si := if nth false micro (i / 2) then (s.mul (.fin false 1 1 (-1))).1 else s
        roundSlot f (mode i) (slotOvf d) true ((nth .nan xs i).over (band.mul si).1))
      { scale := code, micro := micro, codes := rounded.map Rounded.code
        flags := rounded.foldl (fun a r => a ||| r.flags) 0 }

/-- The micro bits as the byte of a scale entry (R78). -/
def microByte (ms : List Bool) : Nat :=
  ((List.range ms.length).map (fun p => if nth false ms p then 2 ^ p else 0)).foldl (· + ·) 0

end Sys2Proof.Machine
end

