-- ==== Sys2Proof/Machine/Convert.lean ====
section
/-!
DEFINITION. The conversions CVT, CVTE and CVTB (R248 to R251).
-/

namespace Sys2Proof.Machine

open Sys2Proof

/-! ## CVT -/

/-- A TY holds floating-point elements. -/
def Ty.isFloat (ty : Ty) : Bool := ty = .f32 || ty = .bf16x2 || ty = .f16x2

/-- The source type that MOD[3:0] names (R248). -/
def cvtSource (w : Slot) : Option Ty := Ty.decode (w.mod.extractLsb' 0 4)

/-- The fields of CVT's MOD (R248). -/
def cvtMode (w : Slot) : Nat := (w.mod.extractLsb' 4 2).toNat
def cvtFtz (w : Slot) : Bool := w.mod.getLsbD 6
def cvtSat (w : Slot) : Bool := w.mod.getLsbD 7
def cvtElem (w : Slot) : Nat := (w.mod.extractLsb' 8 2).toNat
def cvtPack (w : Slot) : Bool := w.mod.getLsbD 10

/-- The TYs of CVT (R248). -/
def cvtTys : List Ty := [.u32, .s32, .u16x2, .s16x2, .u8x4, .s8x4, .f32, .bf16x2, .f16x2, .u64, .s64]

/-- CVT's own encoding rules (R248, R249). -/
def cvtOk (w : Slot) : Bool :=
  match cvtSource w with
  | none => false
  | some src =>
    let ns := elemCount src
    let nd := elemCount w.ty
    cvtTys.contains src && src != w.ty && !((ns = 2 && nd = 4) || (ns = 4 && nd = 2)) &&
    decide (cvtElem w < max ns nd) && (!cvtPack w || (nd = 2 && ns = 1)) && (cvtPack w || w.b == .vec 0) &&
    (if Ty.isFloat src then !cvtSat w
     else if Ty.isFloat w.ty then !cvtSat w && !cvtFtz w
     else cvtMode w = 0 && !cvtFtz w)

/-- The conversion of one element (R249). -/
def convertElem (src dst : Ty) (m : Mode) (ftz sat : Bool) (x : Nat) : Nat × FpFlags :=
  let n := elemWidth dst
  if Ty.isFloat src then
    let f := fmtOf src
    let v := decodeFloat f (flushInput f ftz x)
    if Ty.isFloat dst then roundResult (fmtOf dst) m ftz (v, 0)
    else
      let (i, fl) := roundInt m (elemMin dst n) (elemMax dst n) v
      (wrapInt i n, fl)
  else
    let i := readElem src (elemWidth src) x
    if Ty.isFloat dst then roundResult (fmtOf dst) m false (.ofInt i, 0)
    else finishElem dst sat i

/-- A source of CVT in one lane, at the width of the source type. -/
def State.cvtElems (s : State) (g : Group) (w : Slot) (src : Ty) (o : Operand) (l : Nat) : List Nat :=
  splitElems src (s.laneValue g { w with ty := src } o l)

/-- One lane of CVT: the new value of the destination and its flags (R248). -/
def State.cvtLane (s : State) (g : Group) (w : Slot) (src : Ty) (l : Nat) : Nat × FpFlags :=
  let conv := convertElem src w.ty (modeOf (cvtMode w)) (cvtFtz w) (cvtSat w)
  let xs := s.cvtElems g w src w.a l
  let ns := elemCount src
  let nd := elemCount w.ty
  let d := w.d0.vecIndex
  let old := splitElems w.ty (if w.ty.wide then (g.v64 d l).toNat else (g.v d l).toNat)
  let rs :=
    if ns = nd then xs.map conv
    else if cvtPack w then [conv (nth 0 xs 0), conv (nth 0 (s.cvtElems g w src w.b l) 0)]
    else if ns = 1 then
      (List.range nd).map (fun i => if i = cvtElem w then conv (nth 0 xs 0) else (nth 0 old i, 0))
    else [conv (nth 0 xs (cvtElem w))]
  (joinElems (elemWidth w.ty) (rs.map Prod.fst), rs.foldl (fun a r => a ||| r.2) 0)

/-- CVT (R248, R249). -/
def execCvt (w : Slot) (s : State) : Out :=
  let src := (cvtSource w).getD .b32
  let n := if src.wide then 2 else 1
  issue { vecForm cvtTys 1 with
          b := (if cvtPack w then .vecSrc else .unused), mod := 0x7FF, na := some n, nb := some n }
    (fun _ => cvtOk w) noMore w s (fun k g => .done (s.setGroup k (g.eachLane w (s.cvtLane g w src))))

/-! ## CVTE -/

/-- The slot index and the direction of CVTE and CVTB (R250, R251). -/
def cvtSlot (w : Slot) : Nat := (w.mod.extractLsb' 0 3).toNat
def cvtDec (w : Slot) : Bool := w.mod.getLsbD 3

/-- A lane of an FP32 source. -/
def State.laneFp32 (s : State) (g : Group) (w : Slot) (ftz : Bool) (o : Operand) (l : Nat) : Exact :=
  decodeFloat fp32 (flushInput fp32 ftz (s.laneSource g w o l).toNat)

/-- CVTE.enc of one value (R250). -/
def encodeElem (d : BitVec 64) (sm : SlotMode) (ftz : Bool) (x : Exact) : Nat × FpFlags :=
  match efmtFloat (slotEfmt d) with
  | some f =>
    let r := flushResult f ftz (roundSlot f sm (slotOvf d) false x)
    (r.code, r.flags)
  | none =>
    let n := efmtWidth (slotEfmt d)
    let (i, fl) := roundInt .rne (elemMin .s32 n) (elemMax .s32 n) x
    (wrapInt i n, fl)

/-- decode(code, EFMT) of an unscaled slot. -/
def decodeElem (d : BitVec 64) (code : Nat) : Exact :=
  match efmtFloat (slotEfmt d) with
  | some f => decodeFloat f (code % 2 ^ f.width)
  | none => .ofInt (signedOf code (efmtWidth (slotEfmt d)))

/-- TY is b32 for .enc and f32 for .dec (R250, R251). -/
def directionOk (w : Slot) : Bool := w.ty = (if cvtDec w then .f32 else .b32)

/-- CVTE (R250). -/
def execCvte (w : Slot) (s : State) : Out :=
  let ftz := w.mod.getLsbD 6
  issue { vecForm [.b32, .f32] 1 with mod := 0x4F }
    (fun g => directionOk w && slotV (s.slotDesc g (cvtSlot w)) && decide (slotGeom (s.slotDesc g (cvtSlot w)) = 0))
    noMore w s (fun k g =>
      let d := s.slotDesc g (cvtSlot w)
      let act := lanesOf (g.lanes w) g.width
      let value := fun (l : Nat) =>
        if cvtDec w then roundResult fp32 .rne ftz (decodeElem d (s.laneSource g w w.a l).toNat, 0)
        else encodeElem d (s.slotMode g d g.stoch l) ftz (s.laneFp32 g w ftz w.a l)
      let g1 := g.eachLane w value
      .done (s.setGroup k (if cvtDec w then g1 else g1.countStochastic d !act.isEmpty)))

/-! ## CVTB -/

/-- CVTB's own encoding rules (R251). -/
def cvtbOk (d : BitVec 64) (w : Slot) (g : Group) : Bool :=
  directionOk w && slotV d && decide (slotGeom d ≠ 0) && decide (blockSize (slotGeom d) ≤ g.width) &&
  (cvtDec w || (w.d0 != w.d1 && decide (w.mod.extractLsb' 4 2 = 0)))

/-- D1 of CVTB.enc lies in the group's partition. -/
def d1Ok (w : Slot) (g : Group) : Bool := cvtDec w || decide (w.d1.vecIndex < g.vregs)

/-- CVTB.enc of one block of lanes (R251). DESIGN CHOICE (log 97): a block without an active lane is skipped and raises no flag. -/
def State.encodeBlock (s : State) (w : Slot) (g : Group) (d : BitVec 64) (act : BitVec 64) (acc : Group) (j : Nat) : Group :=
  let n := blockSize (slotGeom d)
  let lanes := (List.range n).map (fun i => j * n + i)
  let on := lanes.filter (fun l => act.getLsbD l)
  if on.isEmpty then acc
  else
    let xs := lanes.map (fun l => if act.getLsbD l then s.laneFp32 g w (w.mod.getLsbD 6) w.a l else .zero false)
    let band := if slotBand d then s.laneFp32 g w false w.b (j * n) else .one
    let q := quantiseBlock d xs band (fun i => s.slotMode g d g.stoch (j * n + i))
    let entry := q.scale + (if slotGeom d = 2 then 256 * microByte q.micro else 0)
    (on.foldl (fun a l =>
      (a.setV w.d0.vecIndex l (BitVec.ofNat 32 (nth 0 q.codes (l - j * n)))).setV w.d1.vecIndex l (BitVec.ofNat 32 entry))
      acc).raise q.flags

/-- CVTB.dec of one lane (R251). -/
def State.decodeLane (s : State) (w : Slot) (g : Group) (d : BitVec 64) (l : Nat) : Nat × FpFlags :=
  let entry := (s.laneSource g w w.b l).toNat
  let i := l % blockSize (slotGeom d)
  let micro := slotGeom d = 2 && bit entry (8 + i / 2)
  let band := if slotBand d then s.laneFp32 g w false w.c l else .one
  let code := (s.laneSource g w w.a l).toNat % 2 ^ (slotFmt d).width
  roundResult fp32 (modeOf (w.mod.extractLsb' 4 2).toNat) (w.mod.getLsbD 6) (decodeScaled d code (entry % 256) micro band, 0)

/-- The descriptor that CVTE or CVTB of the current group names. -/
def State.curSlot (s : State) (w : Slot) : BitVec 64 :=
  match s.group s.cur with
  | some g => s.slotDesc g (cvtSlot w)
  | none => 0

/-- The form of CVTB: a band field is read only when the slot's BAND is 1 (R251). -/
def cvtbForm (w : Slot) (d : BitVec 64) : Form :=
  let band : Kinds := if slotBand d then .vecSrc else .unused
  { vecForm [.b32, .f32] 1 with
    d1 := (if cvtDec w then .unused else .vecReg)
    b := (if cvtDec w then .vecSrc else band)
    c := (if cvtDec w then band else .unused)
    mod := 0x7F }

/-- CVTB (R251). -/
def execCvtb (w : Slot) (s : State) : Out :=
  issue (cvtbForm w (s.curSlot w)) (fun g => cvtbOk (s.slotDesc g (cvtSlot w)) w g && d1Ok w g)
    noMore w s (fun k g =>
      let d := s.slotDesc g (cvtSlot w)
      if cvtDec w then .done (s.setGroup k (g.eachLane w (s.decodeLane w g d)))
      else
        let act := g.lanes w
        let g1 := (List.range (g.width / blockSize (slotGeom d))).foldl (s.encodeBlock w g d act) g
        .done (s.setGroup k (g1.countStochastic d (decide (act ≠ 0)))))

end Sys2Proof.Machine
end

