-- ==== Sys2Proof/Machine/Checked.lean ====
section
/-!
DEFINITION. Acquires and releases (R105, R114, R115, R342), and what a team under check does beside an instruction's
own effect: store signatures (R348), logs (R350) and replays from the log (R296, R349).
-/

namespace Sys2Proof.Machine

open Sys2Proof

/-! ## Acquires and releases -/

/-- A scope whose synchronisation orders every location (R107). -/
def wideScope (scope : Nat) : Bool := decide (4 ≤ scope)

/-- The policy of a check: 0 HOLD, 1 EXPOSE, 2 TIMEOUT (R342). -/
def State.policyOf (s : State) (c : Nat) : Nat :=
  match s.check c with
  | some x => match s.launch x.launch with
    | some l => l.record.policy
    | none => 0
  | none => 0

/-- Commit what a check's original holds so far, as a release at DEV or SYS scope does under EXPOSE and as the end of
HOLDMAX does under TIMEOUT; SEALs stay deferred (R342, R351, R355). -/
def State.exposeHeld (s : State) (c : Nat) : State :=
  match s.runRec c 0 with
  | none => s
  | some x =>
    let any := !(x.held.isEmpty && x.appends.isEmpty && x.statuses.isEmpty)
    let bytes := x.held.map Prod.fst ++ (x.statuses.flatMap (fun p => (List.range 8).map (fun i => p.1 + i))) ++
      x.appends.flatMap (fun p => (List.range p.2.2.length).map (fun i => p.1 + p.2.1 + i))
    let s1 := s.modCheck c (fun y => { y with exposed := y.exposed || any
                                              early := bytes.foldl (fun t a => Tab.insert t a true) y.early })
    s1.commitBytes c 0 false

/-- A release at a scope by a party: under EXPOSE the held version is committed first; at DEV and SYS scope the die's
remote-write buffer drains (R115, R342). -/
def State.release (s : State) (who : Who) (scope : Nat) : State :=
  if wideScope scope then
    let s1 := match s.runOf who with
      | some (c, 0) => if s.policyOf c = 1 then s.exposeHeld c else s
      | _ => s
    s1.drainAll (coreDie who.core)
  else s

/-- An acquire at a scope by a party: at DEV and SYS scope its core drops the untracked copies (R114). -/
def State.acquire (s : State) (who : Who) (scope : Nat) : State :=
  if wideScope scope then s.dropCopies who.core else s

/-- Take the first refusal of a flagless access at this instruction, if the group owes one (R386). -/
def State.takeRefused (s : State) (k : Nat) (g : Group) : Option Result :=
  g.refused.map (fun c => .trap (s.modGroup k (fun x => { x with refused := none })) { c with lanes := g.q0 })

/-- At a FENCE, a release, WAITC, WAITB or EXIT a refusal that the group owes is taken, else the instruction goes on
(R386). -/
def State.releasing (s : State) (k : Nat) (g : Group) (r : Result) : Result := (s.takeRefused k g).getD r

/-! ## Signatures -/

/-- The CRC of one store lane record (R348). -/
def laneRecord (addr : Word) (data : List Byte) (mask kind : Nat) : Word :=
  sigCrc (wordBytes 8 addr ++ data ++ leBytes 2 mask ++ [BitVec.ofNat 8 kind] ++ List.replicate 5 0)

/-- The records of a lane's bytes, one for each aligned 16-byte unit (R348). -/
def unitRecords (kind va : Nat) (bs : List Byte) : Word :=
  let n := bs.length
  if n = 0 then 0
  else
    ((List.range ((va + n - 1) / 16 - va / 16 + 1)).map (fun u =>
      let base := (va / 16 + u) * 16
      let inside := fun (i : Nat) => decide (va ≤ base + i) && decide (base + i < va + n)
      let data := (List.range 16).map (fun i => if inside i then nth 0 bs (base + i - va) else 0)
      let mask := ((List.range 16).map (fun i => if inside i then 2 ^ i else 0)).foldl (· + ·) 0
      laneRecord (BitVec.ofNat 64 base) data mask kind)).foldl (· + ·) 0

/-- The records of bytes that one store writes at several places, one for each aligned 16-byte unit; of two writes of a byte the
later counts (R282, R348). -/
def scatterRecords (kind : Nat) (ws : List (Nat × Byte)) : Word :=
  let t : Tab Byte := ws.foldl (fun a p => Tab.insert a p.1 p.2) []
  (((Tab.keys t).map (· / 16)).eraseDups.map (fun u =>
    let data := (List.range 16).map (fun i => Tab.read 0 t (u * 16 + i))
    let mask := ((List.range 16).map (fun i => if (Tab.find t (u * 16 + i)).isSome then 2 ^ i else 0)).foldl (· + ·) 0
    laneRecord (BitVec.ofNat 64 (u * 16)) data mask kind)).foldl (· + ·) 0

/-- The two records of an operand fold (R348). -/
def foldRecords (op lane : Nat) (a b c imm : Word) : Word :=
  let addr := BitVec.ofNat 64 (op + lane * 1024)
  laneRecord addr (wordBytes 8 a ++ wordBytes 8 b) 0xFFFF 3 + laneRecord addr (wordBytes 8 c ++ wordBytes 8 imm) 0xFFFF 4

/-- Add to the store signature of a run's team. -/
def State.addSignature (s : State) (who : Who) (x : Word) : State :=
  match who.team with
  | some t => if (s.runOf who).isSome then s.modTeam t (fun y => { y with storeSig := y.storeSig + x }) else s
  | none => s

/-- A run folds the records of stored or suppressed bytes. -/
def State.signBytes (s : State) (who : Who) (kind va : Nat) (bs : List Byte) : State :=
  if (s.runOf who).isSome then s.addSignature who (unitRecords kind va bs) else s

/-- A run folds the records of the bytes of one step of an engine. DEDUCED (log 103): a step of a copy, and a CPYX as a whole, is
one store of R348. -/
def State.signWrites (s : State) (who : Who) (kind : Nat) (ws : List (Nat × Byte)) : State :=
  if (s.runOf who).isSome then s.addSignature who (scatterRecords kind ws) else s

/-! ## Logs -/

/-- An instruction's entry in the log: opcode, active lanes, operands and values (R349, R350). -/
structure LogItem where
  op : Nat
  lanes : BitVec 64
  operands : List Word
  values : List Word
  fault : Option (Nat × Nat) := none

/-- Records of a check's log (R350). -/
def Check.logRecords (c : Check) : Nat := (c.log.map (fun e => e.values.length)).foldl (· + ·) 0

/-- Change the original's log; it takes a unit of the spill area for every eight records (R350). -/
def State.growLog (s : State) (c : Nat) (f : List LogEntry → List LogEntry) : State :=
  match s.check c with
  | none => s
  | some x =>
    let y : Check := { x with log := f x.log }
    let before := ceilDiv x.logRecords 8
    let after := ceilDiv y.logRecords 8
    let s1 := s.modCheck c (fun _ => y)
    if before < after then s1.spill c (after - before) else s1

/-- The original's log grows by an entry (R350). -/
def State.appendLog (s : State) (c gid : Nat) (i : LogItem) : State :=
  s.growLog c (fun l => l ++ [{ gid := gid, op := BitVec.ofNat 10 i.op, lanes := i.lanes, operands := i.operands
                                values := i.values, fault := i.fault }])

/-- Fill the values of the entry of a group and opcode that was left open, after passing over n such entries. -/
def fillEntry (gid op : Nat) (values : List Word) (fault : Option (Nat × Nat)) : Nat → List LogEntry → List LogEntry
  | _, [] => []
  | n, e :: es =>
    if e.gid = gid && e.op = BitVec.ofNat 10 op && e.values.isEmpty then
      match n with
      | 0 => { e with values := values, fault := fault } :: es
      | m + 1 => e :: fillEntry gid op values fault m es
    else e :: fillEntry gid op values fault n es

/-- A log entry that the original left open receives its values (R64, R296, R350). -/
def State.fillLog (s : State) (c gid op n : Nat) (values : List Word) (fault : Option (Nat × Nat) := none) : State :=
  s.growLog c (fillEntry gid op values fault n)

/-- The next entry of the log for a group of a later run. -/
def State.nextLog (s : State) (c : Nat) (g : Group) : Option LogEntry :=
  match s.check c with
  | some x => (x.log.filter (fun e => e.gid = g.gid))[g.logPos]?
  | none => none

/-- What the log says to a later run's instruction: its entry, or that the instruction differs in OP or active lanes
(R349, R350). A difference of the operands is kept for the resolution (R368). -/
def State.readLog (s : State) (c r k : Nat) (g : Group) (op : Nat) (lanes : BitVec 64) (operands : List Word) :
    Option LogEntry × State :=
  match s.nextLog c g with
  | some e =>
    if e.op = BitVec.ofNat 10 op && e.lanes = lanes then
      let s1 := s.modGroup k (fun x => { x with logPos := x.logPos + 1 })
      (some e, if e.operands = operands then s1 else s1.modRun c r (fun x => { x with differed := true }))
    else (none, s)
  | none => (none, s)

/-- An operation that a later run suppresses: the original keeps its operands, and a later run compares its own with those of the
original's operation of the same group, opcode and number (R296, R368; log 89). -/
def State.compareEffect (s : State) (who : Who) (e : Effect) : State :=
  match s.runOf who with
  | none => s
  | some (c, r) =>
    let like : Nat → List Effect := fun i => match s.runRec c i with
      | some x => x.effects.filter (fun y => y.gid = e.gid && y.op = e.op)
      | none => []
    let same := r = 0 || (like 0)[(like r).length]? = some e
    s.modRun c r (fun x => { x with effects := x.effects ++ [e], differed := x.differed || !same })

/-- A later run stops at once: cause and slot address replace its register signature (R349). -/
def State.stopRun (s : State) (k code slot : Nat) : State :=
  match s.group k with
  | none => s
  | some g =>
    ((s.modTeam g.team (fun t => { t with runEnd := some (code, slot) })).stopGroup k code).stopTeam g.team code

/-- What part a team's group plays in a check: none, the original, or a later run. -/
inductive Part where
  | plain
  | original (check : Nat)
  | later (check run : Nat)
  deriving DecidableEq, Repr

/-- The part of a party's team. -/
def State.partOf (s : State) (who : Who) : Part :=
  match s.runOf who with
  | none => .plain
  | some (c, 0) => .original c
  | some (c, r + 1) => .later c (r + 1)

/-- The original logs an item; otherwise nothing is logged. -/
def State.logFor (s : State) (who : Who) (gid : Nat) (i : LogItem) : State :=
  match s.partOf who with
  | .original c => s.appendLog c gid i
  | _ => s

end Sys2Proof.Machine
end

