-- ==== Sys2Proof/Machine/Fetch.lean ====
section
/-!
DEFINITION. What happens around an instruction in a step: time passes (R31), the group whose clause is in progress is
found, and its next slot is read from its clause buffer (R155 to R157).
-/

namespace Sys2Proof.Machine

open Sys2Proof

/-- The vector clock of a core's pound stands from CLKOFF to CLKON (R423). -/
def State.clockStops (s : State) (core : Nat) : Bool :=
  core < 576 && match (s.pound (corePound core)).state with
    | .clkoff => true
    | .railoff => true
    | .off => true
    | .railon => true
    | .clkon => true
    | _ => false

/-- The core of the current group. -/
def State.curCore (s : State) : Nat := match s.group s.cur with
  | some g => g.core
  | none => 0

/-- Time passes before a step: %clock goes on by a free amount, and so does %cycles of the current core (R31, R396,
R423; log 7). -/
def State.tick (s : State) : State :=
  let s1 := { s with now := s.now + Config.elapsed s.freeIx, freeIx := s.freeIx + 1 }
  if s.clockStops s.curCore then s1
  else s1.modCore s.curCore (fun c => { c with cycles := (c.cycles + Config.cycles s.freeIx) % 2 ^ 64 })

/-- A group has a clause in progress whose next instruction can issue (R157, R161). -/
def Group.canIssue (g : Group) : Bool :=
  g.clause.isSome && g.parked.isNone && g.wait.isNone && !g.debugStop && !g.holding

/-- No clause of the group is in progress, or it stands parked or at a breakpoint within one (R381, R388, R389, R427). -/
def Group.atBoundary (g : Group) : Bool := g.clause.isNone || g.parked.isSome || g.debugStop

/-- These groups all stand at a boundary. -/
def State.atBoundaries (s : State) (ks : List Nat) : Bool :=
  ks.all (fun k => match s.group k with
    | some g => g.atBoundary
    | none => true)

/-- The team of a group is resident and its partition is not switched out (R65). -/
def State.groupResident (s : State) (g : Group) : Bool :=
  (match s.team g.team with
    | some t => t.residency = .resident
    | none => false)

/-- A team's cluster stands stopped, resident, until its image finds room in the swap area (R388). -/
def State.teamStopped (s : State) (t : Team) : Bool :=
  match t.cluster with
  | some c => (match s.cluster c with
    | some x => x.stopped.isSome
    | none => false)
  | none => t.stopped

/-- The groups that stop together with a team: those of its cluster, or a run's own (R388). -/
def State.stopMates (s : State) (t : Team) : List Nat :=
  match t.cluster with
  | some c => (match s.cluster c with
    | some x => x.teams.flatMap (fun i => ((s.team i).map Team.groups).getD [])
    | none => t.groups)
  | none => t.groups

/-- A group's team stands stopped (R388). -/
def State.groupStopped (s : State) (g : Group) : Bool :=
  match s.team g.team with
  | some t => s.teamStopped t
  | none => false

/-- The group whose clause is in progress: the current group first, then the first other one. -/
def State.running (s : State) : Option Nat :=
  let ok := fun (g : Group) => g.canIssue && s.groupResident g
  match s.group s.cur with
  | some g =>
    if ok g then some s.cur else (s.groups.find? (fun p => ok p.2)).map Prod.fst
  | none => (s.groups.find? (fun p => ok p.2)).map Prod.fst

/-- The slot at the head of a group's clause buffer. -/
def State.headSlot (s : State) (k : Nat) : Option (BitVec 160) :=
  match s.group k with
  | some g =>
    match g.clause with
    | some c => match c.rest with
      | (_, x) :: _ => some x
      | [] => none
    | none => none
  | none => none

/-- A slot that is no instruction raises the illegal-instruction trap (R168, R174). -/
def State.illegalSlot (s : State) (k : Nat) : State :=
  match s.group k with
  | some g => s.trapAt k (trapAll g 0x01 0)
  | none => s

/-- A clause buffer without a next slot ends its clause. -/
def State.dropClause (s : State) (k : Nat) : State := s.modGroup k (fun g => { g with clause := none })

/-- The instructions that wait at issue try again after the next event (R58). -/
def State.retryHolding (s : State) : State :=
  { s with groups := Tab.mapWith (fun _ g => { g with holding := false }) s.groups }

/-! ## Placing an instruction -/

/-- The header of a line that a single instruction is placed in: C, TGT of its slot, SETA 0, SETB 1 (R151). -/
def placedHeader (k : Nat) : BitVec 32 := 0x01000080#32 ||| (1#32 <<< (4 + k))

/-- The line that holds a slot at position k, a boundary after it when it carries no BND, and canonical NOPs (R150,
R155). -/
def placedLine (k : Nat) (x : BitVec 160) : BitVec 512 :=
  let after := if x.getLsbD 119 then canonicalNop else boundaryNop
  let at_ := fun (i : Nat) => if i = k then x else if i = k + 1 then after else canonicalNop
  lineWithParity (at_ 0) (at_ 1) (at_ 2) (placedHeader k)

/-- Put an instruction at the current group's program counter, in memory and in its clause buffer. -/
def State.placeSlot (s : State) (x : BitVec 160) : State :=
  match s.group s.cur with
  | none => s
  | some g =>
    let k := slotIndex g.pc
    let line := placedLine k x
    let next := lineWithParity boundaryNop canonicalNop canonicalNop (placedHeader 0)
    let rest := if x.getLsbD 119 then [(g.pc, x)] else [(g.pc, x), (nextSlot g.pc, boundaryNop)]
    let pa := match s.translate (g.who s.cur) [] g.pc .execute with
      | .ok e => some (e.phys (lineOf g.pc))
      | _ => none
    let s1 := match pa with
      | some a => s.setBytes (atAddr a (leBytes 64 line.toNat) ++ atAddr (a + 64) (leBytes 64 next.toNat))
      | none => s
    let s2 := s1.setGroup s.cur { g with
      clause := some { entry := g.pc, header := lineWord line, rest := rest }
      parked := none
      wait := none
      holding := false
      debugStop := false }
    { s2 with agenda := [] }

end Sys2Proof.Machine
end

