-- ==== Sys2Proof/Machine/Clause.lean ====
section
/-!
DEFINITION. Clauses: fetching lines (R126, R387), predecode (R152 to R156), prices (R230, R263, R303, R333), and the
issue of a clause by its pipe's arbiter (R157, R264, R327 to R329, R385).
-/

namespace Sys2Proof.Machine

open Sys2Proof

/-! ## Prices -/

/-- Base prices of groups 2, 3 and 4 (R233, R240, R244, R248 to R257). -/
def basePrices2 : List Nat := [2, 2, 3, 3, 6, 6, 6, 3, 3, 3, 3, 3, 3, 3, 3, 3, 3, 3, 3, 3, 3, 3, 2, 3, 8, 2]
def basePrices3 : List Nat := [6, 6, 6, 10, 6, 6, 6, 6, 6, 20, 20, 12, 12, 12, 12, 12, 12, 12, 10, 6, 6]
def basePrices4 : List Nat := [3, 8, 4, 4, 1, 1, 8, 10, 1, 1, 1, 1]

/-- Base prices of group 5, before the register count (R263). -/
def basePrices5 : List Nat := [4, 4, 3, 3, 3, 3, 6, 4, 2, 0, 0, 0, 1, 0, 6, 0, 0]

/-- The register count that CNT selects (R259). -/
def regCnt (w : Slot) : Nat := 2 ^ (w.mod.extractLsb' 22 3).toNat

/-- A base price scaled by the group's width and the TY (R230). -/
def scaledPrice (p width : Nat) (ty : Ty) : Nat := ceilDiv (p * width) 32 * (if ty.wide then 2 else 1)

/-- The price of an instruction for a group of the given width (R333). -/
def priceOf (op : Nat) (w : Slot) (width : Nat) : Nat :=
  if op < 0x100 then 0
  else if op < 0x180 then scaledPrice (nth 0 basePrices2 (op - 0x100)) width w.ty
  else if op < 0x200 then scaledPrice (nth 0 basePrices3 (op - 0x180)) width w.ty
  else if op = 0x204 ∨ op = 0x205 then 1
  else if op < 0x280 then scaledPrice (nth 0 basePrices4 (op - 0x200)) width w.ty
  else if op < 0x300 then
    let n := if op = 0x284 ∨ op = 0x285 ∨ op = 0x288 ∨ op = 0x28E then regCnt w else 1
    scaledPrice (nth 0 basePrices5 (op - 0x280) * n) width w.ty
  else if op = 0x30F then ceilDiv (2 * width) 32
  else if op = 0x300 ∨ op = 0x304 ∨ (0x307 ≤ op ∧ op ≤ 0x309) then 0
  else if op < 0x310 then 1
  else 0

/-- The price of a slot. DESIGN CHOICE (log 107): a slot whose word does not decode counts 0, and one that only its
instruction's own checks refuse counts in full. -/
def slotPrice (x : BitVec 160) (width : Nat) : Nat :=
  match decodeWord x with
  | .ok i => match i.opSlot with
    | some (op, w) => priceOf op.toNat w width
    | none => 0
  | .error _ => 0

/-! ## Fetching -/

/-- What a fetch of one line comes to. -/
inductive Fetched where
  | line (x : BitVec 512)
  | miss (va : Nat)
  | fault (code va : Nat)

/-- The line in memory at a physical address. -/
def State.lineAt (s : State) (who : Who) (pa : Nat) : BitVec 512 :=
  BitVec.ofNat 512 (leNat ((List.range 64).map (fun i => s.seenByte { who with team := none } (pa + i))))

/-- Fetch a line from the slice: one with wrong parity is fetched once more (R152); a poisoned or refused line is not kept, and
a fetch of management space is refused, since it is no aligned 8-byte access (R28, R387). -/
def State.fetchAnew (s : State) (who : Who) (pa va : Nat) : Fetched × State :=
  if s.errorReply pa || region pa = .management then (.fault 0x21 va, s.countError pa)
  else if s.poisoned (lineNo pa) then (.fault 0x20 va, s)
  else
    let x := s.lineAt who pa
    (.line x, s.modCore who.core (fun c => { c with icache := Tab.insert c.icache pa x }))

/-- Fetch the line at a physical address: from the core's instruction cache or anew, as a free choice where the two differ
(R126). -/
def State.fetchPhys (s : State) (who : Who) (pa va : Nat) : Fetched × State :=
  match Tab.find (s.core who.core).icache pa with
  | some x =>
    if !lineParityOk x then s.fetchAnew who pa va
    else if x = s.lineAt who pa && !s.errorReply pa && region pa != .management && !s.poisoned (lineNo pa) then (.line x, s)
    else
      let (b, s1) := s.freeBool
      if b then (.line x, s1) else s1.fetchAnew who pa va
  | none => s.fetchAnew who pa va

/-- Fetch the line at a virtual address. -/
def State.fetchLine (s : State) (who : Who) (known : List (Nat × AccessKind × Nat)) (va : Nat) : Fetched × State :=
  match s.translate who known va .execute with
  | .miss => (.miss va, s)
  | .fault c => (.fault c va, s)
  | .ok e => s.fetchPhys who (e.phys va) va

/-! ## Predecode -/

/-- What predecode finds (R156): the clause, its price and the lines it fetched, or what stops it. -/
inductive Predecoded where
  | clause (c : ClausePos) (price : Nat)
  | miss (va : Nat)
  | fault (code va : Nat)

/-- The slots of a line from slot k on, with their addresses. -/
def lineSlots (va : Nat) (x : BitVec 512) (k : Nat) : List (Nat × BitVec 160) :=
  ((List.range 3).drop k).map (fun i => (va + 20 * i, lineSlot x i))

/-- A slot carries BND. -/
def slotBnd (x : BitVec 160) : Bool := x.getLsbD 119

/-- The slots up to and including the first boundary. -/
def upToBoundary : List (Nat × BitVec 160) → List (Nat × BitVec 160)
  | [] => []
  | p :: ps => if slotBnd p.2 then [p] else p :: upToBoundary ps

/-- Fetch the lines of a clause from slot k of its entry line on, up to its first boundary or 24 instructions (R155):
the lines in order. -/
def State.fetchClause : Nat → State → Who → List (Nat × AccessKind × Nat) → Nat → Nat → Nat →
    Sum (List (Nat × BitVec 512)) Fetched × State
  | 0, s, _, _, _, _, _ => (.inl [], s)
  | fuel + 1, s, who, known, va, k, n =>
    match s.fetchLine who known va with
    | (.line x, s1) =>
      let slots := lineSlots va x k
      if slots.any (fun p => slotBnd p.2) || 24 ≤ n + slots.length then (.inl [(va, x)], s1)
      else
        match s1.fetchClause fuel who known (va + 64) 0 (n + slots.length) with
        | (.inl ls, s2) => (.inl ((va, x) :: ls), s2)
        | r => r
    | (f, s1) => (.inr f, s1)

/-- Class F and the group of an opcode (R173, R174). -/
def opIsF (op : Nat) : Bool :=
  (op < 0x01B && op != 0x018) || op = 0x080 || op = 0x08F || (0x100 ≤ op && op < 0x11A) ||
  (0x180 ≤ op && op < 0x189) || (0x192 ≤ op && op < 0x195) || (0x200 ≤ op && op < 0x20C)

/-- The registers that an operand field names, for the co-issue rule. Only scalar and special registers can conflict: of the
two instructions one is of group 0, which neither reads nor writes a vector register. DESIGN CHOICE (log 66): c7 and q0
count like the other condition bits and lane masks although a write of them is discarded, and s0 does not count. -/
def pairRegs (o : Operand) : List Operand :=
  match o with
  | .vec _ => []
  | .scalar i => if i = 0 then [] else [.scalar i]
  | .special n => [.special n]
  | .imm _ => []

/-- The registers an instruction of a co-issue pair writes. -/
def pairWrites (op : Nat) (w : Slot) : List Operand :=
  if op = 0x019 ∨ op = 0x080 then [] else pairRegs w.d0

/-- The registers an instruction of a co-issue pair reads: its sources, its guards, and a destination it reads. -/
def pairReads (op : Nat) (w : Slot) : List Operand :=
  (if op = 0x080 then [] else pairRegs w.a ++ pairRegs w.b ++ pairRegs w.c ++
    (if op = 0x001 ∨ op = 0x200 then pairRegs w.d0 else [])) ++
  [.special (BitVec.ofNat 10 w.sg.toNat), .special (BitVec.ofNat 10 (0x10 + w.lg.toNat))]

/-- The condition of R154 on two named slots. DESIGN CHOICE (log 93): a slot that does not decode does not meet it. -/
def pairOk (x y : BitVec 160) : Bool :=
  match decodeWord x, decodeWord y with
  | .ok i, .ok j =>
    match i.opSlot, j.opSlot with
    | some (p, u), some (q, v) =>
      let p := p.toNat
      let q := q.toNat
      let vecGroup := fun (o : Nat) => 0x100 ≤ o && o < 0x280
      opIsF p && opIsF q && ((p < 0x80 && vecGroup q) || (q < 0x80 && vecGroup p)) && !u.bnd &&
      !(pairWrites p u).any (fun r => (pairReads q v ++ pairWrites q v).contains r) &&
      !(pairWrites q v).any (fun r => (pairReads p u).contains r)
    | _, _ => false
  | _, _ => false

/-- PAIR of one line: both named slots belong to the clause and meet R154. -/
def linePairOk (va : Nat) (x : BitVec 512) (body : List (Nat × BitVec 160)) : Bool :=
  let p := (headerPair (lineWord x)).toNat
  if p = 0 then true
  else
    let inClause := fun (i : Nat) => body.any (fun q => q.1 = va + 20 * i)
    inClause (p - 1) && inClause p && pairOk (lineSlot x (p - 1)) (lineSlot x p)

/-- The slots after the boundary hold the canonical NOP (R155). -/
def paddingOk (body : List (Nat × BitVec 160)) (last : Nat × BitVec 512) : Bool :=
  match body.getLast? with
  | some (a, _) => (lineSlots last.1 last.2 0).all (fun p => decide (p.1 ≤ a) || p.2 == canonicalNop)
  | none => true

/-- A boundary that cannot fall through (R155): BRA, BRI, RET, EXIT or ERET carrying SG = 0b0111. -/
def endsFlow (x : BitVec 160) : Bool :=
  let op := (x.extractLsb' 0 10).toNat
  (op = 0x081 || op = 0x084 || op = 0x086 || op = 0x087 || op = 0x383) && x.extractLsb' 14 4 == 7

/-- The address of the first line of a clause that breaks R152 to R155, the next line's C bit left aside. -/
def badLine (lines : List (Nat × BitVec 512)) (body : List (Nat × BitVec 160)) (first : Nat) : Option Nat :=
  let bad := lines.find? (fun l =>
    !lineParityOk l.2 || lineWordMalformed (lineWord l.2) || (headerC (lineWord l.2) != (l.1 == first)) ||
    !linePairOk l.1 l.2 body)
  match bad with
  | some l => some l.1
  | none =>
    match body.getLast?, lines.getLast? with
    | some p, some l => if !slotBnd p.2 || 24 < body.length || !paddingOk body l then some l.1 else none
    | _, _ => some first

/-- The line at a virtual address, fetched ahead of any entry; none where it cannot be translated and fetched without fault
(R148, R155). -/
def State.fetchAhead (s : State) (who : Who) (known : List (Nat × AccessKind × Nat)) (va : Nat) : Option (BitVec 512 × State) :=
  match s.aheadEntry who known va .execute with
  | none => none
  | some e =>
    match s.fetchPhys who (e.phys va) va with
    | (.line z, s1) => some (z, s1)
    | _ => none

/-- Predecode the clause that begins at an entry slot (R155, R156). The C bit of the line after the clause is judged when that
line can be fetched and translated without fault; DESIGN CHOICE (log 106): a line whose parity is wrong when fetched again counts
as fetched. -/
def State.predecode (s : State) (who : Who) (known : List (Nat × AccessKind × Nat)) (entry width : Nat) :
    Predecoded × State :=
  let va := lineOf entry
  if !isSlotAddress entry then (.fault 0x02 va, s)
  else match s.fetchClause 9 who known va (slotIndex entry) 0 with
  | (.inr (.miss a), s1) => (.miss a, s1)
  | (.inr (.fault c a), s1) => (.fault c a, s1)
  | (.inr (.line _), s1) => (.fault 0x02 va, s1)
  | (.inl lines, s1) =>
    let slots := (lines.map (fun l => lineSlots l.1 l.2 (if l.1 = va then slotIndex entry else 0))).flatten
    let body := upToBoundary slots
    match badLine lines body va, lines with
    | some a, _ => (.fault 0x02 a, s1)
    | none, [] => (.fault 0x02 va, s1)
    | none, (_, x) :: _ =>
      let done := (Predecoded.clause { entry := entry, header := lineWord x, rest := body }
        ((body.map (fun p => slotPrice p.2 width)).foldl (· + ·) 0), s1)
      match body.getLast? with
      | some (a, y) =>
        if endsFlow y then done
        else
          match s1.fetchAhead who known (nextLine a) with
          | some (z, s2) => if headerC (lineWord z) then (done.1, s2) else (.fault 0x02 (nextLine a), s2)
          | none => done
      | none => done

/-! ## The arbiter -/

/-- The partition of a context lets its groups run: it is switched in, or the context is the firmware's (R389, R426). -/
def State.contextRuns (s : State) (ctx : Nat) : Bool :=
  if ctx = 0 then true
  else match s.part ctx with
    | some p => p.state = .switchedIn
    | none => false

/-- The group could issue a clause, its wait flags left aside (R65). -/
def State.eligible (s : State) (g : Group) : Bool :=
  g.clause.isNone && g.wait.isNone && g.parked.isNone && g.exiting.isNone && !g.debugStop && g.doomed.isNone &&
  s.groupResident g && !s.groupStopped g && s.contextRuns g.ctx && (576 ≤ g.core || (s.die (coreDie g.core)).resetStep = 0)

/-- The timer trap is due (R216). -/
def State.timerDue (s : State) (g : Group) : Bool := g.gtimer != 0 && decide (g.gtimer.toNat ≤ g.gtime s.now)

/-- Every flag of a header's WAIT is clear (R157). -/
def Group.flagsClear (g : Group) (h : BitVec 32) : Bool :=
  (List.range 12).all (fun i => !(headerWait h).getLsbD i || g.flag i = 0)

/-- The price of a group's next clause when the clause is eligible and flag-clear (R327, R329). -/
def State.ready (s : State) (k : Nat) : Option Nat :=
  match s.group k with
  | some g =>
    if s.eligible g then
      match (s.predecode (g.who k) g.walkFaults g.pc g.width).1 with
      | .clause c p => if g.flagsClear c.header then some p else none
      | _ => none
    else none
  | none => none

/-- The order of the arbiter between two groups of a pipe (R327): sticky groups, others, groups that have just yielded;
then the older, then the lower %gid. -/
def arbiterBefore (a b : Group) : Bool :=
  let rank := fun (g : Group) => if g.sticky || decide (64 ≤ g.losses) then 0 else if g.yielded then 2 else 1
  decide (rank a < rank b) || (rank a = rank b && (decide (a.age < b.age) || (a.age = b.age && decide (a.gid < b.gid))))

/-- The groups of one core. -/
def State.coreGroups (s : State) (core : Nat) : List (Nat × Group) := s.groups.filter (fun p => p.2.core = core)

/-- The order of the core's purse between two groups: the older clause, then the lower pipe, then the lower %gid (R329). -/
def purseBefore (a b : Group) : Bool :=
  decide (a.age < b.age) || (a.age = b.age &&
    (decide (a.tindex % 4 < b.tindex % 4) || (a.tindex % 4 = b.tindex % 4 && decide (a.gid < b.gid))))

/-- The flag-clear eligible clauses of a core, with their groups and prices (R327, R329). -/
def State.readyOf (s : State) (core : Nat) : List (Nat × Group × Nat) :=
  (s.coreGroups core).filterMap (fun p => (s.ready p.1).map (fun q => (p.1, p.2, q)))

/-- The first of a list of clauses in the order of the purse. -/
def oldestOf : List (Nat × Group × Nat) → Option (Nat × Group × Nat)
  | [] => none
  | x :: xs =>
    match oldestOf xs with
    | some y => if purseBefore y.2.1 x.2.1 then some y else some x
    | none => some x

/-- The core's oldest flag-clear eligible clause cannot be drawn, so no clause with a price is drawn (R329). -/
def State.purseBlocked (s : State) (core : Nat) : Bool :=
  match oldestOf (s.readyOf core) with
  | some (_, _, q) => decide (core < 576 && (s.core core).purse < q)
  | none => false

/-- A clause's price can be drawn under the purse rule; a price of zero always, and a hub core draws nothing (R329). -/
def State.drawable (s : State) (core price : Nat) : Bool :=
  price = 0 || decide (576 ≤ core) || (decide (price ≤ (s.core core).purse) && !s.purseBlocked core)

/-- Another group of the pipe has issued a part of its clause and holds the pipe until its boundary, waiting at issue or not; a
parked or a stopped group does not hold it (R58, R157, R381, R427). -/
def State.pipeBusy (s : State) (k : Nat) (g : Group) : Bool :=
  (s.coreGroups g.core).any (fun p => p.1 != k && p.2.tindex % 4 = g.tindex % 4 && p.2.clause.isSome && p.2.parked.isNone &&
    !p.2.debugStop && s.groupResident p.2)

/-- The arbiter's choice falls on group k with the given price (R157, R327, R329): its pipe is free, its price can be
drawn, and no group of its pipe comes first whose price can be drawn. -/
def State.chosen (s : State) (k : Nat) (g : Group) (price : Nat) : Bool :=
  !s.pipeBusy k g && s.drawable g.core price &&
  (s.readyOf g.core).all (fun x =>
    x.1 = k || !(x.2.1.tindex % 4 = g.tindex % 4 && s.drawable g.core x.2.2 && arbiterBefore x.2.1 g))

/-- Draw a clause price from a core's purse; hub cores draw nothing (R329). -/
def State.drawPrice (s : State) (core ctx price : Nat) : State :=
  let s1 := if 576 ≤ core then s else s.modCore core (fun c => { c with purse := c.purse - price })
  s1.countEnergy ctx price

/-- Restart the hang watchdog of a context (R393). -/
def State.feedWatchdog (s : State) (ctx : Nat) : State :=
  s.modPart ctx (fun p => if p.state = .switchedIn then { p with watchdog := s.now } else p)

/-- The groups of a pipe that were ready and not chosen have lost an arbitration (R328). -/
def State.loseOthers (s : State) (k : Nat) (g : Group) : State :=
  let lost := (s.coreGroups g.core).filter (fun p => p.1 != k && p.2.tindex % 4 = g.tindex % 4 && (s.ready p.1).isSome)
  lost.foldl (fun a p => a.modGroup p.1 (fun x => { x with losses := x.losses + 1 })) s

/-- The fault of an engine operation that the group takes at the entry slot (R385). -/
def State.engineEntryTrap (s : State) (k : Nat) (c : Cause) : State :=
  (s.modGroup k (fun g => { g with engFaults := g.engFaults.drop 1 })).trapEntry k c (match s.group k with
    | some g => g.pc
    | none => 0)

/-- The first owed deferred fault whose flag the header's WAIT names (R264). -/
def Group.owedFor (g : Group) (h : BitVec 32) : Option Owed := g.owed.find? (fun o => (headerWait h).getLsbD o.flag)

/-- An arbitration of a pipe is over: its groups have yielded no more (R160). -/
def State.endYields (s : State) (g : Group) : State :=
  { s with groups := Tab.mapWith (fun _ x =>
      if x.core = g.core && x.tindex % 4 = g.tindex % 4 then { x with yielded := false } else x) s.groups }

/-- Start the clause: its pending marks fall, its price is drawn, and the group becomes the current one (R157, R159). -/
def State.startClause (s : State) (k : Nat) (g : Group) (c : ClausePos) (price : Nat) : State :=
  let s1 := ((s.loseOthers k g).endYields g).drawPrice g.core g.ctx price
  let s2 := s1.modGroup k (fun x => { x with
    clause := some c
    marks := x.marks.filter (fun m => !(headerWait c.header).getLsbD m.flag)
    losses := 0
    sticky := false
    walkFaults := [] })
  { s2.feedWatchdog g.ctx with cur := k }

/-- CLAUSE_ISSUE (R156, R157, R264, R327, R329, R381, R385): the group's next clause is predecoded and, when its flags
are clear and the arbiter chooses it, issues. A fetch or format fault is taken at the entry slot; a fault of an engine
operation and a deferred fault are taken there once the flags are clear. -/
def execClauseIssue (k : Nat) (s : State) : Out :=
  match s.group k with
  | none => .next s
  | some g =>
    if !s.eligible g then .next s
    else
      match s.predecode (g.who k) g.walkFaults g.pc g.width with
      | (.miss va, s1) => .next (s1.park k [(va, .execute)])
      | (.fault code va, s1) =>
        if s.trapWaits k || s.timerDue g then .next s
        else .next (s1.trapEntry k { code := code, faddr := BitVec.ofNat 64 va } g.pc)
      | (.clause c price, s1) =>
        if !g.flagsClear c.header || s.timerDue g then .next s
        else
          match g.engFaults, g.owedFor c.header with
          | (_, e) :: _, _ => if s.trapWaits k then .next s else .next (s1.engineEntryTrap k e)
          | [], some o =>
            if s.trapWaits k then .next s
            else
              .next ((s1.modGroup k (fun x => { x with owed := x.owed.filter (fun y => y != o) })).trapEntry k
                { o.cause with deferred := true } o.slot)
          | [], none => if s1.chosen k g price then .next (s1.startClause k g c price) else .next s

/-- STICKY_PRIORITY (R328): a group that has lost 64 arbitrations since its last issue. -/
def execStickyPriority (k : Nat) (s : State) : Out :=
  match s.group k with
  | some g => if 64 ≤ g.losses then .next (s.modGroup k (fun x => { x with sticky := true })) else .next s
  | none => .next s

/-- A group waits between clauses for a flag that its next clause's header names (R58). -/
def State.waitsFlags (s : State) (k : Nat) (g : Group) : Bool :=
  match (s.predecode (g.who k) g.walkFaults g.pc g.width).1 with
  | .clause c _ => !g.flagsClear c.header
  | _ => false

/-- TIMER_TRAP (R216, R371, R396): taken at the entry slot of the group's next clause, once its wait has ended. -/
def execTimerTrap (k : Nat) (s : State) : Out :=
  match s.group k with
  | some g =>
    if s.eligible g && s.timerDue g && !s.waitsFlags k g && !s.trapWaits k then
      .next (s.trapEntry k { code := 0x0C } g.pc)
    else .next s
  | none => .next s

end Sys2Proof.Machine
end

