-- ==== Sys2Proof/Machine/Pound.lean ====
section
/-!
DEFINITION. The rails (R418), the droop detectors (R335, R419), the power states of pounds (R337, R420 to R423), and the saving
and restoring of teams that eviction, swap-out and the partition switch share (R388, R391), with the end of SWITCHIN (R392).
-/

namespace Sys2Proof.Machine

open Sys2Proof

/-- Nanoseconds of a number of microseconds. -/
def us (n : Nat) : Nat := n * 1000

/-! ## Rails -/

/-- A change of the rails begins within a control interval: the interval's mint and its draws count with the factors of the
faster points. Tokens already injected are not taken back (R330, R336, R418; log 77). -/
def State.refactor (s : State) : State :=
  { s with
    dies := Tab.mapWith (fun _ d =>
      if d.interval = s.intervalNow && d.resetStep = 0 then
        let m := min d.mint (mintOf d.measured s.factor)
        { d with mint := m, mintLeft := d.mintLeft - (d.mint - m) }
      else d) s.dies
    parts := Tab.mapWith (fun _ p =>
      let q := p.settleMs s.now
      { q with energyFactor := max q.energyFactor s.factor }) s.parts }

/-- A write of RAIL_CTL (R418): ignored while BUSY is set. A slower point is in force at once; a faster one when its
voltage is reached. -/
def State.writeRail (s : State) (v : Word) : State :=
  let vec := v.extractLsb' 0 2
  let mat := v.extractLsb' 8 2
  let h := s.hub
  if h.railBusy then s
  else
    let dv := vec != h.railVec
    let dm := mat != h.railMat
    let s1 := s.modHub (fun x => { x with
      railCtlVec := vec
      railCtlMat := mat
      railOldVec := h.railVec
      railOldMat := h.railMat
      railVec := (if h.railVec < vec then vec else h.railVec)
      railMat := (if h.railMat < mat then mat else h.railMat)
      railVecPending := dv
      railMatPending := dm
      railBusy := dv || dm })
    if dv || dm then s1.refactor else s1

/-- The faster of two points: the lower number (R417). -/
def fasterPoint (a b : BitVec 2) : BitVec 2 := if a < b then a else b

/-- A change has ended in a control interval, which it overlaps with its old and new points (R418). -/
def Hub.endRail (h : Hub) (interval : Nat) : Hub :=
  let vec := fasterPoint h.railOldVec h.railCtlVec
  let mat := fasterPoint h.railOldMat h.railCtlMat
  let again := h.railEnd = some interval
  { h with
    railBusy := false
    railEnd := some interval
    railPastVec := if again then fasterPoint h.railPastVec vec else vec
    railPastMat := if again then fasterPoint h.railPastMat mat else mat }

/-- A rail reaches its new voltage: its clocks switch, and BUSY clears with the last of the two (R418). -/
def State.railReached (s : State) (vector : Bool) : State :=
  s.modHub (fun h =>
    let h1 : Hub := if vector then { h with railVec := h.railCtlVec, railVecPending := false }
      else { h with railMat := h.railCtlMat, railMatPending := false }
    if h1.railVecPending || h1.railMatPending then h1 else h1.endRail s.intervalNow)

/-- RAIL_CTL (R418). -/
def execRailCtl (value : BitVec 64) (s : State) : Out := .next (s.writeRail value)

/-- RAIL_VOLTAGE_REACHED (R418): where both rails change, either may be the first. -/
def execRailVoltageReached (s : State) : Out :=
  let h := s.hub
  if h.railVecPending && h.railMatPending then
    let (b, s1) := s.freeBool
    .next (s1.railReached b)
  else if h.railVecPending then .next (s.railReached true)
  else if h.railMatPending then .next (s.railReached false)
  else .next s

/-! ## Registers of a pound -/

/-- The number of a power state in PD_STAT (R420). -/
def PoundState.code : PoundState → Nat
  | .run => 0
  | .drain => 1
  | .quiet => 2
  | .save => 3
  | .clkoff => 4
  | .railoff => 5
  | .off => 6
  | .railon => 7
  | .clkon => 8
  | .restore => 9

/-- The key of pound p of die d. -/
def poundKey (die pound : Nat) : Nat := die * 16 + pound

/-- The cores of a pound, ascending. -/
def poundCores (key : Nat) : List Nat := (poundSites (key % 16)).map (fun i => key / 16 * 144 + i)

/-- The teams resident in a pound. -/
def State.poundTeams (s : State) (key : Nat) : List (Nat × Team) :=
  s.teams.filter (fun p => p.2.residency = .resident && p.2.core < 576 && corePound p.2.core = key)

/-- PD_ACK takes an acknowledgement, which sets IRQ_STAT.PDACK (R420). -/
def State.ackPound (s : State) (key : Nat) (code : Nat) : State :=
  (s.modPound key (fun p => { p with
    ackSeq := p.ackSeq + 1
    ackState := BitVec.ofNat 4 p.state.code
    ackCode := BitVec.ofNat 8 code })).raiseIrq 0

/-- The target of a pound's gating: TARGET, or that of automatic gating (R420, R421). -/
def Pound.aim (p : Pound) : Nat :=
  if p.target != 0 then p.target.toNat else if p.autotgt = 2 then 2 else 1

/-! ## Gating -/

/-- The team's scratchpad lines are pinned: it keeps its place, or has exited in a cluster that does (R54, R98, R388; log 87). -/
def State.pins (s : State) (t : Team) (out : List Nat) : Bool :=
  match t.cluster with
  | some c => !out.contains c && (t.residency.placed || (t.residency = .exited &&
      (match s.cluster c with
        | some x => x.state = .started
        | none => false)))
  | none => t.residency.placed

/-- Lines of a core store that scratchpads pin (R98). -/
def State.pinnedLines (s : State) (core : Nat) : Nat :=
  ((s.teams.filter (fun p => p.2.core = core && s.pins p.2 [])).map (fun p => p.2.scratchSize / 128)).foldl (· + ·) 0

/-- A core store writes its dirty lines back, poison and all, returns every token, drops its lines and withdraws its requests; its ways but
the pinned ones are gated and counted. The first-level TLB is emptied (R129, R421, R423; log 78). -/
def State.quietCore (s : State) (core : Nat) : State :=
  let s1 := { s with tokens := Tab.mapWith (fun _ t => (t.leave core).withdraw core) s.tokens }
  s1.modCore core (fun c => { c with copies := [], tlb := [], gated := 8192 - s.pinnedLines core })

/-- DRAIN begins (R421). -/
def State.beginGating (s : State) (key : Nat) : State :=
  s.modPound key (fun p => { p with state := .drain, waking := false })

/-- The commit cycle (R337, R421): the admit lock closes, and the unstarted team control blocks return to the
distributor. -/
def State.commitGating (s : State) (key : Nat) : State :=
  let blocks := (s.pound key).blocks
  let isNew := fun (c : Nat) => match s.cluster c with
    | some x => x.state = .pound key
    | none => false
  let s1 := s.modPound key (fun p => { p with lock := true, blocks := blocks.filter (fun c => !isNew c) })
  (blocks.filter isNew).foldl (fun a c => a.modCluster c (fun x => { x with state := .distributor, origin := none })) s1

/-- QUIET begins (R421). -/
def State.beginQuiet (s : State) (key : Nat) : State :=
  let s1 := (poundCores key).foldl State.quietCore s
  s1.modPound key (fun p => { p with state := .quiet, taeTlb := [] })

/-- SAVE ends: PD_RET holds a CRC over a layout that the spec does not give, a free value, and RV (R420, R421). -/
def State.endSave (s : State) (key : Nat) : State :=
  let (n, s1) := s.freeNat
  s1.modPound key (fun p => { p with retCrc := BitVec.ofNat 32 n, retValid := true })

/-- CLKOFF begins: purses are emptied, Mace stops on the pound's cores, and without KEEPIC the instruction caches go (R332,
R421, R423). -/
def State.beginClkoff (s : State) (key : Nat) : State :=
  let keep := (s.pound key).keepic
  let s1 := (poundCores key).foldl (fun a c => a.modCore c (fun x => { x with
    purse := 0
    enginePurse := 0
    claim := none
    engineClaim := none
    mace := none
    icache := (if keep then x.icache else []) })) s
  let s2 := s1.modPound key (fun p => { p with state := .clkoff })
  if (s2.pound key).aim = 1 then s2.ackPound key 1 else s2

/-- The pound reaches RUN (R421): its lock opens. A nonzero TARGET written during the wake starts gating at once
(R422). -/
def State.reachRun (s : State) (key code : Nat) : State :=
  let s0 := (poundCores key).foldl (fun a c => a.modCore c (fun x => { x with gated := 0 })) s
  let s1 := s0.modPound key (fun p => { p with state := .run, lock := false, waking := false, idleSince := s.now })
  let s2 := s1.ackPound key code
  if (s2.pound key).target != 0 then s2.beginGating key else s2

/-- RESTORE ends (R421): the retained state agrees with its CRC, or, where it does not, the reset values are loaded and
the instruction caches go. Whether it agrees is a free value. -/
def State.endRestore (s : State) (key : Nat) : State :=
  let (good, s1) := s.freeBool
  let s2 := s1.modPound key (fun p => { p with retValid := false })
  if good then s2.reachRun key 3
  else
    let s3 := s2.modPound key (fun p => { p with hold := 2, thresh := 4 })
    let s4 := (poundCores key).foldl (fun a c => a.modCore c (fun x => { x with icache := [], maceLast := 0 })) s3
    s4.reachRun key 4

/-- A wake (R421, R422). -/
def State.wakePound (s : State) (key : Nat) : State :=
  let s1 := s.modPound key (fun p => { p with target := 0 })
  match (s1.pound key).state with
  | .run => s1
  | .drain => s1.reachRun key 3
  | .quiet => s1.modPound key (fun p => { p with waking := true })
  | .save => s1.modPound key (fun p => { p with waking := true })
  | .railoff => s1.modPound key (fun p => { p with waking := true })
  | .clkoff => s1.modPound key (fun p => { p with state := .clkon, waking := true })
  | .off => s1.modPound key (fun p => { p with state := .railon, waking := true })
  | .railon => s1
  | .clkon => s1
  | .restore => s1

/-- A gating that is not yet committed is cancelled by a dispatch (R337, R422). -/
def State.cancelGating (s : State) (key : Nat) : State :=
  (s.modPound key (fun q => { q with state := .run, target := 0, idleSince := s.now })).ackPound key 2

/-- A dispatch meets the admit lock of a pound: before the commit it cancels the gating, after it it starts the wake (R337,
R422). -/
def State.dispatchAt (s : State) (key : Nat) : State :=
  match (s.pound key).state with
  | .run => s
  | .drain => if (s.pound key).lock then s.wakePound key else s.cancelGating key
  | _ => s.wakePound key

/-! ## Saving and restoring teams -/

/-- The matrix array of a team that owns it goes into the team's image (R298, R391). -/
def State.saveArray (s : State) (t : Nat) : State :=
  match s.team t with
  | some x =>
    let c := s.core x.core
    if c.owner = some t then
      (s.modCore x.core (fun y => { y with owner := none, array := {} })).modTeam t
        (fun y => { y with arraySave := some c.array })
    else s
  | none => s

/-- A group leaves with its team: %gtime stands and its watch is lost (R279, R396). -/
def Group.leave (g : Group) (now : Nat) : Group :=
  { g.stopTime now with watch := none, watchLost := g.watchLost || g.watch.isSome }

/-- A team stops and its image is saved; images are held in place (R388, R391). -/
def State.saveTeam (s : State) (t : Nat) (place : Residency) : State :=
  let owned := match s.team t with
    | some x => (s.core x.core).owner = some t
    | none => false
  let s1 := s.saveArray t
  match s1.team t with
  | some x =>
    let s2 := x.groups.foldl (fun a k => a.modGroup k (fun g => g.leave s.now)) s1
    (s2.modTeam t (fun y => { y with residency := place, heldArray := owned && place = .switchedOut })).markIdle x.core
  | none => s1

/-- A team that owned its core's array at the partition's halt owns it again with its state; where another team has claimed
the array since, the state stays saved until the handover (R298). -/
def State.regainArray (s : State) (t : Nat) : State :=
  match s.team t with
  | some x =>
    let s1 := s.modTeam t (fun y => { y with heldArray := false })
    if x.heldArray && (s.core x.core).owner.isNone then
      (s1.modCore x.core (fun c => { c with owner := some t, array := x.arraySave.getD {} })).modTeam t
        (fun y => { y with arraySave := none })
    else s1
  | none => s

/-- A poisoned image ends its team fatally with cause 0x20 (R395). DESIGN CHOICE (log 110): the report names the pc of the team's
first live group and sets no flag of the cause word. -/
def State.endPoisoned (s : State) (t : Nat) : State :=
  match s.team t with
  | some x =>
    match x.groups with
    | k :: _ =>
      match s.group k with
      | some g => s.fatalTrap k { code := 0x20 } false g.pc
      | none => s
    | [] => s
  | none => s

/-- A saved team is restored on its core, whose Mace segment ends, and its groups become eligible, or it ends where its image is
poisoned; a team that the end of another has ended before its turn stays ended (R298, R360, R378, R391, R392, R395, R396). -/
def State.restoreTeam (s : State) (t : Nat) : State :=
  match s.team t with
  | some x =>
    if x.residency = .exited then s else
    let s1 := (x.groups.foldl (fun a k => a.modGroup k (fun g => g.startTime s.now)) s).modTeam t
      (fun y => { y with residency := .resident, inSwap := false, imagePoison := false })
    let s2 := (s1.regainArray t).modCore x.core (fun c => { c with mace := none })
    if x.imagePoison then s2.endPoisoned t else s2.resumeQueues t
  | none => s

/-! ## The end of SWITCHIN -/

/-- A partition command ends with a RESULT (R425, R431). -/
def State.partDone (s : State) (ctx result : Nat) : State :=
  (s.modHub (fun h => { h with ptBusy := false, ptCtx := BitVec.ofNat 8 ctx, ptResult := BitVec.ofNat 8 result })).raiseIrq 2

/-- The teams of a context on compute dies. -/
def State.contextTeams (s : State) (ctx : Nat) : List Nat :=
  (s.teams.filter (fun p => p.2.ctx = ctx && p.2.core < 576)).map Prod.fst

/-- The saved teams of a context. -/
def State.savedTeams (s : State) (ctx : Nat) : List Nat :=
  (s.contextTeams ctx).filter (fun t => match s.team t with
    | some x => x.residency = .switchedOut
    | none => false)

/-- SWITCHIN ends: once every pound of the saved teams runs, woken where it was gated, the teams are restored together (R57,
R392, R421, R431; log 79). -/
def State.tryRestore (s : State) (ctx : Nat) : State :=
  let ts := s.savedTeams ctx
  let keys := (ts.filterMap (fun t => (s.team t).map (fun x => corePound x.core))).eraseDups
  let s1 := keys.foldl State.dispatchAt s
  if keys.all (fun k => (s1.pound k).state = .run) then
    let s2 := s1.modPart ctx (fun x => { x with state := .switchedIn, watchdog := s.now - x.watchdog })
    (ts.foldl State.restoreTeam s2).partDone ctx 0
  else s1

/-- The restorations that wait for pounds go on (R392, R421). -/
def State.settleRestores (s : State) : State :=
  ((s.parts.filter (fun p => p.2.state = .restoring)).map Prod.fst).foldl State.tryRestore s

/-! ## Writes and events -/

/-- A write of PD_CTL (R420, R422). -/
def State.writePdCtl (s : State) (key : Nat) (v : Word) : State :=
  let idle := v.extractLsb' 16 16
  let target := v.extractLsb' 0 2
  let s1 := s.modPound key (fun p => { p with
    autoidle := (if idle = 0 then p.autoidle else idle)
    autotgt := v.extractLsb' 2 2 })
  if target = 3 then s1
  else if target = 0 then s1.wakePound key
  else
    let s2 := s1.modPound key (fun p => { p with target := target })
    if (s2.pound key).state = .run then s2.beginGating key else s2

/-- A write of PD_WAKE (R420). -/
def State.writePdWake (s : State) (key : Nat) (v : Word) : State := if v.getLsbD 0 then s.wakePound key else s

/-- PD_CTL (R420 to R422, R436). -/
def execPdCtl (die pound : Nat) (value : BitVec 64) (s : State) : Out :=
  if die < 4 && pound < 16 then
    .next (s.dieWrite die (fun a => (a.writePdCtl (poundKey die pound) value).settleRestores))
  else .next s

/-- PD_WAKE (R420, R422, R436). -/
def execPdWake (die pound : Nat) (value : BitVec 64) (s : State) : Out :=
  if die < 4 && pound < 16 then
    .next (s.dieWrite die (fun a => (a.writePdWake (poundKey die pound) value).settleRestores))
  else .next s

/-- AUTOIDLE_EXPIRY (R421): a pound in RUN that has held no team and no queued block for AUTOIDLE µs. -/
def execAutoidleExpiry (die pound : Nat) (s : State) : Out :=
  let key := poundKey die pound
  let p := s.pound key
  if die < 4 && pound < 16 && p.state = .run && (p.autotgt = 1 || p.autotgt = 2) && (s.poundTeams key).isEmpty &&
      p.blocks.isEmpty && decide (p.idleSince + us p.autoidle.toNat ≤ s.now) then .next (s.beginGating key)
  else .next s

/-- No team is resident in the pound and no engine operation of its cores remains (R421). -/
def State.poundDrained (s : State) (key : Nat) : Bool :=
  (s.poundTeams key).isEmpty && !s.ops.any (fun p => match s.team p.2.team with
    | some t => t.core < 576 && corePound t.core = key && t.residency = .resident
    | none => false)

/-- POUND_STATE_COMPLETE (R421): a pound completes its power state. In DRAIN the admit lock closes first. -/
def execPoundStateComplete (die pound : Nat) (s : State) : Out :=
  let key := poundKey die pound
  let p := s.pound key
  let enter := fun (x : PoundState) (a : State) => a.modPound key (fun q => { q with state := x })
  if !(die < 4 && pound < 16) then .next s
  else match p.state with
    | .run => .next s
    | .drain =>
      if !p.lock then .next (s.commitGating key)
      else if s.poundDrained key then .next (s.beginQuiet key) else .next s
    | .quiet => if p.waking then .next (s.reachRun key 3).settleRestores else .next (enter .save s)
    | .save => if p.waking then .next (enter .restore (s.endSave key)) else .next ((s.endSave key).beginClkoff key)
    | .clkoff => if p.aim = 2 then .next (enter .railoff s) else .next s
    | .railoff =>
      if p.waking then .next (enter .railon s)
      else
        let s1 := enter .off s
        .next (if p.aim = 2 then s1.ackPound key 1 else s1)
    | .off => .next s
    | .railon => .next (enter .clkon s)
    | .clkon => .next (enter .restore (s.modPound key (fun q => { q with droop := false })))
    | .restore => .next (s.endRestore key).settleRestores

/-! ## Droop -/

/-- The detector is active (R419). -/
def Pound.detects (p : Pound) : Bool :=
  match p.state with
  | .clkoff => false
  | .railoff => false
  | .off => false
  | .railon => false
  | .clkon => false
  | _ => true

/-- DROOP_FIRE (R335, R419). -/
def execDroopFire (die pound : Nat) (s : State) : Out :=
  let key := poundKey die pound
  if die < 4 && pound < 16 && (s.pound key).detects then
    .next (s.modPound key (fun p => { p with
      droop := true
      droopSince := s.now
      droops := (if p.droops = 0xFFFFFFFF#32 then p.droops else p.droops + 1) }))
  else .next s

/-- DROOP_HOLD_EXPIRY (R335). -/
def execDroopHoldExpiry (die pound : Nat) (s : State) : Out :=
  let key := poundKey die pound
  let p := s.pound key
  if p.droop && decide (p.droopSince + us p.hold.toNat ≤ s.now) then
    .next (s.modPound key (fun q => { q with droop := false }))
  else .next s

end Sys2Proof.Machine
end

