-- ==== Sys2Proof/Machine/Partition.lean ====
section
/-!
DEFINITION. Partitions: their creation from a descriptor (R431 to R433), their switch (R389 to R392) and their reset (R393,
R394).
-/

namespace Sys2Proof.Machine

open Sys2Proof

/-! ## Descriptors -/

/-- Bytes of a record read from a physical address that holds memory; a refusal of a silent die is counted (R436). -/
def State.recordAt (s : State) (pa n : Nat) : Option (List Byte) × State :=
  if s.errorReply pa then (none, s.countError pa)
  else if s.errorReply (pa + n - 1) then (none, s.countError (pa + n - 1))
  else if region pa = .management then (none, s)
  else (some ((List.range n).map (fun i => s.homeByte (pa + i))), s)

/-- An n-byte field of a record. -/
def field (bs : List Byte) (off n : Nat) : Nat := leNat ((bs.drop off).take n)

/-- A partition descriptor as read (R432). -/
structure PartDesc where
  part : Partition
  ctx : Nat
  ptroot : Nat
  vmap : Nat
  peerwin : Nat
  /-- Every reserved bit is zero and every limit of R432 holds. -/
  ok : Bool

/-- Read a descriptor's fields and check their limits (R373, R432). -/
def readDesc (bs : List Byte) : PartDesc :=
  let flags := field bs 0x02 2
  let hentry := field bs 0x10 8
  let pasid := field bs 0x04 4
  let ptroot := field bs 0x08 8
  let eqBase := field bs 0x18 8
  let eqSize := field bs 0x20 8
  let spillBase := field bs 0x38 8
  let spillSize := field bs 0x40 8
  let wdog := field bs 0x48 4
  let cores := (List.range 4).map (fun d => field bs (0x4C + d) 1)
  let ports := field bs 0x60 2
  let noHandler := bit flags 3
  { ctx := field bs 0 1
    ptroot := ptroot
    vmap := field bs 0x50 8
    peerwin := field bs 0x58 8
    part :=
      { dies := BitVec.ofNat 4 (field bs 1 1), debug := bit flags 0, watch := bit flags 1, slx := bit flags 2
        pasid := pasid
        hentry := (if noHandler then none else some hentry)
        eqBase := eqBase
        eqSize := eqSize
        swapBase := field bs 0x28 8
        swapSize := field bs 0x30 8
        spillBase := spillBase
        spillSize := (if spillSize = 0 then 2 ^ 30 else spillSize)
        wdog := (if wdog = 0 then 100000 else wdog)
        cores := cores
        ports := BitVec.ofNat 9 ports
        window := []
        key := 0 }
    ok := field bs 1 1 != 0 && decide (field bs 1 1 < 16) && decide (flags < 16) && decide (pasid < 2 ^ 20) &&
      decide (ptroot < 2 ^ 52) && bits ptroot 3 5 = 0 && !bit ptroot 1 &&
      (if noHandler then hentry = 0 else hentry % 64 = 0 && decide (hentry < 2 ^ 57)) &&
      eqBase % 4096 = 0 && eqSize % 16384 = 0 && spillBase % 2097152 = 0 && spillSize % 2097152 = 0 &&
      cores.all (fun c => decide (c ≤ 128)) &&
      decide (ports < 512) && (bs.drop 0x62).all (fun b => b == 0) }

/-- An entry of the granule map, bound or not: its reserved bits are zero and its granule and slice exist (R433). -/
def granuleOk (e : Nat) : Bool := bits e 11 3 = 0 && decide (bits e 8 3 ≤ 5) && decide (bits e 0 8 ≤ 143)

/-- The bound entries of die d in a granule map, with their positions. -/
def boundEntries (map : List Nat) (d : Nat) : List (Nat × Nat) :=
  (((List.range 512).map (fun n => (n, nth 0 map (512 * d + n)))).filter (fun p => bit p.2 15))

/-- The granule that an entry names: slice and number. -/
def granuleOf (e : Nat) : Nat := bits e 0 8 * 8 + bits e 8 3

/-- The granules of a die that other partitions hold. -/
def State.boundGranules (s : State) (d : Nat) : List Nat :=
  ((s.die d).vault.filter (fun p => p.2.1.getLsbD 15)).map (fun p => granuleOf p.2.1.toNat)

/-- No value occurs twice. -/
def noRepeat : List Nat → Bool
  | [] => true
  | x :: xs => !xs.contains x && noRepeat xs

/-- The map of a die fits beside what is bound already (R99, R433). -/
def State.mapFits (s : State) (dies : BitVec 4) (map : List Nat) (d : Nat) : Bool :=
  let es := boundEntries map d
  let mine := es.map (fun p => granuleOf p.2)
  let all := mine ++ s.boundGranules d
  (es.isEmpty || dies.getLsbD d) && noRepeat all &&
  es.all (fun p => !s.vaultBound d p.1) &&
  (List.range 144).all (fun sl => decide ((all.filter (fun g => g / 8 = sl)).length ≤ 4))

/-- SHADOW entries of a die. -/
def shadowCount (map : List Nat) (d : Nat) : Nat := ((boundEntries map d).filter (fun p => bit p.2 14)).length

/-- An entry of the peer-window table (R433). -/
def windowOk (e : Nat) : Bool := e = 0 || (bit e 63 && bits e 0 32 = 0 && bits e 57 6 = 0)

/-! ## Commands -/

/-- The vault positions of a context are cleared (R100, R394). -/
def State.clearVault (s : State) (ctx : Nat) : State :=
  [0, 1, 2, 3].foldl (fun a d =>
    ((a.die d).vault.filter (fun p => p.2.2 = ctx)).foldl (fun b p =>
      b.zeroRange (0xF000000000000 + d * 0x20000000 + p.1 * 0x100000) 0x100000) a) s

/-- Create the partition of a descriptor that has passed every check (R431). -/
def State.installPartition (s : State) (d : PartDesc) (map window : List Nat) : State :=
  let (n, s0) := s.freeNat
  let p := { d.part with
    window := window.map (BitVec.ofNat 64)
    key := Config.selectionKey n
    watchdog := s.now
    energyAt := s.now / 1000000 }
  let s1 := { s0 with parts := Tab.insert s0.parts d.ctx p, ptroots := Tab.write 0 s0.ptroots d.ctx (BitVec.ofNat 64 d.ptroot) }
  let s2 := [0, 1, 2, 3].foldl (fun a i => a.modDie i (fun x => { x with
    vault := (boundEntries map i).foldl (fun v e => Tab.insert v e.1 (BitVec.ofNat 16 e.2, d.ctx)) x.vault })) s1
  s2.clearVault d.ctx

/-- CREATE with its checks (R431 to R433). -/
def State.createPartition (s : State) (ctx : Nat) : State :=
  if ctx = 0 || (s.part ctx).isSome then s.partDone ctx 3
  else
    let at_ := s.hub.ptArg.toNat
    match (if inHbm at_ 256 then s.recordAt at_ 256 else (none, s)) with
    | (none, s1) => s1.partDone ctx 2
    | (some bs, s) =>
      let d := readDesc bs
      let words := fun (a : State) (pa n size : Nat) =>
        let r := a.recordAt pa (n * size)
        (r.1.map (fun b => (List.range n).map (fun i => field b (size * i) size)), r.2)
      let vmap := words s d.vmap 2048 2
      let peers := if d.peerwin = 0 then (some [], vmap.2) else words vmap.2 d.peerwin 16 8
      let s := peers.2
      match vmap.1, peers.1 with
      | some map, some window =>
        let taken := s.parts.any (fun p => p.2.ports &&& d.part.ports != 0)
        if !d.ok || d.ctx != ctx || taken || !map.all granuleOk || !window.all windowOk ||
            !(List.range 4).all (s.mapFits d.part.dies map) then s.partDone ctx 2
        else if !(List.range 4).all (fun i => decide (2 * nth 0 d.part.cores i ≤ shadowCount map i))
        then s.partDone ctx 4
        else (s.installPartition d map window).partDone ctx 0
      | _, _ => s.partDone ctx 2

/-- The groups of hub cores that run in a context end as at a fatal trap (R426). -/
def State.endHubGroups (s : State) (ctx : Nat) : State :=
  let ks := (s.groups.filter (fun p => 576 ≤ p.2.core && p.2.ctx = ctx)).map (fun p => p.2.team)
  ks.foldl (fun a t => a.stopTeam t 0) s

/-- SWITCHOUT (R389, R431): the partition's cores stop arbitrating for its groups, and the hang watchdog stops
counting. A partition that is switched out already is done (log 46). -/
def State.switchOut (s : State) (ctx : Nat) : State :=
  match s.part ctx with
  | some p =>
    if p.state = .switchedIn then
      let s1 := s.modHub (fun h => { h with ptBusy := true, ptCtx := BitVec.ofNat 8 ctx })
      (s1.modPart ctx (fun x => { x with state := .halting, watchdog := s.now - x.watchdog, haltedAt := none })).endHubGroups ctx
    else s.partDone ctx 0
  | none => s.partDone ctx 3

/-- An operation that may be outstanding at a halt (R390). -/
def Task.outlivesHalt : Task → Bool
  | .klaunch _ _ _ _ => true
  | .seal _ _ => true
  | .purge _ _ _ => true
  | .invalidate _ _ _ _ _ => true
  | .mapping => true
  | .flush => true
  | _ => false

/-- A group of the partition is halted: no clause is in progress, and no operation that must complete is outstanding
(R389, R390). -/
def Group.halted (g : Group) : Bool :=
  g.atBoundary && g.flights.all (fun f => f.task.outlivesHalt)

/-- Every core of a partition is halted (R389). -/
def State.partitionHalted (s : State) (ctx : Nat) : Bool :=
  (s.contextTeams ctx).all (fun t => match s.team t with
    | some x => x.residency != .resident || x.groups.all (fun k => match s.group k with
      | some g => g.halted
      | none => true)
    | none => true)

/-- The resident teams of a context. -/
def State.residentTeams (s : State) (ctx : Nat) : List Nat :=
  (s.contextTeams ctx).filter (fun t => match s.team t with
    | some x => x.residency = .resident
    | none => false)

/-- A clause of the partition is still in progress after a switch request; its boundary may wait for the engines (R294, R389). -/
def State.partitionEnding (s : State) (ctx : Nat) : Bool :=
  (match s.part ctx with
    | some p => p.state = .halting
    | none => false) &&
  !s.atBoundaries ((s.residentTeams ctx).flatMap (fun t => ((s.team t).map Team.groups).getD []))

/-- Every group of the partition has halted; its engines stand at step boundaries, its remote-write buffers drain,
%gtime stands and the save timer starts (R294, R389, R393, R396). -/
def State.haltPartition (s : State) (ctx : Nat) : State :=
  let s0 := (s.residentTeams ctx).foldl State.stopQueues s
  let s1 := { s0 with groups := Tab.mapWith (fun _ g => if g.ctx = ctx && g.core < 576 then g.stopTime s.now else g) s0.groups }
  ([0, 1, 2, 3, 4].foldl State.drainAll s1).modPart ctx (fun p => { p with state := .saving, haltedAt := some s.now })

/-- The image is written (R391, R392). -/
def State.saveImage (s : State) (ctx : Nat) : State :=
  let s1 := (s.residentTeams ctx).foldl (fun a t => a.saveTeam t .switchedOut) s
  (s1.modPart ctx (fun p => { p with state := .switchedOut, haltedAt := none })).partDone ctx 0

/-- The save timer of a partition has run out (R393). -/
def Partition.saveLate (p : Partition) (now : Nat) : Bool :=
  match p.haltedAt with
  | some t => decide (t + us 20 ≤ now)
  | none => false

/-- SWITCHIN (R392, R431): the partition is restored, once the pounds of its teams run. -/
def State.switchIn (s : State) (ctx : Nat) : State :=
  match s.part ctx with
  | some p =>
    if p.state = .switchedOut then
      let s1 := s.modHub (fun h => { h with ptBusy := true, ptCtx := BitVec.ofNat 8 ctx })
      (s1.modPart ctx (fun x => { x with state := .restoring })).tryRestore ctx
    else s.partDone ctx 3
  | none => s.partDone ctx 3

/-- Every unfinished launch of a context is to complete with the context-lost status (R394, R407). -/
def State.loseLaunches (s : State) (ctx : Nat) : State :=
  let lose := fun (_ : Nat) (l : Launch) =>
    if l.ctx = ctx && l.state != .completed then { l with contextLost := true, closed := true, state := .resolving } else l
  { s with launches := Tab.mapWith lose s.launches }

/-- The partition reset of R394: groups, engine queues, parked accesses, checks and launches end; vault is cleared. A
SWITCHIN that waits for its pounds ends with RESULT 5 (R431). -/
def State.resetPartition (s : State) (ctx : Nat) : State :=
  let checks := (s.checks.filter (fun p => p.2.ctx = ctx)).map Prod.fst
  let s1 := checks.foldl State.discardCheck s
  let s2 := (s1.contextTeams ctx).foldl State.removeTeam s1
  let own := (s2.clusters.filter (fun p => match s2.launch p.2.launch with
    | some l => l.ctx = ctx
    | none => false)).map Prod.fst
  let s3 : State :=
    { s2.dropBlocks own.contains with
      clusters := own.foldl Tab.remove s2.clusters
      requests := s2.requests.filter (fun r => r.ctx != ctx ||
        s2.hub.owedWrites.any (fun w => w.ctx = ctx && w.request = some r.entry)) }
  let s4 := (s3.endHubGroups ctx).loseLaunches ctx
  let s5 := (s4.clearVault ctx).modPart ctx (fun p => { p with
    watchdog := (if p.state = .switchedIn || p.state = .restoring then s.now else 0)
    state := (if p.state = .restoring then .switchedIn else p.state)
    haltedAt := none })
  match s.part ctx with
  | some p => if p.state = .restoring then s5.partDone ctx 5 else s5
  | none => s5

/-- RESET (R394, R431). -/
def State.resetCommand (s : State) (ctx : Nat) : State :=
  if (s.part ctx).isSome then (s.resetPartition ctx).partDone ctx 0 else s.partDone ctx 3

/-- The parked writes of a context that is gone are refused (R383; log 25). -/
def State.dropOwed (s : State) (ctx : Nat) : State :=
  let s1 : State :=
    { (s.modHub (fun h => { h with owedWrites := h.owedWrites.filter (fun w => w.ctx != ctx) })) with
      requests := s.requests.filter (fun r => r.ctx != ctx) }
  (s.hub.owedWrites.filter (fun w => w.ctx = ctx)).foldl (fun a w => a.signal w.irq) s1

/-- DESTROY (R431): the partition holds no launch and its queues are unbound; its vault, ports and window are released. -/
def State.destroyPartition (s : State) (ctx : Nat) : State :=
  let busy := s.launches.any (fun l => l.2.ctx = ctx && l.2.state != .completed) ||
    s.hub.queues.any (fun q => q.2.ctx = some ctx)
  if (s.part ctx).isNone || busy then s.partDone ctx 3
  else
    let s1 := s.endHubGroups ctx
    let s2 := { s1 with
      parts := Tab.remove s1.parts ctx
      dies := Tab.mapWith (fun _ d => { d with vault := d.vault.filter (fun p => p.2.2 != ctx) }) s1.dies }
    (s2.dropOwed ctx).partDone ctx 0

/-- A partition command: refused with RESULT 1 while another is in progress (R431). -/
def State.partCommand (s : State) (op ctx : Nat) : State :=
  if s.hub.ptBusy then s.modHub (fun h => { h with ptResult := 1 })
  else if op = 1 then s.createPartition ctx
  else if op = 2 then s.switchOut ctx
  else if op = 3 then s.switchIn ctx
  else if op = 4 then s.resetCommand ctx
  else if op = 5 then s.destroyPartition ctx
  else s

def execCreate (ctx : Nat) (s : State) : Out := .next (s.partCommand 1 ctx)
def execSwitchout (ctx : Nat) (s : State) : Out := .next (s.partCommand 2 ctx)
def execSwitchin (ctx : Nat) (s : State) : Out := .next (s.partCommand 3 ctx)
def execReset (ctx : Nat) (s : State) : Out := .next (s.partCommand 4 ctx)
def execDestroy (ctx : Nat) (s : State) : Out := .next (s.partCommand 5 ctx)

/-- PARTITION_IMAGE_SAVE (R389, R391 to R393): the partition's cores have halted; then the image is written. -/
def execPartitionImageSave (ctx : Nat) (s : State) : Out :=
  match s.part ctx with
  | some p =>
    if p.state = .halting && s.partitionHalted ctx then .next (s.haltPartition ctx)
    else if p.state = .saving && !p.saveLate s.now then .next (s.saveImage ctx)
    else .next s
  | none => .next s

/-- SAVE_TIMER_EXPIRY (R393, R431): the image is discarded, and SWITCHOUT completes with RESULT 5. -/
def execSaveTimerExpiry (ctx : Nat) (s : State) : Out :=
  match s.part ctx with
  | some p =>
    if p.state = .saving && p.saveLate s.now then
      .next (((s.modPart ctx (fun x => { x with state := .switchedOut })).resetPartition ctx).partDone ctx 5)
    else .next s
  | none => .next s

/-- HANG_WATCHDOG_EXPIRY (R393): the partition has been switched in for WDOG µs since the last restart. -/
def execHangWatchdogExpiry (ctx : Nat) (s : State) : Out :=
  match s.part ctx with
  | some p =>
    if p.state = .switchedIn && decide (p.watchdog + us p.wdog ≤ s.now) then .next (s.resetPartition ctx) else .next s
  | none => .next s

end Sys2Proof.Machine
end

