-- ==== Sys2Proof/Machine/Placement.lean ====
section
/-!
DEFINITION. Rectangles and placements (R41, R44 to R48), the placement test of launches (R42, R67), and the fences that
take effect (R17, R18).
-/

namespace Sys2Proof.Machine

open Sys2Proof

/-! ## Rectangles -/

/-- The sites of a rectangle in rectangle order: by j, and within one j by i; none where it leaves the mesh (R44,
R45). -/
def rectSites (x0 y0 w h : Nat) : Option (List Nat) :=
  if x0 + w ≤ 12 && y0 + h ≤ 12 then
    some ((List.range h).flatMap (fun j => (List.range w).map (fun i => (y0 + j) * 12 + (x0 + i))))
  else none

/-- The members of a cluster placed at an origin of a die, in rectangle order, where R44, R46 and R47 allow the
rectangle. -/
def Die.members (d : Die) (r : LaunchRecord) (x0 y0 : Nat) : Option (List Nat) :=
  match rectSites x0 y0 r.clw.toNat r.clh.toNat with
  | none => none
  | some sites =>
    let ms := sites.filter d.siteFree
    let whole := !r.full || ms.length == sites.length
    let pairs := !r.paired || (x0 % 2 == 0 && ms.all (fun i => d.siteFree (partnerSite i)))
    if !ms.isEmpty && whole && pairs then some ms else none

/-- Bytes of the register file that a group takes (R48). -/
def LaunchRecord.groupBytes (r : LaunchRecord) : Nat := r.lanes * r.registers * 4

/-- The register limit of R48 holds for the largest team alone on its core, with M members. -/
def LaunchRecord.registersFit (r : LaunchRecord) (m : Nat) : Bool :=
  decide (ceilDiv r.gpc.toNat m * r.groupBytes ≤ 524288)

/-- A rectangle on which a cluster may be placed, its members' register limit included (R44 to R48). -/
def Die.placement (d : Die) (r : LaunchRecord) (x0 y0 : Nat) : Option (List Nat) :=
  match d.members r x0 y0 with
  | some ms => if r.registersFit ms.length then some ms else none
  | none => none

/-- Every origin of the mesh. -/
def origins : List (Nat × Nat) := (List.range 144).map (fun i => (i % 12, i / 12))

/-- The dies that a context's partition may use (R323, R432). -/
def State.contextDies (s : State) (ctx : Nat) : List Nat :=
  match s.part ctx with
  | some p => [0, 1, 2, 3].filter (fun d => p.dies.getLsbD d)
  | none => []

/-- Some die that the context may use holds a rectangle for the cluster (check 0x0C of R42, R67). -/
def State.placeable (s : State) (ctx : Nat) (r : LaunchRecord) : Bool :=
  (s.contextDies ctx).any (fun d => origins.any (fun o => ((s.die d).placement r o.1 o.2).isSome))

/-- A team, resident or not, is bound to the core; an exited one stays bound until its cluster exits (R53, R56). -/
def State.coreBound (s : State) (core : Nat) : Bool := s.teams.any (fun t => t.2.core = core)

/-- A core holds a team that has not exited, resident or swapped out (R323). -/
def State.coreHolds (s : State) (core : Nat) : Bool :=
  s.teams.any (fun t => t.2.core = core && t.2.residency != .exited)

/-- The free placements of a cluster on a die (R323). -/
def State.freePlacements (s : State) (d : Nat) (r : LaunchRecord) : Nat :=
  (origins.filter (fun o => match (s.die d).placement r o.1 o.2 with
    | some ms => ms.all (fun i => !s.coreHolds (d * 144 + i))
    | none => false)).length

/-! ## The placement test -/

/-- A failed placement test (R67): no further cluster is placed, the unstarted ones are withdrawn, and the launch
completes as unplaceable once the placed ones have exited. -/
def State.failPlacement (s : State) (seq : Nat) : State :=
  let s1 := (s.unstartedOf seq).foldl State.withdraw s
  let placed := (s1.clusters.filter (fun p => p.2.launch = seq)).length
  (s1.modLaunch seq (fun l => { l with
    closed := true
    unplaceable := true
    unplaced := l.record.clusters - l.exited - placed })).advanceLaunch seq

/-- The launch still has a cluster that is to be placed. -/
def State.awaitsPlacement (s : State) (seq : Nat) (l : Launch) : Bool :=
  !l.closed && (l.state = .ready || l.state = .placing || (l.state = .running && !(s.unstartedOf seq).isEmpty))

/-- The placement test of one launch (R66, R67). -/
def State.testPlacement (s : State) (seq : Nat) : State :=
  match s.launch seq with
  | some l => if s.awaitsPlacement seq l && !s.placeable l.ctx l.record then s.failPlacement seq else s
  | none => s

/-- The fence generation of a die has changed: the launches whose partition may use the die are tested (R67). -/
def State.retest (s : State) (d : Nat) : State :=
  let hit := s.launches.filter (fun p => (s.contextDies p.2.ctx).contains d)
  (hit.map Prod.fst).foldl State.testPlacement s

/-! ## Fences -/

/-- A fence-pending site leaves the table: its mask bit, its table entry and the generation change together (R17,
R18). -/
def Die.fenceSite (x : Die) (site : Nat) : Die :=
  { x with
    fenced := x.fenced ||| (1#144 <<< site)
    fencePending := x.fencePending &&& ~~~(1#144 <<< site)
    lpt := x.lpt.map (fun e => if e.toNat = site then 0xFF#8 else e)
    fenceGen := x.fenceGen + 1 }

/-- FENCE_TAKES_EFFECT (R17, R18, R56, R67): no team is bound to the site any more. -/
def execFenceTakesEffect (die site : Nat) (s : State) : Out :=
  if (s.die die).fencePending.getLsbD site && !s.coreBound (die * 144 + site) then
    .next ((s.modDie die (fun x => x.fenceSite site)).retest die)
  else .next s

end Sys2Proof.Machine
end

