-- ==== Sys2Proof/Machine/Reset.lean ====
section
/-!
DEFINITION. Resets and firmware: the warm reset of a compute die (R365, R436 to R438), cold reset (R428), the firmware
image and its update (R429, R430), and groups of hub cores (R425 to R427).
-/

namespace Sys2Proof.Machine

open Sys2Proof

/-! ## Die warm reset -/

/-- A run of the check is on the die, or held bytes of the check are homed on it (R365). -/
def State.checkTouches (s : State) (c : Check) (d : Nat) : Bool :=
  c.runs.any (fun r => coreDie r.core = d || r.held.any (fun p => homeDie p.1 = some d) ||
    r.appends.any (fun a => homeDie a.1 = some d) || r.statuses.any (fun p => homeDie p.1 = some d)) ||
  s.teams.any (fun t => coreDie t.2.core = d && match t.2.run with
    | some (k, _) => (s.check k).map Check.id = some c.id
    | none => false)

/-- A check ends with a DIERESET event: its versions are discarded and its launch takes the die-reset status (R365). -/
def State.dieResetCheck (s : State) (d k : Nat) : State :=
  match s.check k with
  | none => s
  | some c =>
    let s1 := s.addEvent 0x08 d 0xFF (eventFlags c.injected false true) 0xFF 0 (BitVec.ofNat 64 c.launch) c.id
      (BitVec.ofNat 32 c.teamId)
    (s1.discardCheck k).modLaunch c.launch (fun l => { l with dieReset := true })

/-- A team of the die ends without a fatal report (R437). -/
def State.dieResetTeam (s : State) (t : Nat) : State :=
  match s.team t with
  | none => s
  | some x =>
    let s1 := match x.launch with
      | some q => s.modLaunch q (fun l => { l with dieReset := true })
      | none => s
    s1.removeTeam t

/-- A cluster on a die under reset: a started one has ended with its teams, an unstarted one returns to the front end
(R436). -/
def State.dieResetCluster (s : State) (k : Nat) : State :=
  match s.cluster k with
  | none => s
  | some c =>
    match c.state with
    | .frontEnd => s
    | .distributor => s.modCluster k (fun x => { x with state := .frontEnd, origin := none, teams := [] })
    | .pound _ => s.modCluster k (fun x => { x with state := .frontEnd, origin := none, teams := [] })
    | _ =>
      let s1 := { s with clusters := Tab.remove s.clusters k }
      (s1.modLaunch c.launch (fun l => { l with exited := l.exited + 1 })).advanceLaunch c.launch

/-- The checks that touch a die end (R365). -/
def State.endTouching (s : State) (d : Nat) : State :=
  ((s.checks.filter (fun p => s.checkTouches p.2 d)).map Prod.fst).foldl (fun a k => a.dieResetCheck d k) s

/-- QUIESCE (R436, R437): the die's stores drain, its checks and teams end, its unstarted clusters return. -/
def State.quiesceDie (s : State) (d : Nat) : State :=
  let s1 := (s.drainAll d).endTouching d
  let ts := (s1.teams.filter (fun p => coreDie p.2.core = d)).map Prod.fst
  let s2 := ts.foldl State.dieResetTeam s1
  let cs := (s2.clusters.filter (fun p => p.2.die = d)).map Prod.fst
  let s3 := cs.foldl State.dieResetCluster s2
  { s3 with pounds := Tab.mapWith (fun k p => if k / 16 = d then p.dropBlocks (fun _ => true) s.now else p) s3.pounds }

/-- The halves of a die's memory that the host holds. -/
def State.heldHalves (s : State) (d : Nat) : List Nat :=
  (s.hostHeld.filter (fun p => p.2 && homeDie (p.1 * 64) = some d)).map Prod.fst

/-- WRITEBACK begins (R436): every half of the die that the host holds is back-invalidated; tokens come home. -/
def State.beginWriteback (s : State) (d : Nat) : State :=
  let s1 := (s.heldHalves d).foldl (fun a h => a.snoopWrite h []) s
  { s1 with tokens := s1.tokens.filter (fun p => homeDie (p.1 * 128) != some d) }

/-- WRITEBACK can end: the host holds no half of the die and no snoop of it is outstanding. -/
def State.writebackDone (s : State) (d : Nat) : Bool :=
  (s.heldHalves d).isEmpty && !s.snoops.any (fun x => homeDie (x.half * 64) = some d)

/-- Reservations of the die's AP pages complete, their unwritten bytes zero, and the published tails follow (R438). -/
def State.completeAppends (s : State) (d : Nat) : State :=
  let pages := (Tab.keys s.appends).filter (fun p => homeDie p = some d)
  let s0 := s.appends.foldl (fun a p =>
    if homeDie p.1 = some d then
      (p.2.open_.filter (fun r => r.check.isSome)).foldl (fun b r => b.setBytes (reservedBytes p.1 r [])) a
    else a) s
  let s1 := { s0 with appends := Tab.mapWith (fun p x =>
    if homeDie p = some d then { x with open_ := x.open_.map (fun r => { r with written := true, check := none }) } else x) s0.appends }
  pages.foldl (fun a p => (a.publish p).sealNow p) s1

/-- The vault of a die is cleared. -/
def State.clearDieVault (s : State) (d : Nat) : State := s.zeroRange (0xF000000000000 + d * 0x20000000) 0x20000000

/-- RESET begins (R436 to R438): checks that have come to hold bytes of the die end (R365), the die's logic is reset, its vault cleared, its pools emptied, the watches of its
slices lost, but for those of the front end, which then re-reads the word, and a switched-out partition with shadow granules on the die is reset. -/
def State.resetDie (s : State) (d : Nat) : State :=
  let s1 := ((s.endTouching d).completeAppends d).clearDieVault d
  let shadowed := ((s1.die d).vault.filter (fun p => p.2.1.getLsbD 14)).map (fun p => p.2.2)
  let out := (s1.parts.filter (fun p => (p.2.state = .switchedOut || p.2.state = .restoring) && shadowed.contains p.1)).map Prod.fst
  let s2 := out.foldl State.resetPartition s1
  let lost := fun (_ : Nat) (g : Group) =>
    match g.watch with
    | some w =>
      let here := match w.home with
        | some h => decide (h / 144 = d)
        | none => homeDie w.pa = some d
      if here then { g with watch := none, watchLost := true } else g
    | none => g
  let s3 : State :=
    { s2 with
      groups := Tab.mapWith lost s2.groups
      cores := s2.cores.filter (fun p => coreDie p.1 != d)
      pounds := s2.pounds.filter (fun p => p.1 / 16 != d)
      launches := Tab.mapWith (fun _ l => { l with watch := l.watch.map (fun w =>
        match w.home with
        | some h => if h / 144 = d then { w with home := none } else w
        | none => w) }) s2.launches
      replicas := s2.replicas.filter (fun p => p.1 % 4 != d) }
  s3.modDie d (fun x => { x with
    pool64 := [], pool2m := [], tlb := [], rwb := [], ring := [], mintLeft := 0
    thresh := 3, injen := false, inject := {} })

/-- The logical-to-physical table is rebuilt; pending fences take effect in it (R17, R18, R22). -/
def Die.rebuild (x : Die) : Die :=
  let fenced := x.fenced ||| x.fencePending
  { x with
    fenced := fenced
    fencePending := 0
    fenceGen := (if fenced = x.fenced then x.fenceGen else x.fenceGen + 1)
    lpt := buildLpt x.disabled fenced }

/-- A step of a warm reset ends: IRQ_STAT.DRST is set (R425, R436). -/
def State.toStep (s : State) (d n : Nat) : State := (s.modDie d (fun x => { x with resetStep := n })).raiseIrq 1

/-- DR_STEP_END (R436 to R438). -/
def execDrStepEnd (die : Nat) (s : State) : Out :=
  let n := (s.die die).resetStep
  if 4 ≤ die then .next s
  else if n = 1 then .next (s.toStep die 2)
  else if n = 2 then
    let others := [0, 1, 2, 3, 4].filter (· != die)
    let s1 := others.foldl (fun a e => a.drainWhere e (fun l => homeDie (l * 128) = some die)) s
    .next ((s1.beginWriteback die).toStep die 3)
  else if n = 3 then (if s.writebackDone die then .next ((s.resetDie die).toStep die 4) else .next s)
  else if n = 4 then .next (s.toStep die 5)
  else if n = 5 then
    let s1 := s.modDie die Die.rebuild
    let s2 := if (s1.die die).fenceGen = (s.die die).fenceGen then s1 else s1.retest die
    .next (s2.toStep die 6)
  else if n = 6 then .next (s.toStep die 0)
  else .next s

/-- A write of DR_CTL (R436): ignored while any die's reset is in progress. -/
def State.writeDrCtl (s : State) (d : Nat) (v : Word) : State :=
  if v = 1 && decide (d < 4) && s.dies.all (fun p => p.2.resetStep = 0) then
    (s.quiesceDie d).modDie d (fun x => { x with resetStep := 1, resetErrors := 0 })
  else s

/-- DR_CTL (R436). -/
def execDrCtl (die : Nat) (value : BitVec 64) (s : State) : Out := .next (s.writeDrCtl die value)

/-! ## Firmware images and cold reset -/

/-- The boot ROM accepts an image (R429). -/
def imageValid (i : FirmwareImage) : Bool :=
  i.magic = 0x4C524D4657454147#64 && i.restZero && Config.verifies i.digest i.signature

/-- The image in a buffer of a given length; its header's LENGTH is that length (R429; log 81). -/
def imageOf (bs : List Byte) : Option FirmwareImage :=
  let h := bs.take 256
  if bs.length < 256 || field h 16 8 ≠ bs.length then none
  else some
    { magic := BitVec.ofNat 64 (field h 0 8)
      version := BitVec.ofNat 64 (field h 8 8)
      length := BitVec.ofNat 64 (field h 16 8)
      entry := BitVec.ofNat 64 (field h 24 8)
      restZero := ((h.drop 32).take 96).all (fun b => b == 0) && (h.drop 0xE0).all (fun b => b == 0)
      digest := Config.digest (h.take 128 ++ bs.drop 256)
      signature := BitVec.ofNat 768 (field h 0x80 96) }

/-- The image at a physical address of device HBM with a length (R430). -/
def State.imageAt (s : State) (pa len : Nat) : Option FirmwareImage × State :=
  if inHbm pa len then
    let r := s.recordAt pa len
    (r.1.bind imageOf, r.2)
  else (none, s)

/-- A write of FW_UPD_CMD (R430): the image is verified and staged; the status reads 1 or 2. -/
def State.writeFwUpdate (s : State) (v : Word) : State :=
  if v = 1 then
    let r := s.imageAt s.hub.fwAddr.toNat s.hub.fwLen.toNat
    let s1 := match r.1.filter imageValid with
      | some i => r.2.modHub (fun h => { h with staged := some i, fwStat := 1 })
      | none => r.2.modHub (fun h => { h with fwStat := 2 })
    s1.raiseIrq 6
  else s

/-- FW_UPD_CMD (R430). -/
def execFwUpdCmd (value : BitVec 64) (s : State) : Out := .next (s.writeFwUpdate value)

/-- A die at cold reset: fuses and fence store stay, cleared fences take effect, pending fences take effect, and the
table is built (R17, R18, R22, R359, R428). -/
def Die.boot (x : Die) : Die :=
  let fenced := (x.fenced ||| x.fencePending) &&& ~~~x.clearPending
  let keep := fun (k : Nat) (h : SiteHealth) =>
    ({ demerits := if x.clearPending.getLsbD k then 0 else h.demerits } : SiteHealth)
  { disabled := x.disabled
    defective := x.defective
    fenced := fenced
    fenceGen := (if fenced = x.fenced then x.fenceGen else x.fenceGen + 1)
    lpt := buildLpt x.disabled fenced
    sites := (Tab.mapWith keep x.sites).filter (fun p => p.2 != {}) }

/-- The firmware group at an image's entry (R428; log 3). -/
def firmwareGroupAt (entry now : Nat) : Group := { firmwareGroup with pc := entry, gtSince := some now, age := now }

/-- The state that cold reset leaves, firmware apart: memory outside the vault, fuses, the fence store and the flash stay
(R428; log 4). -/
def State.cleared (s : State) : State :=
  let s1 := [0, 1, 2, 3].foldl State.clearDieVault s
  { now := s.now, freeIx := s.freeIx, nextKey := s.nextKey, agenda := s.agenda, sent := s.sent
    mem := s1.mem, poison := s1.poison, bound := s.bound
    dies := Tab.mapWith (fun _ d => d.boot) s.dies
    hub := { flash := s.hub.flash, staged := s.hub.staged, serial := s.hub.serial, lastSeq := s.hub.lastSeq,
             powered := s.hub.powered, decays := s.hub.decays } }

/-- The ROM starts the firmware from the flash, or waits for recovery (R428, R429). -/
def State.bootFlash (s : State) : State :=
  match s.hub.flash with
  | some i =>
    if imageValid i then
      let s1 := s.modHub (fun h => { h with boot := .running, fwVersion := i.version, rcvStat := 0 })
      { s1 with
        cur := 0
        groups := [(0, firmwareGroupAt i.entry.toNat s.now)]
        teams := [(0, { firmwareTeam with admitted := s.now })] }
    else s.modHub (fun h => { h with boot := .recovery, fwVersion := 0, rcvStat := 0 })
  | none => s.modHub (fun h => { h with boot := .recovery, fwVersion := 0, rcvStat := 0 })

/-- COLD_RESET (R428 to R430): a valid staged image replaces the flash's first. -/
def execColdReset (s : State) : Out :=
  let s1 := s.cleared
  let s2 := match s1.hub.staged with
    | some i => s1.modHub (fun h => { h with flash := (if imageValid i then some i else h.flash), staged := none })
    | none => s1
  .next s2.bootFlash

/-- The size of the recovery image buffer (R429). -/
def rcvSize : Nat := 0x2000000

/-- Bytes that the host writes into the recovery image buffer (R429). -/
def Hub.fillBuffer (h : Hub) (off : Nat) (bs : List Byte) : Hub :=
  { h with rcvBuffer := ((atAddr off bs).filter (fun p => decide (p.1 < rcvSize))).foldl (fun t p => Tab.write 0 t p.1 p.2) h.rcvBuffer }

/-- The image of a length that stands in the recovery buffer (R429). -/
def Hub.bufferImage (h : Hub) (len : Nat) : Option FirmwareImage :=
  if rcvSize < len then none else imageOf ((List.range len).map (fun i => Tab.read 0 h.rcvBuffer i))

/-- The ROM has looked at the image in the buffer: a valid one goes to the flash and cold reset continues, else RCV_STAT reads 2
(R429). -/
def State.endRecovery (s : State) : State :=
  let s1 := s.modHub (fun h => { h with rcvImage := none })
  match s.hub.rcvImage with
  | some i =>
    if imageValid i then (s1.modHub (fun h => { h with flash := some i })).bootFlash
    else s1.modHub (fun h => { h with rcvStat := 2 })
  | none => s1.modHub (fun h => { h with rcvStat := 2 })

/-- RCV_GO (R429): in the recovery layout the host fills the image buffer and writes the image's length. The ROM takes the image
then, RCV_STAT reads 1 while it verifies it, and the next step ends the verification (log 81). -/
def execRcvGo (write : RecoveryWrite) (s : State) : Out :=
  match s.hub.boot, write with
  | .running, _ => .next s
  | .recovery, .buffer off bs => .next (s.modHub (fun h => h.fillBuffer off bs))
  | .recovery, .go len =>
    if s.hub.rcvStat = 1 then .next s.endRecovery
    else
      let s1 := s.modHub (fun h => { h with rcvStat := 1, rcvImage := h.bufferImage len.toNat })
      .next { s1 with agenda := .rcvGo write :: s1.agenda }

/-! ## Groups of hub cores -/

/-- The groups that run on a hub core. -/
def State.hubGroups (s : State) (h : Nat) : List (Nat × Group) := s.coreGroups (576 + h)

/-- A write of HC_GO (R426): the group starts with the lowest free index, in a team of its own (log 5). -/
def State.startHubGroup (s : State) (h addr : Nat) : State :=
  let used := (s.hubGroups h).map (fun p => p.2.gid)
  let ctx := (Tab.read 0 s.hub.hcCtx h).toNat
  let runs := ctx = 0 || match s.part ctx with
    | some p => p.state = .switchedIn
    | none => false
  match (List.range 16).find? (fun i => !used.contains i) with
  | none => s
  | some gid =>
    if !runs || 4 ≤ h then s
    else
      let (k, s1) := s.fresh
      let (t, s2) := s1.fresh
      let g : Group :=
        { core := 576 + h, team := t, ctx := ctx, gid := gid, tindex := gid, width := 16, vregs := 64, system := true,
          pc := addr, gtSince := some s.now, age := s.now }
      let x : Team :=
        { core := 576 + h, ctx := ctx, groups := [k], regBytes := 4096, groupCount := 1, residency := .resident,
          admitted := s.now }
      (s2.setGroup k g).setTeam t x

/-- HC_GO (R426). -/
def execHcGo (hub : Nat) (addr : BitVec 64) (s : State) : Out := .next (s.startHubGroup hub addr.toNat)

/-- A write of DOORBELL (R425). -/
def State.ringDoorbell (s : State) (h gid : Nat) : State :=
  { s with groups := Tab.mapWith (fun _ g =>
      if g.core = 576 + h && g.gid = gid then { g with latch := g.latch ||| 1 } else g) s.groups }

/-- DOORBELL (R425). -/
def execDoorbell (hub gid : Nat) (s : State) : Out :=
  if hub < 4 then .next (s.ringDoorbell hub gid) else .next s

/-- The instruction slot at which a group stands. -/
def Group.hereSlot (g : Group) : Option Slot :=
  match g.clauseHere.rest with
  | (_, x) :: _ => (match decodeWord x with
    | .ok i => i.opSlot.map Prod.snd
    | .error _ => none)
  | [] => none

/-- A write of 1 to DBG_RESUME (R427): the oldest stopped group goes on after its DBRK. -/
def State.debugResume (s : State) : State :=
  match s.hub.stopped with
  | [] => s
  | (k, _) :: rest =>
    let s1 := (s.modHub (fun h => { h with stopped := rest })).modGroup k (fun g => { g with debugStop := false })
    match s1.group k with
    | some g => (match g.hereSlot with
      | some w => s1.advance k w
      | none => s1.dropClause k)
    | none => s1

/-- A write of 2 to DBG_RESUME (R427): the team of the oldest stopped group ends fatally with cause 0x0B. -/
def State.debugEnd (s : State) : State :=
  match s.hub.stopped with
  | [] => s
  | (k, slot) :: rest =>
    let s1 := s.modHub (fun h => { h with stopped := rest })
    let arg := match s.group k with
      | some g => (match g.hereSlot with
        | some w => w.imm.toNat % 65536
        | none => 0)
      | none => 0
    s1.fatalTrap k { code := 0x0B, arg := arg } false slot

def execDbgResumeGroup (s : State) : Out := .next s.debugResume
def execDbgEndTeam (s : State) : Out := .next s.debugEnd

end Sys2Proof.Machine
end

