-- ==== Sys2Proof/Machine/Management.lean ====
section
/-!
DEFINITION. Management space (R28): what each register reads and what a write of it does (R361, R418 to R435), and the
events that are such writes.
-/

namespace Sys2Proof.Machine

open Sys2Proof

/-! ## Registers with an effect of their own -/

/-- A frame joins a first-touch pool (R434). One that comes to a full pool is dropped: the MODEL's choice, for which PFREE.pool has no
stated outcome (R222; log 70). -/
def State.addFrame (s : State) (d ctx : Nat) (big : Bool) (pa : Nat) : State :=
  let size := if big then 2097152 else 65536
  let pool := Tab.read [] (if big then (s.die d).pool2m else (s.die d).pool64) ctx
  if pa % size != 0 || region pa != .hbm d || 65536 ≤ pool.length then s
  else if big then s.modDie d (fun x => { x with pool2m := Tab.insert x.pool2m ctx (pool ++ [pa]) })
  else s.modDie d (fun x => { x with pool64 := Tab.insert x.pool64 ctx (pool ++ [pa]) })

/-- FTP64 (R434, R436). -/
def execFtp64 (die ctx : Nat) (addr : BitVec 64) (s : State) : Out :=
  .next (s.dieWrite die (fun a => a.addFrame die ctx false addr.toNat))

/-- FTP2M (R434, R436). -/
def execFtp2m (die ctx : Nat) (addr : BitVec 64) (s : State) : Out :=
  .next (s.dieWrite die (fun a => a.addFrame die ctx true addr.toNat))

/-- A write of Q_BIND (R435): it takes effect only while DEPTH is 0, and clears DROP. The register keeps CTX without EN too
(R5, R424). -/
def State.bindQueue (s : State) (q : Nat) (v : Word) : State :=
  if (s.queue q).fifo.isEmpty then
    s.modQueue q (fun x => { x with
      ctx := (if v.getLsbD 63 then some (v.extractLsb' 0 8).toNat else none)
      bindCtx := v.extractLsb' 0 8
      drop := 0 })
  else s

/-- Q_BIND (R435). -/
def execQBind (queue : Nat) (value : BitVec 64) (s : State) : Out :=
  if queue < 64 then .next (s.bindQueue queue value) else .next s

/-- The fields of SL_INJECT (R361). -/
def readInject (v : Word) : Inject :=
  { arm := v.getLsbD 63
    runs := v.extractLsb' 61 2
    pipe := v.extractLsb' 56 2
    site := v.extractLsb' 48 8
    lane := v.extractLsb' 42 6
    bit := v.extractLsb' 37 5
    count := v.extractLsb' 0 32 }

/-- What SL_INJECT reads (R361). -/
def Inject.word (i : Inject) : Word :=
  BitVec.ofNat 64 (natOf i.arm * 2 ^ 63 + i.runs.toNat * 2 ^ 61 + i.pipe.toNat * 2 ^ 56 + i.site.toNat * 2 ^ 48 +
    i.lane.toNat * 2 ^ 42 + i.bit.toNat * 2 ^ 37 + i.count.toNat)

/-- A write of SL_INJECT (R362): ignored while INJEN is 0; ARM stays clear with a COUNT of zero. -/
def State.writeInject (s : State) (d : Nat) (v : Word) : State :=
  if (s.die d).injen then
    let i := readInject v
    s.modDie d (fun x => { x with inject := { i with arm := i.arm && i.count != 0 } })
  else s

/-- SL_INJECT (R362, R436). -/
def execSlInject (die : Nat) (value : BitVec 64) (s : State) : Out := .next (s.dieWrite die (fun a => a.writeInject die value))

/-! ## Reads -/

/-- A word of a die's block that holds organisation registers (R28). -/
def State.readOrg (s : State) (d off : Nat) : Word :=
  let w := off / 8 % 4
  if off < 0x18 then maskWord (s.die d).disabled w
  else if 0x20 ≤ off && off < 0x38 then maskWord (s.die d).defective w
  else if 0x40 ≤ off && off < 0x58 then s.fenceWord d w
  else if 0x80 ≤ off then s.lptWord d ((off - 0x80) / 8)
  else 0

/-- The registers of a pound (R420). -/
def State.readPound (s : State) (key i : Nat) : Word :=
  let p := s.pound key
  let ofN := fun (x : Nat) => BitVec.ofNat 64 x
  if i = 0 then ofN (p.autoidle.toNat * 2 ^ 16 + p.autotgt.toNat * 4 + p.target.toNat)
  else if i = 1 then ofN ((s.poundTeams key).length % 1024 * 2 ^ 32 + natOf p.droop * 256 + natOf p.lock * 16 + p.state.code)
  else if i = 2 then ofN (p.retCrc.toNat * 2 ^ 32 + natOf p.retValid * 2 + natOf p.keepic)
  else if i = 4 then ofN (p.ackSeq.toNat * 2 ^ 48 + p.ackState.toNat * 256 + p.ackCode.toNat)
  else if i = 5 then ofN (p.hold.toNat * 256 + p.thresh.toNat)
  else if i = 6 then ofN p.droops.toNat
  else 0

/-- Open checks of a die (R361). -/
def State.openChecks (s : State) (d : Nat) : Nat :=
  (s.checks.filter (fun p => p.2.die = d && p.2.state != CheckState.done)).length

/-- The 8-byte register at an offset of a compute die's block (R28, R361, R420, R434). -/
def State.readDieReg (s : State) (d off : Nat) : Word :=
  let x := s.die d
  if off < 0x100 then s.readOrg d off
  else if off = 0x1000 then BitVec.ofNat 64 (x.thresh.toNat * 4096 + natOf x.injen * 256)
  else if off = 0x1008 then x.inject.word
  else if off = 0x1010 then BitVec.ofNat 64 (s.openChecks d % 8192)
  else if 0x2000 ≤ off && off < 0x2400 then s.readPound (poundKey d ((off - 0x2000) / 64)) (off % 64 / 8)
  else if 0x3000 ≤ off && off < 0x5000 && off % 32 = 16 then
    let c := (off - 0x3000) / 32
    BitVec.ofNat 64 ((Tab.read [] x.pool2m c).length * 2 ^ 32 + (Tab.read [] x.pool64 c).length)
  else 0

/-- KS_STAT and KS_HWM (R409). -/
def Hub.keyReg (h : Hub) (k : Nat) (hwm : Bool) : Word :=
  match Tab.find h.keys k with
  | none => 0
  | some x => if hwm then x.hwm else BitVec.ofNat 64 (2 ^ 63 + x.ctx % 256 * 2 ^ 48 + x.salt.toNat)

/-- DBG_STOP (R424). -/
def State.readDbgStop (s : State) : Word :=
  match s.hub.stopped with
  | (k, _) :: _ =>
    (match s.group k with
    | some g => BitVec.ofNat 64 (2 ^ 63 + g.ctx * 2 ^ 48 + g.gid % 2 ^ 16 * 2 ^ 32 + (s.teamOf g).teamId % 2 ^ 32)
    | none => 0)
  | [] => 0

/-- Q_BIND (R424, R435). -/
def Queue.bindWord (q : Queue) : Word := BitVec.ofNat 64 (natOf q.ctx.isSome * 2 ^ 63 + q.bindCtx.toNat)

/-- The 8-byte register at an offset of the hub's block (R424). -/
def State.readHubReg (s : State) (off : Nat) : Word :=
  let h := s.hub
  let ofN := fun (x : Nat) => BitVec.ofNat 64 x
  if off = 0 then ofN (h.railCtlMat.toNat * 256 + h.railCtlVec.toNat)
  else if off = 8 then ofN (natOf h.railBusy * 2 ^ 63 + h.railMat.toNat * 256 + h.railVec.toNat)
  else if off = 0x10 then h.hentry
  else if 0x40 ≤ off && off < 0x60 then ofN (Tab.read 0 h.hcCtx ((off - 0x40) / 8)).toNat
  else if off = 0x300 then ofN h.irqStat.toNat
  else if off = 0x308 then ofN h.irqEn.toNat
  else if off = 0x310 then ofN h.irqTgt.toNat
  else if off = 0x408 then h.ptArg
  else if off = 0x410 then ofN (natOf h.ptBusy * 2 ^ 63 + h.ptCtx.toNat * 256 + h.ptResult.toNat)
  else if off = 0x500 then s.readDbgStop
  else if off = 0x508 then (match h.stopped with
    | (_, slot) :: _ => ofN slot
    | [] => 0)
  else if 0x600 ≤ off && off < 0x800 then (s.queue ((off - 0x600) / 8)).bindWord
  else if off = 0x800 then h.fwAddr
  else if off = 0x808 then h.fwLen
  else if off = 0x810 then ofN h.fwStat.toNat
  else if 0x1000 ≤ off && off < 0x1100 && off % 64 = 8 then
    let d := s.die ((off - 0x1000) / 64)
    ofN (d.resetErrors.toNat * 2 ^ 32 + d.resetStep)
  else if 0x2000 ≤ off && off < 0x2200 then h.keyReg ((off - 0x2000) / 16) (off % 16 = 8)
  else 0

/-- The current value of the register that holds an address (R28). -/
def State.readReg (s : State) (pa : Nat) : Word :=
  let (b, off) := mgmtPlace (pa / 8 * 8)
  if b < 4 then s.readDieReg b off else if b = 4 then s.readHubReg off else 0

/-- A read of management space is one of 1, 2, 4 or 8 bytes within one register (R28). -/
def mgmtReadOk (pa n : Nat) : Bool := (n = 1 || n = 2 || n = 4 || n = 8) && decide (pa % 8 + n ≤ 8)

/-- The bytes that such a read returns (R28). -/
def State.readMgmt (s : State) (pa n : Nat) : List Byte := ((wordBytes 8 (s.readReg pa)).drop (pa % 8)).take n

/-! ## Writes -/

/-- A write of a pound's register (R420). -/
def State.writePound (s : State) (key i : Nat) (v : Word) : State :=
  if i = 0 then s.writePdCtl key v
  else if i = 2 then s.modPound key (fun p => { p with keepic := v.getLsbD 0 })
  else if i = 3 then s.writePdWake key v
  else if i = 5 then
    let hold := v.extractLsb' 8 8
    s.modPound key (fun p => { p with hold := (if hold = 0 then p.hold else hold), thresh := v.extractLsb' 0 5 })
  else s

/-- A write of a register of a compute die's block (R28, R361, R420, R434). -/
def State.writeDieReg (s : State) (d off : Nat) (v : Word) : State :=
  if off = 0x1000 then
    let t := v.extractLsb' 12 4
    s.modDie d (fun x => { x with thresh := (if t = 0 then x.thresh else t), injen := v.getLsbD 8 })
  else if off = 0x1008 then s.writeInject d v
  else if 0x2000 ≤ off && off < 0x2400 then (s.writePound (poundKey d ((off - 0x2000) / 64)) (off % 64 / 8) v).settleRestores
  else if 0x3000 ≤ off && off < 0x5000 && off % 32 = 0 then s.addFrame d ((off - 0x3000) / 32) false v.toNat
  else if 0x3000 ≤ off && off < 0x5000 && off % 32 = 8 then s.addFrame d ((off - 0x3000) / 32) true v.toNat
  else s

/-- A write of a register of the hub's block (R424). -/
def State.writeHubReg (s : State) (off : Nat) (v : Word) : State :=
  if off = 0 then s.writeRail v
  else if off = 0x10 then s.modHub (fun h => { h with hentry := v })
  else if 0x20 ≤ off && off < 0x40 then s.startHubGroup ((off - 0x20) / 8) v.toNat
  else if 0x40 ≤ off && off < 0x60 then
    s.modHub (fun h => { h with hcCtx := Tab.write 0 h.hcCtx ((off - 0x40) / 8) (v.extractLsb' 0 8) })
  else if 0x100 ≤ off && off < 0x300 then s.ringDoorbell ((off - 0x100) / 128) ((off - 0x100) / 8 % 16)
  else if off = 0x300 then s.modHub (fun h => { h with irqStat := h.irqStat &&& ~~~(v.extractLsb' 0 7) })
  else if off = 0x308 then s.modHub (fun h => { h with irqEn := v.extractLsb' 0 7 })
  else if off = 0x310 then s.modHub (fun h => { h with irqTgt := v.extractLsb' 0 6 })
  else if off = 0x400 then s.partCommand (v.extractLsb' 0 4).toNat (v.extractLsb' 8 8).toNat
  else if off = 0x408 then s.modHub (fun h => { h with ptArg := v })
  else if off = 0x510 then (if v = 1 then s.debugResume else if v = 2 then s.debugEnd else s)
  else if 0x600 ≤ off && off < 0x800 then s.bindQueue ((off - 0x600) / 8) v
  else if off = 0x800 then s.modHub (fun h => { h with fwAddr := v })
  else if off = 0x808 then s.modHub (fun h => { h with fwLen := v })
  else if off = 0x810 then s.writeFwUpdate v
  else if 0x1000 ≤ off && off < 0x1100 && off % 64 = 0 then s.writeDrCtl ((off - 0x1000) / 64) v
  else s

/-- A write of the whole register at an 8-byte aligned address of management space (R28). -/
def State.writeReg (s : State) (pa : Nat) (v : Word) : State :=
  let (b, off) := mgmtPlace pa
  if b < 4 then s.writeDieReg b off v else if b = 4 then s.writeHubReg off v else s

/-- MGMT_REGISTER_WRITE (R28, R361, R419, R420, R424, R425). One that receives the error reply changes nothing else. -/
def execMgmtRegisterWrite (addr : Nat) (value : BitVec 64) (s : State) : Out :=
  if region addr = .management && addr % 8 = 0 && !s.errorReply addr then .next (s.writeReg addr value)
  else .next (s.countError addr)

end Sys2Proof.Machine
end

