-- ==== Sys2Proof/Machine/Access.lean ====
section
/-!
DEFINITION. What the memory instructions share: the MOD layout of group 5 (R259), effective addresses (R260), the
checks at issue (R102, R134, R264), and the reads and writes of one instruction's lanes (R103 to R105, R120, R386).
-/

namespace Sys2Proof.Machine

open Sys2Proof

/-! ## The MOD layout (R259) -/

def memSC (w : Slot) : Nat := (w.mod.extractLsb' 0 3).toNat
def memIX (w : Slot) : Nat := (w.mod.extractLsb' 3 2).toNat
def memSZ (w : Slot) : Nat := (w.mod.extractLsb' 5 3).toNat
def memAcq (w : Slot) : Bool := w.mod.getLsbD 8
def memRel (w : Slot) : Bool := w.mod.getLsbD 9
def memScope (w : Slot) : Nat := (w.mod.extractLsb' 10 3).toNat
def memRmt (w : Slot) : Bool := w.mod.getLsbD 13
def memOpc (w : Slot) : Nat := (w.mod.extractLsb' 14 4).toNat
def memNr (w : Slot) : Bool := w.mod.getLsbD 18
def memSlot (w : Slot) : Nat := (w.mod.extractLsb' 19 3).toNat
def memCnt (w : Slot) : Nat := (w.mod.extractLsb' 22 3).toNat

/-- The bits of each MOD field. -/
def bitsSC : BitVec 28 := 0x7
def bitsIX : BitVec 28 := 0x18
def bitsSZ : BitVec 28 := 0xE0
def bitsACQ : BitVec 28 := 0x100
def bitsREL : BitVec 28 := 0x200
def bitsSCOPE : BitVec 28 := 0x1C00
def bitsRMT : BitVec 28 := 0x2000
def bitsOPC : BitVec 28 := 0x3C000
def bitsNR : BitVec 28 := 0x40000
def bitsSLOT : BitVec 28 := 0x380000
def bitsCNT : BitVec 28 := 0x1C00000

/-- SCOPE is a scope of R104, and 0 without ACQ and REL (R259). -/
def scopeOk (w : Slot) : Bool :=
  decide (memScope w ≤ 5) && (memAcq w || memRel w || decide (memScope w = 0))

/-- The field holds a vector register. -/
def isVecField : Operand → Bool
  | .vec _ => true
  | _ => false

/-- IX is not reserved and stands only with a vector index; a 64-bit index names a pair (R166, R259). -/
def indexOk (w : Slot) : Bool :=
  decide (memIX w ≤ 2) && (isVecField w.c || decide (memIX w = 0)) &&
  (decide (memIX w ≠ 2) || decide (w.c.vecIndex % 2 = 0))

/-- SZ fits the TY and the direction (R261). -/
def sizeOk (w : Slot) (store : Bool) : Bool :=
  let z := memSZ w
  decide (z ≤ 5) && (decide (z = 0) || w.ty = .b32) && !(store && (decide (z = 2) || decide (z = 4)))

/-- Bytes of each lane's access (R261). -/
def accessSize (w : Slot) : Nat :=
  let z := memSZ w
  if z = 0 then (if w.ty.wide then 8 else 4) else if z ≤ 2 then 1 else if z ≤ 4 then 2 else 16

/-- Vector registers that hold a lane's value (R261). -/
def valueRegs (w : Slot) : Nat := if memSZ w = 5 then 4 else if w.ty.wide then 2 else 1

/-- Such a value's first register is a multiple of 4 for b128 and even for a pair (R166, R261). -/
def valueRegOk (w : Slot) (o : Operand) : Bool :=
  match o with
  | .vec i => i.toNat % valueRegs w = 0
  | _ => true

/-! ## Addresses (R260) -/

/-- The index of a lane. -/
def Group.laneIndex (g : Group) (w : Slot) (l : Nat) : Int :=
  match w.c with
  | .vec r =>
    if memIX w = 2 then ((g.v64 r.toNat l).toNat : Nat)
    else if memIX w = 1 then signedOf (g.v r.toNat l).toNat 32 else ((g.v r.toNat l).toNat : Nat)
  | .scalar i => ((g.s i.toNat).toNat : Nat)
  | _ => 0

/-- addr[l] with a given base (R260). -/
def Group.address (g : Group) (w : Slot) (base : Nat) (l : Nat) : Nat :=
  wrapInt (base + g.laneIndex w l * (2 ^ memSC w : Nat) + signedOf w.imm.toNat 32) 64

/-- addr[l] (R260). -/
def Group.laneAddress (g : Group) (w : Slot) (l : Nat) : Nat := g.address w (g.s w.a.scalarIndex).toNat l

/-- The address of an instruction that acts on no lane. -/
def Group.oneAddress (g : Group) (w : Slot) : Nat := g.laneAddress w 0

/-! ## Checks at issue (R102, R264) -/

/-- A part of an access that lies in one page. -/
structure Piece where
  va : Nat
  pa : Nat
  len : Nat
  entry : TlbEntry
  deriving DecidableEq, Repr

/-- The parts of an access at the page boundaries (R102). -/
def cutAtPages (va n : Nat) : List (Nat × Nat) :=
  let room := 65536 - va % 65536
  if n ≤ room then [(va, n)] else [(va, room), ((va + room) % 2 ^ 64, n - room)]

/-- What the checks on a lane's access give. -/
inductive Route where
  | ok (ps : List Piece)
  | miss (needs : List (Nat × AccessKind))
  | fault (code va : Nat)

/-- What an access asks of the page it meets, beyond the permission: nothing; to be no AP page (R134). -/
inductive PageNeed where
  | any
  | ordinary
  deriving DecidableEq, Repr

/-- A write other than APND to an AP page faults; the page's state comes from its descriptor, or from SEALED in the
entry (R134, R136). -/
def State.appendWriteFault (s : State) (pa : Nat) (e : TlbEntry) : Nat :=
  if e.sealed then 0x18
  else match s.appendPage pa with
    | some p => match Tab.find s.appends p with
      | some d => if d.sealed || d.arrived then 0x18 else 0x17
      | none => 0x17
    | none => 0x17

/-- The checks on one part. -/
def State.routePart (s : State) (who : Who) (known : List (Nat × AccessKind × Nat)) (kind : AccessKind)
    (need : PageNeed) (va n : Nat) : Route :=
  match s.translate who known va kind with
  | .miss => .miss [(va, kind)]
  | .fault c => .fault c va
  | .ok e =>
    let pa := e.phys va
    if need = .ordinary && e.kind = 3 then .fault (s.appendWriteFault pa e) va
    else .ok [{ va := va, pa := pa, len := n, entry := e }]

/-- Two routes one after the other: a missing translation comes first, then the first fault. -/
def Route.and : Route → Route → Route
  | .ok p, .ok q => .ok (p ++ q)
  | .miss m, .miss n => .miss (m ++ n)
  | .miss m, _ => .miss m
  | _, .miss n => .miss n
  | .fault c a, _ => .fault c a
  | _, .fault c a => .fault c a

/-- The checks on one access. -/
def State.routeOne (s : State) (who : Who) (known : List (Nat × AccessKind × Nat)) (kind : AccessKind)
    (need : PageNeed) (va n : Nat) : Route :=
  ((cutAtPages va n).map (fun p => s.routePart who known kind need p.1 p.2)).foldl Route.and (.ok [])

/-- A lane whose checks have passed, with the parts of each of its accesses in order. -/
structure Ready where
  lane : Nat
  accesses : List (List Piece)

/-- What the checks on all lanes of an instruction give (R102, R381). -/
structure Routed where
  needs : List (Nat × AccessKind) := []
  ready : List Ready := []
  failed : List (Nat × Nat × Nat) := []

/-- Put one lane's routes into the whole. -/
def Routed.add (r : Routed) (lane : Nat) (rs : List Route) : Routed :=
  let parts := rs.map (fun x => match x with
    | .ok ps => ps
    | _ => [])
  match rs.foldl Route.and (.ok []) with
  | .ok _ => { r with ready := r.ready ++ [{ lane := lane, accesses := parts }] }
  | .miss n => { r with needs := r.needs ++ n }
  | .fault c a => { r with failed := r.failed ++ [(lane, c, a)] }

/-- The checks on every lane's accesses; `early` is a lane's check before translation: a code and an address. -/
def State.routeLanes (s : State) (g : Group) (k : Nat) (kind : AccessKind) (need : PageNeed) (lanes : List Nat)
    (early : Nat → Option (Nat × Nat)) (accesses : Nat → List (Nat × Nat)) : Routed :=
  lanes.foldl (fun r l =>
    match early l with
    | some (c, a) => { r with failed := r.failed ++ [(l, c, a)] }
    | none => r.add l ((accesses l).map (fun p => s.routeOne (g.who k) g.walkFaults kind need p.1 p.2))) {}

/-- No check before translation. -/
def noEarly : Nat → Option (Nat × Nat) := fun _ => none

/-- The trap of the failing lanes: the cause of the lowest of them (R372, R374). -/
def laneTrap (failed : List (Nat × Nat × Nat)) : Cause :=
  match failed with
  | (_, c, a) :: _ => { code := c, faddr := BitVec.ofNat 64 a, lanes := maskOf (failed.map Prod.fst) }
  | [] => {}

/-- The lanes that pass perform the instruction, unless a walk is needed first; the others trap (R102, R264, R381). -/
def Routed.run (r : Routed) (s : State) (perform : List Ready → State) : Result :=
  if !r.needs.isEmpty then .park s r.needs
  else if r.failed.isEmpty then .done (perform r.ready)
  else .trap (perform r.ready) (laneTrap r.failed)

/-- The mask of the lanes that perform. -/
def readyMask (rs : List Ready) : BitVec 64 := maskOf (rs.map Ready.lane)

/-! ## Reading -/

/-- Bytes read, the first fault that a reply brought (code and virtual address), and the state after it. -/
structure Got where
  bytes : List Byte
  fault : Option (Nat × Nat)
  state : State

/-- One fault, the earlier first. -/
def firstFault (a b : Option (Nat × Nat)) : Option (Nat × Nat) := match a with
  | some x => some x
  | none => b

/-- The fault of a read that meets a poisoned line, with that line's virtual address (R120, R370). -/
def State.poisonFault (s : State) (who : Who) (va pa n : Nat) : Option (Nat × Nat) :=
  ((linesOf pa n).find? (s.poisonedFor who)).map (fun l => (0x20, va / 128 * 128 + (l - lineNo pa) * 128))

/-- Read one part (R28, R120, R264). -/
def State.readPiece (s : State) (who : Who) (p : Piece) : Got :=
  if region p.pa = .management then
    if mgmtReadOk p.pa p.len && !s.errorReply p.pa then { bytes := s.readMgmt p.pa p.len, fault := none, state := s }
    else { bytes := List.replicate p.len 0, fault := some (0x21, p.va), state := s.countError p.pa }
  else
    let r := s.load who (p.entry.kind != 0) p.pa p.len
    { bytes := r.bytes
      fault := if r.error then some (0x21, p.va) else s.poisonFault who p.va p.pa p.len
      state := r.state }

/-- Read the parts of one access. -/
def State.readPieces (s : State) (who : Who) (ps : List Piece) : Got :=
  ps.foldl (fun (a : Got) p =>
    let r := a.state.readPiece who p
    { bytes := a.bytes ++ r.bytes, fault := firstFault a.fault r.fault, state := r.state })
    { bytes := [], fault := none, state := s }

/-- The parts of an access to management space as one access of one register (R28). -/
def wholeAccess (ps : List Piece) : List Piece :=
  match ps with
  | p :: q :: _ => if region p.pa = .management && p.pa + p.len = q.pa then [{ p with len := p.len + q.len }] else ps
  | _ => ps

/-- What every ready lane reads, access by access. -/
structure LanesRead where
  values : List (Nat × List (List Byte))
  fault : Option (Nat × Nat)
  state : State

/-- Read every access of every ready lane. -/
def State.readLanes (s : State) (who : Who) (rs : List Ready) : LanesRead :=
  rs.foldl (fun (a : LanesRead) r =>
    let got := r.accesses.foldl (fun (b : List (List Byte) × Option (Nat × Nat) × State) ps =>
      let x := b.2.2.readPieces who (wholeAccess ps)
      (b.1 ++ [x.bytes], firstFault b.2.1 x.fault, x.state)) ([], a.fault, a.state)
    { values := a.values ++ [(r.lane, got.1)], fault := got.2.1, state := got.2.2 })
    { values := [], fault := none, state := s }

/-- The physical lines that the ready lanes touch through pages whose kind lets a core store hold them (R101). -/
def Routed.cachedLines (r : Routed) : List Nat :=
  r.ready.flatMap (fun x => x.accesses.flatten.flatMap (fun p => if p.entry.kind != 0 then linesOf p.pa p.len else []))

/-- Every translation is there, but an ordinary token request for a line is refused, because another core's persistent
request is admitted: the access waits at issue (R113; log 29). A store of a team under check waits in its version instead
(R350). -/
def Routed.waits (r : Routed) (s : State) (who : Who) (write : Bool) : Bool :=
  r.needs.isEmpty && !(write && (s.runOf who).isSome) && s.tokensRefused who.core write r.cachedLines

/-- Some ready lane reads host memory (R350). -/
def touchesHost (rs : List Ready) : Bool := rs.any (fun r => r.accesses.any (fun a => a.any (fun p => region p.pa = .host)))

/-- Bytes as 8-byte log values. -/
def packWords : Nat → List Byte → List Word
  | 0, _ => []
  | n + 1, bs => bytesWord (bs.take 8) :: packWords n (bs.drop 8)

/-- The log values of a byte sequence (R350). -/
def logWords (bs : List Byte) : List Word := packWords (ceilDiv bs.length 8) bs

/-- Bytes taken back from log values. -/
def logBytes (ws : List Word) (n : Nat) : List Byte := ((ws.map (wordBytes 8)).flatten ++ List.replicate n 0).take n

/-- The values of lanes taken back from a log entry, in which each lane has as many words as its bytes need. -/
def splitLog (ws : List Word) : List (Nat × List Nat) → List (Nat × List (List Byte))
  | [] => []
  | (l, sizes) :: rest =>
    let total := sizes.foldl (· + ·) 0
    let n := ceilDiv total 8
    let bs := logBytes (ws.take n) total
    let cut := sizes.foldl (fun (a : List (List Byte) × List Byte) k => (a.1 ++ [a.2.take k], a.2.drop k)) ([], bs)
    (l, cut.1) :: splitLog (ws.drop n) rest

/-- What the lanes of a load read: a load that meets host memory is logged by the original and taken from the log by a
later run (R350); `none` when the later run differs from the log. -/
def State.readLogged (s : State) (k : Nat) (g : Group) (op : Nat) (rs : List Ready) : Option LanesRead × State :=
  let who := g.who k
  if !touchesHost rs then
    let r := s.readLanes who rs
    (some r, r.state)
  else
    match s.partOf who with
    | .later c run =>
      match s.readLog c run k g op (readyMask rs) [] with
      | (some e, s1) =>
        let sizes := rs.map (fun r => (r.lane, r.accesses.map (fun a => (a.map Piece.len).foldl (· + ·) 0)))
        (some { values := splitLog e.values sizes, fault := e.fault, state := s1 }, s1)
      | (none, s1) => (none, s1)
    | _ =>
      let r := s.readLanes who rs
      let words := (r.values.map (fun v => logWords v.2.flatten)).flatten
      let s1 := r.state.logFor who g.gid { op := op, lanes := readyMask rs, operands := [], values := words, fault := r.fault }
      (some { r with state := s1 }, s1)

/-- The cause of a deferred fault of a reply (R264). -/
def replyCause (f : Nat × Nat) : Cause := { code := f.1, faddr := BitVec.ofNat 64 f.2 }

/-- Some lane performs the instruction, or none has failed. Where every lane fails, the operation that departs does nothing
(R159, R161). -/
def Routed.acts (r : Routed) : Bool := r.failed.isEmpty || !r.ready.isEmpty

/-- Put a load in flight: its writes, or its deferred fault, which writes no destination (R158, R159, R264). -/
def State.departLoad (s : State) (k : Nat) (w : Slot) (dests : List DestReg) (writes : List RegWrite)
    (fault : Option (Nat × Nat)) : State :=
  let ws := match fault with
    | some _ => []
    | none => writes
  s.modGroup k (fun g => g.depart w dests ws 0 (fault.map replyCause) .plain)

/-! ## Writing -/

/-- Bytes with their physical addresses, in the order in which they are written. -/
abbrev Writes := List (Nat × Byte)

/-- Lines of held versions that lie in the ways of slices, those of one slice (R124). -/
def State.heldWays (s : State) (pa : Nat) : List Nat :=
  (s.checks.flatMap (fun p => p.2.runs.flatMap (fun r => r.ways))).filter
    (fun l => homeDie (l * 128) = homeDie pa && s.sliceOf (l * 128) = s.sliceOf pa)

/-- A line of a held version fits in the ways of its set while fewer than 4 of them hold held versions (R124). Which lines of a
slice share a set is a free value (log 72). -/
def State.fitsWays (s : State) (line : Nat) : Bool :=
  let held := s.heldWays (line * 128)
  decide (held.length < 4) || decide ((held.filter (fun l => Config.setOf l = Config.setOf line)).length < 4)

/-- Run r of a check holds new lines (R124, R351): one that does not fit in the ways takes a unit of the spill area (R350). -/
def State.takeLines : State → Nat → Nat → List Nat → State
  | s, _, _, [] => s
  | s, c, r, l :: ls =>
    State.takeLines (if s.fitsWays l then s.modRun c r (fun x => { x with ways := x.ways ++ [l] }) else s.spill c 1) c r ls

/-- The run holds this line already, in stored or in appended bytes. -/
def Run.holdsLine (x : Run) (l : Nat) : Bool :=
  x.held.any (fun p => lineNo p.1 = l) || x.appends.any (fun p => (linesOf (p.1 + p.2.1) p.2.2.length).contains l)

/-- Of these lines, run r of a check takes a way or a unit for those that it does not hold (R350). -/
def State.takeFresh (s : State) (c r : Nat) (lines : List Nat) : State :=
  s.takeLines c r (match s.runRec c r with
    | some x => lines.filter (fun l => !x.holdsLine l)
    | none => lines)

/-- Bytes join the held version of the party's run; when a spill has ended its check, they are committed. -/
def State.holdBytes (s : State) (who : Who) (direct : State → State) (ws : Writes) : State :=
  match s.runOf who with
  | none => direct s
  | some (c, r) =>
    let s1 := s.takeFresh c r (ws.map (fun p => lineNo p.1)).eraseDups
    match s1.runOf who with
    | none => if r = 0 then direct s1 else s1
    | some _ =>
      let s2 := s1.modRun c r (fun x => { x with held := ws.foldl (fun t p => Tab.insert t p.1 p.2) x.held
                                                 poisons := x.poisons.filter (fun l => !coversLine l ws) })
      s2.modCheck c (fun x => { x with early := (if r = 0 then ws.foldl (fun t p => Tab.remove t p.1) x.early else x.early) })

/-- Bytes go to their homes, or into the die's remote-write buffer (R112, R115). Strongly ordered stores are performed at
their homes (R101). `va` is the virtual address of a physical one. -/
def State.writeOut (s : State) (who : Who) (so : Nat → Bool) (va : Nat → Nat) (ws : Writes) : State :=
  let d := coreDie who.core
  let buffered := fun (p : Nat × Byte) => remote who.core p.1 && !so p.1
  let late := ws.filter buffered
  let now := ws.filter (fun p => !buffered p)
  let s1 := ((late.map (fun p => lineNo p.1)).eraseDups).foldl (fun a l =>
    let mine := late.filter (fun p => lineNo p.1 = l)
    a.bufferStore d who.group (va ((mine.head?.map Prod.fst).getD 0)) l mine) s
  let s2 := ((now.map Prod.fst).map lineNo).eraseDups.foldl (fun a l =>
    let pa := l * 128
    let b := if remote who.core pa then a.drainLine d l else a
    if so pa || 4 ≤ d then b.tokenHome pa else b.tokenWrite who.core pa) s1
  let s3 := if now.isEmpty then s2 else s2.commit none now
  s3.updateCopy who.core ws

/-- One instruction's stores: for each lane's access its virtual address, its parts and its bytes. -/
abbrev Stores := List (Nat × List Piece × List Byte)

/-- The virtual address of a stored byte. -/
def virtualOf (xs : Stores) (pa : Nat) : Nat :=
  match (xs.flatMap (fun x => x.2.1)).find? (fun p => p.pa ≤ pa && pa < p.pa + p.len) with
  | some p => p.va + (pa - p.pa)
  | none => 0

/-- What one part of a store comes to: a management register written, a refusal kept for the group (R386), or bytes. -/
def State.storePiece (s : State) (k : Nat) (p : Piece) (bs : List Byte) : State × Writes :=
  let mgmt : Bool := region p.pa = .management
  if s.errorReply p.pa || (mgmt && !(p.pa % 8 = 0 && p.len = 8)) then
    ((s.refuse k { code := 0x21, faddr := BitVec.ofNat 64 p.va }).countError p.pa, [])
  else if mgmt then (s.writeReg p.pa (bytesWord bs), [])
  else (s, atAddr p.pa bs)

/-- The parts of one store. -/
def State.storePieces (s : State) (k : Nat) : List Piece → List Byte → State × Writes
  | [], _ => (s, [])
  | p :: ps, bs =>
    let (s1, w1) := s.storePiece k p (bs.take p.len)
    let (s2, w2) := s1.storePieces k ps (bs.drop p.len)
    (s2, w1 ++ w2)

/-- All stores of one instruction, in ascending lane order (R262): signed (R348), then held by a run under check (R124),
or written out. -/
def State.storeAll (s : State) (k : Nat) (g : Group) (xs : Stores) : State :=
  let who := g.who k
  let so := fun (pa : Nat) => xs.any (fun x => x.2.1.any (fun p => p.entry.kind = 0 && lineNo p.pa ≤ lineNo pa && lineNo pa ≤ lineNo (p.pa + p.len - 1)))
  let signed := xs.foldl (fun a x => a.signBytes who 0 x.1 x.2.2) s
  let out := xs.foldl (fun (a : State × Writes) x =>
    let r := a.1.storePieces k (wholeAccess x.2.1) x.2.2
    (r.1, a.2 ++ r.2)) (signed, [])
  if out.2.isEmpty then out.1
  else
    let direct := fun (a : State) => a.writeOut who so (virtualOf xs) out.2
    out.1.holdBytes who direct out.2

/-- The scope at which a store or atomic of the group is a release, if it is one: that of its own .rel form and that of an
earlier FENCE.rel or FENCE.ar, the wider of the two (R105). -/
def Group.releaseScope (g : Group) (rel : Bool) (scope : Nat) : Option Nat :=
  match g.fenced with
  | some f => some (if rel then max f scope else f)
  | none => if rel then some scope else none

/-- A release, and what follows it: a refusal that the group owes is taken there; else earlier stores are released first,
at SYS scope after the host has answered the snoops that they wait for (R105, R115, R118, R386). -/
def State.releaseThen (s : State) (k : Nat) (g : Group) (scope : Nat) (r : State → Result) : Result :=
  let s1 := s.release (g.who k) scope
  s.releasing k g (if scope = 5 && s1.snoopsOwed then .stay s1 else r s1)

/-- A store or atomic, which is a release or not (R105). -/
def State.asStore (s : State) (k : Nat) (g : Group) (rel : Bool) (scope : Nat) (r : State → Result) : Result :=
  match g.releaseScope rel scope with
  | some x => s.releaseThen k g x r
  | none => r s

/-- A store or atomic of group 5. -/
def State.storeForm (s : State) (k : Nat) (g : Group) (w : Slot) (r : State → Result) : Result :=
  s.asStore k g (memRel w) (memScope w) r

/-! ## Folding (R348) -/

/-- Both runs fold the operands of an instruction, lane by lane (R296, R348). -/
def State.foldLanes (s : State) (who : Who) (op : Nat) (lanes : List Nat) (a b c : Nat → Word) (imm : Word) : State :=
  s.addSignature who ((lanes.map (fun l => foldRecords op l (a l) (b l) (c l) imm)).foldl (· + ·) 0)

/-- Both runs fold the operands of an instruction that acts on no lane. DESIGN CHOICE (log 117): once, as those of lane 0 (R186, R225,
R296, R348). -/
def State.foldOnce (s : State) (who : Who) (op : Nat) (a b c imm : Word) : State :=
  s.foldLanes who op [0] (fun _ => a) (fun _ => b) (fun _ => c) imm

/-- A later run differs from the log: it stops at once (R349). -/
def State.differs (s : State) (k : Nat) (g : Group) : Result := .moved (s.stopRun k 0x31 g.pc)

end Sys2Proof.Machine
end

