-- ==== Sys2Proof/Machine/Control.lean ====
section
/-!
DEFINITION. Control transfer, ends, waits and barriers (R196 to R208), signatures and IFENCE (R212, R213), and the
events that end these waits.
-/

namespace Sys2Proof.Machine

open Sys2Proof

/-! ## Branches -/

/-- IMM as a branch offset (R197). -/
def relativeTarget (g : Group) (w : Slot) : Nat := wrapInt (g.pc + signedOf w.imm.toNat 32) 64

/-- The target's line has C set and the slot's TGT bit set (R163). -/
def targetOk (target : Nat) (line : BitVec 512) : Bool :=
  isSlotAddress target && headerC (lineWord line) && (lineWord line).getLsbD (4 + slotIndex target)

/-- A taken branch: the target line is translated and fetched, the target is checked, and then the program counter and
the link register change in one step (R163, R196, R199). -/
def State.takeBranch (s : State) (k : Nat) (g : Group) (w : Slot) (target : Nat) (link : Bool) : Result :=
  let faddr := BitVec.ofNat 64 target
  match s.fetchLine (g.who k) g.walkFaults (lineOf target) with
  | (.miss va, s1) => .park s1 [(va, .execute)]
  | (.fault code _, s1) => .trap s1 (trapAll g code faddr)
  | (.line x, s1) =>
    if targetOk target x then
      let s2 := if link then s1.modGroup k (fun y => y.setS 62 (BitVec.ofNat 64 (nextLine g.pc))) else s1
      .moved (s2.branchTo k w target)
    else .trap s1 (trapAll g 0x04 faddr)

/-- The form of a branch (R197). -/
def branchForm : Form := { boundary := true, immOwn := true }

/-- BRA (R197). -/
def execBra (w : Slot) (s : State) : Out :=
  issue branchForm always noMore w s (fun k g => s.takeBranch k g w (relativeTarget g w) false)

/-- BRC (R197, R190). -/
def execBrc (w : Slot) (s : State) : Out :=
  let cond := (w.mod.extractLsb' 0 3).toNat
  issue { branchForm with tys := scalarTys, a := .scalarSrc, b := .scalarSrc, mod := 0x7 } (fun _ => decide (cond ≤ 5))
    noMore w s (fun k g =>
      if compareInt cond (s.scalarInt g w w.a) (s.scalarInt g w w.b) then
        s.takeBranch k g w (relativeTarget g w) false
      else .done s)

/-- A q register field. -/
def Kinds.predicate : Kinds := { qreg := true }

/-- The number of the q register that a field names. -/
def Operand.qIndex (o : Operand) : Nat := o.specialIndex - 0x10

/-- BRV (R198): .any, .all and .u over the active lanes. -/
def execBrv (w : Slot) (s : State) : Out :=
  let test := (w.mod.extractLsb' 0 2).toNat
  issue { branchForm with a := .predicate, mod := 0x7 } (fun _ => decide (test ≠ 3)) noMore w s (fun k g =>
    let q := g.q (Operand.qIndex w.a)
    let set := g.q0 &&& (if w.mod.getLsbD 2 then ~~~q else q)
    let taken := if test = 0 then decide (set ≠ 0) else decide (set = g.q0)
    if test = 2 && decide (set ≠ g.q0) && decide (set ≠ 0) then .trap s (trapAll g 0x05 0)
    else if taken then s.takeBranch k g w (relativeTarget g w) false
    else .done s)

/-- The form of a branch to an address in a scalar. -/
def indirectForm : Form := { boundary := true, a := .scalarReg }

/-- BRI (R197). -/
def execBri (w : Slot) (s : State) : Out :=
  issue indirectForm always noMore w s (fun k g => s.takeBranch k g w (g.s w.a.scalarIndex).toNat false)

/-- RET (R197). -/
def execRet (w : Slot) (s : State) : Out :=
  issue indirectForm always noMore w s (fun k g => s.takeBranch k g w (g.s w.a.scalarIndex).toNat false)

/-- CALL (R199): writes s62 when the branch takes effect. -/
def execCall (w : Slot) (s : State) : Out :=
  let indirect := w.mod.getLsbD 0
  let f : Form := if indirect then { indirectForm with mod := 1 } else { branchForm with mod := 1 }
  issue f always (fun _ => [.scalar 62]) w s (fun k g =>
    s.takeBranch k g w (if indirect then (g.s w.a.scalarIndex).toNat else relativeTarget g w) true)

/-! ## Plain boundaries -/

/-- NOP (R200). -/
def execNop (w : Slot) (s : State) : Out :=
  issue {} (fun _ => w.imm == 0) noMore w s (fun _ _ => .done s)

/-- The form of a class W instruction without operands. -/
def waitForm : Form := { boundary := true }

/-- Pass the boundary with the effect of a NOP that carries BND and YLD (R200). -/
def State.yieldOn (s : State) (k : Nat) (w : Slot) : Result := .moved (s.advance k { w with yld := true, bnd := true })

/-- YIELD (R200). -/
def execYield (w : Slot) (s : State) : Out := issue waitForm always noMore w s (fun k _ => s.yieldOn k w)

/-- IFENCE (R213): the core's instruction cache goes; the group's next clause is fetched anew. -/
def execIfence (w : Slot) (s : State) : Out :=
  issue waitForm always noMore w s (fun _ g => .done (s.modCore g.core (fun c => { c with icache := [] })))

/-- SIGF (R212). -/
def execSigf (w : Slot) (s : State) : Out :=
  issue { tys := [.b32, .b64], a := { vec := true }, lanes := true } always noMore w s (fun k g =>
    let r := w.a.vecIndex
    let lane := fun (l : Nat) => BitVec.ofNat 8 l ::
      (if w.ty.wide then wordBytes 8 (g.v64 r l) else leBytes 4 (g.v r l).toNat)
    let sig := (lanesOf (g.lanes w) g.width).foldl (fun x l => sigFold x (lane l)) g.sig
    .done (s.setGroup k { g with sig := sig }))

/-! ## Waits -/

/-- A scalar register or an immediate. -/
def Kinds.scalarOrImm : Kinds := { scalar := true, imm := true }

/-- The record of a wait at the instruction that the group issues. -/
def Group.waitHere (g : Group) (kind : WaitKind) : Wait :=
  let c := g.clauseHere
  let word := match c.rest with
    | (_, x) :: _ => x
    | [] => 0
  { slot := g.pc, word := word, header := c.header, kind := kind }

/-- The group passes its boundary and waits (R58). -/
def State.beginWait (s : State) (k : Nat) (g : Group) (w : Slot) (kind : WaitKind) : State :=
  (s.modGroup k (fun x => { x with wait := some (g.waitHere kind) })).advance k w

/-- A wait ends; the group is eligible again (R58, R327). -/
def State.endWait (s : State) (k : Nat) : State := s.modGroup k (fun g => { g with wait := none, age := s.now })

/-- SLEEP (R202). -/
def execSleep (w : Slot) (s : State) : Out :=
  issue { waitForm with a := .scalarOrImm } always noMore w s (fun k g =>
    let t := (s.scalarSource g w w.a).toNat
    if t = 0 then s.yieldOn k w else .moved (s.beginWait k g w (.sleep (s.now + t))))

/-- SLEEP_EXPIRY (R202): the deadline has come; time away counts too. -/
def execSleepExpiry (k : Nat) (s : State) : Out :=
  match s.group k with
  | some g =>
    match g.wait with
    | some { kind := .sleep d, .. } => if d ≤ s.now then .next (s.endWait k) else .next s
    | _ => .next s
  | none => .next s

/-! ## Team barriers -/

/-- The barrier at which a group waits (R203). -/
def Group.atBarrier (g : Group) : Option Nat :=
  match g.wait with
  | some { kind := .bar b, .. } => some b
  | _ => none

/-- The barriers at which the groups of a team that have not ended wait. -/
def State.barriers (s : State) (team : Nat) : List (Option Nat) :=
  match s.team team with
  | some t => t.groups.map (fun k => match s.group k with
    | some g => g.atBarrier
    | none => none)
  | none => []

/-- Every remaining group of the team waits at some BAR, and not all at one (R204). -/
def State.deadlocked (s : State) (team : Nat) : Bool :=
  let bs := s.barriers team
  bs.all Option.isSome && bs.any (fun b => bs.any (fun c => b != c))

/-- A group of a deadlocked team takes the barrier-deadlock trap at its BAR; its trap entry may have to wait for an operation
into s1 to s3 (R204, R374). -/
def State.takeBarTrap (s : State) (k : Nat) : State :=
  match s.group k with
  | some g => match g.atBarrier with
    | some b =>
      if s.trapWaits k then s.modGroup k (fun x => { x with barTrap := true })
      else s.trapAt k { trapAll g 0x06 0 with arg := b }
    | none => s
  | none => s

/-- Such a group takes the trap when its operations have completed (R204, R374). -/
def State.settleBarTrap (s : State) (k : Nat) : State :=
  match s.group k with
  | some g => if g.barTrap then s.takeBarTrap k else s
  | none => s

/-- Each waiting group of a deadlocked team takes the barrier-deadlock trap at its BAR (R204). -/
def State.barDeadlock (s : State) (team : Nat) : State :=
  if s.deadlocked team then
    match s.team team with
    | some t => t.groups.foldl State.takeBarTrap s
    | none => s
  else s

/-- BAR (R203, R204). -/
def execBar (w : Slot) (s : State) : Out :=
  issue { waitForm with mod := 0x3 } always noMore w s (fun k g => s.releasing k g
    (.moved ((s.beginWait k g w (.bar (w.mod.extractLsb' 0 2).toNat)).barDeadlock g.team)))

/-- A group of the team still owes the barrier-deadlock trap (R204). -/
def State.owesBarTrap (s : State) (t : Team) : Bool :=
  t.groups.any (fun k => match s.group k with
    | some g => g.barTrap
    | none => false)

/-- BARRIER_COMPLETE (R203, R60): every group of the team that has not ended waits at barrier b. -/
def execBarrierComplete (team b : Nat) (s : State) : Out :=
  match s.team team with
  | some t =>
    let bs := s.barriers team
    if !bs.isEmpty && bs.all (fun x => x = some b) && !s.owesBarTrap t then .next (t.groups.foldl State.endWait s)
    else .next (s.barDeadlock team)
  | none => .next s

/-! ## Cluster barriers -/

/-- The completed-phase count that a group's CBAR sees; none where CBAR does not wait: in a later run (R345), and on a
hub core, whose group is alone in its cluster. -/
def State.phaseOf (s : State) (g : Group) : Option Nat :=
  match s.team g.team with
  | some t => match t.cluster with
    | some c => (s.cluster c).map Cluster.phase
    | none => none
  | none => none

/-- The group arrives: d := a_g and a_g := a_g + 1 in one step (R205). -/
def Group.arriveAt (g : Group) (dest : Option Nat) (now : Nat) : Group :=
  let g1 := match dest with
    | some d => g.setS d (BitVec.ofNat 64 g.arrivals)
    | none => g
  { g1 with arrivals := g.arrivals + 1, wait := none, age := now }

/-- CBAR.arrive (R205): after the clause the group arrives once a_g < P + 2. -/
def execCbarArrive (w : Slot) (s : State) : Out :=
  let dest := match w.d0 with
    | .scalar i => some i.toNat
    | _ => none
  issue { waitForm with d0 := { scalar := true, zero := true }, mod := 0x1 } (fun _ => !w.mod.getLsbD 0) noMore w s
    (fun k g =>
      let free := match s.phaseOf g with
        | some p => decide (g.arrivals < p + 2)
        | none => true
      let s1 := s.beginWait k g w (.cbarArrive dest)
      s.releasing k g (.moved (if free then s1.modGroup k (fun x => x.arriveAt dest s.now) else s1)))

/-- CBAR.wait (R206). -/
def execCbarWait (w : Slot) (s : State) : Out :=
  issue { waitForm with a := .scalarOrImm, mod := 0x1 } (fun _ => w.mod.getLsbD 0) noMore w s (fun k g =>
    let p := (s.scalarSource g w w.a).toNat
    if g.arrivals ≤ p then .trap s { trapAll g 0x06 0 with arg := p % 65536 }
    else
      let free := match s.phaseOf g with
        | some done => decide (p < done)
        | none => true
      if free then .done s else .moved (s.beginWait k g w (.cbarWait p)))

/-- A team has arrived at a phase (R205, R60). -/
def State.teamArrived (s : State) (team phase : Nat) : Bool :=
  match s.team team with
  | some t => t.residency = .exited || t.groups.all (fun k => match s.group k with
    | some g => decide (phase < g.arrivals)
    | none => true)
  | none => true

/-- The groups of a cluster's teams whose CBAR can go on do so: waits for completed phases end, and arrivals that were
two phases ahead happen (R205, R206). -/
def State.wakeCluster (s : State) (c : Cluster) (phase : Nat) : State :=
  let wake := fun (a : State) (k : Nat) =>
    match a.group k with
    | some g => match g.wait with
      | some { kind := .cbarWait p, .. } => if p < phase then a.endWait k else a
      | some { kind := .cbarArrive d, .. } =>
        if g.arrivals < phase + 2 then a.modGroup k (fun x => x.arriveAt d s.now) else a
      | _ => a
    | none => a
  c.teams.foldl (fun a t => match a.team t with
    | some x => x.groups.foldl wake a
    | none => a) s

/-- CBAR_PHASE_COMPLETE (R205): every member team has arrived at phase P, and P becomes P + 1. -/
def execCbarPhaseComplete (cluster : Nat) (s : State) : Out :=
  match s.cluster cluster with
  | some c =>
    if !c.teams.isEmpty && c.teams.all (fun t => s.teamArrived t c.phase) then
      .next ((s.modCluster cluster (fun x => { x with phase := x.phase + 1 })).wakeCluster c (c.phase + 1))
    else .next s
  | none => .next s

/-! ## Waiting on engines -/

/-- The counter of a WAITC class: 0 .mx, 1 .ga, 2 .co (R207). -/
def Group.counter (g : Group) (cls : Nat) : Nat := if cls = 0 then g.mxcnt else if cls = 1 then g.gacnt else g.cocnt

/-- The engine class, as CLS numbers it, that a WAITC class waits for (R207, R375). -/
def waitcEngine (cls : Nat) : Nat := if cls = 0 then 3 else if cls = 1 then 1 else 2

/-- The recorded fault of the team's stopped array, if the group has still to take it (R316). -/
def State.arrayFault (s : State) (g : Group) : Option (Cause × Nat) :=
  if g.arrayFaultTaken then none
  else match s.team g.team with
    | some t => t.arrayStop
    | none => none

/-- Take the recorded fault of the stopped array at the instruction that the group issues or waits at: the Matrix
position of R371. The saved slot address is that of the faulting instruction (R316). -/
def State.takeArrayFault (s : State) (k : Nat) (g : Group) (c : Cause) (slot : Nat) : State :=
  if s.trapWaits k then s.hold k
  else
    (s.modGroup k (fun x => { x with arrayFaultTaken := true })).takeTrap k { c with lanes := g.q0 } slot
      (.instruction g.clauseHere false)

/-- The first fault of the group's engine operations that a wait for these classes takes (R385). -/
def Group.engineFaultFor (g : Group) (classes : List Nat) : Option (Nat × Cause) :=
  g.engFaults.find? (fun f => match f.2.engine with
    | some c => classes.contains c.toNat
    | none => false)

/-- Take an engine fault at the instruction at which the group waits (R385). -/
def State.takeEngineFault (s : State) (k : Nat) (g : Group) (f : Nat × Cause) : State :=
  if s.trapWaits k then s.hold k
  else (s.modGroup k (fun x => { x with engFaults := x.engFaults.filter (fun y => y != f) })).trapAt k
    { f.2 with lanes := g.q0 }

/-- The group sees what the copies of batches up to n have written: its core drops its copies of those lines (R122, R123). The
operations of the other classes write no memory. -/
def State.seeCopies (s : State) (k n : Nat) : State :=
  match s.group k with
  | some g =>
    let lines := (g.copied.filter (fun p => p.1 ≤ n)).map Prod.snd
    (s.dropLines lines (fun c => c = g.core)).modGroup k (fun x => { x with copied := x.copied.filter (fun p => n < p.1) })
  | none => s

/-- The group's WAITC or WAITB goes on: it completes when its condition holds, as an acquire at its scope; else a fault
of an engine operation of the class, or of the stopped array, is taken there (R122, R123, R316, R385). -/
def State.pokeWait (s : State) (k : Nat) : State :=
  match s.group k with
  | none => s
  | some g =>
    match g.wait with
    | some { kind := .waitc cls n scope, .. } =>
      match (if cls = 0 then s.arrayFault g else none) with
      | some (c, slot) => s.takeArrayFault k g c slot
      | none =>
        if g.counter cls ≤ n then (s.acquire (g.who k) scope.toNat).endWait k
        else match g.engineFaultFor [waitcEngine cls] with
          | some f => s.takeEngineFault k g f
          | none => s
    | some { kind := .waitb n scope, .. } =>
      if n ≤ g.cbdone then ((s.acquire (g.who k) scope.toNat).seeCopies k n).endWait k
      else match g.engineFaultFor [0] with
        | some f => s.takeEngineFault k g f
        | none => s
    | _ => s

/-- WAITC (R122, R207). -/
def execWaitc (w : Slot) (s : State) : Out :=
  let cls := (w.mod.extractLsb' 0 2).toNat
  let scope := w.mod.extractLsb' 2 3
  issue { waitForm with a := .scalarOrImm, mod := 0x1F } (fun _ => decide (cls ≠ 3) && decide (scope.toNat ≤ 5)) noMore w s
    (fun k g =>
      match s.takeRefused k g with
      | some r => r
      | none => .moved ((s.beginWait k g w (.waitc cls (s.scalarSource g w w.a).toNat scope)).pokeWait k))

/-- WAITB (R123, R208). -/
def execWaitb (w : Slot) (s : State) : Out :=
  let scope := w.mod.extractLsb' 2 3
  issue { waitForm with a := .scalarSrc, mod := 0x1C } (fun _ => decide (scope.toNat ≤ 5)) noMore w s (fun k g =>
    let n := (s.scalarSource g w w.a).toNat
    if g.cbopen < n then .trap s (trapAll g 0x07 0)
    else match s.takeRefused k g with
      | some r => r
      | none => .moved ((s.beginWait k g w (.waitb n scope)).pokeWait k))

/-- WAITC_COMPLETE (R122). -/
def execWaitcComplete (k : Nat) (s : State) : Out :=
  match s.group k with
  | some g => match g.wait with
    | some { kind := .waitc _ _ _, .. } => .next (s.pokeWait k)
    | _ => .next s
  | none => .next s

/-- WAITB_COMPLETE (R123). -/
def execWaitbComplete (k : Nat) (s : State) : Out :=
  match s.group k with
  | some g => match g.wait with
    | some { kind := .waitb _ _, .. } => .next (s.pokeWait k)
    | _ => .next s
  | none => .next s

/-! ## Copy batches -/

/-- %cbdone: the greatest n up to %cbopen for which every copy in batches up to n has completed (R289). -/
def Group.advanceBatches : Nat → Group → Group
  | 0, g => g
  | fuel + 1, g =>
    if g.cbdone < g.cbopen && Tab.read 0 g.batches (g.cbdone + 1) = 0 then
      Group.advanceBatches fuel { g with cbdone := g.cbdone + 1 }
    else g

/-- Close the open batch (R289). -/
def Group.closeBatch (g : Group) : Group :=
  let g1 := { g with cbopen := g.cbopen + 1, batchUsed := false }
  Group.advanceBatches (g1.cbopen - g1.cbdone) g1

/-! ## EXIT -/

/-- The group's EXIT goes on: a fault that the group still owes is taken there; when nothing of the group is
outstanding it ends (R54, R201, R264, R316, R385, R386). -/
def State.tryExit (s : State) (k : Nat) : State :=
  match s.group k with
  | none => s
  | some g =>
    if g.exiting.isNone || s.trapWaits k then s
    else
      match g.refused, s.arrayFault g, g.engFaults, g.owed with
      | some c, _, _, _ =>
        (s.modGroup k (fun x => { x with refused := none })).trapAt k { c with lanes := g.q0 }
      | none, some (c, slot), _, _ => s.takeArrayFault k g c slot
      | none, none, f :: _, _ => s.takeEngineFault k g f
      | none, none, [], o :: rest =>
        (s.modGroup k (fun x => { x with owed := rest })).takeTrap k
          { o.cause with deferred := true, entry := true, lanes := g.q0 } o.slot (.instruction g.clauseHere false)
      | none, none, [], [] =>
        if g.flights.isEmpty && !s.ops.any (fun p => p.2.group = k) then (s.endGroup k).barDeadlock g.team else s

/-- EXIT (R54, R201, R377): in handler state the end is fatal, with the report of the trap that the handler serves. -/
def execExit (w : Slot) (s : State) : Out :=
  issue { boundary := true } always noMore w s (fun k g =>
    if g.handler then
      match g.hidden with
      | some h => .moved (s.fatalTrap k h.cause false h.slot)
      | none => .moved (s.fatalTrap k {} false g.pc)
    else
      let here := g.waitHere (.sleep 0)
      let g1 := if g.batchUsed then g.closeBatch else g
      let s1 := s.setGroup k { (g1.endClause s.now (nextLine g.pc) w.yld) with exiting := some here }
      .moved (match g.doomed with
        | some _ => s1.settleDoom k
        | none => s1.tryExit k))

end Sys2Proof.Machine
end

