-- ==== Sys2Proof/Machine/MemAccess.lean ====
section
/-!
DEFINITION. Loads, stores and atomics of virtual memory and of scratchpads, LDSX, fences, prefetch, flush and watches
(R193 to R195, R259 to R269, R274 to R279).
-/

namespace Sys2Proof.Machine

open Sys2Proof

/-! ## Forms -/

/-- An index field: a vector register or a scalar register (R260). -/
def Kinds.index : Kinds := { vec := true, scalar := true }

/-- The value field of a store or an atomic. -/
def Kinds.storeValue : Kinds := { vec := true, scalar := true, imm := true }

/-- The form of a per-lane memory instruction. -/
def laneMemForm (w : Slot) (mods : BitVec 28) : Form :=
  { tys := [.b32, .b64], a := .scalarReg, c := .index, mod := mods, lanes := true, hint := true, immOwn := true
    n0 := some (valueRegs w), nb := some (valueRegs w), nc := some (if memIX w = 2 then 2 else 1), anyIndex := true }

/-- The form of a per-lane load. -/
def loadForm (w : Slot) (mods : BitVec 28) : Form := { laneMemForm w mods with d0 := .vecReg, long := true }

/-- The form of a per-lane store. -/
def storeForm (w : Slot) (mods : BitVec 28) : Form := { laneMemForm w mods with b := .storeValue }

/-- A load's encoding rules. -/
def loadOk (w : Slot) : Group → Bool := fun _ => scopeOk w && indexOk w && sizeOk w false && valueRegOk w w.d0

/-- A store's encoding rules; b128 data is four vector registers (R261). -/
def storeOk (w : Slot) : Group → Bool := fun _ =>
  scopeOk w && indexOk w && sizeOk w true && valueRegOk w w.b && (decide (memSZ w ≠ 5) || isVecField w.b)

/-- The vector registers from r on. -/
def vecDests (r n : Nat) : List DestReg := (List.range n).map (fun i => .vec (r + i))

/-! ## Lane values -/

/-- The register writes of one lane from loaded bytes (R261). -/
def loadWrites (w : Slot) (r l : Nat) (bs : List Byte) : List RegWrite :=
  let z := memSZ w
  let part := fun (i : Nat) => BitVec.ofNat 32 (leNat ((bs.drop (4 * i)).take 4))
  if z = 5 then (List.range 4).map (fun i => .vec (r + i) l (part i))
  else if w.ty.wide then [.vec r l (part 0), .vec (r + 1) l (part 1)]
  else if z = 2 then [.vec r l (BitVec.ofNat 32 (wrapInt (signedOf (leNat bs) 8) 32))]
  else if z = 4 then [.vec r l (BitVec.ofNat 32 (wrapInt (signedOf (leNat bs) 16) 32))]
  else [.vec r l (BitVec.ofNat 32 (leNat bs))]

/-- The bytes of `n` vector registers in one lane. -/
def Group.regBytes (g : Group) (r n l : Nat) : List Byte :=
  ((List.range n).map (fun i => leBytes 4 (g.v (r + i) l).toNat)).flatten

/-- The low bytes of a store's value in one lane (R265). -/
def State.storeValue (s : State) (g : Group) (w : Slot) (l n : Nat) : List Byte :=
  match w.b with
  | .vec r => (g.regBytes r.toNat (valueRegs w) l).take n
  | o => wordBytes n (s.scalarSource g w o)

/-! ## Loads and stores of virtual memory -/

/-- The effect of a load over lanes: checks, acquire, reading, and the operation in flight (R102, R264, R265). -/
def State.loadLanes (s : State) (k : Nat) (g : Group) (w : Slot) (op : Nat) (dests : List DestReg)
    (accesses : Nat → List (Nat × Nat)) (place : Nat → List (List Byte) → List RegWrite) : Result :=
  let r := s.routeLanes g k .read .any (lanesOf (g.lanes w) g.width) noEarly accesses
  if r.waits s (g.who k) false then .stay s
  else r.run s (fun ready =>
    if !r.acts then s
    else
      let s1 := if memAcq w then s.acquire (g.who k) (memScope w) else s
      match s1.readLogged k g op ready with
      | (some x, s2) => s2.departLoad k w dests ((x.values.map (fun v => place v.1 v.2)).flatten) x.fault
      | (none, s2) => s2.stopRun k 0x31 g.pc)

/-- The effect of a store over lanes (R102, R134, R262, R265). -/
def State.storeLanes (s : State) (k : Nat) (g : Group) (w : Slot) (accesses : Nat → List (Nat × Nat))
    (data : Nat → List (List Byte)) : Result :=
  s.storeForm k g w (fun s =>
    let r := s.routeLanes g k .write .ordinary (lanesOf (g.lanes w) g.width) noEarly accesses
    if r.waits s (g.who k) true then .stay s
    else r.run s (fun ready => s.storeAll k g
      ((ready.map (fun x => (List.zip (accesses x.lane) (List.zip x.accesses (data x.lane))).map (fun q =>
        (q.1.1, q.2.1, q.2.2)))).flatten)))

/-- LD (R265). -/
def execLd (w : Slot) (s : State) : Out :=
  issue (loadForm w (bitsSC ||| bitsIX ||| bitsSZ ||| bitsACQ ||| bitsSCOPE)) (loadOk w) noMore w s (fun k g =>
    let n := accessSize w
    let r := w.d0.vecIndex
    s.loadLanes k g w 0x280 (vecDests r (valueRegs w)) (fun l => [(g.laneAddress w l, n)])
      (fun l bs => loadWrites w r l bs.flatten))

/-- ST (R265). -/
def execSt (w : Slot) (s : State) : Out :=
  issue (storeForm w (bitsSC ||| bitsIX ||| bitsSZ ||| bitsREL ||| bitsSCOPE)) (storeOk w) noMore w s (fun k g =>
    let n := accessSize w
    s.storeLanes k g w (fun l => [(g.laneAddress w l, n)]) (fun l => [s.storeValue g w l n]))

/-! ## Whole registers (R266) -/

/-- Registers that CNT selects (R259). -/
def memCount (w : Slot) : Nat := 2 ^ memCnt w

/-- Registers of each of LDV's or STV's values: one, or a pair. -/
def elemRegs (w : Slot) : Nat := if w.ty.wide then 2 else 1

/-- The address of register r of lane l (R266). -/
def Group.blockAddress (g : Group) (w : Slot) (l r : Nat) : Nat :=
  (g.oneAddress w + (r * g.width + l) * (4 * elemRegs w)) % 2 ^ 64

/-- The accesses of one lane. -/
def Group.blockAccesses (g : Group) (w : Slot) (l : Nat) : List (Nat × Nat) :=
  (List.range (memCount w)).map (fun r => (g.blockAddress w l r, 4 * elemRegs w))

/-- The form of LDV, STV and LDSX. -/
def blockForm (w : Slot) (mods : BitVec 28) : Form :=
  { laneMemForm w mods with
    c := .scalarReg, n0 := some (memCount w * elemRegs w), nb := some (memCount w * elemRegs w), nc := none }

/-- LDV's and STV's encoding rules: CNT up to 3, a pair's register even. -/
def blockOk (w : Slot) (o : Operand) : Group → Bool := fun _ =>
  scopeOk w && decide (memCnt w ≤ 3) && decide (o.vecIndex % elemRegs w = 0)

/-- LDV (R266). -/
def execLdv (w : Slot) (s : State) : Out :=
  issue { blockForm w (bitsSC ||| bitsCNT ||| bitsACQ ||| bitsSCOPE) with d0 := .vecReg, long := true }
    (blockOk w w.d0) noMore w s (fun k g =>
      let d := w.d0.vecIndex
      let e := elemRegs w
      let place := fun (l : Nat) (vs : List (List Byte)) => ((List.range (memCount w)).map (fun r =>
        (List.range e).map (fun j => RegWrite.vec (d + r * e + j) l
          (BitVec.ofNat 32 (leNat (((nth [] vs r).drop (4 * j)).take 4)))))).flatten
      s.loadLanes k g w 0x284 (vecDests d (memCount w * e)) (g.blockAccesses w) place)

/-- STV (R266). -/
def execStv (w : Slot) (s : State) : Out :=
  issue { blockForm w (bitsSC ||| bitsCNT ||| bitsREL ||| bitsSCOPE) with b := .vecReg } (blockOk w w.b) noMore w s
    (fun k g =>
      let e := elemRegs w
      s.storeLanes k g w (g.blockAccesses w) (fun l =>
        (List.range (memCount w)).map (fun r => g.regBytes (w.b.vecIndex + r * e) e l)))

/-! ## Scalar loads and stores (R193 to R195) -/

/-- Bytes of SLD's and SST's access. -/
def scalarSize (w : Slot) : Nat := 2 ^ (w.mod.extractLsb' 0 2).toNat

/-- The scope of SLD's and SST's order bit. -/
def scalarScope (w : Slot) : Nat := (w.mod.extractLsb' 4 3).toNat

/-- A small scalar memory access's encoding rules (R193). -/
def scalarMemOk (w : Slot) (store : Bool) : Group → Bool := fun _ =>
  !(w.mod.getLsbD 2 && (store || scalarSize w = 8)) && decide (scalarScope w ≤ 5) &&
  (w.mod.getLsbD 3 || decide (scalarScope w = 0))

/-- The form of SLD and SST. -/
def scalarMemForm : Form :=
  { tys := [.b64], a := .scalarReg, c := { scalar := true, zero := true }, mod := 0x7F, hint := true, immOwn := true }

/-- a + c + IMM (R194). -/
def Group.scalarAddress (g : Group) (w : Slot) : Nat :=
  let c : Nat := match w.c with
    | .scalar i => (g.s i.toNat).toNat
    | _ => 0
  wrapInt ((g.s w.a.scalarIndex).toNat + c + signedOf w.imm.toNat 32) 64

/-- The value that SLD writes (R194). -/
def scalarLoaded (w : Slot) (bs : List Byte) : Word :=
  if w.mod.getLsbD 2 then BitVec.ofNat 64 (wrapInt (signedOf (leNat bs) (8 * bs.length)) 64) else bytesWord bs

/-- The route of a scalar access that passes its checks. -/
def oneReady (ps : List Piece) : Routed := { ready := [{ lane := 0, accesses := [ps] }] }

/-- SLD (R193 to R195). -/
def execSld (w : Slot) (s : State) : Out :=
  issue { scalarMemForm with d0 := .scalarReg, long := true } (scalarMemOk w false) noMore w s (fun k g =>
    let d := w.d0.scalarIndex
    match s.routeOne (g.who k) g.walkFaults .read .any (g.scalarAddress w) (scalarSize w) with
    | .miss needs => .park s needs
    | .fault c va => .trap s (trapAll g c (BitVec.ofNat 64 va))
    | .ok ps =>
      if (oneReady ps).waits s (g.who k) false then .stay s
      else
      let s1 := if w.mod.getLsbD 3 then s.acquire (g.who k) (scalarScope w) else s
      match s1.readLogged k g 0x018 [{ lane := 0, accesses := [ps] }] with
      | (some x, s2) =>
        let v := scalarLoaded w ((x.values.map (fun y => y.2.flatten)).flatten)
        .done (s2.departLoad k w [.scalar d] [.scalar d v] x.fault)
      | (none, s2) => .moved (s2.stopRun k 0x31 g.pc))

/-- SST (R193 to R195). -/
def execSst (w : Slot) (s : State) : Out :=
  issue { scalarMemForm with b := { scalar := true, imm := true } } (scalarMemOk w true) noMore w s (fun k g =>
    let va := g.scalarAddress w
    let body := fun (s : State) =>
      match s.routeOne (g.who k) g.walkFaults .write .ordinary va (scalarSize w) with
      | .miss needs => Result.park s needs
      | .fault c a => .trap s (trapAll g c (BitVec.ofNat 64 a))
      | .ok ps =>
        if (oneReady ps).waits s (g.who k) true then .stay s
        else .done (s.storeAll k g [(va, ps, wordBytes (scalarSize w) (s.scalarSource g w w.b))])
    s.asStore k g (w.mod.getLsbD 3) (scalarScope w) body)

/-! ## Scratchpad (R97, R267) -/

/-- A scratchpad access of the lanes of one instruction: the team it goes to, the lanes that pass with their offsets, and
those that fail. -/
structure PadRoute where
  team : Nat
  member : Nat
  ready : List (Nat × Nat)
  failed : List (Nat × Nat × Nat)

/-- What a remote operand gives before its lanes are looked at: a trap for every active lane, or the member (R267). -/
inductive PadTarget where
  | own
  | member (m : Nat)
  | trap (code : Nat) (faddr : Nat)

/-- The scratchpad offset of a lane (R267). -/
def Group.padOffset (g : Group) (w : Slot) (l : Nat) : Nat :=
  if memRmt w then g.address w ((g.s w.a.scalarIndex).toNat % 2 ^ 32) l % 2 ^ 32 else g.laneAddress w l % 2 ^ 32

/-- Which scratchpad an instruction names (R53, R267). -/
def State.padTarget (s : State) (g : Group) (w : Slot) (lanes : List Nat) : PadTarget :=
  if !memRmt w then .own
  else
    let v := (g.s w.a.scalarIndex).toNat
    match lanes with
    | [] => .own
    | l :: _ =>
      if bits v 32 24 != 0 then .trap 0x08 (g.padOffset w l)
      else if (s.teamOf g).members ≤ bits v 56 8 then .trap 0x09 (bits v 56 8)
      else .member (bits v 56 8)

/-- The team of member m of the group's cluster. -/
def State.memberTeam (s : State) (g : Group) (m : Nat) : Nat :=
  if (s.teamOf g).member = m then g.team
  else match (s.teamOf g).cluster with
    | some c => match s.cluster c with
      | some x => (x.teams.find? (fun t => match s.team t with
        | some y => y.member = m
        | none => false)).getD g.team
      | none => g.team
    | none => g.team

/-- The checks on the lanes of a scratchpad access of n bytes (R97, R267, R268). -/
def State.routePad (s : State) (g : Group) (w : Slot) (n : Nat) (aligned : Bool) : Sum PadRoute Cause :=
  let lanes := lanesOf (g.lanes w) g.width
  let size := (s.teamOf g).scratchSize
  let check := fun (l : Nat) =>
    let o := g.padOffset w l
    if aligned && o % n != 0 then some (l, 0x15, o) else if size < o + n then some (l, 0x08, o) else none
  let of := fun (team m : Nat) =>
    Sum.inl { team := team, member := m
              ready := (lanes.filter (fun l => (check l).isNone)).map (fun l => (l, g.padOffset w l))
              failed := lanes.filterMap check : PadRoute }
  match s.padTarget g w lanes with
  | .own => of g.team (s.teamOf g).member
  | .member m => of (s.memberTeam g m) m
  | .trap c a => .inr { code := c, faddr := BitVec.ofNat 64 a, lanes := maskOf lanes }

/-- The effective address that the log and the signature use of a scratchpad access: the member, where the operand names
one, above the offset. -/
def PadRoute.effective (r : PadRoute) (w : Slot) (off : Nat) : Nat := if memRmt w then r.member * 2 ^ 56 + off else off

/-- The bytes of a team's scratchpad. -/
def State.padBytes (s : State) (team off n : Nat) : List Byte :=
  match s.team team with
  | some t => (List.range n).map (fun i => Tab.read 0 t.scratch (off + i))
  | none => List.replicate n 0

/-- A scratchpad access meets a poisoned line (R120). -/
def State.padPoisoned (s : State) (team off n : Nat) : Bool :=
  match s.team team with
  | some t => (linesOf off n).any t.poison.contains
  | none => false

/-- Write bytes to a team's scratchpad; a line written whole loses its poison (R120). -/
def State.writePad (s : State) (team : Nat) (ws : Writes) : State :=
  s.modTeam team (fun t => { t with
    scratch := ws.foldl (fun m p => Tab.write 0 m p.1 p.2) t.scratch
    poison := t.poison.filter (fun l => !coversLine l ws) })

/-- A write of another member to the scratchpad of a check's original perturbs the check (R353). -/
def State.perturbPad (s : State) (team : Nat) : State :=
  match s.team team with
  | some { run := some (c, 0), .. } => s.modCheck c (fun x => { x with perturbed := x.perturbed || x.live })
  | _ => s

/-- Take the traps of the lanes of a scratchpad access, the others performing. -/
def PadRoute.run (r : PadRoute) (s : State) : Result := if r.failed.isEmpty then .done s else .trap s (laneTrap r.failed)

/-- The fault of a scratchpad access that meets a poisoned line, with that line's offset (R120, R370). -/
def State.padFault (s : State) (team off n : Nat) : Option (Nat × Nat) :=
  match s.team team with
  | some t => ((linesOf off n).find? t.poison.contains).map (fun l => (0x20, l * 128))
  | none => none

/-- What the lanes of a scratchpad load read, or the first poisoned line. -/
def State.readPad (s : State) (r : PadRoute) (n : Nat) : List (Nat × List Byte) × Option (Nat × Nat) :=
  (r.ready.map (fun p => (p.1, s.padBytes r.team p.2 n)), r.ready.findSome? (fun p => s.padFault r.team p.2 n))

/-- Some lane performs the instruction, or none has failed. -/
def PadRoute.acts (r : PadRoute) : Bool := r.failed.isEmpty || !r.ready.isEmpty

/-- LDP (R267, R296). -/
def execLdp (w : Slot) (s : State) : Out :=
  issue (loadForm w (bitsSC ||| bitsIX ||| bitsSZ ||| bitsACQ ||| bitsSCOPE ||| bitsRMT) |> fun f => { f with hint := true })
    (loadOk w) noMore w s (fun k g =>
    let n := accessSize w
    let d := w.d0.vecIndex
    match s.routePad g w n false with
    | .inr c => .trap s c
    | .inl r =>
      if !r.acts then r.run s
      else
        let who := g.who k
        let s1 := if memAcq w then s.acquire who (memScope w) else s
        let lanes := r.ready.map Prod.fst
        let depart := fun (a : State) (vs : List (Nat × List Byte)) (f : Option (Nat × Nat)) =>
          r.run (a.departLoad k w (vecDests d (valueRegs w)) ((vs.map (fun v => loadWrites w d v.1 v.2)).flatten) f)
        let addr := fun (l : Nat) => BitVec.ofNat 64 (r.effective w (g.padOffset w l))
        if !memRmt w then depart s1 (s1.readPad r n).1 (s1.readPad r n).2
        else
          let s2 := s1.foldLanes who 0x282 lanes addr (fun _ => 0) (fun l => BitVec.ofNat 64 (wrapInt (g.laneIndex w l) 64))
            (w.imm.zeroExtend 64)
          match s2.partOf who with
          | .later c run =>
            (match s2.readLog c run k g 0x282 (maskOf lanes) (lanes.map addr) with
            | (some e, s3) =>
              depart s3 ((splitLog e.values (lanes.map (fun l => (l, [n])))).map (fun v => (v.1, v.2.flatten))) e.fault
            | (none, s3) => s3.differs k g)
          | _ =>
            let x := s2.readPad r n
            let s3 := s2.logFor who g.gid { op := 0x282, lanes := maskOf lanes, operands := lanes.map addr
                                            values := (x.1.map (fun v => logWords v.2)).flatten, fault := x.2 }
            depart s3 x.1 x.2)

/-- STP (R267, R296, R348, R353). -/
def execStp (w : Slot) (s : State) : Out :=
  issue (storeForm w (bitsSC ||| bitsIX ||| bitsSZ ||| bitsREL ||| bitsSCOPE ||| bitsRMT)) (storeOk w) noMore w s
    (fun k g => s.storeForm k g w (fun s =>
      let n := accessSize w
      match s.routePad g w n false with
      | .inr c => .trap s c
      | .inl r =>
        let who := g.who k
        let datum := fun (l : Nat) => s.storeValue g w l n
        let ws : Writes := (r.ready.map (fun p => atAddr p.2 (datum p.1))).flatten
        if !memRmt w then r.run (s.writePad r.team ws)
        else
          let s0 := r.ready.foldl (fun a p => a.signBytes who 2 (r.effective w p.2) (datum p.1)) s
          let s1 := s0.compareEffect who { gid := g.gid, op := 0x283, operands := r.ready.flatMap (fun p =>
            [BitVec.ofNat 64 (r.effective w p.2), bytesWord (datum p.1)]) }
          match s1.partOf who with
          | .later _ _ => r.run s1
          | _ =>
            let s2 := s1.writePad r.team ws
            r.run (if r.team != g.team && !ws.isEmpty then s2.perturbPad r.team else s2)))

/-! ## Atomics (R268, R269) -/

/-- The TYs of an atomic operation (R268). -/
def atomTys (opc : Nat) : List Ty := if opc ≤ 2 then [.u32, .s32, .u64, .s64, .f32] else [.b32, .b64]

/-- The new value of an atomic (R268). -/
def atomNew (ty : Ty) (opc old y cmp : Nat) : Nat :=
  let n := opWidth ty
  let x := if ty.signed then signedOf old n else (old : Nat)
  let z := if ty.signed then signedOf y n else (y : Nat)
  if ty = .f32 then
    if opc = 0 then (round fp32 .rne ((decodeFloat fp32 old).add false (decodeFloat fp32 y)).1).code
    else if opc = 1 then fminNum fp32 old y else fmaxNum fp32 old y
  else if opc = 0 then wrapInt (x + z) n
  else if opc = 1 then wrapInt (min x z) n
  else if opc = 2 then wrapInt (max x z) n
  else if opc = 3 then old &&& y
  else if opc = 4 then old ||| y
  else if opc = 5 then old ^^^ y
  else if opc = 6 then y
  else if old = cmp then y else old

/-- y of a lane at the TY's width. -/
def State.atomOperand (s : State) (g : Group) (w : Slot) (l : Nat) : Nat :=
  match w.b with
  | .vec r => if w.ty.wide then (g.v64 r.toNat l).toNat else (g.v r.toNat l).toNat
  | o => (s.scalarSource g w o).toNat % 2 ^ opWidth w.ty

/-- The comparand of .cas: lane l's incoming value of D0. -/
def Group.comparand (g : Group) (w : Slot) (l : Nat) : Nat :=
  if w.ty.wide then (g.v64 w.d0.vecIndex l).toNat else (g.v w.d0.vecIndex l).toNat

/-- The form of ATOM and SATOM. -/
def atomForm (w : Slot) (mods : BitVec 28) : Form :=
  { tys := atomTys (memOpc w), d0 := if memNr w then .unused else .vecReg, a := .scalarReg, b := .storeValue, c := .index
    mod := mods, long := !memNr w, lanes := true, hint := true, immOwn := true
    nc := some (if memIX w = 2 then 2 else 1), anyIndex := true }

/-- The encoding rules of atomics. -/
def atomOk (w : Slot) : Group → Bool := fun _ =>
  scopeOk w && indexOk w && decide (memOpc w ≤ 7) && !(memNr w && decide (memOpc w = 7)) &&
  decide (w.d0.vecIndex % elemRegs w = 0) && decide (w.b.vecIndex % elemRegs w = 0)

/-- The MOD bits of ATOM. -/
def atomMods : BitVec 28 := bitsSC ||| bitsIX ||| bitsACQ ||| bitsREL ||| bitsSCOPE ||| bitsOPC ||| bitsNR

/-- The register writes that return `old` to a lane. -/
def atomWrites (w : Slot) (l old : Nat) : List RegWrite :=
  let r := w.d0.vecIndex
  if w.ty.wide then [.vec r l (BitVec.ofNat 32 old), .vec (r + 1) l (BitVec.ofNat 32 (old / 2 ^ 32))]
  else [.vec r l (BitVec.ofNat 32 old)]

/-- What the lanes of an atomic returned, and its first fault of a reply. -/
structure AtomDone where
  olds : List (Nat × Nat)
  fault : Option (Nat × Nat)
  state : State

/-- One lane of an ATOM at its line's home (R120, R269): the die's buffer drains the line, the home gathers the tokens,
and the new value is committed. -/
def State.atomLane (s : State) (who : Who) (origin : Option Nat) (w : Slot) (l : Nat) (p : Piece) (y cmp : Nat) : AtomDone :=
  let n := opWidth w.ty / 8
  let line := lineNo p.pa
  let s0 := s.drainLine (coreDie who.core) line
  if region p.pa = .management || s0.errorReply p.pa then { olds := [], fault := some (0x21, p.va), state := s0.countError p.pa }
  else if s0.poisoned line then { olds := [], fault := some (0x20, p.va / 128 * 128), state := s0 }
  else
    let old := leNat ((List.range n).map (fun i => s0.homeByte (p.pa + i)))
    let s1 := (s0.tokenHome p.pa).commit origin (atAddr p.pa (leBytes n (atomNew w.ty (memOpc w) old y cmp)))
    { olds := [(l, old)], fault := none, state := s1.dropLines [line] (fun k => k = who.core) }

/-- The lanes one after another, in ascending order (R268). -/
def State.atomLanes (s : State) (who : Who) (origin : Option Nat) (g : Group) (w : Slot) (rs : List Ready) : AtomDone :=
  rs.foldl (fun (a : AtomDone) r =>
    match r.accesses.flatten with
    | p :: _ =>
      let x := a.state.atomLane who origin w r.lane p (a.state.atomOperand g w r.lane) (g.comparand w r.lane)
      { olds := a.olds ++ x.olds, fault := firstFault a.fault x.fault, state := x.state }
    | [] => a) { olds := [], fault := none, state := s }

/-- An atomic that has been performed: a returning one departs; of a .nr one, a reply's fault is kept as a refusal (R120,
R264, R386). -/
def State.atomFinish (s : State) (k : Nat) (w : Slot) (olds : List (Nat × Nat)) (fault : Option (Nat × Nat)) : State :=
  if memNr w then match fault with
    | some f => s.refuse k (replyCause f)
    | none => s
  else s.departLoad k w (vecDests w.d0.vecIndex (elemRegs w)) ((olds.map (fun o => atomWrites w o.1 o.2)).flatten) fault

/-- The operands of an atomic: the addresses of its lanes and their values. -/
def State.atomOperands (s : State) (g : Group) (w : Slot) (lanes : List Nat) (addr : Nat → Nat) : List Word :=
  lanes.map (fun l => BitVec.ofNat 64 (addr l)) ++ lanes.map (fun l => BitVec.ofNat 64 (s.atomOperand g w l))

/-- Both runs of a check fold an atomic's operands; a .nr one is a suppressed write besides (R296, R348). -/
def State.atomFold (s : State) (who : Who) (g : Group) (w : Slot) (op : Nat) (lanes : List Nat) (addr : Nat → Nat) : State :=
  let atomOperands := s.atomOperands g w lanes addr
  let s1 := s.foldLanes who op lanes (fun l => BitVec.ofNat 64 (addr l)) (fun l => BitVec.ofNat 64 (s.atomOperand g w l))
    (fun l => BitVec.ofNat 64 (wrapInt (g.laneIndex w l) 64)) (w.imm.zeroExtend 64)
  if memNr w then
    let s2 := lanes.foldl (fun a l => a.signBytes who 2 (addr l) (leBytes (opWidth w.ty / 8) (s.atomOperand g w l))) s1
    s2.compareEffect who { gid := g.gid, op := op, operands := atomOperands }
  else s1

/-- An atomic that other parties affect, in the original, a later run or no check: fold, log, perform or take from the
log (R296, R350). -/
def State.atomLogged (s : State) (k : Nat) (g : Group) (w : Slot) (op : Nat) (lanes : List Nat) (addr : Nat → Nat)
    (perform : State → Option Nat → AtomDone) : State :=
  let who := g.who k
  match s.partOf who with
  | .plain =>
    let x := perform s none
    x.state.atomFinish k w x.olds x.fault
  | .original c =>
    let x := perform (s.atomFold who g w op lanes addr) (some c)
    let values := if memNr w then [] else lanes.map (fun l => BitVec.ofNat 64 (((x.olds.find? (fun o => o.1 = l)).map Prod.snd).getD 0))
    let s1 := if memNr w then x.state else x.state.logFor who g.gid
      { op := op, lanes := maskOf lanes, values := values, fault := x.fault, operands := s.atomOperands g w lanes addr }
    s1.atomFinish k w x.olds x.fault
  | .later c run =>
    let s1 := s.atomFold who g w op lanes addr
    if memNr w then s1
    else match s1.readLog c run k g op (maskOf lanes) (s.atomOperands g w lanes addr) with
      | (some e, s2) => s2.atomFinish k w ((List.zip lanes e.values).map (fun p => (p.1, p.2.toNat))) e.fault
      | (none, s2) => s2.stopRun k 0x31 g.pc

/-- The order forms of an atomic: release before it, acquire with it (R105). -/
def State.ordered (s : State) (k : Nat) (g : Group) (w : Slot) (r : State → Result) : Result :=
  s.storeForm k g w (fun a => r (if memAcq w then a.acquire (g.who k) (memScope w) else a))

/-- The halves that an ATOM writes and the host holds: the home snoops them before it computes (R118, R269). A later run of a
check takes its results from the log. -/
def State.hostHalves (s : State) (who : Who) (r : Routed) : List Nat :=
  match s.partOf who with
  | .later _ _ => []
  | _ => ((r.ready.flatMap (fun x => x.accesses.flatten.map (fun p => halfOf p.pa))).eraseDups).filter
      (fun h => Tab.read false s.hostHeld h)

/-- ATOM (R268, R269, R296). -/
def execAtom (w : Slot) (s : State) : Out :=
  issue (atomForm w atomMods) (atomOk w) noMore w s (fun k g => s.ordered k g w (fun s =>
    let n := opWidth w.ty / 8
    let early := fun (l : Nat) =>
      let a := g.laneAddress w l
      if a % n != 0 then some (0x15, a)
      else match s.routeOne (g.who k) g.walkFaults .read .any a n with
        | .fault c f => some (c, f)
        | _ => none
    let r := s.routeLanes g k .write .ordinary (lanesOf (g.lanes w) g.width) early (fun l => [(g.laneAddress w l, n)])
    let halves := s.hostHalves (g.who k) r
    if r.needs.isEmpty && !halves.isEmpty then .stay (halves.foldl (fun a h => a.snoopWrite h []) s)
    else r.run s (fun ready =>
      if !r.acts then s
      else s.atomLogged k g w 0x286 (ready.map Ready.lane) (g.laneAddress w) (fun a o => a.atomLanes (g.who k) o g w ready))))

/-- One lane of a SATOM (R120, R268). -/
def State.satomLane (s : State) (g : Group) (w : Slot) (team l off : Nat) : AtomDone :=
  let n := opWidth w.ty / 8
  if s.padPoisoned team off n then { olds := [], fault := s.padFault team off n, state := s }
  else
    let old := leNat (s.padBytes team off n)
    { olds := [(l, old)], fault := none
      state := s.writePad team (atAddr off (leBytes n (atomNew w.ty (memOpc w) old (s.atomOperand g w l) (g.comparand w l)))) }

/-- SATOM (R267, R268, R296). -/
def execSatom (w : Slot) (s : State) : Out :=
  issue (atomForm w (atomMods ||| bitsRMT)) (fun g => atomOk w g && decide (w.hint = 0)) noMore w s (fun k g => s.ordered k g w (fun s =>
    match s.routePad g w (opWidth w.ty / 8) true with
    | .inr c => .trap s c
    | .inl r =>
      if !r.acts then r.run s
      else
        let perform := fun (a : State) (_ : Option Nat) => r.ready.foldl (fun (d : AtomDone) p =>
          let x := d.state.satomLane g w r.team p.1 p.2
          { olds := d.olds ++ x.olds, fault := firstFault d.fault x.fault, state := x.state })
          { olds := [], fault := none, state := a }
        if memRmt w then
          r.run (s.atomLogged k g w 0x287 (r.ready.map Prod.fst) (fun l => r.effective w (g.padOffset w l)) perform)
        else
          let x := perform s none
          r.run (x.state.atomFinish k w x.olds x.fault)))

/-! ## Slice expansion (R277) -/

/-- The two elements of register r of a lane, from the chunk bytes: code of element e and the scale of its chunk. -/
def expandPair (d : BitVec 64) (byte scale : Nat) : BitVec 32 :=
  let v := fun (code : Nat) => (round bf16 .rne (decodeScaled d code scale false .one)).code
  BitVec.ofNat 32 (v (byte % 16) + v (byte / 16) * 65536)

/-- LDSX's element bytes: for register r of lane l, the byte with its two codes and the scale byte of its chunk (R78). -/
def Group.chunkAccesses (g : Group) (w : Slot) (l r : Nat) : List (Nat × Nat) :=
  let e := 2 * (r * g.width + l)
  let chunk := (g.oneAddress w + 17 * (e / 32)) % 2 ^ 64
  [((chunk + e % 32 / 2) % 2 ^ 64, 1), ((chunk + 16) % 2 ^ 64, 1)]

/-- The slot that LDSX names holds MX32 E2M1 with inline scales (R277). -/
def expandable (d : BitVec 64) : Bool :=
  slotV d && decide (slotEfmt d = 8) && decide (slotGeom d = 3) && !slotPlace d

/-- LDSX (R277). -/
def execLdsx (w : Slot) (s : State) : Out :=
  issue { blockForm w (bitsSC ||| bitsCNT ||| bitsSLOT) with d0 := .vecReg, long := true, tys := [.bf16x2] }
    (fun g => decide (memCnt w ≤ 2) && expandable (s.slotDesc g (memSlot w))) noMore w s (fun k g =>
      let d := w.d0.vecIndex
      let desc := s.slotDesc g (memSlot w)
      let place := fun (l : Nat) (vs : List (List Byte)) => (List.range (memCount w)).map (fun r =>
        RegWrite.vec (d + r) l (expandPair desc (leNat (nth [] vs (2 * r))) (leNat (nth [] vs (2 * r + 1)))))
      s.loadLanes k g w 0x28E (vecDests d (memCount w))
        (fun l => ((List.range (memCount w)).map (g.chunkAccesses w l)).flatten) place)

/-! ## Fences, prefetch, flush (R274 to R276) -/

/-- FENCE (R105, R106, R115, R274, R386): release first, then acquire; after a releasing FENCE the group's stores and atomics are
releases at its scope. -/
def execFence (w : Slot) (s : State) : Out :=
  issue { mod := bitsACQ ||| bitsREL ||| bitsSCOPE } (fun _ => (memAcq w || memRel w) && scopeOk w) noMore w s (fun k g =>
    let acq := fun (a : State) => if memAcq w then a.acquire (g.who k) (memScope w) else a
    if memRel w then
      s.releaseThen k g (memScope w) (fun a =>
        .done ((acq a).modGroup k (fun x => { x with fenced := x.releaseScope true (memScope w) })))
    else s.releasing k g (.done (acq s)))

/-- Where a lane of a PREF lies: only when the translation is held, or its walk would end in one, with permission to read,
and the page's kind lets a core store hold the line. No fault is raised, and no A or D is set (R148, R275). -/
def State.prefetchAt (s : State) (who : Who) (va : Nat) : Option Nat :=
  match s.aheadEntry who [] va .read with
  | some e => if e.kind = 0 || s.errorReply (e.phys va) then none else some (e.phys va)
  | none => none

/-- Bring one line into the core store: a copy that the core already holds may stay as it is, as a free choice (R114). -/
def State.prefetch (s : State) (who : Who) (va : Nat) : State :=
  match s.prefetchAt who va with
  | none => s
  | some pa =>
    let line := lineNo pa
    if !s.storable line || s.tokensRefused who.core false [line] then s
    else
      let halves := if region pa = .host then [halfOf pa] else [line * 2, line * 2 + 1]
      let (stale, s1) := if remote who.core pa then s.staleHalves who halves else ([], s)
      (s1.cacheLine who stale halves line).agentRead stale pa 1

/-- PREF (R148, R275): it changes no architectural state; the lines come into the core store. -/
def execPref (w : Slot) (s : State) : Out :=
  issue { a := .scalarReg, c := .index, mod := bitsSC ||| bitsIX, lanes := true, hint := true, immOwn := true
          nc := some (if memIX w = 2 then 2 else 1), anyIndex := true } (fun _ => indexOk w) noMore w s (fun k g => .done ((lanesOf (g.lanes w) g.width).foldl (fun a l => a.prefetch (g.who k) (g.laneAddress w l)) s))

/-- The range of a CFLUSH rounded outward to lines, cut at 64 KiB: start and end of each part. -/
def flushParts (a b : Nat) : List (Nat × Nat) :=
  if b = 0 then []
  else
    let lo := a / 128 * 128
    let hi := ceilDiv (a + b) 128 * 128
    (List.range (ceilDiv hi 65536 - lo / 65536)).map (fun i =>
      let page := lo / 65536 * 65536 + i * 65536
      (max lo page, min hi (page + 65536)))

/-- The host-line agent's state of a half after a flush: a modified half is written back, and its clean copy stays in S or in
E, which is left open (log 71), or is dropped by .inv (R117, R276). -/
def State.flushHalf (s : State) (inv : Bool) (half : Nat) : State :=
  if inv then { s with agent := Tab.write .invalid s.agent half .invalid }
  else if Tab.read .invalid s.agent half = .modified then
    let (b, s1) := s.freeBool
    { s1 with agent := Tab.write .invalid s1.agent half (if b then .exclusive else .shared) }
  else s

/-- Write back the dirty lines of a physical range: buffered stores arrive, owners' data are clean, and modified halves of
host memory go back to it; .inv drops every copy besides (R117, R119, R276). Vault lines and held versions are not touched. -/
def State.flushLines (s : State) (pa len : Nat) (inv : Bool) : State :=
  match region pa with
  | .vault _ _ => s
  | .management => s
  | _ =>
    let lines := linesOf pa len
    let s1 := [0, 1, 2, 3, 4].foldl (fun a d => a.drainWhere d lines.contains) s
    let clean := fun (a : State) (l : Nat) =>
      let t := a.lineTokens l
      if inv then a.setTokens l t.home else a.setTokens l { t with clean := none }
    let s2 := lines.foldl clean s1
    let s3 := if region pa = .host then (halvesOf pa len).foldl (fun a h => a.flushHalf inv h) s2 else s2
    if inv then
      lines.foldl (fun a l => { (a.dropLine l) with replicas := a.replicas.filter (fun p => p.1 / 4 != l) }) s3
    else s3

/-- A CFLUSH covers a page when its walk ends in a translation and the entry grants R or W (R143, R276). -/
def State.flushable (s : State) (who : Who) (e : TlbEntry) (va : Nat) : Bool :=
  (s.permission who e va (if e.read then .read else .write)).isNone

/-- The page that a CFLUSH meets at an address: where it lies, if it covers the page; a page that no entry maps counts as one
of 64 KiB. The size says where the next page begins. A page entry that the walk loads gets its A (R144). -/
def State.flushPage (s : State) (who : Who) (va : Nat) : Option TlbEntry × Nat × State :=
  let give := fun (e : TlbEntry) (a : State) => (if s.flushable who e va then some e else none, e.size, a)
  if s.identityMapped who then give (identityEntry va) s
  else match s.heldEntry who va with
    | some e => give e s
    | none =>
      match s.walk who.ctx va with
      | .page at_ x size => give (entryOf who.ctx va x size) (s.setEntry at_ x (touched x))
      | .error at_ => (none, 65536, s.countError at_)
      | _ => (none, 65536, s)

/-- The parts of a CFLUSH one by one, with the number of pages skipped (R276). -/
def State.flushAll (s : State) (who : Who) (inv : Bool) (first : Nat) (parts : List (Nat × Nat)) : State × Nat :=
  parts.foldl (fun (a : State × Nat) p =>
    match a.1.flushPage who p.1 with
    | (some e, _, s1) => (s1.flushLines (e.phys p.1) (p.2 - p.1) inv, a.2)
    | (none, size, s1) => (s1, if p.1 % size = 0 || p.1 = first then a.2 + 1 else a.2)) (s, 0)

/-- CFLUSH (R128, R276). DESIGN CHOICE (log 99): an address at or above 2^57 faults also where b is 0. -/
def execCflush (w : Slot) (s : State) : Out :=
  issue { d0 := .scalarReg, a := .scalarReg, b := .scalarOrImm, mod := bitsOPC, long := true } (fun _ => decide (memOpc w ≤ 1))
    noMore w s (fun k g =>
      let a := (g.s w.a.scalarIndex).toNat
      let b := (s.scalarSource g w w.b).toNat
      if 2 ^ 57 ≤ a then .trap s (trapAll g 0x10 (BitVec.ofNat 64 a))
      else if 2 ^ 57 < a + b then .trap s (trapAll g 0x10 (BitVec.ofNat 64 (2 ^ 57)))
      else
        let d := w.d0.scalarIndex
        let (s1, n) := s.flushAll (g.who k) (memOpc w = 1) (a / 128 * 128) (flushParts a b)
        .done (s1.modGroup k (fun x =>
          x.depart w [.scalar d] [.scalar d (BitVec.ofNat 64 n)] 0 none .flush)))

end Sys2Proof.Machine
end

