-- ==== Sys2Proof/Machine/Append.lean ====
section
/-!
DEFINITION. Append pages (R130 to R135): APND, APST, SEAL (R270 to R273), and the events that complete them.
-/

namespace Sys2Proof.Machine

open Sys2Proof

/-! ## The page of an append instruction -/

/-- sA + off (R270). -/
def Group.pageAddress (g : Group) (w : Slot) : Nat :=
  wrapInt ((g.s w.a.scalarIndex).toNat + signedOf w.imm.toNat 32) 64

/-- The AP page that holds an address (R270, R272, R273). -/
inductive PageRoute where
  | page (e : TlbEntry)
  | miss (needs : List (Nat × AccessKind))
  | fault (code : Nat)

/-- Translate to an AP page with the permission (R134). -/
def State.routePage (s : State) (who : Who) (known : List (Nat × AccessKind × Nat)) (kind : AccessKind) (va : Nat) :
    PageRoute :=
  match s.translate who known va kind with
  | .miss => .miss [(va, kind)]
  | .fault c => .fault c
  | .ok e => if e.kind = 3 then .page e else .fault 0x16

/-- The descriptor of a page, made at the first access (R130). -/
def State.descriptor (s : State) (e : TlbEntry) : AppendDesc := (Tab.find s.appends e.pa).getD { size := e.size }

/-- Two results in D0 and D1. -/
def pairWrites2 (w : Slot) (x y : Word) : List RegWrite := [.scalar w.d0.scalarIndex x, .scalar w.d1.scalarIndex y]

/-! ## APND -/

/-- Registers of B that APND takes. -/
def appendRegs (w : Slot) : Nat := memCount w * elemRegs w

/-- Bytes that each active lane contributes. -/
def appendBytes (w : Slot) : Nat := appendRegs w * 4

/-- The rank of a lane among the active lanes (R270). -/
def rankOf (lanes : List Nat) (l : Nat) : Nat := (lanes.takeWhile (fun x => x != l)).length

/-- The bytes of an APND in the order of the reservation (R270). -/
def Group.appendData (g : Group) (w : Slot) (lanes : List Nat) : List Byte :=
  (lanes.map (g.regBytes w.b.vecIndex (appendRegs w))).flatten

/-- Every register write of an APND that got offset o. -/
def appendResults (w : Slot) (lanes : List Nat) (o : Nat) : List RegWrite :=
  RegWrite.scalar w.d1.scalarIndex (BitVec.ofNat 64 o) ::
  (match w.d0 with
   | .vec r => lanes.map (fun l => .vec r.toNat l (BitVec.ofNat 32 (o + rankOf lanes l * appendBytes w)))
   | _ => [])

/-- The register writes of a refused APND. -/
def appendRefused (w : Slot) (lanes : List Nat) : List RegWrite :=
  RegWrite.scalar w.d1.scalarIndex (BitVec.ofNat 64 (2 ^ 63)) ::
  (match w.d0 with
   | .vec r => lanes.map (fun l => .vec r.toNat l 0xFFFFFFFF#32)
   | _ => [])

/-- The destinations of an APND. -/
def appendDests (w : Slot) : List DestReg :=
  .scalar w.d1.scalarIndex :: (match w.d0 with
    | .vec r => [.vec r.toNat]
    | _ => [])

/-- Reserve a range at the reserved tail (R131). -/
def State.reserve (s : State) (e : TlbEntry) (len : Nat) (check : Option Nat) : State :=
  let d := s.descriptor e
  { s with appends := Tab.insert s.appends e.pa { d with
      reserved := d.reserved + len
      open_ := d.open_ ++ [{ offset := d.reserved, len := len, written := false, check := check, owner := check }] } }

/-- A run folds the records of appended bytes, of which every lane contributes `each`: one for each lane and each unit (R270,
R348). -/
def State.signLanes (s : State) (who : Who) (va each : Nat) (bs : List Byte) : State :=
  (List.range (bs.length / each)).foldl (fun a i => a.signBytes who 1 (va + i * each) ((bs.drop (i * each)).take each)) s

/-- The run of a check keeps appended bytes, and the store signature takes them lane by lane (R131, R296, R348). -/
def State.holdAppend (s : State) (who : Who) (c r : Nat) (e : TlbEntry) (o each : Nat) (bs : List Byte) : State :=
  let s1 := s.signLanes who (e.va + o) each bs
  s1.modRun c r (fun x => { x with appends := x.appends ++ [(e.pa, o, bs)] })

/-- The home answers an APND: a deferred fault, a refusal, or an offset (R131, R134, R270). -/
inductive AppendAnswer where
  | fault (code va : Nat)
  | refused
  | at_ (o : Nat)

/-- The answer to a reservation of `len` bytes. -/
def State.appendAnswer (s : State) (e : TlbEntry) (va len : Nat) : AppendAnswer :=
  let d := s.descriptor e
  if s.errorReply e.pa then .fault 0x21 va
  else if d.sealed || d.arrived then .fault 0x19 va
  else if d.size < d.reserved + len then .refused
  else .at_ d.reserved

/-- The register writes of an answered APND: D1's, then D0's lane by lane (R270). -/
def AppendAnswer.writes (w : Slot) (lanes : List Nat) : AppendAnswer → List RegWrite
  | .at_ o => appendResults w lanes o
  | .refused => appendRefused w lanes
  | .fault _ _ => []

/-- The answer as it stands in a log: a record for the value of D1, and one for that of each active lane of a vector D0 (R350;
log 109). -/
def AppendAnswer.values (w : Slot) (lanes : List Nat) (ans : AppendAnswer) : List Word :=
  (ans.writes w lanes).map RegWrite.word

/-- The answer that a log entry gives. -/
def answerOf (e : LogEntry) : AppendAnswer :=
  match e.fault, e.values with
  | some (c, a), _ => .fault c a
  | none, v :: _ => if v.getLsbD 63 then .refused else .at_ v.toNat
  | none, [] => .refused

/-- The fault of an answer. -/
def AppendAnswer.fault? : AppendAnswer → Option (Nat × Nat)
  | .fault c a => some (c, a)
  | _ => none

/-- Put an answered APND in flight. -/
def State.departAppend (s : State) (k : Nat) (w : Slot) (lanes : List Nat) (ans : AppendAnswer) (task : Task) : State :=
  s.modGroup k (fun g => g.depart w (appendDests w) (ans.writes w lanes) 0 (ans.fault?.map replyCause) task)

/-- APND at its page (R131, R270, R271, R296). -/
def State.append (s : State) (k : Nat) (g : Group) (w : Slot) (lanes : List Nat) (e : TlbEntry) (va : Nat) : State :=
  let who := g.who k
  let bs := g.appendData w lanes
  let mask := maskOf lanes
  match s.partOf who with
  | .later c r =>
    (match s.readLog c r k g 0x288 mask [BitVec.ofNat 64 va] with
    | (some i, s1) =>
      let ans := answerOf i
      let s2 := match ans with
        | .at_ o => (s1.takeFresh c r (linesOf (e.pa + o) bs.length)).holdAppend who c r e o (appendBytes w) bs
        | _ => s1
      s2.departAppend k w lanes ans .plain
    | (none, s1) => s1.stopRun k 0x31 g.pc)
  | _ =>
    let ans := s.appendAnswer e va bs.length
    let s1 := s.logFor who g.gid { op := 0x288, lanes := mask, operands := [BitVec.ofNat 64 va], values := ans.values w lanes
                                   fault := ans.fault? }
    match ans with
    | .at_ o =>
      let task := Task.append e.pa o
      let s2 := match s1.partOf who with
        | .original c => s1.takeFresh c 0 (linesOf (e.pa + o) bs.length)
        | _ => s1
      (match s2.partOf who with
      | .original c => ((s2.reserve e bs.length (some c)).holdAppend who c 0 e o (appendBytes w) bs).departAppend k w lanes ans task
      | _ => ((s2.reserve e bs.length none).homeEnter (atAddr (e.pa + o) bs)).departAppend k w lanes ans task)
    | _ => (s1.countError e.pa).departAppend k w lanes ans .plain

/-- APND (R270, R271). -/
def execApnd (w : Slot) (s : State) : Out :=
  issue { tys := [.b32, .b64], d0 := { vec := true, scalar := true }, d1 := .scalarReg, a := .scalarReg, b := .vecReg
          mod := bitsCNT, long := true, lanes := true, immOwn := true, n0 := some 1, nb := some (appendRegs w)
          anyIndex := true }
    (fun _ => decide (memCnt w ≤ 4) && decide (w.b.vecIndex % elemRegs w = 0) &&
      (isVecField w.d0 || decide (w.d0.scalarIndex = 0))) noMore w s (fun k g =>
      let lanes := lanesOf (g.lanes w) g.width
      let va := g.pageAddress w
      if lanes.isEmpty then
        .done (s.modGroup k (fun x => x.depart w (appendDests w) [.scalar w.d1.scalarIndex (BitVec.ofNat 64 (2 ^ 62))] 0 none .plain))
      else match s.routePage (g.who k) g.walkFaults .write va with
        | .miss needs => .park s needs
        | .fault c => .trap s { code := c, faddr := BitVec.ofNat 64 va, lanes := maskOf lanes }
        | .page e =>
          if e.sealed then .trap s { code := 0x19, faddr := BitVec.ofNat 64 va, lanes := maskOf lanes }
          else .done (s.append k g w lanes e va))

/-- APPEND_COMPLETE (R131, R132, R271): every byte of the reservation is accepted, and the published tail advances as far
as it can. -/
def execAppendComplete (frame offset : Nat) (s : State) : Out :=
  .next ((s.acceptReservation frame offset).publish frame)

/-- The reservation of an APND in flight has been accepted (R271). -/
def State.appendAccepted (s : State) (frame offset : Nat) : Bool :=
  match Tab.find s.appends frame with
  | some d => !d.open_.any (fun r => r.offset = offset && !r.written)
  | none => true

/-! ## APST -/

/-- What APST writes to D0 and D1 (R272). -/
def AppendDesc.status (d : AppendDesc) : Word × Word :=
  let low := if d.sealed then d.final else d.published
  (BitVec.ofNat 64 (low % 2 ^ 32 + 2 ^ 62 * natOf d.arrived + 2 ^ 63 * natOf d.sealed), BitVec.ofNat 64 (d.reserved % 2 ^ 32))

/-- The form of APST and SEAL. -/
def pageForm : Form := { d0 := .scalarReg, a := .scalarReg, long := true, immOwn := true }

/-- APST (R272, R296). -/
def execApst (w : Slot) (s : State) : Out :=
  issue { pageForm with d1 := .scalarReg } always noMore w s (fun k g =>
    let va := g.pageAddress w
    let who := g.who k
    match s.routePage who g.walkFaults .read va with
    | .miss needs => .park s needs
    | .fault c => .trap s (trapAll g c (BitVec.ofNat 64 va))
    | .page e =>
      let dests : List DestReg := [.scalar w.d0.scalarIndex, .scalar w.d1.scalarIndex]
      match s.partOf who with
      | .later c r =>
        (match s.readLog c r k g 0x289 0 [BitVec.ofNat 64 va] with
        | (some i, s1) => .done (s1.departLoad k w dests (pairWrites2 w (nth 0 i.values 0) (nth 0 i.values 1)) i.fault)
        | (none, s1) => s1.differs k g)
      | _ =>
        let (x, y) := (s.descriptor e).status
        let fault := if s.errorReply e.pa then some (0x21, va) else none
        let s1 := (s.ensureAppend e.pa e.size (g.ctx, e.va)).countError e.pa
        let s2 := s1.logFor who g.gid { op := 0x289, lanes := 0, operands := [BitVec.ofNat 64 va], values := [x, y], fault := fault }
        .done (s2.departLoad k w dests (pairWrites2 w x y) fault))

/-! ## SEAL -/

/-- SEAL (R135, R273, R296, R351). -/
def execSeal (w : Slot) (s : State) : Out :=
  issue pageForm always noMore w s (fun k g =>
    let va := g.pageAddress w
    let who := g.who k
    let d := w.d0.scalarIndex
    match s.routePage who g.walkFaults .write va with
    | .miss needs => .park s needs
    | .fault c => .trap s (trapAll g c (BitVec.ofNat 64 va))
    | .page e =>
      let s0 := s.ensureAppend e.pa e.size (g.ctx, e.va)
      match s0.runOf who with
      | some (c, r) =>
        let s1 := s0.foldOnce who 0x28A (BitVec.ofNat 64 va) 0 0 (w.imm.zeroExtend 64)
        let s2 := s1.modRun c r (fun x => { x with seals := if x.seals.contains e.pa then x.seals else x.seals ++ [e.pa] })
        let ones : Word := 0xFFFFFFFFFFFFFFFF#64
        let item : LogItem := { op := 0x28A, lanes := 0, operands := [BitVec.ofNat 64 va], values := [] }
        (match s2.partOf who with
        | .later c r =>
          (match s2.readLog c r k g 0x28A 0 [BitVec.ofNat 64 va] with
          | (some _, s3) => .done (s3.departLoad k w [.scalar d] [.scalar d ones] none)
          | (none, s3) => s3.differs k g)
        | _ => .done ((s2.logFor who g.gid item).departLoad k w [.scalar d] [.scalar d ones] none))
      | none =>
        if s0.errorReply e.pa then .done ((s0.countError e.pa).departLoad k w [.scalar d] [] (some (0x21, va)))
        else
          let x := s0.descriptor e
          if x.sealed then .done (s0.departLoad k w [.scalar d] [.scalar d (BitVec.ofNat 64 x.final)] none)
          else .done ((s0.sealArrive e.pa).modGroup k (fun y => y.depart w [.scalar d] [] 0 none (.seal e.pa (some d)))))

/-- SEAL_COMPLETE (R135). -/
def execSealComplete (frame : Nat) (s : State) : Out := .next (s.sealNow frame)

/-- The final length of a sealed page. -/
def State.sealedLength (s : State) (frame : Nat) : Option Nat :=
  match Tab.find s.appends frame with
  | some d => if d.sealed then some d.final else none
  | none => none

end Sys2Proof.Machine
end

