-- ==== Sys2Proof/Machine/System.lean ====
section
/-!
DEFINITION. System instructions (R209 to R224): special-register access, traps and return, mapping and freeing pages,
TLBI, HALTC and KLAUNCH.
-/

namespace Sys2Proof.Machine

open Sys2Proof

/-- The protection fault of R185 and R172, whose FADDR is 0. -/
def refusedUse (g : Group) : Cause := trapAll g 0x12 0

/-- PMAP, PFREE and TLBI are permitted in handler state and in system mode (R185). -/
def Group.mayMap (g : Group) : Bool := g.handler || g.system

/-! ## Special registers (R214, R215) -/

/-- A special-register field. -/
def Kinds.specialReg : Kinds := { special := true }

/-- The value that SRDS gives in one lane of a vector destination (R214). -/
def State.specialLane (s : State) (g : Group) (n word l : Nat) : Word :=
  match specialKind n with
  | .laneid => BitVec.ofNat 64 l
  | .qreg i => if (g.q i).getLsbD l then 1 else 0
  | _ => s.special g n word

/-- SRDS (R172, R185, R214). -/
def execSrds (w : Slot) (s : State) : Out :=
  let vec := isVecField w.d0
  let n := w.a.specialIndex
  issue { tys := if vec then [.b32, .b64] else [.b64], d0 := { vec := true, scalar := true }, a := .specialReg
          b := { scalar := true, imm := true, zero := true }, lanes := vec }
    (fun _ => vec || decide (n ≠ 0x40)) noMore w s (fun k g =>
      let word := (s.scalarSource g w w.b).toNat
      if n = 0x80 && !g.system then .trap s (refusedUse g)
      else if specialWords n ≤ word then .trap s (trapAll g 0x07 0)
      else if vec then
        .done (s.setGroup k ((lanesOf (g.lanes w) g.width).foldl (fun a l =>
          a.setLane w.ty w.d0.vecIndex l (s.specialLane g n word l).toNat) g))
      else .done (s.setGroup k (g.setS w.d0.scalarIndex (s.special g n word))))

/-- The SWRS column of R172. -/
def specialWritable (n : Nat) : Bool :=
  n < 7 || (0x11 ≤ n && n < 0x20) || n = 0x53 || n = 0x58 || n = 0x80

/-- The RW fields of %ptroot (R140). -/
def ptrootMask : Word := 0x000FFFFFFFFFFF05

/-- Write a special register (R215). -/
def State.setSpecial (s : State) (k : Nat) (g : Group) (n : Nat) (v : Word) : State :=
  if n = 0x80 then { s with ptroots := Tab.write 0 s.ptroots g.ctx (v &&& ptrootMask) }
  else if n = 0x53 then s.setGroup k { g with gtimer := v }
  else if n = 0x58 then s.setGroup k { g with fpstat := v.extractLsb' 0 7 }
  else if n < 8 then s.setGroup k (g.setC n (v.getLsbD 0))
  else s.setGroup k (g.setQ (n - 0x10) v)

/-- SWRS (R172, R185, R215). -/
def execSwrs (w : Slot) (s : State) : Out :=
  let n := w.d0.specialIndex
  issue { tys := [.b64], d0 := .specialReg, a := .scalarOrImm } (fun _ => specialWritable n) noMore w s (fun k g =>
    if n = 0x80 && !g.system then .trap s (refusedUse g)
    else .done (s.setSpecial k g n (s.scalarSource g w w.a)))

/-! ## Traps and return (R217, R218) -/

/-- The form of TRAP and DBRK: the code in IMM, IMM[31:16] zero. -/
def codeForm : Form := { boundary := true, immOwn := true }

/-- IMM[31:16] is zero. -/
def codeOk (w : Slot) : Group → Bool := fun _ => w.imm.extractLsb' 16 16 == 0

/-- A boundary that leads to another clause than the next one yields too: the group's next clause is then that of its handler, or
the one it returns to (R160). -/
def Group.yields (w : Slot) (g : Group) : Group := { g with yielded := w.yld }

/-- TRAP (R160, R217). -/
def execTrap (w : Slot) (s : State) : Out :=
  issue codeForm (codeOk w) noMore w s (fun k g => .trap (s.modGroup k (Group.yields w)) { trapAll g 0x0A 0 with arg := w.imm.toNat })

/-- The group's partition has its debug enable set (R427, R432). -/
def State.debugEnabled (s : State) (g : Group) : Bool :=
  match s.part g.ctx with
  | some p => p.debug
  | none => false

/-- DBRK stops a group for the debugger (R427): with the effect of trap entry, but without handler entry. -/
def State.debugStop (s : State) (k : Nat) (g : Group) : Result :=
  if g.trapMustWait then .stay s
  else
    let s1 := s.setGroup k { g.settleTrapRegs with debugStop := true }
    .moved ((s1.modHub (fun h => { h with stopped := h.stopped ++ [(k, g.pc)] })).raiseIrq 3)

/-- DBRK (R160, R217, R427). -/
def execDbrk (w : Slot) (s : State) : Out :=
  issue codeForm (codeOk w) noMore w s (fun k g =>
    if s.debugEnabled g then s.debugStop k g else .trap (s.modGroup k (Group.yields w)) { trapAll g 0x0B 0 with arg := w.imm.toNat })

/-- The price of a clause's slots that have not issued, the one it stands at included (R329). -/
def ClausePos.price (c : ClausePos) (width : Nat) : Nat := (c.rest.map (fun p => slotPrice p.2 width)).foldl (· + ·) 0

/-- The price of the instructions from the one at which the group stands to its clause's boundary (R329). -/
def Group.restPrice (g : Group) : Nat :=
  match g.clause with
  | some c => c.price g.width
  | none => 0

/-- What ERET draws before its run: the price from the trapping instruction to the boundary; nothing at an entry slot, whose
clause draws anew (R329, R376). -/
def Hidden.price (h : Hidden) (width : Nat) : Nat :=
  match h.resume with
  | .instruction c _ => c.price width
  | .entrySlot _ => 0

/-- The registers that ERET writes back (R159, R376). -/
def eretRegs : Group → List DestReg := fun _ => [.scalar 1, .scalar 2, .scalar 3]

/-- ERET (R160, R185, R218, R295, R329, R376). -/
def execEret (w : Slot) (s : State) : Out :=
  issue { boundary := true, mod := 1 } always eretRegs w s (fun k g =>
    match g.hidden with
    | some h =>
      if !g.handler then .trap s (refusedUse g)
      else
        let g1 := (g.returnFrom h s.now (w.mod.getLsbD 0)).yields w
        let price := h.price g.width
        if !s.drawable g.core price then .stay s
        else .moved (((s.setGroup k g1).drawPrice g.core g.ctx price).resumeEngines k)
    | none => .trap s (refusedUse g))

/-! ## Mapping pages (R219 to R221) -/

/-- What PMAP's walk meets: the entry's address and value, a missing table, or a format error. -/
inductive MapEntry where
  | entry (at_ e : Nat)
  | absent
  | format
  | error (at_ : Nat)

/-- An entry that PMAP's walk reads through a level (R141). -/
def State.levelRead (s : State) (node : Nat) (ns : Bool) (index : Nat) : MapEntry :=
  match s.levelEntry node ns index with
  | .inl a => if s.errorReply a then .error a else .entry a (s.entryAt a)
  | .inr (.invalid _ _ _) => .absent
  | .inr (.error a) => .error a
  | .inr _ => .format

/-- The entry of the 2 MiB level for an address (R140, R141). -/
def State.leafEntry (s : State) (ctx va : Nat) : MapEntry :=
  let root := (Tab.read 0 s.ptroots ctx).toNat
  let node := bits root 8 44 * 256
  let ns := bit root 2
  if !bit root 0 || node % nodeSize ns != 0 || !inHbm node (nodeSize ns) then .format
  else
    match s.levelRead node ns (bits va 39 18) with
    | .entry _ e1 =>
      if !pteV e1 then .absent
      else if !tableEntryOk e1 false (nodeSize (pteNS e1)) then .format
      else s.levelRead (pteNext e1) (pteNS e1) (bits va 21 18)
    | m => m

/-- A valid entry that the walk ends at is well formed; another is a format error (R143). -/
def leafOk (a e : Nat) : MapEntry :=
  if !pteV e || (if pteT e then tableEntryOk e true 256 else pageEntryOk e true) then .entry a e else .format

/-- PMAP's walk to the entry for the page of the given size (R141, R220). A valid 2 MiB page met where a 64 KiB page was asked for
is answered as an entry with V = 1: the MODEL's choice between two rows of the table (log 70). -/
def State.mapWalk (s : State) (ctx va : Nat) (big : Bool) : MapEntry :=
  match s.leafEntry ctx va with
  | .entry a e =>
    if big then leafOk a e
    else if !pteV e then .absent
    else if !pteT e then leafOk a e
    else if !tableEntryOk e true 256 then .format
    else
      let a3 := pteNext e + 8 * bits va 16 5
      let e3 := s.entryAt a3
      if s.errorReply a3 then .error a3
      else if !pteV e3 || pageEntryOk e3 false then .entry a3 e3 else .format
  | m => m

/-- The pool of a die for a context and a page size (R382). -/
def Die.pool (d : Die) (ctx : Nat) (big : Bool) : List Nat := Tab.read [] (if big then d.pool2m else d.pool64) ctx

/-- Change a pool. -/
def Die.setPool (d : Die) (ctx : Nat) (big : Bool) (l : List Nat) : Die :=
  if big then { d with pool2m := Tab.write [] d.pool2m ctx l } else { d with pool64 := Tab.write [] d.pool64 ctx l }

/-- The size of a page. -/
def pageBytes (big : Bool) : Nat := if big then 2097152 else 65536

/-- Fill a frame with zeros at its home: its tokens come home, no core store keeps a copy of it, halves that the host holds wait
for its answer, and watches and read sets meet the writes (R118, R220 to R222). DESIGN CHOICE (log 113): the writes are no team's, so
they may perturb the check of the team that mapped the page. -/
def State.zeroFrame (s : State) (pa len : Nat) : State :=
  let as := (List.range (len / 4)).map (fun i => pa + 4 * i)
  let inside := fun (a : Nat) => decide (pa ≤ a) && decide (a < pa + len)
  let s1 := s.zeroRange pa len
  let s2 := { s1 with
    cores := Tab.mapWith (fun _ c => { c with copies := c.copies.filter (fun p => !inside (p.1 * 64)) }) s1.cores }
  (s2.touchWatches as).perturb none as

/-- The bits of the attribute word that PMAP takes (R219): PS, KIND, R, W, X, CONF and HOME. -/
def attributeMask : Nat := 0xE2FC

/-- PMAP's walk that a silent die stops counts as an error reply of that die (R436). -/
def State.countWalk (s : State) (ctx va : Nat) (big : Bool) : State :=
  match s.mapWalk ctx va big with
  | .error a => s.countError a
  | _ => s

/-- The die that an attribute word names; none where its HOME is not allowed (R219). -/
def attributeDie (core attr : Nat) : Option Nat :=
  let h := pteHome attr
  if h < 4 then some h
  else if h = 7 && core < 576 then some (coreDie core)
  else none

/-- The entry that PMAP writes: V = 1 with the frame and the attributes (R220). -/
def mappedEntry (attr die frame : Nat) : Nat :=
  1 + (attr &&& 0x02FC) + die * 2 ^ 13 + frame / 65536 * 2 ^ 16

/-- PMAP's outcome: D0, D1 and the state after it; a CONF page is bound with its mapping (R220, R221, R412). DESIGN CHOICE (log 113):
the write of the entry is no team's. -/
def State.mapPage (s : State) (ctx die attr : Nat) (big : Bool) (a e : Nat) : Nat × Nat × State :=
  if pteV e then (e, 1, s)
  else if !pteFT e then (0, 3, s)
  else
    match (s.die die).pool ctx big with
    | [] => (0, 2, s)
    | frame :: rest =>
      let x := mappedEntry attr die frame
      let s1 := (s.modDie die (fun d => d.setPool ctx big rest)).zeroFrame frame (pageBytes big)
      let s2 := if bit attr 9 then s1.bindFrames ctx frame (pageBytes big) else s1
      (x, 0, s2.homeCommit none (atAddr a (leBytes 8 x)))

/-- PMAP (R185, R219 to R221). DESIGN CHOICE (log 95): an address with one of bits [63:57] set takes the address fault. -/
def execPmap (w : Slot) (s : State) : Out :=
  issue { d0 := .scalarReg, d1 := .scalarReg, a := .scalarSrc, b := .scalarSrc, long := true } always noMore w s
    (fun k g =>
      let va := (s.scalarSource g w w.a).toNat
      let attr := (s.scalarSource g w w.b).toNat
      if !g.mayMap then .trap s (refusedUse g)
      else if attr &&& attributeMask ≠ attr then .trap s (trapAll g 0x07 0)
      else match attributeDie g.core attr with
        | none => .trap s (trapAll g 0x07 0)
        | some die =>
          let big := ptePS attr
          if 2 ^ 57 ≤ va then .trap s (trapAll g 0x10 (BitVec.ofNat 64 va))
          else
            let out : Sum Nat (Nat × Nat × State) := match s.mapWalk g.ctx va big with
              | .format => .inl 0x13
              | .error _ => .inl 0x21
              | .absent => .inr (0, 4, s)
              | .entry a e => .inr (s.mapPage g.ctx die attr big a e)
            match out with
            | .inl code => .trap (s.countWalk g.ctx va big) (trapAll g code (BitVec.ofNat 64 va))
            | .inr (x, st, s1) =>
              .done (s1.modGroup k (fun y => y.depart w [.scalar w.d0.scalarIndex, .scalar w.d1.scalarIndex]
                (pairWrites2 w (BitVec.ofNat 64 x) (BitVec.ofNat 64 st)) 0 none .mapping)))

/-! ## Freeing frames (R138, R222) -/

/-- PFREE (R185, R222): the purge goes to every die, and the descriptor is discarded. -/
def execPfree (w : Slot) (s : State) : Out :=
  issue { a := .scalarReg, mod := 0x3, long := true } always noMore w s (fun k g =>
    let frame := (g.s w.a.scalarIndex).toNat
    let size := pageBytes (w.mod.getLsbD 0)
    if !g.mayMap then .trap s (refusedUse g)
    else if frame % size ≠ 0 || !inHbm frame size then .trap s (trapAll g 0x07 0)
    else
      let s1 := { s with appends := s.appends.filter (fun p => !(decide (frame ≤ p.1) && decide (p.1 < frame + size))), purges := Tab.insert s.purges frame [0, 1, 2, 3] }
      .done (s1.modGroup k (fun y => y.depart w [] [] 0 none (.purge frame size (w.mod.getLsbD 1)))))

/-! ## Invalidation (R146, R223) -/

/-- A die in the scope of an invalidation; key 4 is the hub die. -/
def scopeDies (scope : BitVec 3) (die d : Nat) : Bool := scope = 4 || d = die

/-- What holds when an invalidation is complete (R146): no TLB in scope holds a translation of the range, and the
remote-write buffers in scope hold no store to it. -/
def State.invalidate (s : State) (ctx : Option Nat) (va len : Nat) (scope : BitVec 3) (die : Nat) : State :=
  if len = 0 then s
  else
    let s1 := s.dropTranslations ctx va len (scopeDies scope die)
    ([0, 1, 2, 3, 4].filter (scopeDies scope die)).foldl State.drainAll s1

/-- TLBI (R146, R185, R223). -/
def execTlbi (w : Slot) (s : State) : Out :=
  let all := w.mod.getLsbD 0
  let scope := w.mod.extractLsb' 1 3
  let wait := w.mod.getLsbD 4
  let named := w.mod.getLsbD 5
  let range : Kinds := if all then .unused else .scalarSrc
  issue { a := range, b := range, c := (if named then .scalarSrc else .unused), mod := 0x3F, long := wait }
    (fun g => (scope = 3 || scope = 4) && (!named || g.system)) noMore w s (fun k g =>
      let ctx := if named then (s.scalarSource g w w.c).toNat else g.ctx
      let va := if all then 0 else (s.scalarSource g w w.a).toNat
      let len := if all then 2 ^ 64 else (s.scalarSource g w w.b).toNat
      if !g.mayMap then .trap s (refusedUse g)
      else if wait then
        .done (s.modGroup k (fun y => y.depart w [] [] 0 none (.invalidate (some ctx) va len scope (coreDie g.core))))
      else .done (s.invalidate (some ctx) va len scope (coreDie g.core)))

/-! ## HALTC (R224) -/

/-- The value that HALTC writes, if its wait has ended (R224). DESIGN CHOICE (log 96): an event latched before the group is woken is
reported alone, also after the timeout. -/
def Group.haltValue (g : Group) (now : Nat) (mask : BitVec 2) (deadline : Option Nat) : Option Word :=
  let hit := g.latch &&& mask
  if hit ≠ 0 then some (hit.zeroExtend 64)
  else match deadline with
    | some d => if d ≤ now then some 4 else none
    | none => none

/-- A HALTC whose event is latched, or whose time has passed, ends. -/
def State.pokeHalt (s : State) (k : Nat) : State :=
  match s.group k with
  | some g =>
    match g.wait with
    | some { kind := .haltc mask deadline dest, .. } =>
      (match g.haltValue s.now mask deadline with
      | some v =>
        let g1 := { g with latch := g.latch &&& ~~~mask, wait := none, age := s.now }
        s.setGroup k (match dest with
          | some d => g1.setS d v
          | none => g1)
      | none => s)
    | _ => s
  | none => s

/-- HALTC (R185, R224). -/
def execHaltc (w : Slot) (s : State) : Out :=
  issue { waitForm with d0 := .scalarReg, a := .scalarOrImm, b := .scalarOrImm } always noMore w s (fun k g =>
    let mask := s.scalarSource g w w.a
    let t := (s.scalarSource g w w.b).toNat
    if !g.system then .trap s (refusedUse g)
    else if 3 < mask.toNat then .trap s (trapAll g 0x07 0)
    else
      let kind := WaitKind.haltc (mask.extractLsb' 0 2) (if t = 0 then none else some (s.now + t)) (some w.d0.scalarIndex)
      .moved ((s.beginWait k g w kind).pokeHalt k))

/-- HALTC_WAKE (R224). -/
def execHaltcWake (k : Nat) (s : State) : Out := .next (s.pokeHalt k)

/-! ## KLAUNCH (R209, R210) -/

/-- A dependence word that R210 allows. -/
def dependenceOk (d : Word) : Bool :=
  let kind := d.extractLsb' 62 2
  let arg := d.extractLsb' 0 57
  d.extractLsb' 57 5 == 0 && kind != 3 && (kind != 0 || arg == 0) && (kind != 2 || arg.toNat % 16 = 0)

/-- The ranges that KLAUNCH translates at issue, as reads by the group (R209). -/
def launchReads (byIndex : Bool) (a cw dep : Word) : List (Nat × Nat) :=
  (if byIndex then [] else [(a.toNat, 256)]) ++ (if cw = 0 then [] else [(cw.toNat, 8)]) ++
  (if dep.extractLsb' 62 2 = 2 then [((dep.extractLsb' 0 57).toNat, 16)] else [])

/-- The launch packet that a KLAUNCH stands for (R63, R401). -/
def launchPacket (byIndex : Bool) (a cw dep : Word) : LaunchPacket :=
  { type := if byIndex then 2 else 1, ctrl := 0, index := if byIndex then a.extractLsb' 0 8 else 0, zero := 0
    record := if byIndex then 0 else a, dep := dep, cw := cw, args := 0 }

/-- KLAUNCH (R63, R64, R209 to R211). It acts on no lane; a run under check folds its operands (R225, R348). -/
def execKlaunch (w : Slot) (s : State) : Out :=
  let byIndex := w.mod.getLsbD 0
  issue { d0 := .scalarReg, a := .scalarOrImm, b := .scalarReg, c := { scalar := true, zero := true }, mod := 0x1
          long := true, immOwn := true } (fun _ => w.imm.extractLsb' 6 26 == 0) noMore w s (fun k g =>
    let a := s.scalarSource g w w.a
    let cw := s.scalarSource g w w.b
    let dep := s.scalarSource g w w.c
    let who := g.who k
    let d := w.d0.scalarIndex
    if (if byIndex then decide (63 < a.toNat) else a.toNat % 64 != 0) || cw.toNat % 8 != 0 || !dependenceOk dep then
      .trap s (trapAll g 0x07 0)
    else
      match ((launchReads byIndex a cw dep).map (fun p => s.routeOne who g.walkFaults .read .any p.1 p.2)).foldl
          Route.and (.ok []) with
      | .miss needs => .park s needs
      | .fault c va => .trap s (trapAll g c (BitVec.ofNat 64 va))
      | .ok _ =>
        s.releasing k g (
          let s1 := s.release who 4
          let s2 := s1.foldOnce who 0x08E a cw dep (w.imm.zeroExtend 64)
          let operands := [a, cw, dep, w.imm.zeroExtend 64]
          match s2.partOf who with
          | .later c r =>
            match s2.readLog c r k g 0x08E 0 operands with
            | (some e, s3) => .done (s3.departLoad k w [.scalar d] [.scalar d (nth 0 e.values 0)] none)
            | (none, s3) => s3.differs k g
          | _ =>
            let s3 := s2.logFor who g.gid { op := 0x08E, lanes := 0, operands := operands, values := [] }
            .done (s3.modGroup k (fun y => y.depart w [.scalar d] [] 0 none
              (.klaunch (w.imm.extractLsb' 0 6).toNat (launchPacket byIndex a cw dep) g.ctx (some d))))))

end Sys2Proof.Machine
end

