-- ==== Sys2Proof/Machine/CrossLane.lean ====
section
/-!
DEFINITION. The cross-lane and predicate instructions (R252 to R257).
-/

namespace Sys2Proof.Machine

open Sys2Proof

/-! ## Moving lanes -/

/-- The source lane of SHFL (R252). -/
def shuffleLane (mode width l m : Nat) : Nat :=
  if mode = 0 then m % width
  else if mode = 1 then (if m ≤ l then l - m else l)
  else if mode = 2 then (if l + m < width then l + m else l)
  else (if l ^^^ m < width then l ^^^ m else l)

/-- SHFL (R252). -/
def execShfl (w : Slot) (s : State) : Out :=
  issue { vecForm logicTys 2 with a := .vecReg, mod := 0x3 } always noMore w s (fun k g =>
    .done (s.setGroup k (g.eachLane w (fun l =>
      let j := shuffleLane (w.mod.extractLsb' 0 2).toNat g.width l ((s.laneValue g w w.b l) % 2 ^ 32)
      (s.laneValue g w w.a j, 0)))))

/-- The lane that VRDL and VWRL name: B at the operating width of the TY (R227, R253). -/
def State.namedLane (s : State) (g : Group) (w : Slot) : Nat :=
  let x := (s.scalarSource g w w.b).toNat
  if w.ty.wide then x else x % 2 ^ 32

/-- VRDL (R253). -/
def execVrdl (w : Slot) (s : State) : Out :=
  issue { tys := [.b32, .s32, .b64], d0 := .scalarReg, a := .vecReg, b := { scalar := true, imm := true } } always noMore w s
    (fun k g =>
      let l := s.namedLane g w
      if g.width ≤ l then .trap s (trapAll g 0x07 0)
      else
        let r := w.a.vecIndex
        let v : Word := if w.ty.wide then g.v64 r l else if w.ty.signed then (g.v r l).signExtend 64
          else (g.v r l).zeroExtend 64
        .done (s.setGroup k (g.setS w.d0.scalarIndex v)))

/-- VWRL (R253). -/
def execVwrl (w : Slot) (s : State) : Out :=
  issue { tys := logicTys, d0 := .vecReg, a := { scalar := true, imm := true }
          b := { scalar := true, imm := true } } always noMore w s (fun k g =>
    let l := s.namedLane g w
    if g.width ≤ l then .trap s (trapAll g 0x07 0)
    else .done (s.setGroup k (g.setLane w.ty w.d0.vecIndex l (s.scalarSource g w w.a).toNat)))

/-! ## Reductions and scans -/

/-- The operation of VRED and VSCAN (R254). -/
def redOp (w : Slot) : Nat := (w.mod.extractLsb' 0 3).toNat

/-- The combinations that R254 allows; bit 4 is .compact of VRED, or .excl of VSCAN. -/
def redOk (w : Slot) (scan : Bool) : Bool :=
  let op := redOp w
  let sat := w.mod.getLsbD 3
  let four := w.mod.getLsbD 4
  let mode := decide (w.mod.extractLsb' 5 2 ≠ 0)
  let ftz := w.mod.getLsbD 7
  match w.ty with
  | .f32 => decide (op ≤ 2) && !sat && (!mode || op = 0)
  | .u32 | .s32 | .u64 | .s64 => decide (op ≤ 2) && (!sat || op = 0) && !mode && !ftz && (scan || !four)
  | .b32 | .b64 => decide (3 ≤ op) && decide (op ≤ 5) && !sat && !mode && !ftz && (scan || !four)
  | _ => false

/-- The identity of an f32 operation as a code (R87). -/
def fpIdentity (op : Nat) : Nat := if op = 0 then 0x80000000 else if op = 1 then 0x7F800000 else 0xFF800000

/-- One node of an f32 combination (R87). -/
def fpCombine (op : Nat) (m : Mode) (ftz : Bool) (x y : Nat) : Nat × FpFlags :=
  let a := flushInput fp32 ftz x
  let b := flushInput fp32 ftz y
  if op = 0 then roundResult fp32 m ftz ((decodeFloat fp32 a).add (m = .rdn) (decodeFloat fp32 b))
  else if op = 1 then (fminNum fp32 a b, 0)
  else (fmaxNum fp32 a b, 0)

/-- One level of the tree: neighbours are combined (R87). -/
def treeLevel (node : Nat → Nat → Nat × FpFlags) : List Nat → List Nat × FpFlags
  | x :: y :: rest =>
    let (r, f) := node x y
    let (rs, fs) := treeLevel node rest
    (r :: rs, f ||| fs)
  | xs => (xs, 0)

/-- tree_reduce (R87): log2 of the width levels. -/
def treeReduce (node : Nat → Nat → Nat × FpFlags) : Nat → List Nat → FpFlags → Nat × FpFlags
  | 0, xs, f => (nth 0 xs 0, f)
  | n + 1, xs, f =>
    match xs with
    | [x] => (x, f)
    | _ =>
      let (ys, fl) := treeLevel node xs
      treeReduce node n ys (f ||| fl)

/-- The identity of an integer operation (R254). -/
def intIdentity (ty : Ty) (op : Nat) : Int :=
  let n := elemWidth ty
  if op = 1 then elemMax ty n else if op = 2 then elemMin ty n else if op = 3 then (2 ^ n : Nat) - 1 else 0

/-- The exact combination of two integers (R254). -/
def intCombine (ty : Ty) (op : Nat) (x y : Int) : Int :=
  if op = 0 then x + y else if op = 1 then min x y else if op = 2 then max x y
  else onElem ty (if op = 3 then (· &&& ·) else if op = 4 then (· ||| ·) else (· ^^^ ·)) x y

/-- The values of an integer source's lanes. -/
def State.laneInt (s : State) (g : Group) (w : Slot) (l : Nat) : Int :=
  readElem w.ty (elemWidth w.ty) (s.laneValue g w w.a l)

/-- The reduction of VRED: its code and flags (R254, R87 to R89). -/
def State.reduce (s : State) (g : Group) (w : Slot) : Nat × FpFlags :=
  let op := redOp w
  let act := g.lanes w
  if w.ty = .f32 then
    let ftz := w.mod.getLsbD 7
    let m := modeOf (w.mod.extractLsb' 5 2).toNat
    let read := fun (l : Nat) => (s.laneSource g w w.a l).toNat
    let values :=
      if w.mod.getLsbD 4 then
        let vs := (lanesOf act g.width).map read
        vs ++ List.replicate (g.width - vs.length) (fpIdentity op)
      else (List.range g.width).map (fun l => if act.getLsbD l then read l else fpIdentity op)
    treeReduce (fpCombine op m ftz) 6 values 0
  else
    finishElem w.ty (w.mod.getLsbD 3)
      (((lanesOf act g.width).map (s.laneInt g w)).foldl (intCombine w.ty op) (intIdentity w.ty op))

/-- The TYs of VRED and VSCAN. -/
def redTys : List Ty := [.f32, .u32, .s32, .u64, .s64, .b32, .b64]

/-- VRED (R254). -/
def execVred (w : Slot) (s : State) : Out :=
  issue { tys := redTys, d0 := { vec := true, scalar := true }, a := .vecSrc, lanes := true, mod := 0xFF }
    (fun _ => redOk w false) noMore w s (fun k g =>
      let (x, f) := s.reduce g w
      let g1 := match w.d0 with
        | .scalar i =>
          let v : Word := if w.ty.wide then BitVec.ofNat 64 x else if w.ty.signed then (BitVec.ofNat 32 x).signExtend 64
            else (BitVec.ofNat 32 x).zeroExtend 64
          g.setS i.toNat v
        | _ => g.eachLane w (fun _ => (x, 0))
      .done (s.setGroup k (g1.raise f)))

/-- The prefix values of VSCAN over the active lanes, ascending: lane, code and flags (R255). -/
def scanInt (w : Slot) (ty : Ty) (op : Nat) (sat excl : Bool) : Int → List (Nat × Int) → List (Nat × Nat × FpFlags)
  | _, [] => []
  | p, (l, x) :: rest =>
    let q := intCombine ty op p x
    let (v, f) := finishElem ty sat (if excl then p else q)
    (l, v, f) :: scanInt w ty op sat excl q rest

def scanFp (op : Nat) (m : Mode) (ftz excl : Bool) : Nat → List (Nat × Nat) → List (Nat × Nat × FpFlags)
  | _, [] => []
  | p, (l, x) :: rest =>
    let (q, f) := fpCombine op m ftz p x
    (l, if excl then p else q, f) :: scanFp op m ftz excl q rest

/-- VSCAN (R255). -/
def execVscan (w : Slot) (s : State) : Out :=
  issue { vecForm redTys 1 with mod := 0xFF } (fun _ => redOk w true) noMore w s (fun k g =>
    let op := redOp w
    let excl := w.mod.getLsbD 4
    let act := lanesOf (g.lanes w) g.width
    let rs :=
      if w.ty = .f32 then
        scanFp op (modeOf (w.mod.extractLsb' 5 2).toNat) (w.mod.getLsbD 7) excl (fpIdentity op)
          (act.map (fun l => (l, (s.laneSource g w w.a l).toNat)))
      else scanInt w w.ty op (w.mod.getLsbD 3) excl (intIdentity w.ty op) (act.map (fun l => (l, s.laneInt g w l)))
    let g1 := rs.foldl (fun a r => (a.setLane w.ty w.d0.vecIndex r.1 r.2.1).raise r.2.2) g
    .done (s.setGroup k g1))

/-! ## Predicates -/

/-- VOTE (R256). DESIGN CHOICE (log 114): its TY must be 0x0 (b32). -/
def execVote (w : Slot) (s : State) : Out :=
  let form := (w.mod.extractLsb' 0 2).toNat
  issue { tys := [], d0 := (if form = 0 then .scalarReg else .cond), a := .qReg, lanes := true, mod := 0x7 } always noMore w s
    (fun k g =>
      let act := g.lanes w
      let q := g.q (w.a.specialIndex - 0x10)
      let set := act &&& (if w.mod.getLsbD 2 then ~~~q else q)
      let any := decide (set ≠ 0)
      let all := decide (set = act)
      let g1 :=
        if form = 0 then g.setS w.d0.scalarIndex set
        else g.setC w.d0.specialIndex (if form = 1 then any else if form = 2 then all else !any || all)
      .done (s.setGroup k g1))

/-- Bit l of the q register that QMOV writes (R257). DESIGN CHOICE (log 98): IMM is read as a scalar operand, sign-extended to 64 bits. -/
def State.qmovBit (s : State) (g : Group) (w : Slot) (l : Nat) : Bool :=
  match w.a with
  | .vec r => decide (g.v r.toNat l ≠ 0)
  | .special n =>
    match specialKind n.toNat with
    | .laneid => decide (l ≠ 0)
    | .cbit i => g.c i
    | _ => (s.scalarSource g w w.a).getLsbD l
  | _ => (s.scalarSource g w w.a).getLsbD l

/-- QMOV (R257). -/
def execQmov (w : Slot) (s : State) : Out :=
  issue { tys := [.b32], d0 := .qReg, a := .vecSrc, lanes := true } always noMore w s (fun k g =>
    .done (s.setGroup k (g.eachQ w (s.qmovBit g w))))

/-- QLOG (R257). -/
def execQlog (w : Slot) (s : State) : Out :=
  issue { tys := [.b32], d0 := .qReg, a := .qReg, b := .qReg, lanes := true, mod := 0xF } always noMore w s (fun k g =>
    .done (s.setGroup k (g.eachQ w (fun l => w.mod.getLsbD (2 * natOf (g.qBit w.a l) + natOf (g.qBit w.b l))))))

/-- QCNT (R257). -/
def execQcnt (w : Slot) (s : State) : Out :=
  let mode := (w.mod.extractLsb' 0 2).toNat
  issue { tys := [.b32], d0 := .scalarReg, a := .qReg, lanes := true, mod := 0x3 } (fun _ => decide (mode ≠ 3)) noMore w s
    (fun k g =>
      let ls := (lanesOf (g.lanes w) g.width).filter (g.qBit w.a)
      let v := if mode = 0 then ls.length else if mode = 1 then ls.head?.getD g.width else ls.getLast?.getD g.width
      .done (s.setGroup k (g.setS w.d0.scalarIndex (BitVec.ofNat 64 v))))

end Sys2Proof.Machine
end

