-- ==== Sys2Proof/Machine/Tensor.lean ====
section
/-!
DEFINITION. Tensor records and their traversal (R280 to R282), basins (R284 to R286), and the accesses that engines make
to memory (R120, R121, R145, R385, R412).
-/

namespace Sys2Proof.Machine

open Sys2Proof

/-! ## Tensor records -/

/-- A valid tensor record (R280, R281). -/
structure TRec where
  base : Nat
  rank : Nat
  order : List Nat
  size : List Nat
  /-- Byte strides by dimension; dimension 0 has none. -/
  stride : List Nat
  box : List Nat
  /-- Bits of an element. -/
  bits : Nat
  /-- Elements and bytes of the unit of dimension 0: a chunk, a whole number of bytes, or one element. -/
  epu : Nat
  ub : Nat
  /-- The element format: EFMT, GEOM and PLACE. -/
  key : Nat × Nat × Bool
  deriving DecidableEq, Repr

/-- The descriptor that a record's FMT stands for: its slot's, or an unscaled one with its EFMT (R280, R281). -/
def recordDesc (slots : List (BitVec 64)) (fmt : Nat) : Option (BitVec 64) :=
  if bit fmt 7 then
    if bits fmt 3 4 = 0 && slotV (nth 0 slots (bits fmt 0 3)) then some (nth 0 slots (bits fmt 0 3)) else none
  else if bits fmt 4 3 = 0 && decide (1 ≤ fmt) && decide (fmt ≤ 10) then some (BitVec.ofNat 64 (2 ^ 63 + fmt))
  else none

/-- Bytes of a chunk of 32 elements (R78). -/
def chunkBytes (width geom : Nat) : Nat := 4 * width + (if geom = 3 then 1 else 4)

/-- Elements and bytes of a format's unit of dimension 0 (R71, R78, R282). -/
def formatUnit (d : BitVec 64) : Nat × Nat :=
  let w := efmtWidth (slotEfmt d)
  if slotGeom d != 0 && !slotPlace d then (32, chunkBytes w (slotGeom d))
  else if w = 4 then (2, 1)
  else if w = 6 then (4, 3)
  else (1, w / 8)

/-- The product of a list. -/
def product (l : List Nat) : Nat := l.foldl (· * ·) 1

/-- Units of a box in a dimension. -/
def TRec.extent (r : TRec) (d : Nat) : Nat := if d = 0 then nth 0 r.box 0 / r.epu else nth 0 r.box d

/-- The tile size in bytes (R281). -/
def TRec.tile (r : TRec) : Nat := product ((List.range r.rank).map r.extent) * r.ub

/-- Read a record and check it (R72, R280, R281). -/
def parseRecord (slots : List (BitVec 64)) (x : BitVec 512) : Option TRec :=
  let f := fun (off n : Nat) => (x.extractLsb' (8 * off) (8 * n)).toNat
  let rank := f 9 1
  let ord := f 10 2
  let size := (List.range 5).map (fun d => f (0x0C + 4 * d) 4)
  let stride := 0 :: (List.range 4).map (fun d => f (0x20 + 5 * d) 5)
  let box := (List.range 5).map (fun d => f (0x34 + 2 * d) 2)
  let order := (List.range rank).map (fun i => bits ord (3 * i) 3)
  match recordDesc slots (f 8 1) with
  | none => none
  | some d =>
    let (epu, ub) := formatUnit d
    let r : TRec := { base := f 0 8, rank := rank, order := order, size := size, stride := stride, box := box,
                      bits := efmtWidth (slotEfmt d), epu := epu, ub := ub, key := (slotEfmt d, slotGeom d, slotPlace d) }
    let scaled := slotGeom d != 0
    if decide (1 ≤ rank) && decide (rank ≤ 5) &&
        (List.range 5).all (fun i => if i < rank then nth 0 size i != 0 && nth 0 box i != 0
          else nth 0 size i = 0 && nth 0 box i = 0 && nth 0 stride i = 0) &&
        (List.range rank).all order.contains && ord / 2 ^ (3 * rank) = 0 && f 0x3E 2 = 0 &&
        (!(scaled || decide (r.bits < 8)) || nth 0 order 0 = 0) && nth 0 box 0 % epu = 0 &&
        (epu != 32 || nth 0 size 0 % 32 = 0) && (!(scaled && slotPlace d) || nth 0 size 0 % blockSize (slotGeom d) = 0) &&
        decide (r.tile ≤ 262144) then some r
    else none

/-- The slot descriptors of a team's launch. -/
def State.teamSlots (s : State) (t : Team) : List (BitVec 64) :=
  match t.launch with
  | some seq => match s.launch seq with
    | some l => l.record.slots
    | none => []
  | none => []

/-- Read a record against a team's slots. -/
def State.tensor (s : State) (t : Team) (x : BitVec 512) : Option TRec := parseRecord (s.teamSlots t) x

/-! ## Traversal (R282) -/

/-- Units in one row of a tile: level 0 of the traversal. -/
def TRec.rowUnits (r : TRec) : Nat := r.extent (nth 0 r.order 0)

/-- Bytes in one row of a tile. -/
def TRec.rowBytes (r : TRec) : Nat := r.rowUnits * r.ub

/-- Rows of a tile. -/
def TRec.rows (r : TRec) : Nat := product ((r.order.drop 1).map r.extent)

/-- The place in each dimension of row `n` of a tile, by the levels above 0. -/
def digits (r : TRec) : List Nat → Nat → List (Nat × Nat)
  | [], _ => []
  | d :: ds, n => (d, n % r.extent d) :: digits r ds (n / r.extent d)

/-- A unit of a tile: where it lies and the bits of it that lie inside the tensor. -/
structure UnitAt where
  va : Nat
  inside : Nat
  deriving DecidableEq, Repr

/-- Unit `u` of row `n` of the tile with an origin; none where the whole unit is outside. -/
def TRec.unit (r : TRec) (origin : List Nat) (n u : Nat) : Option UnitAt :=
  let place := (nth 0 r.order 0, u) :: digits r (r.order.drop 1) n
  let at_ := fun (d : Nat) => (((place.find? (fun p => p.1 = d)).map Prod.snd).getD 0)
  let upper := (List.range r.rank).drop 1
  let coord := fun (d : Nat) => nth 0 origin d + at_ d
  let e0 := nth 0 origin 0 + at_ 0 * r.epu
  if upper.all (fun d => decide (coord d < nth 0 r.size d)) && decide (e0 < nth 0 r.size 0) then
    let k := min r.epu (nth 0 r.size 0 - e0)
    some { va := (r.base + (upper.map (fun d => coord d * nth 0 r.stride d)).foldl (· + ·) 0 + e0 / r.epu * r.ub) % 2 ^ 64
           inside := if k = r.epu then 8 * r.ub else k * r.bits }
  else none

/-- The units of a row. -/
def TRec.row (r : TRec) (origin : List Nat) (n : Nat) : List (Option UnitAt) := (List.range r.rowUnits).map (r.unit origin n)

/-- Bytes of a unit that lie inside the tensor, at least in part. -/
def UnitAt.len (u : UnitAt) : Nat := ceilDiv u.inside 8

/-! ## Basins -/

/-- A basin of a team. -/
def Team.basin (t : Team) (b : Nat) : Basin := Tab.read {} t.basins b

def Team.setBasin (t : Team) (b : Nat) (x : Basin) : Team := { t with basins := Tab.write {} t.basins b x }

/-- Elements held, and room (R284). -/
def Basin.held (b : Basin) : Nat := (b.prod - b.cons).toNat
def Basin.room (b : Basin) : Nat := b.count - b.held

/-- The scratchpad offset of a byte of the stream that begins at element `pos` (R284). -/
def Basin.offset (b : Basin) (pos i : Nat) : Nat :=
  b.base + (pos + i / b.esize) % 2 ^ 32 % b.count * b.esize + i % b.esize

/-- The elements that a byte count is; none where it is no whole number of them or exceeds K (R286). -/
def Basin.elements (b : Basin) (n : Nat) : Option Nat :=
  if b.count = 0 then none
  else if n % b.esize = 0 && decide (n / b.esize ≤ b.count) then some (n / b.esize) else none

/-- An issued engine operation that names the basin has not retired (R284). -/
def State.basinBusy (s : State) (team b : Nat) : Bool :=
  s.ops.any (fun p => p.2.team = team && (p.2.names.contains b || (p.2.ins ++ p.2.outs).any (fun q => q.1 = b)))

/-- Bytes of a basin's stream, and which of them lie in a poisoned line (R120). -/
def State.basinRead (s : State) (team b pos off n : Nat) : List Byte × List Bool :=
  match s.team team with
  | some t =>
    let x := t.basin b
    let as := (List.range n).map (fun i => x.offset pos (off + i))
    (as.map (fun a => Tab.read 0 t.scratch a), as.map (fun a => t.poison.contains (lineNo a)))
  | none => (List.replicate n 0, [])

/-- The scratchpad line of the first poisoned byte of a stream. -/
def State.basinPoison (s : State) (team b pos n : Nat) : Option Nat :=
  match s.team team with
  | some t => ((List.range n).find? (fun i => t.poison.contains (lineNo ((t.basin b).offset pos i)))).map
      (fun i => (t.basin b).offset pos i / 128 * 128)
  | none => none

/-- The lines of the addresses whose bytes are marked as poisoned (R120). -/
def markedLines (as : List Nat) (marks : List Bool) : List Nat :=
  ((List.zip as marks).filterMap (fun p => if p.2 then some (lineNo p.1) else none)).eraseDups

/-- Write bytes into a basin's stream; poisoned data mark the lines they go to (R120). -/
def State.basinWrite (s : State) (team b pos off : Nat) (bs : List Byte) (marks : List Bool) : State :=
  match s.team team with
  | some t =>
    let ws : Writes := (List.range bs.length).map (fun i => ((t.basin b).offset pos (off + i), nth 0 bs i))
    (s.writePad team ws).modTeam team (fun x => { x with
      poison := (x.poison ++ markedLines (ws.map Prod.fst) marks).eraseDups })
  | none => s

/-! ## Accesses of engines -/

/-- What stops an engine's step: a fault with its address, or a page that the host is to serve (R383, R385). -/
inductive Halt where
  | fault (code va : Nat)
  | host (entry va : Nat)
  deriving DecidableEq, Repr

/-- The TLBs that an engine of a core uses: its pound's walk-ahead TLB and its die's MTU TLB (R145). -/
def State.engineTlb (s : State) (core : Nat) : List TlbEntry :=
  if core < 576 then (s.pound (corePound core)).taeTlb ++ (s.die (coreDie core)).tlb else (s.core core).tlb

/-- Those TLBs keep a translation. -/
def State.engineKeep (s : State) (core : Nat) (e : TlbEntry) : State :=
  if core < 576 then
    (s.modPound (corePound core) (fun p => { p with taeTlb := keepEntry 4096 e p.taeTlb })).modDie (coreDie core)
      (fun d => { d with tlb := keepEntry 196608 e d.tlb })
  else s.modCore core (fun c => { c with tlb := keepEntry 256 e c.tlb })

/-- The MTU walks for an engine (R143, R381). -/
def State.engineWalk (s : State) (who : Who) (va : Nat) (kind : AccessKind) : Sum TlbEntry Halt × State :=
  match s.walkFor who va kind with
  | (.kept, t, s1) => (.inl t, s1.engineKeep who.core t)
  | (.fault c, _, s1) => (.inr (.fault c va), s1)
  | (.host e, _, s1) => (.inr (.host e va), s1)

/-- Translate an address for an engine (R140, R143 to R145, R385). -/
def State.engineXlat (s : State) (who : Who) (va : Nat) (kind : AccessKind) : Sum TlbEntry Halt × State :=
  if 2 ^ 57 ≤ va then (.inr (.fault 0x10 va), s)
  else if s.identityMapped who then
    match s.permission who (identityEntry va) va kind with
    | some c => (.inr (.fault c va), s)
    | none => (.inl (identityEntry va), s)
  else if !bit (Tab.read 0 s.ptroots who.ctx).toNat 0 then (.inr (.fault 0x13 va), s)
  else
    match (s.engineTlb who.core).find? (fun e => e.covers who.ctx va) with
    | none => s.engineWalk who va kind
    | some e =>
      match s.permission who e va kind with
      | some c => (.inr (.fault c va), s)
      | none => if kind = .write && !e.dirty then s.engineWalk who va kind else (.inl e, s)

/-- An engine's access to management space is one that its registers take: a read within one register, a write of a whole one.
Any other receives the error reply (R28, R288). Each unit of a tile is one access (log 73). -/
def engineReaches (kind : AccessKind) (pa n : Nat) : Bool :=
  match kind with
  | .write => pa % 8 = 0 && n = 8
  | _ => mgmtReadOk pa n

/-- The parts of an engine's access, with every check on them (R288, R385). -/
def State.enginePieces (s : State) (who : Who) (kind : AccessKind) : List (Nat × Nat) → Sum (List Piece) Halt × State
  | [] => (.inl [], s)
  | (va, n) :: rest =>
    match s.engineXlat who va kind with
    | (.inr h, s1) => (.inr h, s1)
    | (.inl e, s1) =>
      let pa := e.phys va
      if kind = .write && e.kind = 3 then (.inr (.fault (s1.appendWriteFault pa e) va), s1)
      else if s1.errorReply pa then (.inr (.fault 0x21 va), s1.countError pa)
      else if region pa = .management && !engineReaches kind pa n then (.inr (.fault 0x21 va), s1)
      else
        match s1.enginePieces who kind rest with
        | (.inl ps, s2) => (.inl ({ va := va, pa := pa, len := n, entry := e } :: ps), s2)
        | r => r

/-- The parts of the units of a row at the page boundaries. -/
def unitParts (us : List (Option UnitAt)) : List (Nat × Nat) :=
  (us.filterMap (fun u => u.map (fun x => cutAtPages x.va x.len))).flatten

/-- What an engine reads: its bytes, which of them lie in a poisoned line, whether a frame is bound (R120, R412). -/
structure EngineGot where
  bytes : List Byte
  marks : List Bool
  bound : Bool
  state : State

/-- Read parts at their homes, never from a core store (R121, R296, R352). -/
def State.engineRead (s : State) (who : Who) (ps : List Piece) : EngineGot :=
  ps.foldl (fun (a : EngineGot) p =>
    let bound := (Tab.find a.state.bound (p.pa / 65536)).isSome
    if region p.pa = .management then
      { a with bytes := a.bytes ++ a.state.readMgmt p.pa p.len, marks := a.marks ++ List.replicate p.len false }
    else
      let r := a.state.load who false p.pa p.len
      let marks := (List.range p.len).map (fun i => a.state.poisonedFor who (lineNo (p.pa + i)))
      { bytes := a.bytes ++ r.bytes, marks := a.marks ++ marks, bound := a.bound || bound, state := r.state })
    { bytes := [], marks := [], bound := false, state := s }

/-- The bytes of each unit of a row from the bytes read for it: outside bits read zero (R282). -/
def rowData (ub : Nat) : List (Option UnitAt) → List Byte → List (List Byte)
  | [], _ => []
  | none :: us, bs => List.replicate ub 0 :: rowData ub us bs
  | some u :: us, bs => leBytes ub (leNat (bs.take u.len) % 2 ^ u.inside) :: rowData ub us (bs.drop u.len)

/-- The marks of each unit of a row from those of the bytes read for it. -/
def rowMarks : List (Option UnitAt) → List Bool → List (List Bool)
  | [], _ => []
  | none :: us, ms => [] :: rowMarks us ms
  | some u :: us, ms => ms.take u.len :: rowMarks us (ms.drop u.len)

/-- The marks of the stores that a row's units make, outside units making none. -/
def storeMarks (us : List (Option UnitAt)) (ms : List (List Bool)) : List (List Bool) :=
  (List.zip us ms).filterMap (fun p => p.1.map (fun _ => p.2))

/-- The bytes to be written for each unit of a row, in the order of the traversal, so that of two elements at one byte the later
remains, which is the MODEL's choice (log 104): the bits outside keep the value they have (R282). -/
def State.rowStores (s : State) (who : Who) : List (Option UnitAt) → List (List Byte) → List Piece → List (Nat × List Piece × List Byte)
  | none :: us, _ :: ds, ps => s.rowStores who us ds ps
  | some u :: us, d :: ds, ps =>
    let n := (cutAtPages u.va u.len).length
    let mine := ps.take n
    let old := leNat ((mine.map (fun p => (List.range p.len).map (fun i => s.seenByte who (p.pa + i)))).flatten)
    let new := leNat (d.take u.len) % 2 ^ u.inside + old / 2 ^ u.inside * 2 ^ u.inside
    (u.va, mine, leBytes u.len new) :: s.rowStores who us ds (ps.drop n)
  | _, _, _ => []

/-- Bytes that an engine writes reach their homes, after what the die's remote-write buffer still holds of their lines. -/
def State.engineCommit (s : State) (who : Who) (origin : Option Nat) (ws : Writes) : State :=
  let d := coreDie who.core
  let s1 := ((ws.map (fun p => lineNo p.1)).eraseDups).foldl (fun a l =>
    (a.drainLine d l).tokenHome (l * 128)) s
  if ws.isEmpty then s1 else s1.commit origin ws

/-- The bytes of stores by their parts. -/
def storePairs (xs : Stores) : List (Piece × List Byte) :=
  xs.flatMap (fun x => (x.2.1.foldl (fun (a : List (Piece × List Byte) × List Byte) p =>
    (a.1 ++ [(p, a.2.take p.len)], a.2.drop p.len)) ([], x.2.2)).1)

/-- Lines that an engine wrote with poisoned data are poisoned: in the version of the run that holds them, else at their homes
(R120, R343). -/
def State.taint (s : State) (who : Who) (held : Bool) (lines : List Nat) : State :=
  match held, s.runOf who with
  | true, some (c, r) => s.modRun c r (fun x => { x with poisons := (x.poisons ++ lines).eraseDups })
  | _, _ => lines.foldl (fun a l => a.setPoison l true) s

/-- The lines of memory that poisoned data go to: `marks` tells of each store which of its bytes are poisoned (R120). -/
def taintedLines (xs : Stores) (marks : List (List Bool)) : List Nat :=
  ((List.zip xs marks).flatMap (fun q =>
    markedLines ((q.1.2.1.flatMap (fun p => (List.range p.len).map (p.pa + ·)))) q.2)).eraseDups.filter
      (fun l => region (l * 128) != .management)

/-- An engine writes: registers of management space at once; bytes are signed and held in a run under check when `checked`,
else committed at once; poisoned data mark the destination lines they go to (R28, R120, R296, R348). -/
def State.engineWrite (s : State) (who : Who) (checked : Bool) (marks : List (List Bool)) (xs : Stores) : State :=
  let parts := storePairs xs
  let isReg := fun (p : Piece × List Byte) => region p.1.pa = .management
  let ws : Writes := (parts.filter (fun p => !isReg p)).flatMap (fun p => atAddr p.1.pa p.2)
  let s0 := (parts.filter isReg).foldl (fun a p => a.writeReg p.1.pa (bytesWord p.2)) s
  let origin := (s.runOf who).map Prod.fst
  let s1 :=
    if checked then
      let signed := s0.signWrites who 0 (xs.flatMap (fun x => atAddr x.1 x.2.2))
      if ws.isEmpty then signed else signed.holdBytes who (fun a => a.engineCommit who none ws) ws
    else if ws.isEmpty then s0 else s0.engineCommit who origin ws
  let later := match s.runOf who with
    | some (_, r) => checked && r != 0
    | none => false
  if later && (s1.runOf who).isNone then s1 else s1.taint who checked (taintedLines xs marks)

/-- A destination part that is no CONF page of the context refuses the data of a bound frame (R412). -/
def confidentialFault (bound : Bool) (ps : List Piece) : Option Halt :=
  if bound then (ps.find? (fun p => !p.entry.conf)).map (fun p => .fault 0x12 p.va) else none

/-! ## The lines an operation touches (R121) -/

/-- The physical address that a virtual address has, without any effect. -/
def State.peek (s : State) (who : Who) (va : Nat) : Option Nat :=
  if s.identityMapped who then some va
  else match (s.engineTlb who.core).find? (fun e => e.covers who.ctx va) with
    | some e => some (e.phys va)
    | none => match s.walk who.ctx va with
      | .page _ e size => some ((entryOf who.ctx va e size).phys va)
      | _ => none

/-- Issue drains the remote-write buffer for the lines of these ranges (R121). -/
def State.drainFor (s : State) (who : Who) (ranges : List (Nat × Nat)) : State :=
  if (s.rwb (coreDie who.core)).isEmpty then s
  else
    let ls := (ranges.map (fun p => match s.peek who p.1 with
      | some pa => linesOf pa p.2
      | none => [])).flatten
    s.drainWhere (coreDie who.core) ls.contains

/-- The memory that a tile covers. -/
def TRec.ranges (r : TRec) (origin : List Nat) : List (Nat × Nat) :=
  ((List.range r.rows).map (fun n => unitParts (r.row origin n))).flatten

/-- The memory that the rows of a record of two dimensions cover from column o, of which a gather reads some (R292). -/
def TRec.gatherRanges (r : TRec) (o : Nat) : List (Nat × Nat) :=
  ((List.range (nth 0 r.size 1)).map (fun y => unitParts ((List.range (r.extent 0)).map (fun u =>
    ({ r with box := [nth 0 r.box 0, 1, 0, 0, 0], order := [0, 1] } : TRec).unit [o, y] 0 u)))).flatten

end Sys2Proof.Machine
end

