-- ==== Sys2Proof/Machine/Engine.lean ====
section
/-!
DEFINITION. Engine instructions (R283 to R296): TREC, CPY, CPYX, CPYR, CPYB, GATH, COLL, BCFG, BPUT and BTAKE, and the
steps of copy, gather and collective operations.
-/

namespace Sys2Proof.Machine

open Sys2Proof

/-! ## Issue of an engine operation -/

/-- Unretired operations of a team in a class (R294). -/
def State.unretired (s : State) (team : Nat) (c : EngineClass) : List (Nat × EngineOp) :=
  s.ops.filter (fun p => p.2.team = team && p.2.cls = c)

/-- A group's counters and batches at the issue of an operation of a class (R122, R289). -/
def Group.countOp (g : Group) (c : EngineClass) : Group :=
  match c with
  | .matrix => { g with mxcnt := g.mxcnt + 1 }
  | .gather => { g with gacnt := g.gacnt + 1 }
  | .coll => { g with cocnt := g.cocnt + 1 }
  | .copy => { g with batchUsed := true, batches := Tab.write 0 g.batches (g.cbopen + 1) (Tab.read 0 g.batches (g.cbopen + 1) + 1) }

/-- Put an engine operation into its team's queue (R294). -/
def State.submit (s : State) (k : Nat) (g : Group) (o : EngineOp) : State :=
  let (key, s1) := s.fresh
  let s2 := s1.modGroup k (fun x => { x.countOp o.cls with
    copyPos := (if o.cls = .copy || o.cls = .gather then x.copyPos + 1 else x.copyPos) })
  let s3 := s2.modTeam g.team (fun t => t.modEngineQueue o.cls (fun q => { q with issued := q.issued + 1 }))
  { s3 with ops := Tab.insert s3.ops key { o with batch := (if o.cls = .copy then g.cbopen + 1 else 0), ordinal := g.copyPos } }

/-- An engine instruction waits at issue while its class holds 63 unretired operations of the team (R294). -/
def State.admitOp (s : State) (k : Nat) (g : Group) (o : EngineOp) (touched : List (Nat × Nat)) : Result :=
  if 63 ≤ (s.unretired g.team o.cls).length then .stay s
  else .done ((s.drainFor (g.who k) touched).submit k g o)

/-- An operand-range trap of an instruction that acts on no lane. -/
def rangeTrap (s : State) (g : Group) : Result := .trap s (trapAll g 0x07 0)

/-- The record-format fault at issue; a record slot holds no address. -/
def recordFault (s : State) (g : Group) : Result := .trap s (trapAll g 0x1A 0)

/-- An optional scalar: 0x000 stands for zero. -/
def Kinds.scalarOrNone : Kinds := { scalar := true, zero := true }

/-- The value of an optional scalar. -/
def Group.optional (g : Group) (o : Operand) : Nat :=
  match o with
  | .scalar i => (g.s i.toNat).toNat
  | _ => 0

/-! ## TREC -/

/-- TREC (R283): read as a load at issue, validated when it arrives. -/
def execTrec (w : Slot) (s : State) : Out :=
  issue { a := .scalarReg, mod := 0x7, long := true, immOwn := true } always noMore w s (fun k g =>
    let va := g.pageAddress w
    if va % 64 != 0 then rangeTrap s g
    else match s.routeOne (g.who k) g.walkFaults .read .any va 64 with
      | .miss needs => .park s needs
      | .fault c a => .trap s (trapAll g c (BitVec.ofNat 64 a))
      | .ok ps =>
        match s.readLogged k g 0x300 [{ lane := 0, accesses := [ps] }] with
        | (none, s1) => .moved (s1.stopRun k 0x31 g.pc)
        | (some x, s1) =>
          let rec_ := BitVec.ofNat 512 (leNat ((x.values.map (fun y => y.2.flatten)).flatten))
          let bad := (s1.tensor (s1.teamOf g) rec_).isNone
          match x.fault with
          | some f => .done (s1.departLoad k w [] [] (some f))
          | none =>
            if bad then .done (s1.departLoad k w [] [] (some (0x1A, va)))
            else .done (s1.modGroup k (fun y => y.depart w [] [] 0 none (.record (w.mod.extractLsb' 0 3).toNat rec_))))

/-! ## Basin instructions -/

/-- The basin that an instruction names. -/
def basinField (w : Slot) : Nat := (w.mod.extractLsb' 0 4).toNat

/-- BCFG (R284). -/
def execBcfg (w : Slot) (s : State) : Out :=
  issue { a := .scalarOrImm, b := .scalarOrImm, c := .scalarOrImm, mod := 0xF } always noMore w s (fun k g =>
    let base := (s.scalarSource g w w.a).toNat
    let e := (s.scalarSource g w w.b).toNat
    let n := (s.scalarSource g w w.c).toNat
    let t := s.teamOf g
    if s.basinBusy g.team (basinField w) || base % 128 != 0 || e % 16 != 0 || e < 16 || 65536 < e || n = 0 || 4096 < n then
      rangeTrap s g
    else if t.scratchSize < base + e * n then .trap s (trapAll g 0x08 (BitVec.ofNat 64 base))
    else .done ((s.modTeam g.team (fun x => x.setBasin (basinField w)
      { base := base, esize := e, count := n, prod := 0, cons := 0 })).modGroup k id))

/-- The form of BPUT and BTAKE. -/
def basinForm : Form := { d0 := .scalarReg, a := .scalarOrImm, mod := 0xF }

/-- A basin pointer moves, or D0 receives all ones (R285). -/
def State.moveBasin (s : State) (k : Nat) (g : Group) (w : Slot) (ok : Bool) (old : BitVec 32) (b : Basin) : State :=
  if ok then (s.modTeam g.team (fun t => t.setBasin (basinField w) b)).modGroup k
    (fun x => x.setS w.d0.scalarIndex (old.zeroExtend 64))
  else s.modGroup k (fun x => x.setS w.d0.scalarIndex 0xFFFFFFFFFFFFFFFF#64)

/-- Whether a BPUT or BTAKE succeeds. Engines and other groups affect the basin, so the original logs it and a later run takes
it from the log (R296, R350): when the log says that it succeeded the later run waits until its own basin allows it (log 74).
`none` when the later run differs from the log; the Bool says whether it has to wait. -/
def State.basinLogged (s : State) (k : Nat) (g : Group) (op n : Nat) (ok : Bool) (old : BitVec 32) : Option (Bool × Bool) × State :=
  let who := g.who k
  match s.partOf who with
  | .plain => (some (ok, false), s)
  | .original _ =>
    let v : Word := if ok then old.zeroExtend 64 else 0xFFFFFFFFFFFFFFFF#64
    (some (ok, false), s.logFor who g.gid { op := op, lanes := 0, operands := [BitVec.ofNat 64 n], values := [v] })
  | .later c r =>
    match s.readLog c r k g op 0 [BitVec.ofNat 64 n] with
    | (some e, s1) => let was := nth 0 e.values 0 != 0xFFFFFFFFFFFFFFFF#64; (some (was, was && !ok), s1)
    | (none, s1) => (none, s1)

/-- BPUT and BTAKE move a pointer: `ok` says whether the basin allows it, `moved` is the basin after it. -/
def State.basinMove (s : State) (k : Nat) (g : Group) (w : Slot) (op n : Nat) (ok release : Bool) (old : BitVec 32) (moved : Basin) :
    Result :=
  match s.basinLogged k g op n ok old with
  | (none, s1) => s1.differs k g
  | (some (_, true), _) => .stay s
  | (some (yes, false), s1) =>
    let r := Result.done (s1.moveBasin k g w yes old moved)
    if yes && release then s1.releasing k g r else r

/-- BPUT (R285, R286): when it succeeds it is a TEAM-scope release. -/
def execBput (w : Slot) (s : State) : Out :=
  issue basinForm always noMore w s (fun k g =>
    let n := (s.scalarSource g w w.a).toNat
    let b := (s.teamOf g).basin (basinField w)
    if b.count = 0 || b.count < n then rangeTrap s g
    else s.basinMove k g w 0x308 n (decide (n ≤ b.room)) true b.prod { b with prod := b.prod + BitVec.ofNat 32 n })

/-- BTAKE (R285, R286). -/
def execBtake (w : Slot) (s : State) : Out :=
  issue basinForm always noMore w s (fun k g =>
    let n := (s.scalarSource g w w.a).toNat
    let b := (s.teamOf g).basin (basinField w)
    if b.count = 0 || b.count < n then rangeTrap s g
    else s.basinMove k g w 0x309 n (decide (n ≤ b.held)) false b.cons { b with cons := b.cons + BitVec.ofNat 32 n })

/-! ## Copies -/

/-- CPYB (R289). -/
def execCpyb (w : Slot) (s : State) : Out :=
  issue { d0 := .scalarReg } always noMore w s (fun k g =>
    let g1 := g.closeBatch
    .done ((s.setGroup k (g1.setS w.d0.scalarIndex (BitVec.ofNat 64 g1.cbopen))).pokeWait k))

/-- The fields of a copy's MOD (R287). -/
def copySrc (w : Slot) : Nat := (w.mod.extractLsb' 2 4).toNat
def copyDst (w : Slot) : Nat := (w.mod.extractLsb' 6 4).toNat

/-- The origin of B and C (R287). -/
def Group.origin (g : Group) (w : Slot) (o4 : Nat) : List Nat :=
  [g.optional w.b % 2 ^ 32, g.optional w.b / 2 ^ 32, g.optional w.c % 2 ^ 32, g.optional w.c / 2 ^ 32, o4]

/-- The form of a copy: origins in B and C, IMM of its own. -/
def copyForm : Form := { b := .scalarOrNone, c := .scalarOrNone, hint := true, immOwn := true }

/-- The origin suits the format (R288). -/
def TRec.originOk (r : TRec) (o : List Nat) : Bool := nth 0 o 0 % r.epu = 0

/-- Two records whose tiles may be copied to each other (R288). -/
def tilesMatch (a b : TRec) : Bool :=
  a.tile = b.tile && a.key == b.key && a.order.map (nth 0 a.box) == b.order.map (nth 0 b.box)

/-- The record in a slot of the team: none where the slot is empty. -/
def Team.record (t : Team) (i : Nat) : Option (BitVec 512) := Tab.find t.records i

/-- A side of a CPY: its end, the record as read, the elements of a basin. -/
inductive CopySide where
  | tensor (x : BitVec 512) (r : TRec)
  | basin (b : Nat) (x : Basin)
  | empty

/-- A side of a CPY (R287). -/
def State.copySide (s : State) (t : Team) (isBasin : Bool) (i : Nat) : CopySide :=
  if isBasin then .basin i (t.basin i)
  else match t.record i with
    | none => .empty
    | some x => match s.tensor t x with
      | some r => .tensor x r
      | none => .empty

/-- CPY (R287, R288). -/
def execCpy (w : Slot) (s : State) : Out :=
  let sb := w.mod.getLsbD 0
  let db := w.mod.getLsbD 1
  issue { copyForm with mod := 0x3FF }
    (fun _ => !(sb && db) && (sb || decide (copySrc w ≤ 7)) && (db || decide (copyDst w ≤ 7))) noMore w s (fun k g =>
    let t := s.teamOf g
    let o := g.origin w w.imm.toNat
    let op := fun (src dst : CopyEnd) (ins outs : List (Nat × Nat)) =>
      { cls := .copy, team := g.team, group := k, slot := g.pc, kind := .cpy src dst o, ins := ins, outs := outs : EngineOp }
    match s.copySide t sb (copySrc w), s.copySide t db (copyDst w) with
    | .tensor x a, .tensor y b =>
      if !tilesMatch a b then recordFault s g
      else if !a.originOk o then rangeTrap s g
      else s.admitOp k g (op (.tensor x) (.tensor y) [] []) (a.ranges o ++ b.ranges o)
    | .tensor x a, .basin i b =>
      if !a.originOk o then rangeTrap s g
      else match b.elements a.tile with
        | some n => s.admitOp k g (op (.tensor x) (.basin i) [] [(i, n)]) (a.ranges o)
        | none => rangeTrap s g
    | .basin i b, .tensor x a =>
      if !a.originOk o then rangeTrap s g
      else match b.elements a.tile with
        | some n => s.admitOp k g (op (.basin i) (.tensor x) [(i, n)] []) (a.ranges o)
        | none => rangeTrap s g
    | _, _ => rangeTrap s g)

/-- Two record slots of CPYX or CPYR (R290, R291): the records as read, or the trap. -/
def State.copyPair (s : State) (g : Group) (w : Slot) (ok : BitVec 512 → TRec → Bool) :
    Sum (BitVec 512 × TRec × BitVec 512 × TRec) Result :=
  let t := s.teamOf g
  match s.copySide t false (copySrc w), s.copySide t false (copyDst w) with
  | .tensor x a, .tensor y b =>
    if !ok x a || !ok y b || !tilesMatch a b then .inr (recordFault s g) else .inl (x, a, y, b)
  | _, _ => .inr (rangeTrap s g)

/-- Both runs of a check fold the operands of CPYX and CPYR (R296, R348). -/
def State.foldCopy (s : State) (k : Nat) (g : Group) (op : Nat) (w : Slot) (a : Nat) : State :=
  s.foldOnce (g.who k) op (BitVec.ofNat 64 a) (BitVec.ofNat 64 (g.optional w.b)) (BitVec.ofNat 64 (g.optional w.c))
    (w.imm.zeroExtend 64)

/-- The number under which a copy or a gather of a group stands in its check. -/
def copyKey (gid ordinal : Nat) : Nat := 65536 * (ordinal + 1) + gid

/-- What the original's CPYX wrote (R296). -/
def State.copyLog (s : State) (c key : Nat) : CopyLog :=
  match s.check c with
  | some x => (Tab.find x.copies key).getD { bytes := [], status := [] }
  | none => { bytes := [], status := [] }

/-- The record of a CPYX: INT8 with S = 0 (R290). -/
def isBytes (x : BitVec 512) (r : TRec) : Bool := !x.getLsbD 71 && r.key == (9, 0, false)

/-- CPYX (R290, R296). -/
def execCpyx (w : Slot) (s : State) : Out :=
  issue { copyForm with a := .scalarReg, mod := 0xFFFC } (fun _ => decide (copySrc w ≤ 7) && decide (copyDst w ≤ 7)) noMore
    w s (fun k g =>
    let o := g.origin w w.imm.toNat
    let block := (g.s w.a.scalarIndex).toNat
    match s.copyPair g w isBytes with
    | .inr r => r
    | .inl (x, a, y, b) =>
      if block % 8 != 0 || !a.originOk o then rangeTrap s g
      else
        let s1 := s.foldCopy k g 0x302 w block
        let kind := match s.partOf (g.who k) with
          | .later c _ =>
            let l := s.copyLog c (copyKey g.gid g.copyPos)
            EngineKind.replayed l.bytes l.status
          | _ => .cpyx (w.mod.getLsbD 10) x y o (w.mod.extractLsb' 11 5).toNat block
        if 63 ≤ (s.unretired g.team .copy).length then .stay s
        else s1.admitOp k g { cls := .copy, team := g.team, group := k, slot := g.pc, kind := kind }
          ((block, 32) :: a.ranges o ++ b.ranges o))

/-- CPYR (R291, R296). -/
def execCpyr (w : Slot) (s : State) : Out :=
  let peer := w.mod.getLsbD 10
  let port := (w.mod.extractLsb' 11 4).toNat
  issue { copyForm with a := .scalarReg, mod := 0x7FFC, hint := false }
    (fun _ => decide (copySrc w ≤ 7) && decide (copyDst w ≤ 7) && (if peer then decide (port ≤ 8) else port = 0)) noMore
    w s (fun k g =>
    let o := g.origin w 0
    let flag := (g.s w.a.scalarIndex).toNat
    match s.copyPair g w (fun _ r => decide (r.rank ≤ 4)) with
    | .inr r => r
    | .inl (x, a, y, b) =>
      if flag % 8 != 0 || !a.originOk o then rangeTrap s g
      else
        let s1 := (s.foldCopy k g 0x303 w flag).compareEffect (g.who k)
          { gid := g.gid, op := 0x303, operands := [BitVec.ofNat 64 flag, BitVec.ofNat 64 (g.optional w.b),
            BitVec.ofNat 64 (g.optional w.c), w.imm.zeroExtend 64] }
        let kind := match s.partOf (g.who k) with
          | .later _ _ => EngineKind.suppressed
          | _ => .cpyr (if peer then some port else none) x y o (if w.a.scalarIndex = 0 then none else some flag) w.imm
        if 63 ≤ (s.unretired g.team .copy).length then .stay s
        else s1.admitOp k g { cls := .copy, team := g.team, group := k, slot := g.pc, kind := kind
                              portDown := peer && Tab.read PortState.down s.hub.ports port != .up }
          (a.ranges o ++ (if peer then [] else b.ranges o)))

/-! ## Gather and collective -/

/-- The input and output basins of GATH and COLL. -/
def inBasin (w : Slot) : Nat := (w.mod.extractLsb' 3 4).toNat
def outBasin (w : Slot) : Nat := (w.mod.extractLsb' 7 4).toNat

/-- GATH (R292). DESIGN CHOICE (log 100): A is a scalar or an immediate, B one of these or 0x000. -/
def execGath (w : Slot) (s : State) : Out :=
  issue { a := .scalarOrImm, b := { scalar := true, imm := true, zero := true }, mod := 0x7FF, hint := true } always noMore w s
    (fun k g =>
    let t := s.teamOf g
    let n := (s.scalarSource g w w.a).toNat
    let o := (s.scalarSource g w w.b).toNat % 2 ^ 32
    match s.copySide t false (w.mod.extractLsb' 0 3).toNat with
    | .tensor x r =>
      if r.rank ≠ 2 then recordFault s g
      else
        let bytes := r.extent 0 * r.ub
        let out := t.basin (outBasin w)
        match (t.basin (inBasin w)).elements (4 * n), out.elements (n * bytes) with
        | some i, some e =>
          if n = 0 || 65536 < n || out.esize ≠ bytes || !r.originOk [o] then rangeTrap s g
          else s.admitOp k g
            { cls := .gather, team := g.team, group := k, slot := g.pc, kind := .gath x n o, ins := [(inBasin w, i)]
              outs := [(outBasin w, e)] }
            (r.gatherRanges o)
        | _, _ => rangeTrap s g
    | _ => rangeTrap s g)

/-- The group's number in its cluster's members; the matching COLL operations of the cluster's teams (R293). -/
def State.matching (s : State) (g : Group) (round : Nat) : List (Nat × EngineOp) :=
  let t := s.teamOf g
  s.ops.filter (fun p => match p.2.kind with
    | .coll _ _ _ _ r _ none => r = round && (match s.team p.2.team with
      | some x => p.2.team = g.team || (t.cluster.isSome && x.cluster = t.cluster)
      | none => false)
    | _ => false)

/-- The member receives the result (R293). -/
def receives (all : Bool) (root member : Nat) : Bool := all || root = member

/-! ### Faults of engine operations -/

/-- The class number of an operation's cause (R375). -/
def EngineOp.clsBits (o : EngineOp) : BitVec 2 := BitVec.ofNat 2 o.cls.index

/-- The queue's header records a fault, and the queue is written (R294, R295). -/
def State.queueFault (s : State) (o : EngineOp) (code : Nat) : State :=
  (s.modTeam o.team (fun t => t.modEngineQueue o.cls (fun q => { q with halted := true, fault := some code }))).writeQueue
    o.team o.cls

/-- An operation stops at a fault, which its group is to take (R295, R385); one that is not resumed ends there (R414). -/
def State.engineFault (s : State) (key : Nat) (o : EngineOp) (code va : Nat) (ends : Bool) : State :=
  let c : Cause := { code := code, faddr := BitVec.ofNat 64 va, engine := some o.clsBits }
  let s1 := s.modOp key (fun x => { x with stopped := !ends, done := ends })
  let s2 := (s1.queueFault o code).modGroup o.group (fun g => { g with engFaults := g.engFaults ++ [(key, c)] })
  (s2.pokeWait o.group).tryExit o.group

/-- An operation contributes an element of another size than `size`. -/
def EngineOp.otherSize (o : EngineOp) (size : Nat) : Bool :=
  match o.kind with
  | .coll _ _ _ _ _ z _ => z != size
  | _ => false

/-- Element sizes differ among the matching operations of a COLL: its member takes the operand-range trap at issue. A member
whose own operation has already issued takes it as that operation's fault; the operation goes on after its handler and meets
the other members' next issue (R293; log 54). -/
def State.sizesDiffer (s : State) (g : Group) (round : Nat) : Result :=
  rangeTrap ((s.matching g round).foldl (fun a p => if p.2.stopped || p.2.done then a else a.engineFault p.1 p.2 0x07 0 false) s) g

/-- COLL (R293, R296). DESIGN CHOICE (log 100): A is a scalar or an immediate. -/
def execColl (w : Slot) (s : State) : Out :=
  let op := (w.mod.extractLsb' 0 2).toNat
  let all := w.mod.getLsbD 2
  issue { tys := [.f32, .s32, .u32, .b32], a := .scalarOrImm, mod := 0x7FF } (fun _ => decide (w.ty ≠ .b32) || decide (op = 0))
    noMore w s (fun k g =>
    let t := s.teamOf g
    let who := g.who k
    let root := (s.scalarSource g w w.a).toNat
    let size := (t.basin (inBasin w)).esize
    let round := t.collCount
    let takes := receives all root t.member
    let outs : Option (List (Nat × Nat)) :=
      if takes then ((t.basin (outBasin w)).elements size).map (fun n => [(outBasin w, n)]) else some []
    match (t.basin (inBasin w)).elements size, outs with
    | some _, some os =>
      if t.members ≤ root then rangeTrap s g
      else if (s.matching g round).any (fun p => p.2.otherSize size) then s.sizesDiffer g round
      else if 63 ≤ (s.unretired g.team .coll).length then .stay s
      else
        let s0 := s.foldOnce who 0x306 (BitVec.ofNat 64 root) 0 0 (w.imm.zeroExtend 64)
        let s1 := if os.isEmpty then s0.compareEffect who { gid := g.gid, op := 0x306, operands := [BitVec.ofNat 64 root] } else s0
        let start := fun (a : State) (logged : Option (List Byte)) (tainted : Tab (List Bool)) =>
          (a.modTeam g.team (fun x => { x with collCount := x.collCount + 1 })).admitOp k g
            { cls := .coll, team := g.team, group := k, slot := g.pc, kind := .coll op all w.ty root round size logged
              ins := [(inBasin w, 1)], outs := os, names := [outBasin w], tainted := tainted } []
        (match s1.partOf who with
        | .later c r =>
          if os.isEmpty then start s1 (some []) []
          else (match s1.readLog c r k g 0x306 0 [BitVec.ofNat 64 root] with
          | (some e, s2) => start s2 (some (logBytes e.values size)) (if e.fault.isSome then [(root, List.replicate size true)] else [])
          | (none, s2) => s2.differs k g)
        | _ =>
          if os.isEmpty then start s1 none []
          else start (s1.logFor who g.gid { op := 0x306, lanes := 0, operands := [BitVec.ofNat 64 root], values := [] }) none [])
    | _, _ => rangeTrap s g)

/-! ## Steps -/

/-- What one step of an engine operation comes to. -/
inductive Stepped where
  /-- The step is done; the operation as it is now, and whether it was the last step. -/
  | ok (s : State) (o : EngineOp) (last : Bool)
  /-- The operation stops before the step (R295, R383). -/
  | halt (s : State) (h : Halt)
  /-- The operation ends at a fault and is not resumed (R414). -/
  | fail (s : State) (code faddr : Nat)
  /-- The operation waits before the step. -/
  | wait (s : State)
  /-- The step is to be performed again for some sub-arrays of cores (R315). -/
  | again (s : State) (redo : List (Nat × Nat))
  /-- The run of a check has ended. -/
  | gone (s : State)

/-- The party of an engine operation. -/
def State.opWho (s : State) (o : EngineOp) : Who :=
  match s.group o.group with
  | some g => g.who o.group
  | none => { group := some o.group, team := some o.team, core := 0, ctx := 0, system := false }

/-- The group's %gid. -/
def State.opGid (s : State) (o : EngineOp) : Nat := match s.group o.group with
  | some g => g.gid
  | none => 0

/-- The part of each of the host's pieces is replaced by the log's bytes. -/
def spliceHost : List Piece → List Byte → List Byte → List Byte
  | [], _, _ => []
  | p :: ps, got, log =>
    if region p.pa = .host then log.take p.len ++ spliceHost ps (got.drop p.len) (log.drop p.len)
    else got.take p.len ++ spliceHost ps (got.drop p.len) log

/-- The bytes of host memory among what was read. -/
def hostBytes : List Piece → List Byte → List Byte
  | [], _ => []
  | p :: ps, got => (if region p.pa = .host then got.take p.len else []) ++ hostBytes ps (got.drop p.len)

/-- Read for a step: values of host memory are logged by an original and taken from the log by a later run (R350). -/
def State.stepRead (s : State) (o : EngineOp) (ps : List Piece) : Option (EngineGot × EngineOp) :=
  let who := s.opWho o
  let key := copyKey (s.opGid o) o.ordinal
  let got := s.engineRead who ps
  if !ps.any (fun p => region p.pa = .host) then some (got, o)
  else
    match s.partOf who with
    | .plain => some (got, o)
    | .original c =>
      some ({ got with state := got.state.appendLog c key { op := 0x301, lanes := 0, operands := [], values := logWords (hostBytes ps got.bytes) } }, o)
    | .later c _ =>
      match s.check c with
      | some x =>
        ((x.log.filter (fun e => e.gid = key))[o.logPos]?).map (fun e =>
          ({ got with bytes := spliceHost ps got.bytes (logBytes e.values (8 * e.values.length)) }, { o with logPos := o.logPos + 1 }))
      | none => some (got, o)

/-- A later run of the group has met a difference from the log (R349). -/
def State.stepDiffers (s : State) (o : EngineOp) : Stepped := .gone (s.stopRun o.group 0x31 o.slot)

/-- The position of an operation in its i-th input or output basin. -/
def EngineOp.inAt (o : EngineOp) (i : Nat) : Nat := match o.fired with
  | some (x, _) => nth 0 x i
  | none => 0

def EngineOp.outAt (o : EngineOp) (i : Nat) : Nat := match o.fired with
  | some (_, x) => nth 0 x i
  | none => 0

/-- What a row of a copy's source gives: its units' bytes, and the marks that go with them. -/
inductive RowGot where
  | ok (units : List (List Byte)) (marks : List (List Bool)) (bound : Bool) (s : State) (o : EngineOp)
  | halt (s : State) (h : Halt)
  | differs (s : State)

/-- Cut bytes, or their marks, into n units. -/
def cutUnits {α : Type} (ub : Nat) : Nat → List α → List (List α)
  | 0, _ => []
  | n + 1, bs => bs.take ub :: cutUnits ub n (bs.drop ub)

/-- The marks of a row's units as those of its bytes, outside bytes being zeros that no one has read. -/
def unitMarks (ub : Nat) (ms : List (List Bool)) : List Bool :=
  ms.flatMap (fun m => m ++ List.replicate (ub - m.length) false)

/-- Read one row of a tile for an operation. -/
def State.readRow (s : State) (o : EngineOp) (r : TRec) (units : List (Option UnitAt)) : RowGot :=
  let who := s.opWho o
  match s.enginePieces who .read (unitParts units) with
  | (.inr h, s1) => .halt s1 h
  | (.inl ps, s1) =>
    match s1.stepRead o ps with
    | none => .differs s1
    | some (got, o1) => .ok (rowData r.ub units got.bytes) (rowMarks units got.marks) got.bound got.state o1

/-- The operation has written these parts: the lines among them that lie on another die or in host memory are noted (R123). -/
def EngineOp.noteLines (o : EngineOp) (core : Nat) (ps : List Piece) : EngineOp :=
  { o with wrote := (o.wrote ++ (ps.flatMap (fun p => linesOf p.pa p.len)).filter (fun l => remote core (l * 128))).eraseDups }

/-- Write one row of a tile for an operation, its destination parts being checked first; what the walks of the checks set stays
when the step halts (R144). -/
def State.writeRow (s : State) (o : EngineOp) (checked bound : Bool) (units : List (Option UnitAt)) (ds : List (List Byte))
    (marks : List (List Bool)) : Sum (State × EngineOp) (State × Halt) :=
  let who := s.opWho o
  match s.enginePieces who .write (unitParts units) with
  | (.inr h, s1) => .inr (s1, h)
  | (.inl ps, s1) =>
    match confidentialFault bound ps with
    | some h => .inr (s1, h)
    | none => .inl (s1.engineWrite who checked (storeMarks units marks) (s1.rowStores who units ds ps), o.noteLines who.core ps)

/-- Check the destination parts of a row before anything is read (R295). -/
def State.checkRow (s : State) (o : EngineOp) (units : List (Option UnitAt)) : Option Halt × State :=
  match s.enginePieces (s.opWho o) .write (unitParts units) with
  | (.inr h, s1) => (some h, s1)
  | (.inl _, s1) => (none, s1)

/-- One tile row of a copy from a tensor to a tensor (R288, R412). -/
def State.tensorRow (s : State) (o : EngineOp) (checked : Bool) (a b : TRec) (origin : List Nat) (last : Bool) : Stepped :=
  match s.checkRow o (b.row origin o.prog) with
  | (some h, s1) => .halt s1 h
  | (none, s1) =>
    match s1.readRow o a (a.row origin o.prog) with
    | .halt s2 h => .halt s2 h
    | .differs s2 => s2.stepDiffers o
    | .ok ds marks bound s2 o1 =>
      match s2.writeRow o1 checked bound (b.row origin o.prog) ds marks with
      | .inl (s3, o2) => .ok s3 o2 last
      | .inr (s3, h) => .halt s3 h

/-- One step of a CPY (R288). -/
def State.cpyStep (s : State) (o : EngineOp) (t : Team) (src dst : CopyEnd) (origin : List Nat) : Stepped :=
  match src, dst with
  | .tensor x, .tensor y =>
    match s.tensor t x, s.tensor t y with
    | some a, some b => s.tensorRow o true a b origin (decide (a.rows ≤ o.prog + 1))
    | _, _ => .ok s o true
  | .tensor x, .basin b =>
    match s.tensor t x with
    | some a =>
      (match s.readRow o a (a.row origin o.prog) with
      | .halt s1 h => .halt s1 h
      | .differs s1 => s1.stepDiffers o
      | .ok ds marks _ s1 o1 =>
        .ok (s1.basinWrite o.team b (o.outAt 0) (o.prog * a.rowBytes) ds.flatten (unitMarks a.ub marks)) o1
          (decide (a.rows ≤ o.prog + 1)))
    | none => .ok s o true
  | .basin b, .tensor y =>
    match s.tensor t y with
    | some a =>
      let (bs, marks) := s.basinRead o.team b (o.inAt 0) (o.prog * a.rowBytes) a.rowBytes
      (match s.writeRow o true false (a.row origin o.prog) (cutUnits a.ub a.rowUnits bs) (cutUnits a.ub a.rowUnits marks) with
      | .inl (s1, o1) => .ok s1 o1 (decide (a.rows ≤ o.prog + 1))
      | .inr (s1, h) => .halt s1 h)
    | none => .ok s o true
  | .basin _, .basin _ => .ok s o true

/-- One word written by the device at a virtual address for an operation. -/
def State.wordWrite (s : State) (o : EngineOp) (va : Nat) (x : Word) : Sum State (State × Halt) :=
  match s.enginePieces (s.opWho o) .write (cutAtPages va 8) with
  | (.inr h, s1) => .inr (s1, h)
  | (.inl ps, s1) => .inl (s1.engineWrite (s1.opWho o) false [] [(va, ps, wordBytes 8 x)])

/-- The flag word of a CPYR is a release at SYS scope: earlier stores drain, an EXPOSE team's held bytes are committed, and the
flag waits until the host has answered every snoop for them (R105, R118, R123, R342). -/
def State.flagRelease (s : State) (o : EngineOp) (write : State → Stepped) : Stepped :=
  let s1 := s.release (s.opWho o) 5
  if s1.snoopsOwed then .wait s1 else write s1

/-- One step of a CPYR .die: a row, and at the end the flag word as a SYS-scope release (R123, R291). -/
def State.cpyrStep (s : State) (o : EngineOp) (t : Team) (x y : BitVec 512) (origin : List Nat) (flag : Option Nat)
    (value : BitVec 32) : Stepped :=
  match s.tensor t x, s.tensor t y with
  | some a, some b =>
    if o.prog < a.rows then s.tensorRow o false a b origin (flag.isNone && decide (a.rows ≤ o.prog + 1))
    else match flag with
      | some va => s.flagRelease o (fun a => match a.wordWrite o va (value.zeroExtend 64) with
        | .inl s1 => .ok s1 o true
        | .inr (s1, h) => .halt s1 h)
      | none => .ok s o true
  | _, _ => .ok s o true

/-- Bytes of a row that go to a peer: offset in the window, bytes, and whether poison goes with them. -/
def peerParts (units : List (Option UnitAt)) (ds : List (List Byte)) (marks : List (List Bool)) : List (Nat × List Byte × Bool) :=
  (List.zip units (List.zip ds marks)).filterMap (fun p => p.1.map (fun u => (u.va, p.2.1.take u.len, (p.2.2.take u.len).any id)))

/-- The size of a peer window (R413). -/
def peerWindowSize : Nat := 16 * 2 ^ 32

/-- One step of a CPYR .peer (R414). What the receiver's window and page table answer is left open; a copy that fails ends
with the device-error fault. -/
def State.peerStep (s : State) (o : EngineOp) (t : Team) (port : Nat) (x y : BitVec 512) (origin : List Nat) (flag : Option Nat)
    (value : BitVec 32) : Stepped :=
  match s.tensor t x, s.tensor t y with
  | some a, some b =>
    let up := Tab.read PortState.down s.hub.ports port = .up
    let (refused, s0) := s.freeBool
    if !up || o.portDown || refused then .fail s0 0x21 b.base
    else if o.prog < a.rows then
      match s0.readRow o a (a.row origin o.prog) with
      | .halt s1 h => .halt s1 h
      | .differs s1 => s1.stepDiffers o
      | .ok ds marks bound s1 o1 =>
        let parts := peerParts (b.row origin o.prog) ds marks
        match parts.find? (fun p => peerWindowSize < p.1 + p.2.1.length) with
        | some p => .fail s1 0x21 p.1
        | none =>
          if bound then .halt s1 (.fault 0x12 b.base)
          else .ok (parts.foldl (fun c p => c.send (.peerData port p.1 p.2.1 p.2.2)) s1) o1 (flag.isNone && decide (a.rows ≤ o.prog + 1))
    else match flag with
      | some va =>
        if peerWindowSize < va + 8 then .fail s0 0x21 va
        else s0.flagRelease o (fun a => .ok (a.send (.peerFlag port va (value.zeroExtend 64))) o true)
      | none => .ok s0 o true
  | _, _ => .ok s o true

/-- One step of a CPYX: a row's translations are checked; its bytes move when the key engine settles it (R411). -/
def State.cpyxStep (s : State) (o : EngineOp) (t : Team) (x y : BitVec 512) (origin : List Nat) : Stepped :=
  match s.tensor t x, s.tensor t y with
  | some a, some b =>
    if a.rows ≤ o.prog then .ok s o false
    else
      match s.enginePieces (s.opWho o) .read (unitParts (a.row origin o.prog)) with
      | (.inr h, s1) => .halt s1 h
      | (.inl _, s1) =>
        match s1.checkRow o (b.row origin o.prog) with
        | (some h, s2) => .halt s2 h
        | (none, s2) => .ok s2 o false
  | _, _ => .ok s o true

/-- A later run's CPYX: it holds and signs the bytes that the original's wrote, and signs its STATUS word (R296, R348). -/
def State.replayStep (s : State) (o : EngineOp) (writes : List (Nat × Nat × List Byte)) (status : List (Nat × Nat × Word)) :
    Stepped :=
  let who := s.opWho o
  let s0 := status.foldl (fun a p => a.signBytes who 0 p.1 (wordBytes 8 p.2.2)) s
  let s1 := s0.signWrites who 0 (writes.flatMap (fun p => atAddr p.1 p.2.2))
  let ws : Writes := (writes.map (fun p => atAddr p.2.1 p.2.2)).flatten
  let s2 := if ws.isEmpty then s1 else s1.holdBytes who id ws
  match s2.runOf who with
  | some (c, r) => .ok (s2.modRun c r (fun x => { x with statuses := x.statuses ++ status.map Prod.snd })) o true
  | none => .ok s2 o true

/-- One index of a GATH (R292). DESIGN CHOICE (log 101): poison of the index is dropped. -/
def State.gathStep (s : State) (o : EngineOp) (t : Team) (x : BitVec 512) (n origin : Nat) : Stepped :=
  match s.tensor t x, o.ins, o.outs with
  | some r, (i, _) :: _, (q, _) :: _ =>
    let (ib, _) := s.basinRead o.team i (o.inAt 0) (4 * o.prog) 4
    let row := leNat ib
    let one : TRec := { r with box := [nth 0 r.box 0, 1, 0, 0, 0], order := [0, 1] }
    (match s.readRow o one (one.row [origin, row] 0) with
    | .halt s1 h => .halt s1 h
    | .differs s1 => s1.stepDiffers o
    | .ok ds marks _ s1 o1 =>
      .ok (s1.basinWrite o.team q (o.outAt 0) (o.prog * one.rowBytes) ds.flatten (unitMarks one.ub marks)) o1
        (decide (n ≤ o.prog + 1)))
  | _, _, _ => .ok s o true

/-! ## COLL -/

/-- The identity of a position that no member fills (R254, R293). -/
def collIdentity (ty : Ty) (op : Nat) : Nat :=
  let rop := if op = 1 then 0 else if op = 2 then 1 else 2
  if ty = .f32 then fpIdentity rop else wrapInt (intIdentity ty rop) 32

/-- The combination of two 4-byte values (R87, R293). -/
def collNode (ty : Ty) (op x y : Nat) : Nat × FpFlags :=
  let rop := if op = 1 then 0 else if op = 2 then 1 else 2
  if ty = .f32 then fpCombine rop .rne false x y
  else (wrapInt (intCombine ty rop (readElem ty 32 x) (readElem ty 32 y)) 32, 0)

/-- The number of levels of the tree over M members. -/
def levels (m : Nat) : Nat := ((List.range 9).find? (fun i => decide (m ≤ 2 ^ i))).getD 9

/-- The element that the members' elements combine to (R293). -/
def collResult (ty : Ty) (op root members size : Nat) (captured : Tab (List Byte)) : List Byte :=
  if op = 0 then (Tab.find captured root).getD (List.replicate size 0)
  else
    let d := levels members
    ((List.range (size / 4)).map (fun i =>
      let vs := (List.range (2 ^ d)).map (fun m => match Tab.find captured m with
        | some bs => leNat ((bs.drop (4 * i)).take 4)
        | none => collIdentity ty op)
      leBytes 4 (treeReduce (collNode ty op) d vs 0).1)).flatten

/-- Member m of the operation's cluster has exited, or is not there (R293). -/
def State.memberGone (s : State) (t : Team) (m : Nat) : Bool :=
  if m = t.member then false
  else match t.cluster with
    | some c => match s.cluster c with
      | some x => !x.teams.any (fun k => match s.team k with
        | some y => y.member = m && y.residency != .exited
        | none => false)
      | none => true
    | none => true

/-- Every member has fired or exited. -/
def State.collReady (s : State) (o : EngineOp) (t : Team) : Bool :=
  (List.range t.members).all (fun m => (Tab.find o.captured m).isSome || s.memberGone t m)

/-- Which bytes of a COLL's element are made of poisoned ones: the root's own, or each word into which a member's goes (R120,
R293). -/
def collMarks (op root size : Nat) (tainted : Tab (List Bool)) : List Bool :=
  if op = 0 then Tab.read [] tainted root
  else (List.range (size / 4)).flatMap (fun i =>
    List.replicate 4 (tainted.any (fun p => ((p.2.drop (4 * i)).take 4).any id)))

/-- The one element of a COLL: poisoned where the elements that it is made of are (R120), and another member's data in the
scratchpad of a check's original perturb the check (R293, R296, R353). -/
def State.collStep (s : State) (o : EngineOp) (t : Team) (op : Nat) (all : Bool) (ty : Ty) (root size : Nat)
    (logged : Option (List Byte)) : Stepped :=
  let out := logged.getD (collResult ty op root t.members size o.captured)
  let marks := collMarks op root size o.tainted
  match o.outs with
  | (q, _) :: _ =>
    let s1 := s.basinWrite o.team q (o.outAt 0) 0 out marks
    let s2 := if logged.isNone && o.captured.any (fun p => p.1 != t.member) then s1.perturbPad o.team else s1
    (match s2.partOf (s2.opWho o) with
    | .original c =>
      .ok (s2.fillLog c (s2.opGid o) 0x306 0 (logWords out) (if marks.any id then some (0x20, 0) else none)) o true
    | _ => .ok s2 o true)
  | [] => .ok s o (all || true)

/-- The elements of a firing COLL, with their poison, reach the matching operations of its cluster, and theirs reach it (R120, R293). -/
def State.collFire (s : State) (key : Nat) (o : EngineOp) (t : Team) (round : Nat) (el : List Byte) (marks : List Bool) :
    State :=
  match s.group o.group with
  | none => s
  | some g =>
    let others := s.matching g round
    let known := others.foldl (fun (a : Tab (List Byte)) p => p.2.captured.foldl (fun b q => Tab.insert b q.1 q.2) a)
      (Tab.insert [] t.member el)
    let s1 := others.foldl (fun a p => a.modOp p.1 (fun x =>
      { x with captured := Tab.insert x.captured t.member el, tainted := Tab.write [] x.tainted t.member marks })) s
    s1.modOp key (fun x =>
      { x with captured := known
               tainted := others.foldl (fun a p => p.2.tainted.foldl (fun b q => Tab.insert b q.1 q.2) a)
                 (Tab.write [] x.tainted t.member marks) })

end Sys2Proof.Machine
end

