-- ==== Sys2Proof/Machine/Matrix.lean ====
section
/-!
DEFINITION. Matrix instructions (R297 to R317): ownership of a core's array, the issue checks of TCFG, MMA, MLDB, MSTO,
MZERO and MQ4, operand streams, and the steps of matrix operations.
-/

namespace Sys2Proof.Machine

open Sys2Proof

/-! ## Ownership -/

/-- Bytes of a matrix save slot (R298). -/
def saveSlotBytes : Nat := 528384

/-- Bytes that a team's image takes of the swap area (R388, R391). -/
def Team.imageBytes (t : Team) : Nat :=
  t.regBytes + t.scratchSize + 65536 + (if t.arraySave.isSome && !t.saveSlot then saveSlotBytes else 0)

/-- Bytes in use of a context's swap area. -/
def State.swapUsed (s : State) (ctx : Nat) : Nat :=
  (s.teams.map (fun p => if p.2.ctx = ctx then
    (if p.2.inSwap then p.2.imageBytes else 0) + (if p.2.saveSlot then saveSlotBytes else 0) else 0)).foldl (· + ·) 0

/-- The swap area of a context can hold n more bytes; context 0 has no swap area and no limit. -/
def State.swapRoom (s : State) (ctx n : Nat) : Bool :=
  match s.part ctx with
  | some p => decide (s.swapUsed ctx + n ≤ p.swapSize)
  | none => true

/-- The core of the partner site (R12). -/
def partnerCore (core : Nat) : Nat := coreDie core * 144 + partnerSite (coreSite core)

/-- An operation is an MMA.pair. -/
def EngineOp.isPair (o : EngineOp) : Bool :=
  match o.kind with
  | .mma _ _ _ p => p
  | _ => false

/-- The follower's team of an MMA.pair: the team of the same cluster, or of the paired replicas, on the partner's core
(R311, R317). -/
def State.followerOf (s : State) (t : Team) : Option (Nat × Team) :=
  s.teams.find? (fun p => p.2.core = partnerCore t.core && p.2.residency != .exited &&
    (match t.cluster, t.run with
      | some c, _ => p.2.cluster = some c
      | none, some (chk, r) => (match s.check chk with
        | some x => (match x.pair with
          | some q => p.2.run = some (q, r)
          | none => false)
        | none => false)
      | none, none => false))

/-- A matrix operation has begun. -/
def EngineOp.begun (o : EngineOp) : Bool := o.prog != 0 || o.paid != 0 || !o.redo.isEmpty

/-- The core whose array an MMA.pair has beside its leader's: that of the follower's team, or one that this team has left by its
exit and nobody has claimed (R297, R311). -/
def State.pairArray (s : State) (o : EngineOp) : Option Nat :=
  match o.follower, s.team o.team with
  | some f, some t =>
    let core := partnerCore t.core
    let left := match s.team f with
      | some y => y.residency = .exited
      | none => true
    if (s.core core).owner = some f || ((s.core core).owner.isNone && left) then some core else none
  | _, _ => none

/-- A core's array is slaved to an MMA.pair of its partner: from the start of the operation until it retires, but not while the
pair's teams are away and their arrays released (R311, R314, R388). -/
def State.slaved (s : State) (core : Nat) : Bool :=
  s.ops.any (fun p => p.2.begun && s.pairArray p.2 = some core && (match s.team p.2.team with
    | some t => t.residency = .resident
    | none => false))

/-- The array passes to a team: what its save slot holds, or a fresh claim (R297, R298). -/
def State.giveArray (s : State) (core team : Nat) : State :=
  let saved := match s.team team with
    | some t => t.arraySave
    | none => none
  (s.modCore core (fun c => { c with owner := some team, array := saved.getD {} })).modTeam team
    (fun t => { t with arraySave := none })

/-- A team takes its core's array (R297, R298); none while it has to wait for the owner or for a save slot. -/
def State.takeArray (s : State) (core team : Nat) : Option State :=
  match (s.core core).owner with
  | none => if s.slaved core then none else some (s.giveArray core team)
  | some o =>
    if o = team then some s
    else
      match s.team o with
      | none => some (s.giveArray core team)
      | some t =>
        if !(s.unretired o .matrix).isEmpty || s.slaved core then none
        else if t.saveSlot || s.swapRoom t.ctx saveSlotBytes then
          some ((s.modTeam o (fun x => { x with saveSlot := true, arraySave := some (s.core core).array })).giveArray core team)
        else none

/-- Change a core's array. -/
def State.modArray (s : State) (core : Nat) (f : MatrixArray → MatrixArray) : State :=
  s.modCore core (fun c => { c with array := f c.array })

/-! ## Issue -/

/-- A matrix instruction that acts takes the stopped array's fault, or waits for the array, before its issue checks; an
elected one acts with one lane only (R298, R302, R316). DESIGN CHOICE (log 112): the number of lanes is judged before the recorded
fault, and the recorded fault before the instruction's other checks. -/
def State.matrixIssue (s : State) (k : Nat) (g : Group) (w : Slot) (elected : Bool) (body : State → MatrixArray → Result) :
    Result :=
  let n := (lanesOf (g.lanes w) g.width).length
  if elected && n = 0 then .done s
  else if elected && n != 1 then rangeTrap s g
  else
    match s.arrayFault g with
    | some (c, slot) => .moved (s.takeArrayFault k g c slot)
    | none =>
      if 63 ≤ (s.unretired g.team .matrix).length then .stay s
      else match s.takeArray g.core g.team with
        | none => .stay s
        | some s1 => body s1 (s1.core g.core).array

/-- The operation of a matrix instruction. -/
def Group.matrixOp (g : Group) (k : Nat) (kind : EngineKind) (ins outs : List (Nat × Nat)) : EngineOp :=
  { cls := .matrix, team := g.team, group := k, slot := g.pc, kind := kind, ins := ins, outs := outs }

/-- The form of an elected instruction. -/
def electedForm : Form := { lanes := true }

/-! ## Formats of operands (R306, R307) -/

/-- A defined slot that is no FP32 slot (R81, R306). -/
def matrixSlot (d : BitVec 64) : Bool := slotV d && decide (slotEfmt d ≠ 1)

/-- Elements of a K step, κ (R306): 48 bytes of elements. -/
def kappa (d : BitVec 64) : Nat := 384 / efmtWidth (slotEfmt d)

/-- The slot holds integers. -/
def isIntSlot (d : BitVec 64) : Bool := decide (9 ≤ slotEfmt d)

/-- Inline scales. -/
def isInline (d : BitVec 64) : Bool := decide (slotGeom d ≠ 0) && !slotPlace d

/-- Two slots are alike: the same element bits, and both integer or both floating point (R310). -/
def slotsAlike (a b : BitVec 64) : Bool :=
  efmtWidth (slotEfmt a) = efmtWidth (slotEfmt b) && isIntSlot a == isIntSlot b

/-- A slot needs a side stream (R307). -/
def needsSide (d : BitVec 64) : Bool := slotPlace d || slotBand d

/-- The bytes of one row of s steps; none where K is no multiple of 32 of an inline slot (R306), or of 2:4 compressed
data (R309). -/
def rowBytesOf (d : BitVec 64) (sp : Bool) (s : Nat) : Option Nat :=
  let k := s * kappa d
  if isInline d then
    (if k % 32 = 0 then some (k / 32 * chunkBytes (efmtWidth (slotEfmt d)) (slotGeom d)) else none)
  else if sp then some (24 * s + k / 8)
  else some (48 * s)

/-- Bytes of one scale entry of separate scales (R78). -/
def entryBytes (d : BitVec 64) : Nat := if slotGeom d = 2 then 2 else 1

/-- Bytes of the band scales of n rows (R307). -/
def bandBytes (d : BitVec 64) (n : Nat) : Nat := if slotBand d then 2 * ceilDiv n 64 else 0

/-- Scale entries of one row, in bytes. -/
def rowScaleBytes (d : BitVec 64) (s : Nat) : Nat :=
  if slotPlace d then s * kappa d / blockSize (slotGeom d) * entryBytes d else 0

/-- The bytes of the side stream; none where K is no multiple of B (R307). -/
def sideBytes (d : BitVec 64) (n s : Nat) : Option Nat :=
  if slotPlace d && s * kappa d % blockSize (slotGeom d) != 0 then none else some (bandBytes d n + n * rowScaleBytes d s)

/-- The input elements of an operand of n rows in its basin and its side basin (R286, R306, R307). -/
def Team.operand (t : Team) (d : BitVec 64) (sp : Bool) (n s basin side : Nat) : Option (List (Nat × Nat)) :=
  match rowBytesOf d sp s, sideBytes d n s with
  | some rb, some sb =>
    match (t.basin basin).elements (n * rb) with
    | none => none
    | some i =>
      if needsSide d then ((t.basin side).elements sb).map (fun j => [(basin, i), (side, j)]) else some [(basin, i)]
  | _, _ => none

/-! ## Elements -/

/-- Code e of a packed run (R71). -/
def packedCode (bs : List Byte) (w e : Nat) : Nat := bits (leNat ((bs.drop (w * e / 8)).take 3)) (w * e % 8) w

/-- Bytes of codes of w bits, packed (R71). -/
def packCodes (w : Nat) (cs : List Nat) : List Byte :=
  leBytes (ceilDiv (w * cs.length) 8) (((List.range cs.length).map (fun i => nth 0 cs i % 2 ^ w * 2 ^ (w * i))).foldl (· + ·) 0)

/-- One row of an operand: its stream, its scale entries and its band scale. -/
structure MatrixRow where
  data : List Byte
  scales : List Byte
  band : Exact

/-- Row i of an operand of n rows, from its stream and its side stream (R306, R307). -/
def matrixRow (d : BitVec 64) (rb n s : Nat) (data side : List Byte) (i : Nat) : MatrixRow :=
  let sb := rowScaleBytes d s
  { data := (data.drop (i * rb)).take rb
    scales := ((side.drop (bandBytes d n + i * sb)).take sb)
    band := if slotBand d then decodeFloat bf16 (leNat ((side.drop (2 * (i / 64))).take 2)) else .one }

/-- The scale code and the micro-exponent bit of element e (R75, R78). -/
def elementScale (d : BitVec 64) (r : MatrixRow) (e : Nat) : Nat × Bool :=
  let byteAt := fun (bs : List Byte) (i : Nat) => (nth 0 bs i).toNat
  if slotPlace d then
    let b := e / blockSize (slotGeom d)
    if slotGeom d = 2 then (byteAt r.scales (2 * b), bit (byteAt r.scales (2 * b + 1)) (e % 16 / 2))
    else (byteAt r.scales b, false)
  else
    let w := efmtWidth (slotEfmt d)
    let tail := r.data.drop (e / 32 * chunkBytes w (slotGeom d) + 4 * w)
    let b := e % 32 / blockSize (slotGeom d)
    if slotGeom d = 2 then (byteAt tail b, bit (byteAt tail (2 + b)) (e % 16 / 2)) else (byteAt tail b, false)

/-- The code of element e; none for a position that 2:4 decompression fills (R309). -/
def elementCode (d : BitVec 64) (sp : Bool) (s : Nat) (r : MatrixRow) (e : Nat) : Option Nat :=
  let w := efmtWidth (slotEfmt d)
  if isInline d then some (packedCode (r.data.drop (e / 32 * chunkBytes w (slotGeom d))) w (e % 32))
  else if sp then
    let m := bits (nth 0 r.data (24 * s + e / 8)).toNat (4 * (e / 4 % 2)) 4
    let i0 := m % 4
    let i1 := m / 4
    if i1 ≤ i0 then none
    else if e % 4 = i0 then some (packedCode r.data w (2 * (e / 4)))
    else if e % 4 = i1 then some (packedCode r.data w (2 * (e / 4) + 1))
    else none
  else some (packedCode r.data w e)

/-- The value of element e of a row (R77, R90). -/
def elementValue (d : BitVec 64) (sp : Bool) (s : Nat) (r : MatrixRow) (e : Nat) : Option Exact :=
  (elementCode d sp s r e).map (fun c =>
    if slotGeom d = 0 then decodeElem d c
    else decodeScaled d c (elementScale d r e).1 (elementScale d r e).2 r.band)

/-- The elements of step n of a row. -/
def stepElements (d : BitVec 64) (sp : Bool) (s : Nat) (r : MatrixRow) (n : Nat) : List (Option Exact) :=
  (List.range (kappa d)).map (fun i => elementValue d sp s r (kappa d * n + i))

/-! ## Accumulation -/

/-- A product of a step; a position that decompression fills contributes +0 (R90, R309). -/
def stepProduct (x y : Option Exact) : Exact :=
  match x, y with
  | some a, some b => (a.mul b).1
  | _, _ => .zero false

/-- exact_step_sum (R90). -/
def stepSum (xs ys : List (Option Exact)) : Exact :=
  match List.zipWith stepProduct xs ys with
  | [] => .zero false
  | p :: ps => ps.foldl (fun a q => (a.add false q).1) p

/-- The integer of an exact integer value. -/
def Exact.toInt : Exact → Int
  | .fin s n _ _ => if s then -(n : Int) else n
  | _ => 0

/-- One step of one output word (R90, R91). -/
def accumulate (int : Bool) (c : BitVec 32) (xs ys : List (Option Exact)) : BitVec 32 :=
  if int then BitVec.ofInt 32 (c.toNat + (stepSum xs ys).toInt)
  else BitVec.ofNat 32 (round fp32 .rne ((decodeFloat fp32 c.toNat).add false (stepSum xs ys)).1).code

/-- Word (i, j) of a tile (R304). -/
def MatrixArray.at (a : MatrixArray) (t cols i j : Nat) : BitVec 32 := Tab.read 0 a.words (t * 65536 + i * cols + j)

/-- Replace every word of a tile. -/
def MatrixArray.setTile (a : MatrixArray) (t : Nat) (ws : List (BitVec 32)) : MatrixArray :=
  let lo := t * 65536
  let new := ((List.range ws.length).map (fun i => (lo + i, nth 0 ws i))).filter (fun p => p.2 != 0)
  { a with words := a.words.filter (fun p => p.1 < lo) ++ new ++ a.words.filter (fun p => lo + 65536 ≤ p.1) }

/-- One step on a tile: every word by its row's and its column's elements. -/
def MatrixArray.stepTile (a : MatrixArray) (t rows cols : Nat) (int : Bool) (xs ys : List (List (Option Exact))) : MatrixArray :=
  a.setTile t (((List.range rows).map (fun i => (List.range cols).map (fun j =>
    accumulate int (a.at t cols i j) (nth [] xs i) (nth [] ys j)))).flatten)

/-! ## TCFG and MZERO -/

/-- The tile field of TCFG for a tile: its rows and columns; none where exactly one of them is zero (R304). -/
def tileField (a b : Word) (t : Nat) : Option (Nat × Nat) :=
  let f := bits (if t < 4 then a.toNat else b.toNat) (16 * (t % 4)) 16
  if (f % 256 = 0) != (f / 256 = 0) then none else some (16 * (f % 256), 16 * (f / 256))

/-- TCFG (R304). -/
def execTcfg (w : Slot) (s : State) : Out :=
  issue { electedForm with a := .scalarOrImm, b := .scalarOrImm } always noMore w s (fun k g =>
    s.matrixIssue k g w true (fun s1 _ =>
      let x := s1.scalarSource g w w.a
      let y := s1.scalarSource g w w.b
      let fields := (List.range 8).map (tileField x y)
      let tiles : Tab (Nat × Nat) := (List.range 8).filterMap (fun t => match tileField x y t with
        | some (r, c) => if r = 0 then none else some (t, (r, c))
        | none => none)
      if fields.any Option.isNone || decide (65536 < (tiles.map (fun p => p.2.1 * p.2.2)).foldl (· + ·) 0) then rangeTrap s1 g
      else .done ((s1.modArray g.core (fun a => { a with view := tiles })).submit k g (g.matrixOp k (.tcfg tiles) [] []))))

/-- MZERO (R305). -/
def execMzero (w : Slot) (s : State) : Out :=
  issue { electedForm with mod := 0xFF } always noMore w s (fun k g =>
    s.matrixIssue k g w true (fun s1 a =>
      let mask := w.mod.extractLsb' 0 8
      if (List.range 8).any (fun t => mask.getLsbD t && (Tab.find a.view t).isNone) then rangeTrap s1 g
      else .done (s1.submit k g (g.matrixOp k (.mzero mask) [] []))))

/-! ## MLDB -/

/-- A field of MOD. -/
def modField (w : Slot) (lo n : Nat) : Nat := (w.mod.extractLsb' lo n).toNat

/-- The side-basin field is 0 when its enable bit is clear, and the enable bit fits the slot (R301, R307). -/
def sideOk (d : BitVec 64) (on : Bool) (side : Nat) : Bool := (on || side = 0) && on == needsSide d

/-- Bytes of the weight buffer that a panel occupies (R308). -/
def Panel.occupancy (p : Panel) : Nat := p.cols * p.steps * (if p.sparse then 32 else 64)

/-- A new panel descriptor; every other panel that it overlaps becomes invalid (R308). -/
def putPanel (ps : Tab Panel) (i : Nat) (p : Panel) : Tab Panel :=
  Tab.insert (ps.filter (fun q => q.2.offset + q.2.occupancy ≤ p.offset || p.offset + p.occupancy ≤ q.2.offset)) i p

/-- MLDB (R308, R309). -/
def execMldb (w : Slot) (s : State) : Out :=
  let basin := modField w 0 4
  let side := modField w 4 4
  let index := modField w 9 4
  let sp := w.mod.getLsbD 16
  let desc := fun (g : Group) => s.slotDesc g (modField w 13 3)
  issue { electedForm with a := .scalarOrImm, b := .scalarOrImm, c := .scalarOrImm, mod := 0x1FFFF }
    (fun g => matrixSlot (desc g) && sideOk (desc g) (w.mod.getLsbD 8) side && !(sp && isInline (desc g))) noMore w s
    (fun k g => s.matrixIssue k g w true (fun s1 _ =>
      let d := desc g
      let n := (s1.scalarSource g w w.b).toNat
      let p : Panel := { offset := (s1.scalarSource g w w.a).toNat, cols := n, steps := (s1.scalarSource g w w.c).toNat
                         slot := d, sparse := sp, data := [], side := [] }
      if p.offset % 128 != 0 || n % 16 != 0 || n < 16 || 4080 < n || p.steps < 1 || 4096 < p.steps ||
          262144 < p.offset + p.occupancy then rangeTrap s1 g
      else match (s1.teamOf g).operand d sp n p.steps basin side with
        | none => rangeTrap s1 g
        | some ins => .done ((s1.modArray g.core (fun a => { a with viewPanels := putPanel a.viewPanels index p })).submit k g
            (g.matrixOp k (.mldb index p) ins []))))

/-! ## MMA -/

/-- The launch of a group is PAIRED (R47). -/
def State.isPaired (s : State) (g : Group) : Bool :=
  match (s.teamOf g).launch with
  | some seq => (match s.launch seq with
    | some l => l.record.paired
    | none => false)
  | none => false

/-- A paired operation of the even site comes before one of the odd site that has not begun, which arrives anew (R311). -/
def State.evenFirst (s : State) (t : Team) : State :=
  if coreSite t.core % 2 = 0 then
    match s.followerOf t with
    | some (f, _) => { s with ops := Tab.mapWith (fun _ o => if o.team = f && o.isPair && !o.begun then { o with arrived := none, follower := none } else o) s.ops }
    | none => s
  else s

/-- MMA (R310, R311). -/
def execMma (w : Slot) (s : State) : Out :=
  let tile := modField w 0 3
  let side := modField w 7 4
  let index := modField w 12 4
  let pair := w.mod.getLsbD 19
  let desc := fun (g : Group) => s.slotDesc g (modField w 16 3)
  issue { electedForm with mod := 0xFFFFF }
    (fun g => matrixSlot (desc g) && sideOk (desc g) (w.mod.getLsbD 11) side && (!pair || s.isPaired g)) noMore w s
    (fun k g => s.matrixIssue k g w true (fun s1 a =>
      let d := desc g
      match Tab.find a.view tile, Tab.find a.viewPanels index with
      | some (rows, cols), some p =>
        if p.cols ≠ cols || !slotsAlike d p.slot then rangeTrap s1 g
        else (match (s1.teamOf g).operand d false rows p.steps (modField w 3 4) side with
          | none => rangeTrap s1 g
          | some ins =>
            let s2 := if pair then s1.evenFirst (s1.teamOf g) else s1
            .done (s2.submit k g (g.matrixOp k (.mma tile index d pair) ins [])))
      | _, _ => rangeTrap s1 g))

/-! ## MSTO -/

/-- The bytes of one row of MSTO; none where a scaled row is no multiple of 32 (R312). -/
def storeRowBytes (cv : Bool) (d : BitVec 64) (cols : Nat) : Option Nat :=
  let w := efmtWidth (slotEfmt d)
  if !cv then some (4 * cols)
  else if slotGeom d = 0 then some (cols * w / 8)
  else if cols % 32 = 0 then some (cols / 32 * chunkBytes w (slotGeom d))
  else none

/-- A slot that MSTO.cv may name (R81, R312). -/
def storeSlotOk (d : BitVec 64) : Bool := slotV d && (slotGeom d = 0 || (!slotPlace d && !slotBand d))

/-- MSTO (R312): the stochastic count advances at issue. -/
def execMsto (w : Slot) (s : State) : Out :=
  let tile := modField w 0 3
  let out := modField w 3 4
  let cv := w.mod.getLsbD 7
  let s32 := w.mod.getLsbD 12
  let desc := fun (g : Group) => s.slotDesc g (modField w 8 3)
  issue { electedForm with mod := 0x1FFF }
    (fun g => (cv || !s32) && (!cv || storeSlotOk (desc g))) noMore w s
    (fun k g => s.matrixIssue k g w true (fun s1 a =>
      let d := if cv then desc g else 0
      match Tab.find a.view tile with
      | none => rangeTrap s1 g
      | some (rows, cols) =>
        match storeRowBytes cv d cols with
        | none => rangeTrap s1 g
        | some rb =>
          match ((s1.teamOf g).basin out).elements (rows * rb) with
          | none => rangeTrap s1 g
          | some n => .done ((s1.submit k g (g.matrixOp k (.msto tile cv s32 (w.mod.getLsbD 11) d g.stoch) [] [(out, n)])).modGroup k
              (fun x => x.countStochastic d cv))))

/-! ## MQ4 -/

/-- The block of a fusion: A rows, B columns, and the rows and columns of the tile that it updates (R313). -/
def fusion (f : Nat) : Nat × Nat × Nat × Nat :=
  if f = 0 then (8, 32, 8, 32) else if f = 1 then (16, 16, 16, 16) else if f = 2 then (32, 8, 32, 8) else (32, 32, 32, 8)

/-- Registers that n rows of 48 bytes cover at a width (R313). -/
def imageRegs (n width : Nat) : Nat := ceilDiv (n * 48) (4 * width)

/-- The byte image of n registers from r on (R313). -/
def Group.image (g : Group) (r n : Nat) : List Byte :=
  ((List.range n).map (fun i => ((List.range g.width).map (fun l => leBytes 4 (g.v (r + i) l).toNat)).flatten)).flatten

/-- The width of the group whose instruction issues. -/
def State.curWidth (s : State) : Nat := match s.group s.cur with
  | some g => g.width
  | none => 16

/-- A slot that MQ4 may name (R313). -/
def stepSlotOk (d : BitVec 64) : Bool := matrixSlot d && decide (slotGeom d = 0)

/-- MQ4 (R313). -/
def execMq4 (w : Slot) (s : State) : Out :=
  let tile := modField w 0 3
  let fuse := modField w 3 2
  let (ar, bc, rows, cols) := fusion fuse
  let na := imageRegs ar s.curWidth
  let nb := imageRegs bc s.curWidth
  let da := fun (g : Group) => s.slotDesc g (modField w 5 3)
  let db := fun (g : Group) => s.slotDesc g (modField w 8 3)
  issue { a := { vec := true }, b := { vec := true }, c := .scalarOrImm, mod := 0x7FF, na := some na, nb := some nb, anyIndex := true }
    (fun g => stepSlotOk (da g) && stepSlotOk (db g) && slotsAlike (da g) (db g)) noMore w s
    (fun k g => s.matrixIssue k g w false (fun s1 a =>
      let c := (s1.scalarSource g w w.c).toNat
      let row := c % 65536
      let col := c / 65536 % 65536
      match Tab.find a.view tile with
      | none => rangeTrap s1 g
      | some (r, n) =>
        if row % 8 != 0 || col % 8 != 0 || r < row + rows || n < col + cols then rangeTrap s1 g
        else .done (s1.submit k g (g.matrixOp k
          (.mq4 tile fuse (da g) (db g) (g.image w.a.vecIndex na) (g.image w.b.vecIndex nb) row col) [] []))))

/-! ## Steps -/

/-- The scratchpad line of the first poisoned byte of a part of a stream. -/
def State.streamPoison (s : State) (team b pos off n : Nat) : Option Nat :=
  match s.team team with
  | some t => ((List.range n).find? (fun i => t.poison.contains (lineNo ((t.basin b).offset pos (off + i))))).map
      (fun i => (t.basin b).offset pos (off + i) / 128 * 128)
  | none => none

/-- The bytes of a basin's stream for an operation's i-th input. -/
def State.opStream (s : State) (o : EngineOp) (i n : Nat) : List Byte :=
  match o.ins[i]? with
  | some (b, _) => (s.basinRead o.team b (o.inAt i) 0 n).1
  | none => []

/-- The first poisoned line of a part of an operation's i-th input. -/
def State.opPoison (s : State) (o : EngineOp) (i off n : Nat) : Option Nat :=
  match o.ins[i]? with
  | some (b, _) => s.streamPoison o.team b (o.inAt i) off n
  | none => none

/-- The part of a row's stream that step n reads: its first byte and its length. -/
def stepPart (d : BitVec 64) (n : Nat) : Nat × Nat :=
  if isInline d then
    let c := chunkBytes (efmtWidth (slotEfmt d)) (slotGeom d)
    let lo := kappa d * n / 32
    let hi := (kappa d * (n + 1) - 1) / 32
    (lo * c, (hi + 1 - lo) * c)
  else (48 * n, 48)

/-- The rows of an operand with its streams, for one step. -/
def operandStep (d : BitVec 64) (sp : Bool) (rows s : Nat) (data side : List Byte) (n : Nat) : List (List (Option Exact)) :=
  let rb := (rowBytesOf d sp s).getD 0
  (List.range rows).map (fun i => stepElements d sp s (matrixRow d rb rows s data side i) n)

/-- The columns of a panel for one step. -/
def Panel.step (p : Panel) (n : Nat) : List (List (Option Exact)) := operandStep p.slot p.sparse p.cols p.steps p.data p.side n

/-- One K step of an MMA on one core (R310). -/
def State.mmaOn (s : State) (core tile index : Nat) (int : Bool) (xs : List (List (Option Exact))) (n : Nat) : State :=
  s.modArray core (fun a => match Tab.find a.config tile, Tab.find a.panels index with
    | some (rows, cols), some p => a.stepTile tile rows cols int xs (p.step n)
    | _, _ => a)

/-- A mismatch that the retry corrected is counted for the sub-array (R315, R367). -/
def State.countRetry (s : State) (core k : Nat) : State :=
  s.modSite (coreDie core) (coreSite core) (fun h =>
    { h with retries := if h.retries.extractLsb' (2 * k) 2 = 3 then h.retries else h.retries + (1#8 <<< (2 * k)) })

/-- A second mismatch marks the sub-array, charges the core and is recorded (R315, R357, R368). -/
def State.residueFault (s : State) (core k : Nat) : State :=
  let d := coreDie core
  let i := coreSite core
  let s1 := (s.modSite d i (fun h => { h with subSuspect := h.subSuspect ||| (1#4 <<< k) })).addDemerits d i 1
  let owner := (s.core core).owner.bind s.team
  let launch := (owner.bind Team.launch).getD 0
  let id := (owner.map Team.teamId).getD 0
  (s1.addEvent 0x06 d i 4 k (s1.demerits d i) (BitVec.ofNat 64 launch) 0 (BitVec.ofNat 32 id)).fenceIfDue d i false

/-- Where the residue check of a K step finds a mismatch: cores and sub-arrays, each of which takes a retry that is counted; what the
arrays compute wrongly is left open. Hub cores have no array to check (R315, R366). -/
def State.mismatches (s : State) : List (Nat × Nat) → List (Nat × Nat) × State
  | [] => ([], s)
  | (c, k) :: rest =>
    let r := s.freeBool
    if r.1 && decide (c < 576) then
      let q := (r.2.countHealth (coreDie c) 7).mismatches rest
      ((c, k) :: q.1, q.2)
    else r.2.mismatches rest

/-- The retries of a K step: each corrects its sub-array, or finds a second mismatch, which is a residue fault; every sub-array
that retried gets its count or its fault (R315). -/
def State.retried (s : State) : List (Nat × Nat) → Bool × State
  | [] => (false, s)
  | (c, k) :: rest =>
    let again := s.freeBool
    let r := (if again.1 then again.2.residueFault c k else again.2.countRetry c k).retried rest
    (again.1 || r.1, r.2)

/-- The residue checks of a K step on some cores, `perform` being the step with its results: a mismatch discards the results of its
sub-array and holds the step until it has been performed again, at the price of the retry, and a second mismatch is a fault
(R303, R315, R316; log 88). -/
def State.residueChecked (s : State) (o : EngineOp) (cores : List Nat) (perform : State → Stepped) : Stepped :=
  if o.redo.isEmpty then
    let r := s.mismatches (cores.flatMap (fun c => [0, 1, 2, 3].map (fun k => (c, k))))
    if r.1.isEmpty then perform r.2 else .again r.2 r.1
  else
    let r := s.retried o.redo
    if r.1 then .halt r.2 (.fault 0x22 0) else perform r.2

/-- One K step of an MMA; a poisoned part of its streams, or a residue fault, stops it before the step (R310, R311, R315,
R316). DESIGN CHOICE (log 108): every step reads the whole side stream. -/
def State.mmaStep (s : State) (o : EngineOp) (t : Team) (tile index : Nat) (d : BitVec 64) : Stepped :=
  let a := (s.core t.core).array
  match Tab.find a.config tile, Tab.find a.panels index with
  | some (rows, _), some p =>
    let rb := (rowBytesOf d false p.steps).getD 0
    let sb := (sideBytes d rows p.steps).getD 0
    let (off, len) := stepPart d o.prog
    let bad := ((List.range rows).filterMap (fun i => s.opPoison o 0 (i * rb + off) len)).head?
    (match bad, (if needsSide d then s.opPoison o 1 0 sb else none) with
    | some x, _ => .halt s (.fault 0x20 x)
    | none, some x => .halt s (.fault 0x20 x)
    | none, none =>
      let xs := operandStep d false rows p.steps (s.opStream o 0 (rows * rb)) (s.opStream o 1 sb) o.prog
      let cores := t.core :: (s.pairArray o).toList
      s.residueChecked o cores (fun s0 =>
        .ok (cores.foldl (fun a c => a.mmaOn c tile index (isIntSlot d) xs o.prog) s0) o (decide (p.steps ≤ o.prog + 1))))
  | _, _ => .ok s o true

/-- The input bytes of an MLDB: of its stream and of its side stream. -/
def Panel.inputs (p : Panel) : Nat × Nat :=
  (p.cols * (rowBytesOf p.slot p.sparse p.steps).getD 0, (sideBytes p.slot p.cols p.steps).getD 0)

/-- One column of an MLDB, which reads the whole side stream (log 108); the panel is in place after the last (R308). -/
def State.mldbStep (s : State) (o : EngineOp) (t : Team) (index : Nat) (p : Panel) : Stepped :=
  let rb := (rowBytesOf p.slot p.sparse p.steps).getD 0
  let (n, m) := p.inputs
  match s.opPoison o 0 (o.prog * rb) rb, (if needsSide p.slot then s.opPoison o 1 0 m else none) with
  | some x, _ => .halt s (.fault 0x20 x)
  | none, some x => .halt s (.fault 0x20 x)
  | none, none =>
    if o.prog + 1 < p.cols then .ok s o false
    else
      let full := { p with data := s.opStream o 0 n, side := s.opStream o 1 m }
      .ok (s.modArray t.core (fun a => { a with panels := putPanel a.panels index full })) o true

/-- The codes and scales of a chunk of 32 values of MSTO (R78, R84). -/
def storeChunk (d : BitVec 64) (mode : Nat → SlotMode) (xs : List Exact) : List Byte × FpFlags :=
  let n := blockSize (slotGeom d)
  let qs := (List.range (32 / n)).map (fun b => quantiseBlock d ((xs.drop (b * n)).take n) .one (fun i => mode (b * n + i)))
  let scales := qs.map (fun q => BitVec.ofNat 8 q.scale)
  let micros := if slotGeom d = 2 then qs.map (fun q => BitVec.ofNat 8 (microByte q.micro)) else []
  (packCodes (efmtWidth (slotEfmt d)) ((qs.map Quantised.codes).flatten) ++ scales ++ micros,
   qs.foldl (fun a q => a ||| q.flags) 0)

/-- The bytes of one row of MSTO and its flags; `mode` is by position in the row (R312). -/
def storeRow (cv s32 : Bool) (d : BitVec 64) (mode : Nat → SlotMode) (ws : List (BitVec 32)) : List Byte × FpFlags :=
  if !cv then ((ws.map (fun x => leBytes 4 x.toNat)).flatten, 0)
  else
    let xs := ws.map (fun x => if s32 then Exact.ofInt (signedOf x.toNat 32) else decodeFloat fp32 x.toNat)
    if slotGeom d = 0 then
      let es := (List.range xs.length).map (fun j => encodeElem d (mode j) false (nth .nan xs j))
      (packCodes (efmtWidth (slotEfmt d)) (es.map Prod.fst), es.foldl (fun a e => a ||| e.2) 0)
    else
      let cs := (List.range (xs.length / 32)).map (fun c => storeChunk d (fun i => mode (32 * c + i)) ((xs.drop (32 * c)).take 32))
      ((cs.map Prod.fst).flatten, cs.foldl (fun a c => a ||| c.2) 0)

/-- One row of an MSTO; .z clears the tile after the last (R312). -/
def State.mstoStep (s : State) (o : EngineOp) (t : Team) (tile : Nat) (cv s32 zero : Bool) (d : BitVec 64) (stoch : BitVec 32) :
    Stepped :=
  let a := (s.core t.core).array
  match Tab.find a.config tile, o.outs, s.group o.group with
  | some (rows, cols), (b, _) :: _, some g =>
    let ws := (List.range cols).map (fun j => a.at tile cols o.prog j)
    let (bs, fl) := storeRow cv s32 d (fun j => s.slotMode g d stoch (o.prog * cols + j)) ws
    let s1 := s.basinWrite o.team b (o.outAt 0) (o.prog * bs.length) bs []
    let last := decide (rows ≤ o.prog + 1)
    let s2 := if last && zero then s1.modArray t.core (fun x => x.setTile tile []) else s1
    .ok s2 { o with fp := o.fp ||| fl } last
  | _, _, _ => .ok s o true

/-- The one step of an MQ4 (R313). -/
def State.mq4Step (s : State) (o : EngineOp) (t : Team) (tile fuse : Nat) (da db : BitVec 64) (a b : List Byte) (row col : Nat) :
    Stepped :=
  let (ar, bc, rows, cols) := fusion fuse
  let xs := operandStep da false ar 1 a [] 0
  let ys := operandStep db false bc 1 b [] 0
  s.residueChecked o [t.core] (fun s0 => .ok (s0.modArray t.core (fun m => match Tab.find m.config tile with
    | some (r, n) => m.setTile tile (((List.range r).map (fun i => (List.range n).map (fun j =>
        let old := m.at tile n i j
        if row ≤ i && decide (i < row + rows) && decide (col ≤ j) && decide (j < col + cols) then
          let y := if fuse = 3 then (i - row) / 8 * 8 + (j - col) else j - col
          accumulate (isIntSlot da) old (nth [] xs (i - row)) (nth [] ys y)
        else old))).flatten)
    | none => m)) o true)

/-- One step of a matrix operation (R299, R314). -/
def State.matrixStep (s : State) (o : EngineOp) (t : Team) : Stepped :=
  match o.kind with
  | .tcfg tiles => .ok (s.modArray t.core (fun a => { a with config := tiles, words := [] })) o true
  | .mzero mask => .ok (s.modArray t.core (fun a =>
      ((List.range 8).filter (fun i => mask.getLsbD i)).foldl (fun b i => b.setTile i []) a)) o true
  | .mma tile index d _ => s.mmaStep o t tile index d
  | .mldb index p => s.mldbStep o t index p
  | .msto tile cv s32 zero d stoch => s.mstoStep o t tile cv s32 zero d stoch
  | .mq4 tile fuse da db a b row col => s.mq4Step o t tile fuse da db a b row col
  | _ => .ok s o true

/-! ## Prices of steps (R303) -/

/-- Tokens that an MLDB of `total` tokens has drawn before column c: draws of 96, each before the writes that it pays for. -/
def loadDrawn (bytes cols c : Nat) : Nat :=
  min (ceilDiv bytes 128) (ceilDiv (ceilDiv (bytes * c) (128 * cols)) 96 * 96)

/-- Tokens that a retry draws for the array of a core: 24 for each of its sub-arrays that works again, in every cycle of the step
(R303, R315; log 88). -/
def State.retryPrice (s : State) (o : EngineOp) (core : Nat) : Nat :=
  let cycles := match o.kind with
    | .mma tile _ _ _ => (match Tab.find (s.core core).array.config tile with
      | some (rows, cols) => rows * cols / 256
      | none => 0)
    | _ => 1
  24 * (o.redo.filter (fun p => p.1 = core)).length * cycles

/-- Tokens that the next step of a matrix operation draws for the array of a core that works on it: of a compressed panel, two
steps in one cycle (R303, R310). -/
def State.matrixPrice (s : State) (o : EngineOp) (core : Nat) : Nat :=
  let a := (s.core core).array
  if !o.redo.isEmpty then s.retryPrice o core
  else match o.kind with
  | .mma tile index _ _ =>
    (match Tab.find a.config tile, Tab.find a.panels index with
    | some (rows, cols), some p => if p.sparse && o.prog % 2 = 1 then 0 else rows * cols / 256 * 96
    | _, _ => 0)
  | .mldb _ p => loadDrawn (p.inputs.1 + p.inputs.2) p.cols (o.prog + 1) - loadDrawn (p.inputs.1 + p.inputs.2) p.cols o.prog
  | .msto tile _ _ _ _ _ =>
    (match Tab.find a.config tile with
    | some (_, cols) => cols / 16
    | none => 0)
  | .mq4 _ _ _ _ _ _ _ _ => 96
  | _ => 0

/-! ## The order of paired operations (R311) -/

/-- An operation of the team comes after an MMA.pair that has reached the team's array and has not retired. -/
def State.pairBlocks (s : State) (key team : Nat) : Bool :=
  s.ops.any (fun p => match p.2.arrived with
    | some bound => decide (bound ≤ key) && p.2.follower = some team
    | none => false)

/-- A paired operation of an odd site is held until one of the even site has retired. -/
def State.pairHeld (s : State) (t : Team) : Bool :=
  coreSite t.core % 2 = 1 && (match s.followerOf t with
    | some (f, _) => s.ops.any (fun p => p.2.team = f && p.2.isPair)
    | none => false)

/-- The keys from which a follower's operations come after an arriving MMA.pair: those not yet issued, and the follower's own
paired operation that is held. -/
def State.pairBound (s : State) (f : Nat) : Nat :=
  match s.ops.find? (fun p => p.2.team = f && p.2.isPair && !p.2.begun && !p.2.done) with
  | some (k, _) => k
  | none => s.nextKey

/-- The array that a team's operations meet: its core's, or what its save slot holds. -/
def State.arrayOf (s : State) (team : Nat) (t : Team) : MatrixArray :=
  if (s.core t.core).owner = some team then (s.core t.core).array else t.arraySave.getD {}

/-- A team's configuration and panels after its operations with keys below a bound: those already performed, and those still in
flight in their order (R300, R311). -/
def State.arrayAt (s : State) (team : Nat) (t : Team) (bound : Nat) : MatrixArray :=
  (s.ops.filter (fun p => p.2.team = team && p.1 < bound && !p.2.done)).foldl (fun a p => match p.2.kind with
    | .tcfg tiles => { a with config := tiles }
    | .mldb index x => { a with panels := putPanel a.panels index x }
    | _ => a) (s.arrayOf team t)

/-- The follower's tile and panel, as its operations before the arriving MMA.pair leave them, suit it (R311). -/
def State.pairFits (s : State) (t : Team) (f : Nat) (y : Team) (bound tile index : Nat) : Bool :=
  let a := (s.core t.core).array
  let b := s.arrayAt f y bound
  match Tab.find a.config tile, Tab.find b.config tile, Tab.find a.panels index, Tab.find b.panels index with
  | some x, some z, some p, some q => x == z && p.cols = q.cols && p.steps = q.steps && slotsAlike p.slot q.slot
  | _, _, _, _ => false

end Sys2Proof.Machine
end

