-- ==== Sys2Proof/Machine/EngineEvents.lean ====
section
/-!
DEFINITION. What engines do on their own: operations fire (R286), draw tokens and step (R295, R303, R333), retire (R122),
reach the follower of a pair (R311), and are settled by the key engine (R290, R409 to R411).
-/

namespace Sys2Proof.Machine

open Sys2Proof

/-! ## Where operations stand -/

/-- The engines of a team work: the team is resident, its partition runs and its die is in service. When its cluster or its
partition is to stop they go on until every clause in progress there has reached its boundary, which may wait for them (R294, R388,
R389, R436). -/
def State.engineRuns (s : State) (t : Team) : Bool :=
  t.residency = .resident && (!s.teamStopped t || !s.atBoundaries (s.stopMates t)) &&
  (s.contextRuns t.ctx || s.partitionEnding t.ctx) && (576 ≤ t.core || (s.die (coreDie t.core)).resetStep = 0)

/-- An operation is the oldest of its team in its class. -/
def State.oldest (s : State) (key : Nat) (o : EngineOp) : Bool :=
  !s.ops.any (fun p => p.1 < key && p.2.team = o.team && p.2.cls = o.cls)

/-- Two operations use one basin on the same side. -/
def sharesBasin (a b : EngineOp) : Bool :=
  a.ins.any (fun p => b.ins.any (fun q => p.1 = q.1)) || a.outs.any (fun p => b.outs.any (fun q => p.1 = q.1))

/-- The header's PROG follows the oldest unretired operation (R294). -/
def State.noteProg (s : State) (team : Nat) (c : EngineClass) : State :=
  let n := match s.unretired team c with
    | (_, o) :: _ => o.prog
    | [] => 0
  s.modTeam team (fun t => t.modEngineQueue c (fun q => { q with prog := n }))

/-- The groups of a team go on where a wait or an EXIT lets them. -/
def State.pokeTeam (s : State) (team : Nat) : State :=
  match s.team team with
  | some t => t.groups.foldl (fun a k => (a.pokeWait k).tryExit k) s
  | none => s

/-! ## Firing -/

/-- An operation may fire: its inputs are held and its outputs have room (R286). An earlier fired operation that is not done
keeps its elements, and gathers, collectives and matrix operations fire in their order of issue. -/
def State.mayFire (s : State) (key : Nat) (o : EngineOp) (t : Team) : Bool :=
  o.fired.isNone && !o.done && s.engineRuns t &&
  o.ins.all (fun q => decide (q.2 ≤ (t.basin q.1).held)) && o.outs.all (fun q => decide (q.2 ≤ (t.basin q.1).room)) &&
  !s.ops.any (fun p => p.1 != key && p.2.team = o.team && !p.2.done && sharesBasin p.2 o &&
    (p.2.fired.isSome || (o.cls != .copy && p.2.cls = o.cls && decide (p.1 < key)))) &&
  (o.cls != .matrix || (s.oldest key o && t.arrayStop.isNone && !s.pairBlocks key o.team))

/-- A COLL that fires contributes its element: folded in a run under check, and handed to the cluster's matching operations
unless a later run takes its result from the log (R293, R296). DESIGN CHOICE (log 115): the element is signed as a suppressed write at
its place in the scratchpad. -/
def State.contribute (s : State) (key : Nat) (o : EngineOp) (t : Team) : State :=
  match o.kind, o.ins with
  | .coll _ _ _ _ round size logged, (b, _) :: _ =>
    let pos := (t.basin b).cons.toNat
    let (el, marks) := s.basinRead o.team b pos 0 size
    let s1 := (s.signBytes (s.opWho o) 2 ((t.basin b).offset pos 0) el).compareEffect (s.opWho o)
      { gid := s.opGid o, op := 0x306 + 1024, operands := logWords el }
    if logged.isSome then s1 else s1.collFire key o t round el (if marks.any id then marks else [])
  | _, _ => s

/-- ENGINE_FIRE (R286). -/
def execEngineFire (key : Nat) (s : State) : Out :=
  match s.op key with
  | some o =>
    (match s.team o.team with
    | some t =>
      if s.mayFire key o t then
        let at_ := (o.ins.map (fun q => (t.basin q.1).cons.toNat), o.outs.map (fun q => (t.basin q.1).prod.toNat))
        .next ((s.modOp key (fun x => { x with fired := some at_ })).contribute key o t)
      else .next s
    | none => .next s)
  | none => .next s

/-! ## Prices -/

/-- Tokens for the part of a stream from byte `a` to byte `b`, at a price for each 128 bytes or part of them. -/
def streamPrice (price a b : Nat) : Nat := price * (ceilDiv b 128 - ceilDiv a 128)

/-- Bytes of the first n rows of a tile that lie inside its tensor, which alone are written (R282). -/
def TRec.insideBytes (r : TRec) (origin : List Nat) (n : Nat) : Nat :=
  ((List.range n).flatMap (fun i => (r.row origin i).map (fun u => (u.map UnitAt.len).getD 0))).foldl (· + ·) 0

/-- Tokens that a row of a tile draws at a destination which takes every byte of it: a basin (R333). -/
def State.rowPrice (s : State) (t : Team) (price : Nat) (x : BitVec 512) (n : Nat) : Nat :=
  match s.tensor t x with
  | some r => if n < r.rows then streamPrice price (n * r.rowBytes) ((n + 1) * r.rowBytes) else 0
  | none => 0

/-- Tokens that a row draws at a destination tensor: for the bytes written there (R282, R333). -/
def State.writtenPrice (s : State) (t : Team) (price : Nat) (x : BitVec 512) (origin : List Nat) (n : Nat) : Nat :=
  match s.tensor t x with
  | some r => if n < r.rows then streamPrice price (r.insideBytes origin n) (r.insideBytes origin (n + 1)) else 0
  | none => 0

/-- Tokens that the next step of an operation draws from its team's core (R303, R333). DESIGN CHOICE (log 116): in a later run a CPYX
and a suppressed CPYR draw none, and a COLL draws the price of its element. -/
def State.stepPrice (s : State) (o : EngineOp) (t : Team) : Nat :=
  match o.kind with
  | .cpy (.tensor x) (.basin _) _ => s.rowPrice t 2 x o.prog
  | .cpy _ (.tensor x) origin => s.writtenPrice t 2 x origin o.prog
  | .cpy (.basin _) (.basin _) _ => 0
  | .cpyx _ _ y origin _ _ => s.writtenPrice t 4 y origin o.prog
  | .cpyr _ _ y origin _ _ => s.writtenPrice t 2 y origin o.prog
  | .gath _ _ _ => 1
  | .coll _ _ _ _ _ size _ => ceilDiv size 128
  | .replayed _ _ => 0
  | .suppressed => 0
  | .tcfg _ => s.matrixPrice o t.core
  | .mma _ _ _ _ => s.matrixPrice o t.core
  | .mldb _ _ => s.matrixPrice o t.core
  | .msto _ _ _ _ _ _ => s.matrixPrice o t.core
  | .mzero _ => s.matrixPrice o t.core
  | .mq4 _ _ _ _ _ _ _ _ => s.matrixPrice o t.core

/-- The cores whose purses a step draws from, with what each draws: in MMA.pair each array pays for its own work (R303). -/
def State.stepPrices (s : State) (o : EngineOp) (t : Team) : List (Nat × Nat) :=
  (t.core, s.stepPrice o t) :: (s.pairArray o).toList.map (fun c => (c, s.matrixPrice o c))

/-- The tokens that a step has to draw before it can be performed. -/
def State.stepNeed (s : State) (o : EngineOp) (t : Team) : Nat := ((s.stepPrices o t).map Prod.snd).foldl max 0

/-- What each core's purse still owes of the next draw of `n` tokens, `paid` of them drawn before (R303). -/
def State.stepDraws (s : State) (o : EngineOp) (t : Team) (n : Nat) : List (Nat × Nat) :=
  ((s.stepPrices o t).filter (fun p => o.paid < p.2)).map (fun p => (p.1, min n (p.2 - o.paid)))

/-- Draw tokens from the engine purses of cores; none while a purse cannot cover its draw. Hub cores never wait, and the tokens of
every draw count towards the context's energy (R329, R333, R336, R426). -/
def State.drawEngine (s : State) (ctx : Nat) : List (Nat × Nat) → Option State
  | [] => some s
  | (c, n) :: cs =>
    if 576 ≤ c then (s.countEnergy ctx n).drawEngine ctx cs
    else if (s.core c).enginePurse < n then none
    else ((s.modCore c (fun x => { x with enginePurse := x.enginePurse - n })).countEnergy ctx n).drawEngine ctx cs

/-! ## Steps -/

/-- Perform the next step of an operation. -/
def State.performStep (s : State) (o : EngineOp) (t : Team) : Stepped :=
  match o.kind with
  | .cpy src dst origin => s.cpyStep o t src dst origin
  | .cpyx _ x y origin _ _ =>
    (match s.cpyxStep o t x y origin with
    | .ok s1 o1 last =>
      let done := match s1.tensor t x with
        | some a => decide (a.rows ≤ o.prog + 1)
        | none => true
      if done then (let (k, s2) := s1.fresh; .ok s2 { o1 with arrived := some k } last) else .ok s1 o1 last
    | r => r)
  | .replayed ws st => s.replayStep o ws st
  | .cpyr (some p) x y origin flag value => s.peerStep o t p x y origin flag value
  | .cpyr none x y origin flag value => s.cpyrStep o t x y origin flag value
  | .suppressed => .ok s o true
  | .gath x n origin => s.gathStep o t x n origin
  | .coll op all ty root _ size logged => s.collStep o t op all ty root size logged
  | .tcfg _ => s.matrixStep o t
  | .mma _ _ _ _ => s.matrixStep o t
  | .mldb _ _ => s.matrixStep o t
  | .msto _ _ _ _ _ _ => s.matrixStep o t
  | .mzero _ => s.matrixStep o t
  | .mq4 _ _ _ _ _ _ _ _ => s.matrixStep o t

/-- The pointers of an operation's basins advance at its end (R286, R308, R310). -/
def Team.advanceBasins (t : Team) (o : EngineOp) : Team :=
  let t1 := o.ins.foldl (fun a q => a.setBasin q.1 { (a.basin q.1) with cons := (a.basin q.1).cons + BitVec.ofNat 32 q.2 }) t
  o.outs.foldl (fun a q => a.setBasin q.1 { (a.basin q.1) with prod := (a.basin q.1).prod + BitVec.ofNat 32 q.2 }) t1

/-- A step is complete (R294, R295). -/
def State.stepped (s : State) (key : Nat) (o : EngineOp) (last : Bool) : State :=
  let s1 := { s with ops := Tab.insert s.ops key { o with prog := o.prog + 1, paid := 0, redo := [], done := last } }
  (if last then s1.modTeam o.team (fun t => t.advanceBasins o) else s1).noteProg o.team o.cls

/-- An execution fault stops the array for the team's life; the operation is over (R316). -/
def State.stopArray (s : State) (key : Nat) (o : EngineOp) (code va : Nat) : State :=
  let c : Cause := { code := code, faddr := BitVec.ofNat 64 va, engine := some o.clsBits }
  let s1 := (s.modOp key (fun x => { x with done := true })).modTeam o.team (fun t => { t with arrayStop := some (c, o.slot) })
  (s1.queueFault o code).pokeTeam o.team

/-- A step waits for the host; its queue is written with PROG as it stands (R294, R295, R383, R384). -/
def State.parkOp (s : State) (key : Nat) (ctx entry va : Nat) : State :=
  match s.askHost ctx entry va with
  | some s1 =>
    let s2 := s1.modOp key (fun x => { x with parked := some { needs := [(va, .read)], request := some entry, since := s.now } })
    (match s2.op key with
    | some o => s2.writeQueue o.team o.cls
    | none => s2)
  | none => s

/-- What follows from an operation's step. -/
def State.afterStep (s : State) (key : Nat) (o : EngineOp) (t : Team) : State :=
  match s.performStep o t with
  | .ok s1 o1 last => s1.stepped key o1 last
  | .halt s1 (.fault code va) => if o.cls = .matrix then s1.stopArray key o code va else s1.engineFault key o code va false
  | .halt s1 (.host entry va) => s1.parkOp key t.ctx entry va
  | .fail s1 code va => s1.engineFault key o code va true
  | .wait s1 => { s1 with ops := Tab.insert s1.ops key o }
  | .again s1 redo => { s1 with ops := Tab.insert s1.ops key { o with paid := 0, redo := redo } }
  | .gone s1 => s1

/-- The follower's array is ready for an MMA.pair: the operations before it have retired, and the follower owns it, or has exited
(R311). -/
def State.pairReady (s : State) (o : EngineOp) : Option State :=
  match o.arrived, o.follower with
  | some bound, some f =>
    (match (s.team f).filter (fun y => y.residency != .exited) with
    | some y =>
      if s.ops.any (fun p => p.2.team = f && p.2.cls = .matrix && decide (p.1 < bound)) || !s.engineRuns y then none
      else s.takeArray y.core f
    | none => some s)
  | some _, none => some s
  | none, _ => none

/-- No earlier operation of the team's class has still to be performed. -/
def State.oldestUndone (s : State) (key : Nat) (o : EngineOp) : Bool :=
  !s.ops.any (fun p => p.1 < key && p.2.team = o.team && p.2.cls = o.cls && !p.2.done)

/-- An operation is ready for its next step: the state in which it takes it. -/
def State.readyOp (s : State) (key : Nat) (o : EngineOp) (t : Team) : Option State :=
  if !s.engineRuns t || o.done || o.stopped || o.parked.isSome || (o.fired.isNone && !(o.ins.isEmpty && o.outs.isEmpty)) then none
  else
    match o.kind with
    | .coll _ _ _ _ _ _ logged => if s.oldestUndone key o && (logged.isSome || s.collReady o t) then some s else none
    | .cpyx _ _ _ _ _ _ => if o.arrived.isSome then none else some s
    | _ =>
      if o.cls != .matrix then some s
      else if !s.oldest key o || t.arrayStop.isSome || s.pairBlocks key o.team then none
      else
        match s.takeArray t.core o.team with
        | none => none
        | some s1 => if o.isPair then s1.pairReady o else some s1

/-- ENGINE_STEP (R295, R303, R333): the operation draws at most 96 tokens towards its next step, and performs the step once
it has drawn the step's price. -/
def execEngineStep (key : Nat) (s : State) : Out :=
  match s.op key with
  | some o =>
    (match s.team o.team with
    | some t =>
      (match s.readyOp key o t with
      | none => .next s
      | some s1 =>
        let need := s1.stepNeed o t
        let draw := min 96 (need - o.paid)
        match (if draw = 0 then some s1 else s1.drawEngine t.ctx (s1.stepDraws o t draw)) with
        | none => .next (s.modOp key (fun x => { x with hungry := (if x.hungry.isNone then some s.now else x.hungry) }))
        | some s2 =>
          let o1 := { o with paid := o.paid + draw, hungry := none }
          if o1.paid < need then .next { s2 with ops := Tab.insert s2.ops key o1 } else .next (s2.afterStep key o1 t))
    | none => .next s)
  | none => .next s

/-! ## Retirement -/

/-- An operation may retire: copies in any order, the others in their group's order, the matrix in its team's; a stopped
array's operations retire without effect (R122, R289, R299, R316). -/
def State.mayRetire (s : State) (key : Nat) (o : EngineOp) (t : Team) : Bool :=
  match o.cls with
  | .copy => o.done
  | .matrix => s.oldest key o && (o.done || t.arrayStop.isSome)
  | _ => o.done && !s.ops.any (fun p => p.1 < key && p.2.group = o.group && p.2.cls = o.cls)

/-- The group's counter of a class falls, or the copy leaves its batch (R122, R289). -/
def Group.retireOp (g : Group) (o : EngineOp) : Group :=
  let g1 := { g with fpstat := g.fpstat ||| o.fp }
  match o.cls with
  | .matrix => { g1 with mxcnt := g1.mxcnt - 1 }
  | .gather => { g1 with gacnt := g1.gacnt - 1 }
  | .coll => { g1 with cocnt := g1.cocnt - 1 }
  | .copy =>
    let g2 := { g1 with batches := Tab.write 0 g1.batches o.batch (Tab.read 0 g1.batches o.batch - 1)
                        copied := g1.copied ++ o.wrote.map (fun l => (o.batch, l)) }
    Group.advanceBatches (g2.cbopen - g2.cbdone) g2

/-- ENGINE_RETIRE (R86, R122, R289, R393). -/
def execEngineRetire (key : Nat) (s : State) : Out :=
  match s.op key with
  | some o =>
    (match s.team o.team with
    | some t =>
      if s.engineRuns t && s.mayRetire key o t then
        let s1 := { s with ops := Tab.remove s.ops key }
        let s2 := (s1.modTeam o.team (fun x => x.modEngineQueue o.cls (fun q => { q with retired := q.retired + 1 }))).noteProg o.team o.cls
        let s3 := (s2.modGroup o.group (fun g => g.retireOp o)).feedWatchdog t.ctx
        .next ((s3.pokeWait o.group).tryExit o.group)
      else .next s
    | none => .next s)
  | none => .next s

/-! ## Pairs -/

/-- PAIR_ARRIVAL (R311): the operation reaches the follower, whose tile and panel are checked. -/
def execPairArrival (key : Nat) (s : State) : Out :=
  match s.op key with
  | some o =>
    (match o.kind, s.team o.team with
    | .mma tile index _ true, some t =>
      if !s.engineRuns t || o.done || o.arrived.isSome || o.fired.isNone || t.arrayStop.isSome || !s.oldest key o ||
          s.pairHeld t || s.pairBlocks key o.team then .next s
      else
        match s.takeArray t.core o.team with
        | none => .next s
        | some s1 =>
          match s1.followerOf t with
          | some (f, y) =>
            if s1.pairFits t f y (s1.pairBound f) tile index then
              .next (s1.modOp key (fun x => { x with arrived := some (s1.pairBound f), follower := some f }))
            else .next (s1.stopArray key o 0x23 0)
          | none => .next (s1.stopArray key o 0x23 0)
    | _, _ => .next s)
  | none => .next s

/-! ## The key engine -/

/-- Translate the parts of every row of a tile. -/
def State.tilePieces (s : State) (o : EngineOp) (kind : AccessKind) (r : TRec) (origin : List Nat) : List Nat →
    Sum (List (List Piece)) Halt × State
  | [] => (.inl [], s)
  | n :: ns =>
    match s.enginePieces (s.opWho o) kind (unitParts (r.row origin n)) with
    | (.inr h, s1) => (.inr h, s1)
    | (.inl ps, s1) =>
      match s1.tilePieces o kind r origin ns with
      | (.inl rest, s2) => (.inl (ps :: rest), s2)
      | x => x

/-- The message of a tile: its traversal bytes, and whether a line of them is poisoned. -/
def State.tileRead (s : State) (o : EngineOp) (r : TRec) (origin : List Nat) (rows : List (List Piece)) : List Byte × Bool × State :=
  (List.range rows.length).foldl (fun (a : List Byte × Bool × State) n =>
    let got := a.2.2.engineRead (s.opWho o) (nth [] rows n)
    (a.1 ++ (rowData r.ub (r.row origin n) got.bytes).flatten, a.2.1 || got.marks.any id, got.state)) ([], false, s)

/-- What a CPYX writes to a tile. -/
def State.tileStores (s : State) (o : EngineOp) (r : TRec) (origin : List Nat) (rows : List (List Piece)) (bs : List Byte) : Stores :=
  ((List.range rows.length).map (fun n =>
    s.rowStores (s.opWho o) (r.row origin n) (cutUnits r.ub r.rowUnits ((bs.drop (n * r.rowBytes)).take r.rowBytes)) (nth [] rows n))).flatten

/-- The bytes of stores with the addresses of the parts they go to. -/
def storeParts (xs : Stores) : List (Nat × Nat × List Byte) := (storePairs xs).map (fun p => (p.1.va, p.1.pa, p.2))

/-- STATUS of R411. -/
def statusWord (code slot : Nat) : Word := BitVec.ofNat 64 (code + 256 * slot)

/-- STATUS of a CPYX is written after every byte of its destination, for the host too (R118, R411). -/
def State.writeStatus (s : State) (who : Who) (va : Nat) (status : List Piece) (word : Word) : State :=
  let xs : Stores := [(va, status, wordBytes 8 word)]
  if s.snoopsOwed && status.all (fun p => region p.pa != .management) then
    let s1 := status.foldl (fun a p => a.drainLine (coreDie who.core) (lineNo p.pa)) s
    s1.commitLate ((s.runOf who).map Prod.fst) ((storePairs xs).flatMap (fun p => atAddr p.1.pa p.2))
  else s.engineWrite who false [] xs

/-- A CPYX completes with a code: its stores first, STATUS last. An original's STATUS waits for the commit, and what it wrote
is kept for the later runs (R290, R296, R411). -/
def State.endCpyx (s : State) (key : Nat) (o : EngineOp) (code slot block : Nat) (status : List Piece) (poison : Bool) (xs : Stores) :
    State :=
  let who := s.opWho o
  let word := statusWord code slot
  let s1 := s.engineWrite who true (if poison then xs.map (fun x => List.replicate x.2.2.length true) else []) xs
  let s2 := match s1.partOf who, status with
    | .original c, p :: _ =>
      let signed := s1.signBytes who 0 (block + 0x18) (wordBytes 8 word)
      let entry : CopyLog := { bytes := storeParts xs, status := [(block + 0x18, p.pa, word)] }
      let kept := signed.modCheck c (fun x => { x with copies := Tab.insert x.copies (copyKey (s1.opGid o) o.ordinal) entry })
      kept.modRun c 0 (fun r => { r with statuses := r.statuses ++ [(p.pa, word)] })
    | _, _ => s1.writeStatus who (block + 0x18) status word
  (s2.modOp key (fun x => { (x.noteLines who.core (xs.flatMap (fun y => y.2.1) ++ status)) with
    done := true, stopped := false, parked := none })).noteProg o.team o.cls

/-- Before a CPYX the key engine decides whether the slot and the counter are refused (R411). -/
def State.keyRefusal (s : State) (ctx slot : Nat) (erased : Bool) (ctr : Nat) : Sum KeySlot Nat :=
  if erased then .inr 0x06
  else match Tab.find s.hub.keys slot with
    | none => .inr 0x04
    | some k => if k.ctx ≠ ctx then .inr 0x04 else if ctr ≤ k.hwm.toNat then .inr 0x03 else .inl k

/-- The key engine settles a CPYX (R410, R411); a translation that fails stops it before the counter is used. -/
def State.settleCpyx (s : State) (key : Nat) (o : EngineOp) (t : Team) (enc : Bool) (a b : TRec) (origin : List Nat) (slot block : Nat) :
    Sum State (State × Halt) :=
  let who := s.opWho o
  match s.enginePieces who .read (cutAtPages block 32) with
  | (.inr h, s1) => .inr (s1, h)
  | (.inl head, s1) =>
    match s1.enginePieces who .write (cutAtPages (block + 0x18) 8) with
    | (.inr h, s2) => .inr (s2, h)
    | (.inl status, s2) =>
      let got := s2.engineRead who head
      let s3 := got.state
      match s3.keyRefusal t.ctx slot o.erased (leNat (got.bytes.take 8)) with
      | .inr code => .inl (s3.endCpyx key o code slot block status false [])
      | .inl k =>
        match s3.tilePieces o .read a origin (List.range a.rows) with
        | (.inr h, s4) => .inr (s4, h)
        | (.inl from_, s4) =>
          match s4.tilePieces o .write b origin (List.range b.rows) with
          | (.inr h, s5) => .inr (s5, h)
          | (.inl to_, s5) =>
            match (if enc then s5.enginePieces who .write (cutAtPages (block + 8) 16) else (.inl [], s5)) with
            | (.inr h, s6) => .inr (s6, h)
            | (.inl tagAt, s6) =>
              let ctr := got.bytes.take 8
              let s7 := s6.modHub (fun h => { h with keys := Tab.insert h.keys slot { k with hwm := BitVec.ofNat 64 (leNat ctr) } })
              if !enc && to_.any (fun ps => ps.any (fun p => !p.entry.conf)) then
                .inl (s7.endCpyx key o 0x05 slot block status false [])
              else
                let (text, poison, s8) := s7.tileRead o a origin from_
                let aad := leBytes 8 t.ctx ++ leBytes 8 a.tile
                let (out, tag) := gcm k.key (leBytes 4 k.salt.toNat ++ ctr) aad text (!enc)
                if !enc && tag != (got.bytes.drop 8).take 16 then .inl (s8.endCpyx key o 0x02 slot block status false [])
                else
                  let data := s8.tileStores o b origin to_ out
                  let xs := if enc then data ++ [(block + 8, tagAt, tag)] else data
                  .inl (s8.endCpyx key o 0x01 slot block status poison xs)

/-- A CPYX of the same key slot arrived at the key engine before this one and has still to be settled, one that a fault has stopped
or that waits for the host among them (R411). -/
def State.keyQueued (s : State) (o : EngineOp) (slot : Nat) : Bool :=
  s.ops.any (fun p => !p.2.done && (match p.2.kind, p.2.arrived, o.arrived with
    | .cpyx _ _ _ _ n _, some x, some y => n = slot && decide (x < y)
    | _, _, _ => false))

/-- CPYX_SETTLE (R411). -/
def execCpyxSettle (key : Nat) (s : State) : Out :=
  match s.op key with
  | some o =>
    (match o.kind, s.team o.team with
    | .cpyx enc x y origin slot block, some t =>
      if !s.engineRuns t || o.done || o.stopped || o.parked.isSome || o.arrived.isNone || s.keyQueued o slot then .next s
      else (match s.tensor t x, s.tensor t y with
        | some a, some b =>
          (match s.settleCpyx key o t enc a b origin slot block with
          | .inl s1 => .next s1
          | .inr (s1, .fault code va) => .next (s1.engineFault key o code va false)
          | .inr (s1, .host entry va) => .next (s1.parkOp key t.ctx entry va))
        | _, _ => .next s)
    | _, _ => .next s)
  | none => .next s

end Sys2Proof.Machine
end

