-- ==== Sys2Proof/Machine/Watch.lean ====
section
/-!
DEFINITION. Watches: MONW, MWAIT, and the events that evaluate a watch or end its wait (R59, R278, R279).
-/

namespace Sys2Proof.Machine

open Sys2Proof

/-- The watched word as its home reads it; a location that answers with the error reply gives no value. -/
def State.watchValue (s : State) (w : Watch) : Option Word :=
  if s.errorReply w.pa then none
  else if region w.pa = .management then some (bytesWord (s.readMgmt w.pa (if w.wide then 8 else 4)))
  else some (s.watchedWord w)

/-- Evaluate a watch against the word, recording the value that satisfies it (R278). -/
def State.checkWatch (s : State) (w : Watch) : Watch :=
  match w.hit, s.watchValue w with
  | none, some x => if watchHolds w.cond w.wide x w.ref then { w with hit := some x } else w
  | _, _ => w

/-- A watch is held in a table. -/
def heldIn (h : Nat) (w : Option Watch) : Bool :=
  match w with
  | some x => x.home = some h
  | none => false

/-- A context's partition may have its watches in tables (R432). -/
def State.watchTables (s : State) (ctx : Nat) : Bool :=
  match s.part ctx with
  | some p => p.watch
  | none => true

/-- The table that can hold a context's watch on a word: that of its home slice, when its partition may use the tables and it has
room for one more beside the other groups' and those of the front end (R278, R322, R432). -/
def State.watchHome (s : State) (ctx k pa : Nat) : Option Nat :=
  match homeDie pa with
  | some d =>
    let h := d * 144 + s.sliceOf pa
    let others := s.groups.filter (fun p => p.1 != k && heldIn h p.2.watch)
    let ends := s.launches.filter (fun p => heldIn h p.2.watch)
    if s.watchTables ctx && decide (others.length + ends.length < 64) then some h else none
  | none => none

/-- MONW (R278). A word whose home gives the error reply arms no watch, and the group takes the device-error fault as a
flagless access does (R26, R386; log 105). -/
def execMonw (w : Slot) (s : State) : Out :=
  issue { tys := [.b32, .b64], a := .scalarReg, b := { scalar := true, imm := true }, mod := bitsOPC ||| bitsSCOPE
          immOwn := true } (fun _ => decide (memOpc w ≤ 5) && decide (memScope w ≤ 5)) noMore w s (fun k g =>
    let n := if w.ty.wide then 8 else 4
    let va := wrapInt ((g.s w.a.scalarIndex).toNat + signedOf w.imm.toNat 32) 64
    if va % n != 0 then .trap s (trapAll g 0x15 (BitVec.ofNat 64 va))
    else match s.translate (g.who k) g.walkFaults va .read with
      | .miss => .park s [(va, .read)]
      | .fault c => .trap s (trapAll g c (BitVec.ofNat 64 va))
      | .ok e =>
        let pa := e.phys va
        if s.errorReply pa then
          .done (((s.modGroup k (fun y => { y with watch := none, watchLost := false })).refuse k
            { code := 0x21, faddr := BitVec.ofNat 64 va }).countError pa)
        else
        let x : Watch := { pa := pa, wide := w.ty.wide, cond := w.mod.extractLsb' 14 4, ref := s.scalarSource g w w.b
                           scope := w.mod.extractLsb' 10 3, home := s.watchHome g.ctx k pa, hit := none }
        .done (s.modGroup k (fun y => { y with watch := some (s.checkWatch x), watchLost := false })))

/-- The results of an MWAIT: reason and value, after which the watch is disarmed; reason 0 is an acquire (R279). -/
def State.mwaitGive (s : State) (k : Nat) (d0 d1 : Option Nat) (reason value : Word) : State :=
  match s.group k with
  | none => s
  | some g =>
    let put := fun (y : Group) (d : Option Nat) (v : Word) => match d with
      | some i => y.setS i v
      | none => y
    let scope := match g.watch with
      | some x => x.scope.toNat
      | none => 0
    let s1 := if reason = 0 then s.acquire (g.who k) scope else s
    s1.modGroup k (fun y => put (put { y with watch := none, watchLost := false } d0 reason) d1 value)

/-- The original logs an MWAIT's results (R296). -/
def State.mwaitLog (s : State) (k : Nat) (reason value : Word) : State :=
  match s.group k with
  | some g => s.logFor (g.who k) g.gid { op := 0x290, lanes := 0, operands := [], values := [reason, value] }
  | none => s

/-- What an MWAIT returns at once: a lost watch, no watch, or one whose comparison has held. -/
def Group.mwaitNow (g : Group) : Option (Word × Word) :=
  if g.watchLost then some (2, 0)
  else match g.watch with
    | none => some (3, 0)
    | some { hit := some x, .. } => some (0, x)
    | some _ => none

/-- The scalar that a field names. -/
def destOf : Operand → Option Nat
  | .scalar i => some i.toNat
  | _ => none

/-- MWAIT (R279). A later run takes the results from the log (R296). -/
def execMwait (w : Slot) (s : State) : Out :=
  issue { boundary := true, d0 := .scalarReg, d1 := .scalarReg, a := .scalarOrImm } always noMore w s (fun k g =>
    let t := (s.scalarSource g w w.a).toNat
    let d0 := destOf w.d0
    let d1 := destOf w.d1
    match s.partOf (g.who k) with
    | .later c run =>
      (match s.readLog c run k g 0x290 0 [] with
      | (some e, s1) => .done (s1.mwaitGive k d0 d1 (nth 0 e.values 0) (nth 0 e.values 1))
      | (none, s1) => s1.differs k g)
    | _ =>
      match g.mwaitNow with
      | some (r, v) => .done ((s.mwaitLog k r v).mwaitGive k d0 d1 r v)
      | none => .moved (s.beginWait k g w (.mwait (if t = 0 then none else some (s.now + t)) d0 d1)))

/-- A waiting MWAIT ends with a reason and a value. -/
def State.mwaitEnd (s : State) (k : Nat) (reason value : Word) : State :=
  match s.group k with
  | some { wait := some { kind := .mwait _ d0 d1, .. }, .. } => ((s.mwaitLog k reason value).mwaitGive k d0 d1 reason value).endWait k
  | _ => s

/-- A waiting MWAIT whose watch is lost or has held ends. -/
def State.mwaitPoke (s : State) (k : Nat) : State :=
  match s.group k with
  | some g => match g.mwaitNow with
    | some (r, v) => s.mwaitEnd k r v
    | none => s
  | none => s

/-- MWAIT_WAKE (R59, R279): the watch has held or is lost; or the device ends the wait early. -/
def execMwaitWake (k : Nat) (early : Bool) (s : State) : Out :=
  match s.group k with
  | some g => match g.mwaitNow with
    | some _ => .next (s.mwaitPoke k)
    | none => if early then .next (s.mwaitEnd k 2 0) else .next s
  | none => .next s

/-- MWAIT_TIMEOUT (R279). -/
def execMwaitTimeout (k : Nat) (s : State) : Out :=
  match s.group k with
  | some { wait := some { kind := .mwait (some d) _ _, .. }, .. } => if d ≤ s.now then .next (s.mwaitEnd k 1 0) else .next s
  | _ => .next s

/-- A group's watch is evaluated again. -/
def State.recheck (s : State) (k : Nat) : State :=
  s.modGroup k (fun g => { g with watch := g.watch.map s.checkWatch })

/-- WATCH_REREAD (R278): the home re-reads the word of a watch that no table holds. A re-read that gets the error reply loses
the watch (R26, R279; log 105). -/
def execWatchReread (k : Nat) (s : State) : Out :=
  match s.group k with
  | some { watch := some { home := none, pa := pa, hit := none, .. }, .. } =>
    if s.errorReply pa then
      .next (((s.countError pa).modGroup k (fun y => { y with watch := none, watchLost := true })).mwaitPoke k)
    else .next ((s.recheck k).mwaitPoke k)
  | some { watch := some { home := none, .. }, .. } => .next (s.mwaitPoke k)
  | _ => .next s

/-- A watch is held in a table of a die. -/
def Watch.onDie (die : Nat) (w : Watch) : Bool :=
  match w.home with
  | some h => h / 144 = die
  | none => false

/-- WATCH_TABLE_RECHECK (R59): the watch tables of a die evaluate every comparison again, and groups whose comparison
holds wake. -/
def execWatchTableRecheck (die : Nat) (s : State) : Out :=
  let ks := (s.groups.filter (fun p => (p.2.watch.map (Watch.onDie die)).getD false)).map Prod.fst
  let s1 := { s with launches := Tab.mapWith (fun _ l =>
    { l with watch := l.watch.map (fun w => if w.onDie die then s.checkWatch w else w) }) s.launches }
  .next (ks.foldl (fun a k => (a.recheck k).mwaitPoke k) s1)

end Sys2Proof.Machine
end

