-- ==== Sys2Proof/Machine/FrontEnd.lean ====
section
/-!
DEFINITION. The launch front end: launch records and their checks (R40 to R43), launch packets and registered entries
(R318, R319, R401 to R404), queues and dependences (R321, R322), sending clusters (R323), and completion (R55, R405,
R406).
-/

namespace Sys2Proof

/-! ## Fields of a launch packet (R401) -/

def LaunchPacket.argv (p : LaunchPacket) : Bool := p.ctrl.getLsbD 0
def LaunchPacket.irq (p : LaunchPacket) : Bool := p.ctrl.getLsbD 1

/-- The packet launches work (R401). -/
def LaunchPacket.launches (p : LaunchPacket) : Bool := p.type == 1 || p.type == 2

/-- A packet names a record in memory (R401). -/
def LaunchPacket.readsRecord (p : LaunchPacket) : Bool := p.type == 1 || p.type == 3

/-- A packet names an entry (R401). -/
def LaunchPacket.namesEntry (p : LaunchPacket) : Bool := p.type == 2 || p.type == 3 || p.type == 4

/-- TYPE is defined and the packet's zero fields are zero (code 0x10). -/
def LaunchPacket.zerosOk (p : LaunchPacket) : Bool :=
  (p.launches || p.type == 3 || p.type == 4) && p.zero == 0 && p.ctrl.extractLsb' 2 6 == 0 &&
  (p.type != 1 || p.index == 0) && (p.readsRecord || p.record == 0) && (p.launches || p.dep == 0) &&
  (p.argv || p.args == 0)

end Sys2Proof

namespace Sys2Proof.Machine

open Sys2Proof

/-! ## Launch records -/

/-- Read a launch record's fields (R40). -/
def readRecord (bs : List Byte) : LaunchRecord :=
  let f := fun (off n : Nat) => field bs off n
  { entry := BitVec.ofNat 64 (f 0x00 8)
    fmtver := BitVec.ofNat 16 (f 0x08 2)
    width := BitVec.ofNat 8 (f 0x0A 1)
    vregs := BitVec.ofNat 8 (f 0x0B 1)
    gpc := BitVec.ofNat 16 (f 0x0C 2)
    clw := BitVec.ofNat 8 (f 0x0E 1)
    clh := BitVec.ofNat 8 (f 0x0F 1)
    gridx := BitVec.ofNat 32 (f 0x10 4)
    gridy := BitVec.ofNat 32 (f 0x14 4)
    gridz := BitVec.ofNat 32 (f 0x18 4)
    scratch := BitVec.ofNat 32 (f 0x1C 4)
    slots := (List.range 8).map (fun k => BitVec.ofNat 64 (f (0x20 + 8 * k) 8))
    redund := BitVec.ofNat 8 (f 0x60 1)
    energy := BitVec.ofNat 8 (f 0x61 1)
    current := BitVec.ofNat 8 (f 0x62 1)
    prio := BitVec.ofNat 8 (f 0x63 1)
    attr := BitVec.ofNat 16 (f 0x64 2)
    reservedZero := f 0x66 2 == 0 && (bs.drop 0x94).all (fun b => b == 0)
    param := BitVec.ofNat 64 (f 0x68 8)
    trecs := (List.range 4).map (fun k => BitVec.ofNat 64 (f (0x70 + 8 * k) 8))
    holdmax := BitVec.ofNat 32 (f 0x90 4) }

/-- The valid cluster shapes (R41). -/
def shapeOk (w h : Nat) : Bool :=
  decide (1 ≤ w) && decide (1 ≤ h) &&
  ((decide (w ≤ 3) && decide (h ≤ 4)) || (decide (w ≤ 4) && decide (h ≤ 3)) || (w == 1 && decide (h ≤ 12)) ||
    (h == 1 && decide (w ≤ 12)))

/-- Every reserved field and value of a record is as R40 says. -/
def LaunchRecord.reservedOk (r : LaunchRecord) : Bool :=
  r.reservedZero && decide (r.level ≤ 5) && decide (r.policy ≤ 2) && r.redund.extractLsb' 6 2 == 0 &&
  decide (r.energy.toNat ≤ 15) && decide (r.current.toNat ≤ 15) && decide (r.prio.toNat ≤ 3) &&
  r.attr.extractLsb' 3 13 == 0 && (r.holdmax != 0) == (r.policy == 2)

/-- The checks of R42 but the last, with their codes, lowest first. -/
def LaunchRecord.checks (r : LaunchRecord) : List (Nat × Bool) :=
  let sites := r.sites
  let grid := [r.gridx.toNat, r.gridy.toNat, r.gridz.toNat]
  [ (0x01, r.fmtver == 1)
  , (0x02, decide (r.width.toNat ≤ 2) && decide (4 ≤ r.vregs.toNat) && decide (r.vregs.toNat ≤ 32))
  , (0x03, shapeOk r.clw.toNat r.clh.toNat)
  , (0x04, decide (1 ≤ r.gpc.toNat) && decide (r.gpc.toNat ≤ 64 * sites))
  , (0x05, grid.all (fun x => decide (1 ≤ x)) && decide (r.clusters < 2 ^ 32))
  , (0x06, r.scratch.toNat % 128 == 0 && decide (r.scratch.toNat ≤ 786432))
  , (0x07, r.registersFit sites)
  , (0x08, !r.paired || r.clw.toNat % 2 == 0)
  , (0x09, r.reservedOk)
  , (0x0A, r.entry.toNat % 64 == 0 && r.param.toNat % 64 == 0 && r.trecs.all (fun t => t.toNat % 64 == 0))
  , (0x0B, r.slots.all slotValid) ]

/-- The lowest code among the failing checks of a list. -/
def firstFailing (cs : List (Nat × Bool)) : Option Nat := (cs.find? (fun p => !p.2)).map Prod.fst

/-- The reason code with which a record is rejected for a context (R42). -/
def State.recordCode (s : State) (ctx : Nat) (r : LaunchRecord) : Option Nat :=
  match firstFailing r.checks with
  | some c => some c
  | none => if s.placeable ctx r then none else some 0x0C

/-! ## Reading in a context -/

/-- Read bytes of a context for the front end, page by page; none where a page does not translate with R. -/
def State.frontParts (s : State) (ctx : Nat) : List (Nat × Nat) → Option (List Byte) × State
  | [] => (some [], s)
  | (va, n) :: rest =>
    match s.frontRead ctx va n with
    | (.done bs, s1) =>
      (match s1.frontParts ctx rest with
      | (some cs, s2) => (some (bs ++ cs), s2)
      | (none, s2) => (none, s2))
    | (_, s1) => (none, s1)

def State.frontBytes (s : State) (ctx va n : Nat) : Option (List Byte) × State := s.frontParts ctx (cutAtPages va n)

/-- The pages of a range all end in translations with W permission in a context (R402, R403). -/
def State.frontWritable (s : State) (ctx : Nat) : List (Nat × Nat) → Bool × State
  | [] => (true, s)
  | (va, _) :: rest =>
    match s.frontPhys ctx va .write with
    | (.done _, s1) => s1.frontWritable ctx rest
    | (_, s1) => (false, s1)

/-! ## Launch packets -/

/-- KIND of a dependence word (R210). -/
def depKind (d : Word) : Nat := (d.extractLsb' 62 2).toNat

/-- ARG of a dependence word (R210). -/
def depArg (d : Word) : Nat := (d.extractLsb' 0 57).toNat

/-- What the front end has read for a packet. -/
structure PacketRead where
  /-- The record in memory, or the copy of the entry. -/
  record : Option LaunchRecord
  /-- The entry that the packet names, if it holds a record. -/
  entry : Option Registered
  /-- The dependence record: the word's address and the value. -/
  dep : Option (Nat × Word)

/-- The reads that a packet asks for, in the context it is accepted for (R402). -/
def State.readPacket (s : State) (ctx : Nat) (p : LaunchPacket) : PacketRead × State :=
  let entry := if p.namesEntry && decide (p.index.toNat ≤ 63) then Tab.find s.hub.entries p.index.toNat else none
  let (rec, s1) := if p.readsRecord then s.frontBytes ctx p.record.toNat 256 else (none, s)
  let (dep, s2) := if depKind p.dep = 2 then s1.frontBytes ctx (depArg p.dep) 16 else (none, s1)
  let record := match rec with
    | some bs => some (readRecord bs)
    | none => if p.type == 2 then entry.map Registered.record else none
  ({ record := record, entry := entry, dep := dep.map (fun bs => (field bs 0 8, BitVec.ofNat 64 (field bs 8 8))) }, s2)

/-- The packet checks of R402 before its last, with their codes, lowest first. `bound` says that the queue is bound to
the packet's context. -/
def packetChecks (p : LaunchPacket) (x : PacketRead) (ctx : Nat) (bound : Bool) : List (Nat × Bool) :=
  let depWord := match x.dep with
    | some (va, _) => va % 8 == 0
    | none => true
  [ (0x10, p.zerosOk)
  , (0x11, !p.namesEntry || decide (p.index.toNat ≤ 63))
  , (0x12, p.record.toNat % 64 == 0 && p.cw.toNat % 8 == 0 && dependenceOk p.dep && depWord)
  , (0x13, (!p.readsRecord || x.record.isSome) && (depKind p.dep != 2 || x.dep.isSome))
  , (0x14, !p.argv || (match x.record with
      | some r => r.param != 0
      | none => true))
  , (0x15, !(p.type == 2 || p.type == 4) || (match x.entry with
      | some e => e.ctx == ctx
      | none => true))
  , (0x16, bound) ]

/-- The reason code with which a packet is rejected (R402); the check of code 0x17 walks for PARAM. -/
def State.packetCode (s : State) (p : LaunchPacket) (x : PacketRead) (ctx : Nat) (bound : Bool) : Option Nat × State :=
  match firstFailing (packetChecks p x ctx bound) with
  | some c => (some c, s)
  | none =>
    match x.record with
    | some r =>
      if p.argv then
        let (ok, s1) := s.frontWritable ctx (cutAtPages r.param.toNat 32)
        (if ok then none else some 0x17, s1)
      else (none, s)
    | none => (none, s)

/-- The context has a confidential mapping while the interface is in ERROR (R407). -/
def State.contextLostNow (s : State) (ctx : Nat) : Bool :=
  s.hub.tdisp = .error && s.confidential ctx

/-! ## Completion -/

/-- The status and the ARG of a launch that completes (R405), highest precedence first. -/
def Launch.outcome (l : Launch) : Nat × Nat :=
  if l.contextLost then (0x08, 0)
  else if l.dieReset then (0x07, 0)
  else if l.nonrepro then (0x06, 0)
  else if l.aborted then (0x09, l.traps)
  else if l.unplaceable then (0x0A, l.unplaced)
  else if 0 < l.traps then (0x01, l.traps)
  else (0x00, 0)

/-- A launch leaves its queue (R321). -/
def State.leaveQueue (s : State) (q seq : Nat) : State :=
  s.modQueue q (fun x => { x with fifo := x.fifo.filter (· != seq) })

/-- The queue's registers take the launch's first fatal report (R406). -/
def State.reportFatal (s : State) (seq : Nat) (l : Launch) : State :=
  match l.report with
  | some (cause, team, slot) =>
    s.modQueue l.queue (fun x => { x with
      frCause := team ++ cause
      frSlot := slot
      frSeq := BitVec.ofNat 64 seq })
  | none => s

/-- A launch completes with a status (R55, R405, R406). -/
def State.finishLaunch (s : State) (seq status arg : Nat) : State :=
  match s.launch seq with
  | none => s
  | some l =>
    let s1 := (s.reportFatal seq l).complete l.ctx l.cw l.irq l.queue (completionWord status arg seq)
    (s1.modLaunch seq (fun x => { x with state := .completed })).leaveQueue l.queue seq

/-! ## Queues and dependences -/

/-- The dependence of a launch holds (R210, R322). The word is read as the front end's DEV-scope acquire; where the host is to serve
its page, the read is parked and made again (R143, R383). -/
def State.dependenceMet (s : State) (l : Launch) : Bool × State :=
  match l.dep with
  | .none => (true, s)
  | .after seq =>
    (decide (1 ≤ seq) && decide (seq < s.hub.nextSeq) && (match s.launch seq with
      | some x => x.state = .completed
      | none => true), s)
  | .word va value =>
    match s.frontRead l.ctx va 8 with
    | (.done bs, s1) => (decide (value.toNat ≤ leNat bs), s1)
    | (.refused, s1) => (false, s1)
    | (.host entry, s1) => (false, (s1.askHost l.ctx entry va).getD s1)

/-- The front end watches the word of a dependence from when its launch waits at the head (R278, R322). -/
def State.watchDependence (s : State) (seq : Nat) : State :=
  match s.launch seq with
  | some l =>
    (match l.dep with
    | .word va value =>
      match s.frontPhys l.ctx va .read with
      | (.done pa, s1) =>
        let w : Watch := { pa := pa, wide := true, cond := 2, ref := value, scope := 4, home := none, hit := none }
        s1.modLaunch seq (fun x => { x with watch := some (s1.checkWatch { w with home := s1.watchHome l.ctx s1.nextKey pa }) })
      | (_, s1) => s1
    | _ => s)
  | none => s

/-- The dependence of a waiting launch holds: the word has reached the value since it is watched, or it is read now (R322). -/
def State.dependenceSeen (s : State) (l : Launch) : Bool × State :=
  match l.watch with
  | some { hit := some _, .. } => (true, s)
  | _ => s.dependenceMet l

/-- A launch becomes READY (R67, R403, R405): its arguments are delivered, and the placement test is made. Where they can no
longer be delivered, a launch that fails the test too takes the status that stands higher. -/
def State.becomeReady (s : State) (seq : Nat) : State :=
  match s.launch seq with
  | none => s
  | some l =>
    let s1 := s.modLaunch seq (fun x => { x with state := .ready, watch := none })
    match l.args with
    | none => s1.testPlacement seq
    | some a =>
      match (s1.drainAll 4).frontWrite l.ctx l.record.param.toNat (leBytes 32 a.toNat) with
      | (.done _, s2) => s2.testPlacement seq
      | (_, s2) => if s2.placeable l.ctx l.record then s2.finishLaunch seq 0x03 0x17 else s2.testPlacement seq

/-- A launch has still to be placed: the oldest such one of a queue is its head (R321). -/
def LaunchState.heads : LaunchState → Bool
  | .queued => true
  | .waiting => true
  | .ready => true
  | .placing => true
  | _ => false

/-- The head of a queue (R321). -/
def State.headOf (s : State) (q : Nat) : Option (Nat × Launch) :=
  ((s.queue q).fifo.filterMap (fun k => (s.launch k).map (fun l => (k, l)))).find? (fun p => p.2.state.heads)

/-- The launch that has become the head of its queue is in WAIT while its dependence is unmet, in READY otherwise (R321). -/
def State.settleHeads : Nat → State → Nat → State
  | 0, s, _ => s
  | fuel + 1, s, q =>
    match s.headOf q with
    | some (k, l) =>
      if l.state = .queued then
        match s.dependenceMet l with
        | (true, s1) => State.settleHeads fuel (s1.becomeReady k) q
        | (false, s1) => (s1.modLaunch k (fun x => { x with state := .waiting })).watchDependence k
      else s
    | none => s

/-- Settle a queue's head. -/
def State.settleQueue (s : State) (q : Nat) : State := State.settleHeads ((s.queue q).fifo.length + 1) s q

/-- An accepted launch enters its queue (R321). -/
def State.enqueue (s : State) (seq q ctx : Nat) (p : LaunchPacket) (x : PacketRead) (r : LaunchRecord) : State :=
  let dep : Dependence := match depKind p.dep, x.dep with
    | 1, _ => .after (depArg p.dep)
    | 2, some (va, v) => .word va v
    | _, _ => .none
  let l : Launch :=
    { queue := q, ctx := ctx, record := r, state := .queued, cw := p.cw, irq := p.irq, dep := dep
      args := if p.argv then some p.args else none }
  let s1 : State := { s with launches := Tab.insert s.launches seq l }
  (s1.modQueue q (fun y => { y with fifo := y.fifo ++ [seq] })).settleQueue q

/-! ## Acceptance -/

/-- A registration or an emptying takes effect (R318, R404): the status and the ARG. -/
def State.changeEntry (s : State) (ctx : Nat) (p : LaunchPacket) (x : PacketRead) : (Nat × Nat) × State :=
  let i := p.index.toNat
  let empty := s.modHub (fun h => { h with entries := Tab.remove h.entries i })
  match p.type == 3, x.record with
  | true, some r =>
    match s.recordCode ctx r with
    | none => ((0, 0), s.modHub (fun h => { h with entries := Tab.insert h.entries i { record := r, ctx := ctx } }))
    | some c => ((0x02, c), empty)
  | _, _ => ((0, 0), empty)

/-- What becomes of a packet: it completes at once with a status and ARG, or its launch enters the queue. -/
inductive Verdict where
  | done (status arg : Nat)
  | queued (r : LaunchRecord)

/-- The record that a launch names is validated, a registered one against check 0x0C only (R42). -/
def State.launchCode (s : State) (ctx : Nat) (p : LaunchPacket) (r : LaunchRecord) : Option Nat :=
  if p.type == 2 then (if s.placeable ctx r then none else some 0x0C) else s.recordCode ctx r

/-- Judge an accepted packet by the precedence of R405. -/
def State.judge (s : State) (q ctx : Nat) (bound : Bool) (p : LaunchPacket) (x : PacketRead) : Verdict × State :=
  if p.launches && s.contextLostNow ctx then (.done 0x08 0, s)
  else if p.launches && decide (256 ≤ (s.queue q).fifo.length) then (.done 0x05 0, s)
  else if p.type == 2 && decide (p.index.toNat ≤ 63) && x.entry.isNone then (.done 0x04 0, s)
  else
    match s.packetCode p x ctx bound with
    | (some c, s1) => (.done 0x03 c, s1)
    | (none, s1) =>
      if p.launches then
        match x.record with
        | some r => (match s1.launchCode ctx p r with
          | some c => (.done 0x02 c, s1)
          | none => (.queued r, s1))
        | none => (.done 0x03 0x13, s1)
      else
        let (v, s2) := s1.changeEntry ctx p x
        (.done v.1 v.2, s2)

/-- The front end accepts a packet: it takes the next sequence number, and is completed at once or queued (R319, R321,
R402). No completion word is written where CW is misaligned. -/
def State.accept (s : State) (q ctx : Nat) (p : LaunchPacket) : Nat × State :=
  let seq := s.hub.nextSeq
  let s1 := s.modHub (fun h => { h with nextSeq := (seq + 1) % 2 ^ 57 })
  let (x, s2) := s1.readPacket ctx p
  match s2.judge q ctx ((s.queue q).ctx == some ctx) p x with
  | (.queued r, s3) => (seq, s3.enqueue seq q ctx p x r)
  | (.done st arg, s3) =>
    (seq, s3.complete ctx (if p.cw.toNat % 8 = 0 then p.cw else 0) p.irq q (completionWord st arg seq))

/-- An access to a launch window is discarded and counted (R401, R406). -/
def State.dropAccess (s : State) (q : Nat) : State :=
  s.modQueue q (fun x => { x with drop := (if x.drop = 0xFFFF#16 then x.drop else x.drop + 1) })

/-- A PASID is that of the context to which the queue is bound (R401). -/
def State.windowCtx (s : State) (q pasid : Nat) : Option Nat :=
  match (s.queue q).ctx with
  | some c => (match s.part c with
    | some p => if p.pasid = pasid then some c else none
    | none => none)
  | none => none

/-- A packet reaches a launch window (R401). -/
def State.windowPacket (s : State) (q pasid : Nat) (p : LaunchPacket) : State :=
  match s.windowCtx q pasid with
  | some ctx => (s.accept q ctx p).2
  | none => s.dropAccess q

/-- LAUNCH_BY_RECORD (R401, R402). -/
def execLaunchByRecord (queue pasid : Nat) (packet : LaunchPacket) (s : State) : Out :=
  .next (s.onLink (fun a => a.windowPacket queue pasid packet))

/-- LAUNCH_BY_REGISTERED_ENTRY (R318, R401, R402). -/
def execLaunchByRegisteredEntry (queue pasid : Nat) (packet : LaunchPacket) (s : State) : Out :=
  .next (s.onLink (fun a => a.windowPacket queue pasid packet))

/-- REGISTER (R318, R404). -/
def execRegister (queue pasid : Nat) (packet : LaunchPacket) (s : State) : Out :=
  .next (s.onLink (fun a => a.windowPacket queue pasid packet))

/-- EMPTY_AN_ENTRY (R404). -/
def execEmptyAnEntry (queue pasid : Nat) (packet : LaunchPacket) (s : State) : Out :=
  .next (s.onLink (fun a => a.windowPacket queue pasid packet))

/-- An access to a launch window that is no packet (R401): counted where it touches bytes 0 to 63; a read gives zeros. -/
def State.windowAccess (s : State) (queue : Nat) (access : WindowAccess) : State :=
  match access with
  | .read off len =>
    let s1 := s.send (.hostData (List.replicate len 0) false)
    if off < 64 && 0 < len then s1.dropAccess queue else s1
  | .write pasid off len split =>
    let packet := off = 0 && len = 64 && !split && (s.windowCtx queue pasid).isSome
    if off < 64 && 0 < len && !packet then s.dropAccess queue else s

/-- LAUNCH_WINDOW_DROP (R401, R408). -/
def execLaunchWindowDrop (queue : Nat) (access : WindowAccess) (s : State) : Out :=
  .next (s.onLink (fun a => a.windowAccess queue access))

/-- DEPENDENCE_HOLDS (R322): the launch at the head of its queue becomes READY. -/
def execDependenceHolds (seq : Nat) (s : State) : Out :=
  match s.launch seq with
  | some l =>
    if l.state = .waiting then
      match s.dependenceSeen l with
      | (true, s1) => .next ((s1.becomeReady seq).settleQueue l.queue)
      | (false, s1) => .next s1
    else .next s
  | none => .next s

/-! ## Sending clusters -/

/-- Unstarted clusters at a die's distributor (R323). -/
def State.atDistributor (s : State) (d : Nat) : Nat :=
  (s.clusters.filter (fun p => p.2.die = d && p.2.state != .frontEnd && p.2.state.unstarted)).length

/-- A die's distributor accepts clusters: the die is not in steps 1 to 5 of a warm reset (R436). -/
def State.dieAccepts (s : State) (d : Nat) : Bool := (s.die d).resetStep = 0 || (s.die d).resetStep = 6

/-- The dies to which a cluster of a context can be sent now (R323). -/
def State.sendDies (s : State) (ctx : Nat) : List Nat :=
  (s.contextDies ctx).filter (fun d => s.dieAccepts d && decide (s.atDistributor d < 64))

/-- The die with the most free placements, ties to the lower number (R323). -/
def State.chooseDie (s : State) (r : LaunchRecord) : List Nat → Option (Nat × Nat)
  | [] => none
  | d :: ds =>
    match s.chooseDie r ds with
    | some (e, n) => if n ≤ s.freePlacements d r then some (d, s.freePlacements d r) else some (e, n)
    | none => some (d, s.freePlacements d r)

/-- A launch has a cluster to be sent (R321, R323). -/
def State.sends (s : State) (seq : Nat) (l : Launch) : Bool :=
  !l.closed && ((l.state = .ready || l.state = .placing) && decide (l.sent < l.record.clusters) ||
    s.clusters.any (fun p => p.2.launch = seq && p.2.state = .frontEnd))

/-- A launch is served before another: higher PRIO first, then the lower sequence number (R323). -/
def servedBefore (a : Nat × Launch) (b : Nat × Launch) : Bool :=
  decide (b.2.record.prio.toNat < a.2.record.prio.toNat) || (a.2.record.prio == b.2.record.prio && decide (a.1 < b.1))

/-- The launch is the one that the front end serves now (R323). -/
def State.servesNow (s : State) (seq : Nat) (l : Launch) : Bool :=
  s.sends seq l && !(s.sendDies l.ctx).isEmpty &&
    s.launches.all (fun p => p.1 = seq || !s.sends p.1 p.2 || (s.sendDies p.2.ctx).isEmpty || servedBefore (seq, l) p)

/-- Clusters of a launch that came back to the front end, lowest index first (R323, R436). -/
def State.returned (s : State) (seq : Nat) : Option Nat :=
  let back := s.clusters.filter (fun p => p.2.launch = seq && p.2.state = .frontEnd)
  let low := fun (a b : Nat × Cluster) => if b.2.index < a.2.index then b else a
  match back with
  | [] => none
  | c :: cs => some (cs.foldl low c).1

/-- Send the launch's next cluster to a die's distributor (R321, R323). -/
def State.sendTo (s : State) (seq d : Nat) (l : Launch) : State :=
  let s1 := match s.returned seq with
    | some c => s.modCluster c (fun x => { x with die := d, state := .distributor, since := s.now })
    | none =>
      let (k, s2) := s.fresh
      let c : Cluster := { launch := seq, index := l.sent, die := d, since := s.now }
      let s3 : State := { s2 with clusters := Tab.insert s2.clusters k c }
      s3.modLaunch seq (fun x => { x with sent := x.sent + 1, state := .placing })
  (s1.advanceLaunch seq).settleQueue l.queue

/-- CLUSTER_SEND (R321, R323). -/
def execClusterSend (seq : Nat) (s : State) : Out :=
  match s.launch seq with
  | some l =>
    if s.servesNow seq l then
      match s.chooseDie l.record (s.sendDies l.ctx) with
      | some (d, _) => .next (s.sendTo seq d l)
      | none => .next s
    else .next s
  | none => .next s

/-! ## Completion of launches -/

/-- LAUNCH_COMPLETE (R55, R118, R405, R406): every cluster has exited and every check is resolved; the buffers are drained, and
the host has answered the snoops that stores wait for. -/
def execLaunchComplete (seq : Nat) (s : State) : Out :=
  match s.launch seq with
  | some l =>
    if l.state = .resolving && !s.clusters.any (fun p => p.2.launch = seq) && !s.checks.any (fun p => p.2.launch = seq) then
      let s1 := [0, 1, 2, 3, 4].foldl State.drainAll s
      if s1.snoopsOwed then .next s1
      else
        let (st, arg) := l.outcome
        .next ((s1.finishLaunch seq st arg).settleQueue l.queue)
    else .next s
  | none => .next s

end Sys2Proof.Machine
end

