-- ==== Sys2Proof/Machine/Admission.lean ====
section
/-!
DEFINITION. Admission: what a core and a pound can take (R48, R98, R323 to R325, R346), the start of clusters (R45, R50,
R51), replicas and third runs (R344, R345), partial eviction and resumption (R326, R384, R388), and work donation (R61,
R62).
-/

namespace Sys2Proof.Machine

open Sys2Proof

/-! ## What a team asks for -/

/-- What a team asks of its core and pound at admission (R48, R98, R324); `area` where it still has to be given its 16 KiB of
the engine-queue area (R432). -/
structure Ask where
  core : Nat
  groups : Nat
  bytes : Nat
  lines : Nat
  energy : Nat
  current : Nat
  area : Bool
  deriving DecidableEq, Repr

/-- Groups of member m of M members (R45). -/
def memberGroups (gpc m members : Nat) : Nat := ceilDiv (gpc - m) members

/-- What a new team of a launch asks for (R45, R48, R324). -/
def LaunchRecord.ask (r : LaunchRecord) (core n : Nat) : Ask :=
  { core := core, groups := n, bytes := n * r.groupBytes, lines := r.scratch.toNat / 128
    energy := 12288 * (r.energy.toNat + 1), current := r.current.toNat + 1, area := true }

/-- The charge of a team as it is, its live groups alone counted (R54). -/
def State.teamBytes (s : State) (t : Team) : Nat :=
  let live := (t.groups.filter (fun k => (s.group k).isSome)).length
  if t.groupCount = 0 then 0 else live * (t.regBytes / t.groupCount)

/-- What a saved team of a launch asks for when it comes back (R326, R388); an exited one keeps its scratchpad (R53), and the
queue area was not released with what R388 lists (R294). -/
def State.askAgain (s : State) (r : LaunchRecord) (t : Team) : Ask :=
  let live := t.residency != .exited
  { core := t.core, groups := t.groups.length, bytes := s.teamBytes t, lines := t.scratchSize / 128
    energy := if live then 12288 * (r.energy.toNat + 1) else 0, current := if live then r.current.toNat + 1 else 0
    area := false }

/-! ## What is resident -/

/-- The teams that keep their place on some cores, those of some clusters left out (R48, R325; log 87). -/
def State.placedTeams (s : State) (here : Nat → Bool) (out : List Nat) : List Team :=
  (s.teams.filter (fun p => p.2.core < 576 && here p.2.core && p.2.residency.placed &&
    (match p.2.cluster with
      | some c => !out.contains c
      | none => true))).map Prod.snd

/-- The share of set `set` that a scratchpad of a number of lines takes from base set b (R98). -/
def setShare (b lines set : Nat) : Nat := lines / 512 + (if (set + 512 - b % 512) % 512 < lines % 512 then 1 else 0)

/-- Ways pinned in a set of a core store. -/
def State.pinned (s : State) (core set : Nat) (out : List Nat) : Nat :=
  ((s.teams.filter (fun p => p.2.core = core && s.pins p.2 out)).map
    (fun p => setShare p.2.baseSet (p.2.scratchSize / 128) set)).foldl (· + ·) 0

/-- The base set that a scratchpad is given: the first of 0, 64 to 448 for which every set has at most 12 ways (R98). -/
def State.baseFor (s : State) (core lines : Nat) (out : List Nat) : Option Nat :=
  ((List.range 8).map (fun i => 64 * i)).find? (fun b =>
    (List.range 512).all (fun set => decide (s.pinned core set out + setShare b lines set ≤ 12)))

/-- The register file and the groups of a core take a team (R48). -/
def State.coreTakes (s : State) (out : List Nat) (a : Ask) : Bool :=
  let res := s.placedTeams (fun k => k = a.core) out
  decide ((res.map s.teamBytes).foldl (· + ·) 0 + a.bytes ≤ 524288) &&
  decide ((res.map (fun t => t.groups.length)).foldl (· + ·) 0 + a.groups ≤ 64) &&
  (s.baseFor a.core a.lines out).isSome

/-- The budgets of the pound of an ask hold with every ask of that pound (R324, R325). -/
def State.budgetTakes (s : State) (out : List Nat) (asks : List Ask) (a : Ask) : Bool :=
  let p := corePound a.core
  let res := s.placedTeams (fun k => corePound k = p) out
  let mine := asks.filter (fun b => corePound b.core = p)
  let energy : Nat := (res.map Team.energy).foldl (· + ·) 0 + (mine.map Ask.energy).foldl (· + ·) 0
  let current : Nat := (res.map Team.current).foldl (· + ·) 0 + (mine.map Ask.current).foldl (· + ·) 0
  decide (energy ≤ (s.die (coreDie a.core)).mint / 16) && decide (current ≤ 150)

/-- The cores of a die on which teams of a context are resident (R323). -/
def State.coresInUse (s : State) (d ctx : Nat) (out : List Nat) : List Nat :=
  ((s.teams.filter (fun p => p.2.ctx = ctx && p.2.residency = .resident && coreDie p.2.core = d &&
    (match p.2.cluster with
      | some c => !out.contains c
      | none => true))).map (fun p => p.2.core)).eraseDups

/-- A core holds a team of a context, resident, evicted or swapped out (R323). -/
def State.coreHoldsOf (s : State) (core ctx : Nat) : Bool :=
  s.teams.any (fun p => p.2.core = core && p.2.ctx = ctx && p.2.residency != .exited)

/-- The CORES limit of the partition on a die holds after the asks: cores that hold a team of it already are exempt (R323). -/
def State.coresTake (s : State) (d ctx : Nat) (out : List Nat) (asks : List Ask) : Bool :=
  let used := s.coresInUse d ctx out
  let new := ((asks.map Ask.core).filter (fun c => !s.coreHoldsOf c ctx)).eraseDups
  match s.part ctx with
  | some p => new.isEmpty || decide (used.length + new.length ≤ nth 0 p.cores d)
  | none => false

/-- A team holds 16 KiB of its context's engine-queue area: from its admission until it exits, for a saved team's queues stay
there (R294, R388, R432). -/
def Team.holdsArea (t : Team) (ctx : Nat) : Bool :=
  t.ctx = ctx && t.launch.isSome && t.residency != .waiting && t.residency != .exited

/-- The parts of a context's engine-queue area that teams hold. -/
def State.areasHeld (s : State) (ctx : Nat) : List Nat :=
  (s.teams.filter (fun p => p.2.holdsArea ctx)).map (fun p => p.2.area)

/-- The part of the area that a new team is given: the first that no team holds (log 45). -/
def State.freeArea (s : State) (ctx : Nat) : Nat :=
  let held := s.areasHeld ctx
  ((List.range (held.length + 1)).find? (fun i => !held.contains i)).getD 0

/-- The context's engine-queue area has 16 KiB for each of `n` more teams (R432). -/
def State.areaTakes (s : State) (ctx n : Nat) : Bool :=
  match s.part ctx with
  | some p => n = 0 || decide (((s.areasHeld ctx).length + n) * 16384 ≤ p.eqSize)
  | none => false

/-- Every ask meets R48 and R325, the clusters of `out` left out. -/
def State.siteTakes (s : State) (out : List Nat) (asks : List Ask) : Bool :=
  asks.all (fun a => s.coreTakes out a && s.budgetTakes out asks a)

/-- A pound's scheduler admits: the pound is in RUN with its admit lock open (R337, R421). -/
def State.poundOpen (s : State) (key : Nat) : Bool := (s.pound key).state = .run && !(s.pound key).lock

/-- Every team of the asks can be admitted at once on die d, the clusters of `out` left out (R48, R323, R325, R337,
R432). -/
def State.takes (s : State) (d ctx : Nat) (out : List Nat) (asks : List Ask) : Bool :=
  s.dieAccepts d && s.contextRuns ctx && s.coresTake d ctx out asks &&
  s.areaTakes ctx (asks.filter Ask.area).length &&
  s.siteTakes out asks && asks.all (fun a => s.poundOpen (corePound a.core))

/-! ## Checks -/

/-- The share of teams under check in 64 by level (R341). -/
def levelShare (level : Nat) : Nat := nth 0 [0, 1, 4, 16, 32, 64] level

/-- A team is selected for a check (R341). -/
def State.selected (s : State) (seq ctx : Nat) (r : LaunchRecord) (teamId : Nat) : Bool :=
  if r.level = 0 then false
  else if r.level = 5 then true
  else
    match s.part ctx with
    | some p => decide (selectionHash p.key seq teamId % 64 < levelShare r.level)
    | none => false

/-- The member whose team decides for a member: of a physical pair of a PAIRED launch, the one on the even site
(R341). -/
def deciding (r : LaunchRecord) (members : List Nat) (m : Nat) : Nat :=
  let site := nth 0 members m
  if r.paired && site % 2 = 1 then (members.findIdx? (· == site - 1)).getD m else m

/-- Which members of a cluster are under check (R341). -/
def State.selectedMembers (s : State) (seq ctx index : Nat) (r : LaunchRecord) (members : List Nat) : List Nat :=
  (List.range members.length).filter (fun m => s.selected seq ctx r (index * 16 + deciding r members m))

/-- Free entries of a die's Sluice (R346). -/
def State.sluiceRoom (s : State) (d n : Nat) : Bool := decide ((s.checks.filter (fun p => p.2.die = d)).length + n ≤ 4096)

/-- Open a check for a team that is admitted (R346, R347). -/
def State.openCheck (s : State) (t : Nat) (x : Team) (seq : Nat) : State :=
  let d := coreDie x.core
  let s1 := s.modDie d (fun y => { y with checkCount := y.checkCount + 1 })
  let (c, s2) := s1.fresh
  let chk : Check :=
    { die := d, id := BitVec.ofNat 2 d ++ (s1.die d).checkCount, launch := seq, teamId := x.teamId
      clusterId := x.clusterId, member := x.member, members := x.members, ctx := x.ctx
      runs := [{ core := x.core, team := some t }] }
  { s2 with checks := Tab.insert s2.checks c chk
            teams := Tab.modify s2.teams t (fun y => { y with run := some (c, 0), checked := true }) }

/-- The checks of the two teams of each physical pair of a PAIRED cluster know each other (R317, R341). -/
def State.pairChecks (s : State) (teams : List Nat) : State :=
  let of := fun (t : Nat) => match s.team t with
    | some x => x.run.map (fun r => (x.core, r.1))
    | none => none
  let all := teams.filterMap of
  all.foldl (fun a p => match all.find? (fun q => q.1 = partnerCore p.1) with
    | some q => a.modCheck p.2 (fun c => { c with pair := some q.2 })
    | none => a) s

/-! ## Starting teams -/

/-- Make a team resident with its groups: registers zero, the program counter at ENTRY. The lines that its scratchpad pins are
written back, its first instruction is a DEV acquire, and a Mace segment of the core ends (R45, R51, R98, R105, R360). -/
def State.makeTeam (s : State) (t : Team) (r : LaunchRecord) (gids : List Nat) : Nat × State :=
  let (k, s1) := s.fresh
  let mk := fun (a : List Nat × State) (p : Nat × Nat) =>
    let (gk, s2) := a.2.fresh
    let g : Group :=
      { core := t.core, team := k, ctx := t.ctx, gid := p.2, tindex := p.1, width := r.lanes, vregs := r.registers
        pc := r.entry.toNat, gtSince := some s.now, age := s.now }
    (a.1 ++ [gk], s2.setGroup gk g)
  let (gs, s3) := ((List.range gids.length).zip gids).foldl mk ([], s1)
  let n := gids.length
  let x : Team := { t with
    groups := gs, groupCount := n, regBytes := n * r.groupBytes, scratchSize := r.scratch.toNat, residency := .resident
    energy := 12288 * (r.energy.toNat + 1), current := r.current.toNat + 1, admitted := s.now, area := s.freeArea t.ctx
    baseSet := (s.baseFor t.core (r.scratch.toNat / 128) []).getD 0 }
  let s4 := ((s3.setTeam k x).displace t.core (r.scratch.toNat / 128)).dropCopies t.core
  (k, s4.modCore t.core (fun c => { c with mace := none }))

/-- The group indices dealt to member m (R45). -/
def dealt (gpc m members : Nat) : List Nat := (List.range (memberGroups gpc m members)).map (fun t => m + t * members)

/-- A team that was dealt no group exits at once (R45, R54). -/
def State.exitEmpty (s : State) (t : Nat) : State :=
  match s.team t with
  | some x => if x.groups.isEmpty && x.residency = .resident then s.teamExit t else s
  | none => s

/-- Start a cluster on its members: all its teams become resident together, and the selected ones open checks (R45, R50,
R341). -/
def State.startCluster (s : State) (ck : Nat) (c : Cluster) (l : Launch) (x y : Nat) (members : List Nat) : State :=
  let r := l.record
  let n := members.length
  let one := fun (a : List Nat × State) (m : Nat) =>
    let t : Team :=
      { core := c.die * 144 + nth 0 members m, launch := some c.launch, cluster := some ck, member := m, members := n
        clusterId := c.index, ctx := l.ctx }
    let (k, s1) := a.2.makeTeam t r (dealt r.gpc.toNat m n)
    (a.1 ++ [k], s1)
  let (ts, s1) := (List.range n).foldl one ([], s.unqueue ck)
  let s2 := s1.modCluster ck (fun z => { z with state := .started, origin := some (x, y), teams := ts })
  let chosen := s.selectedMembers c.launch l.ctx c.index r members
  let s3 := chosen.foldl (fun a m => match a.team (nth 0 ts m) with
    | some t => a.openCheck (nth 0 ts m) t c.launch
    | none => a) s2
  let s4 := if r.paired then s3.pairChecks ts else s3
  ts.foldl State.exitEmpty s4

/-! ## Replicas and third runs -/

/-- A check waits for a later run: its number (R345, R347). -/
def Check.wantsRun (c : Check) : Option Nat :=
  match c.state with
  | .queued => if c.runs.length = 1 then some 1 else none
  | .vote => if c.runs.length = 2 then some 2 else none
  | _ => none

/-- What a later run of a check asks for on a core. -/
def Check.runAsk (c : Check) (r : LaunchRecord) (core : Nat) : Ask :=
  r.ask core (memberGroups r.gpc.toNat c.member c.members)

/-- A core suits a later run by where the earlier runs are (R344, R345). -/
def State.runCoreOk (s : State) (c : Check) (l : Launch) (run core : Nat) : Bool :=
  let d := coreDie core
  let home := coreDie (c.coreOf 0)
  decide (core < 576) && (s.die d).siteFree (coreSite core) && (if l.record.xdie then d != home else d == home) &&
  (s.contextDies l.ctx).contains d && c.runs.all (fun r => r.core != core) &&
  (run != 1 || corePound core != corePound (c.coreOf 0))

/-- A core is in a pound different from those of both earlier runs (R345). -/
def Check.farFrom (c : Check) (core : Nat) : Bool := c.runs.all (fun r => corePound r.core != corePound core)

/-- The later run of a check alone can be placed on a core. -/
def State.runFits (s : State) (c : Check) (l : Launch) (run core : Nat) : Bool :=
  s.runCoreOk c l run core && s.takes (coreDie core) l.ctx [] [c.runAsk l.record core]

/-- The later runs of the checks of a physical pair can be placed on the two sites of one physical pair (R345). -/
def State.pairRunsFit (s : State) (c q : Check) (l : Launch) (run core : Nat) : Bool :=
  coreSite core % 2 = coreSite (c.coreOf 0) % 2 && q.wantsRun = some run &&
  s.runCoreOk c l run core && s.runCoreOk q l run (partnerCore core) &&
  s.takes (coreDie core) l.ctx [] [c.runAsk l.record core, q.runAsk l.record (partnerCore core)]

/-- A later run of a check, with its pair's where there is one, can be placed on a core. -/
def State.laterFits (s : State) (c : Check) (l : Launch) (run core : Nat) : Bool :=
  match c.pair with
  | none => s.runFits c l run core
  | some q => (match s.check q with
    | some y => s.pairRunsFit c y l run core
    | none => s.runFits c l run core)

/-- The placement of a later run on a core follows R345, the preference of a third run for another pound included. -/
def State.laterAllowed (s : State) (c : Check) (l : Launch) (run core : Nat) : Bool :=
  s.laterFits c l run core &&
  (run != 2 || c.farFrom core || !(List.range 576).any (fun k => c.farFrom k && s.laterFits c l run k))

/-- A queued run of the launch could take one of these cores, ahead of the launch's unstarted clusters (R345). -/
def State.runAhead (s : State) (seq : Nat) (l : Launch) (cores : List Nat) : Bool :=
  s.checks.any (fun p => p.2.launch = seq && (match p.2.wantsRun with
    | some run => cores.any (fun k => s.laterAllowed p.2 l run k)
    | none => false))

/-- Place a later run of a check on a core: a team of its own with the original's identity (R39, R344, R345). -/
def State.startRun (s : State) (ck : Nat) (c : Check) (l : Launch) (run core : Nat) : Nat × State :=
  let t : Team :=
    { core := core, launch := some c.launch, member := c.member, members := c.members, clusterId := c.clusterId
      ctx := c.ctx, run := some (ck, run), checked := true }
  let (k, s1) := s.makeTeam t l.record (dealt l.record.gpc.toNat c.member c.members)
  (k, s1.modCheck ck (fun y => { y with
    state := (if run = 1 then CheckState.replay else y.state)
    runs := y.runs ++ [{ core := core, team := some k }] }))

/-- A parked access on a request that the host has not answered. -/
def State.waitsHost (s : State) (p : Option Parked) : Bool :=
  match p with
  | some x => (match x.request with
    | some e => s.requests.any (fun r => r.entry = e)
    | none => false)
  | none => false

/-- A parked access of a team is still unanswered (R384). -/
def State.teamUnanswered (s : State) (t : Nat) : Bool :=
  (match s.team t with
    | some x => x.groups.any (fun k => match s.group k with
      | some g => s.waitsHost g.parked
      | none => false)
    | none => false) || s.ops.any (fun p => p.2.team = t && s.waitsHost p.2.parked)

/-- A saved team is given its place again: its sets, from which dirty lines are written back, its charges and its image (R98,
R325, R388). -/
def State.takeBack (s : State) (t : Nat) (x : Team) (r : LaunchRecord) : State :=
  let live := ((s.team t).map Team.residency).getD x.residency != .exited
  let b := (s.baseFor x.core (x.scratchSize / 128) []).getD 0
  let s1 := (s.displace x.core (x.scratchSize / 128)).modTeam t (fun y => { y with
    baseSet := b
    inSwap := false
    stopped := false
    energy := (if live then 12288 * (r.energy.toNat + 1) else 0)
    current := (if live then r.current.toNat + 1 else 0)
    admitted := (if live then s.now else y.admitted) })
  if live then s1.restoreTeam t else s1

/-- A run of the check that stands stopped or swapped out on a core (R384). -/
def State.stoppedRun (s : State) (c : Check) (core : Nat) : Option (Nat × Team) :=
  s.teams.find? (fun p => c.runs.any (fun r => r.team = some p.1) && p.2.core = core && p.2.cluster.isNone &&
    (p.2.stopped || p.2.residency = .swapped))

/-- A run that was swapped out, or stands stopped, goes on where it was once its accesses have been answered (R384). -/
def State.resumeRun (s : State) (t : Nat) (x : Team) (l : Launch) : State :=
  if s.teamUnanswered t then s
  else if x.stopped then (s.modTeam t (fun y => { y with stopped := false })).resumeQueues t
  else if s.takes (coreDie x.core) l.ctx [] [s.askAgain l.record x] then s.takeBack t x l.record
  else s

/-- REPLICA_PLACE (R344, R345, R384): the runs of a pair are placed together; a run that was swapped out comes back. -/
def execReplicaPlace (check core : Nat) (s : State) : Out :=
  match s.check check with
  | none => .next s
  | some c =>
    match s.launch c.launch, (if (s.stoppedRun c core).isSome then none else c.wantsRun) with
    | some l, none =>
      (match s.stoppedRun c core with
      | some (t, x) => .next (s.resumeRun t x l)
      | none => .next s)
    | some l, some run =>
      if s.laterAllowed c l run core then
        let (k, s1) := s.startRun check c l run core
        match c.pair.bind (fun q => (s1.check q).map (fun y => (q, y))) with
        | some (q, y) =>
          let (k2, s2) := s1.startRun q y l run (partnerCore core)
          .next ((s2.exitEmpty k).exitEmpty k2)
        | none => .next (s1.exitEmpty k)
      else .next s
    | none, _ => .next s

/-! ## Clusters at a pound -/

/-- The asks of a new cluster's teams. -/
def LaunchRecord.asks (r : LaunchRecord) (d : Nat) (members : List Nat) : List Ask :=
  (List.range members.length).map (fun m =>
    r.ask (d * 144 + nth 0 members m) (memberGroups r.gpc.toNat m members.length))

/-- A new cluster can be admitted whole on its members now, the clusters of `out` left out. -/
def State.admits (s : State) (c : Cluster) (l : Launch) (members : List Nat) (out : List Nat) : Bool :=
  let n := (s.selectedMembers c.launch l.ctx c.index l.record members).length
  s.takes c.die l.ctx out (l.record.asks c.die members) && s.sluiceRoom c.die n

/-- The pound that holds the origin site of a rectangle (R61). -/
def originPound (d x y : Nat) : Nat := poundKey d (sitePound (y * 12 + x))

/-- An unstarted cluster queues at the pound of its rectangle's origin site (R61). -/
def State.queueAt (s : State) (ck : Nat) (d x y : Nat) : State :=
  let key := originPound d x y
  let s1 := (s.unqueue ck).modCluster ck (fun c => { c with state := .pound key, origin := some (x, y) })
  s1.modPound key (fun p => { p with blocks := p.blocks ++ [ck] })

/-- Offer an unstarted cluster a rectangle: it starts where it can be admitted, else it queues at the origin's pound
(R44, R48, R61). A cluster that stands in a queue keeps its rectangle while the rectangle is legal, and none queues where its
largest team has more groups than a core ever holds (R66). -/
def State.offer (s : State) (ck : Nat) (c : Cluster) (l : Launch) (x y : Nat) : State :=
  let d := s.die c.die
  let keeps := match c.state, c.origin with
    | .pound _, some o => o = (x, y) || (d.placement l.record o.1 o.2).isNone
    | _, _ => true
  match d.placement l.record x y with
  | none => s
  | some ms =>
    let cores := ms.map (fun i => c.die * 144 + i)
    if !keeps then s
    else if s.admits c l ms [] && !s.runAhead c.launch l cores then s.startCluster ck c l x y ms
    else if c.origin = some (x, y) || 64 < memberGroups l.record.gpc.toNat 0 ms.length || (s.pound (originPound c.die x y)).lock then s
    else (s.dispatchAt (originPound c.die x y)).queueAt ck c.die x y

/-! ## Eviction, swap-out and resumption -/

/-- A group stands where a stop may find it: at a clause boundary, at its parked instruction, or at a breakpoint, with no
special-function operation outstanding (R247, R388). -/
def Group.atStop (g : Group) : Bool :=
  g.atBoundary && g.flights.all (fun f => f.task != .special)

/-- Every group of a cluster stands at a stop (R388). -/
def State.clusterAtStop (s : State) (c : Cluster) : Bool :=
  c.teams.all (fun t => match s.team t with
    | some x => x.groups.all (fun k => match s.group k with
      | some g => g.atStop
      | none => true)
    | none => true)

/-- The bytes that a team's image takes in the swap area (R388, R391), the array it owns among them. -/
def State.teamImage (s : State) (t : Nat) : Nat :=
  match s.team t with
  | some x => x.imageBytes +
      (if (s.core x.core).owner = some t && x.arraySave.isNone && !x.saveSlot then saveSlotBytes else 0)
  | none => 0

/-- No team of the cluster is switched out with its partition, so its image is not in shadow storage (R326, R384, R392). -/
def State.clusterHere (s : State) (c : Cluster) : Bool :=
  c.teams.all (fun t => match s.team t with
    | some x => x.residency != .switchedOut
    | none => true)

/-- The bytes that a cluster's image takes. -/
def State.clusterImage (s : State) (c : Cluster) : Nat := (c.teams.map s.teamImage).foldl (· + ·) 0

/-- A stopped cluster's image goes to the swap area, and what it holds is released (R388). -/
def State.saveCluster (s : State) (ck : Nat) (c : Cluster) (place : Residency) (at_ : ClusterState) : State :=
  let live := c.teams.filter (fun t => match s.team t with
    | some x => x.residency = .resident
    | none => false)
  let s1 := live.foldl (fun a t => a.saveTeam t place) s
  let s2 := c.teams.foldl (fun a t => a.modTeam t (fun x => { x with inSwap := true, energy := 0, current := 0 })) s1
  let s3 := s2.modCluster ck (fun x => { x with state := at_, stopped := none })
  match at_, c.origin with
  | .evicted, some (x, y) => s3.modPound (originPound c.die x y) (fun p => { p with blocks := p.blocks ++ [ck] })
  | _, _ => s3

/-- Stop a cluster and save it, or leave it resident and stopped while its clauses in progress have not ended or the swap area
cannot hold its image; its engines stop once those clauses have ended (R388). -/
def State.stopCluster (s : State) (ck : Nat) (why : StopFor) : State :=
  match s.cluster ck with
  | none => s
  | some c =>
    let s0 := s.modCluster ck (fun x => { x with stopped := some why })
    let s1 := if s0.clusterAtStop c then c.teams.foldl State.stopQueues s0 else s0
    let ctx := match s.launch c.launch with
      | some l => l.ctx
      | none => 0
    if s1.clusterHere c && s1.clusterAtStop c && s1.swapRoom ctx (s1.clusterImage c) then
      match why with
      | .swap => s1.saveCluster ck c .swapped .swapped
      | .evict _ => s1.saveCluster ck c .evicted .evicted
    else s1

/-- A parked access of a cluster's member is still unanswered (R384). -/
def State.unanswered (s : State) (c : Cluster) : Bool :=
  c.teams.any s.teamUnanswered

/-- The swapped-out clusters whose parked accesses have all been answered re-enter the queues of their pounds (R384). -/
def State.requeueSwapped (s : State) : State :=
  s.clusters.foldl (fun a p =>
    match p.2.state, p.2.origin with
    | .swapped, some (x, y) =>
      let key := originPound p.2.die x y
      if a.unanswered p.2 || (a.pound key).blocks.contains p.1 then a
      else a.modPound key (fun q => { q with blocks := q.blocks ++ [p.1] })
    | _, _ => a) s

/-- The teams of a cluster. -/
def State.clusterTeams (s : State) (c : Cluster) : List (Nat × Team) :=
  c.teams.filterMap (fun t => (s.team t).map (fun x => (t, x)))

/-- A saved cluster can resume on its own sites: it is answered, and R48 and R325 admit it again (R326, R384). -/
def State.resumable (s : State) (c : Cluster) (l : Launch) : Bool :=
  !(c.state = .swapped && s.unanswered c) &&
  s.takes c.die l.ctx [] ((s.clusterTeams c).map (fun p => s.askAgain l.record p.2))

/-- A saved cluster resumes on its own sites when R48 and R325 admit it again (R57, R326, R384). -/
def State.resumeCluster (s : State) (ck : Nat) (c : Cluster) (l : Launch) : State :=
  let ts := s.clusterTeams c
  if s.resumable c l then
    let s1 := (s.unqueue ck).modCluster ck (fun x => { x with state := .started })
    ts.foldl (fun a p => a.takeBack p.1 p.2 l.record) s1
  else s

/-- A replica or third run is swapped out alone, or stands stopped while the swap area cannot hold its image (R384,
R388). -/
def State.stopRunTeam (s : State) (t : Nat) (x : Team) : State :=
  let s0 := s.modTeam t (fun y => { y with stopped := true })
  let atStop := x.groups.all (fun k => match s.group k with
    | some g => g.atStop
    | none => true)
  let s1 := if atStop then s0.stopQueues t else s0
  if atStop && s1.swapRoom x.ctx (s1.teamImage t) then
    (s1.saveTeam t .swapped).modTeam t (fun y => { y with stopped := false, inSwap := true, energy := 0, current := 0 })
  else s1

/-- A cluster that stands stopped goes on where it need not be saved any more (R384, R388). -/
def State.unstop (s : State) (ck : Nat) (c : Cluster) : State :=
  let go := match c.stopped with
    | some .swap => !s.unanswered c
    | some (.evict k) => (match s.cluster k with
      | some x => !x.state.unstarted
      | none => true)
    | none => false
  if go then c.teams.foldl State.resumeQueues (s.modCluster ck (fun x => { x with stopped := none })) else s

/-- TEAM_ADMIT (R44 to R51, R61, R323 to R326, R384): a pound's scheduler takes up a cluster at an origin. -/
def execTeamAdmit (cluster x y : Nat) (s : State) : Out :=
  match s.cluster cluster with
  | none => .next s
  | some c =>
    match s.launch c.launch with
    | none => .next s
    | some l =>
      match c.state with
      | .distributor => .next (s.offer cluster c l x y)
      | .pound _ => .next (s.offer cluster c l x y)
      | .evicted => if c.origin = some (x, y) then .next (s.resumeCluster cluster c l) else .next s
      | .swapped => if c.origin = some (x, y) then .next (s.resumeCluster cluster c l) else .next s
      | .started => if c.origin = some (x, y) then .next (s.unstop cluster c) else .next s
      | .frontEnd => .next s
      | .exited => .next s

/-! ## Partial eviction -/

/-- The choices of n elements of a list, in the order of the list. -/
def chooseN {α : Type} : Nat → List α → List (List α)
  | 0, _ => [[]]
  | _ + 1, [] => []
  | n + 1, x :: xs => (chooseN n xs).map (x :: ·) ++ chooseN (n + 1) xs

/-- %clock at which a cluster was last admitted. -/
def State.admittedAt (s : State) (c : Cluster) : Nat :=
  (c.teams.map (fun t => match s.team t with
    | some x => x.admitted
    | none => 0)).foldl max 0

/-- The priority of a cluster's launch. -/
def State.prioOf (s : State) (c : Cluster) : Nat :=
  match s.launch c.launch with
  | some l => l.record.prio.toNat
  | none => 3

/-- Put a cluster into a list in the order of R326: lower PRIO first, then the more recent admission. -/
def State.insertVictim (s : State) (p : Nat × Cluster) : List (Nat × Cluster) → List (Nat × Cluster)
  | [] => [p]
  | q :: qs =>
    let first := s.prioOf p.2 < s.prioOf q.2 || (s.prioOf p.2 = s.prioOf q.2 && s.admittedAt q.2 ≤ s.admittedAt p.2)
    if first then p :: q :: qs else q :: s.insertVictim p qs

/-- The resident clusters of a die that may be evicted, in the order of R326: none of PRIO 3. -/
def State.victims (s : State) (d : Nat) : List (Nat × Cluster) :=
  (s.clusters.filter (fun p => p.2.die = d && p.2.state = .started && p.2.stopped.isNone && s.clusterHere p.2 &&
    decide (s.prioOf p.2 < 3))).foldl
    (fun a p => s.insertVictim p a) []

/-- R48 and R325 admit a cluster on its members, the clusters of `out` left out (R326). -/
def State.rectTakes (s : State) (c : Cluster) (l : Launch) (members : List Nat) (out : List Nat) : Bool :=
  s.siteTakes out (l.record.asks c.die members)

/-- The fewest clusters whose eviction frees a rectangle for a cluster (R326). -/
def State.evictionFor (s : State) (c : Cluster) (l : Launch) (members : List Nat) : Option (List Nat) :=
  let vs := (s.victims c.die).map Prod.fst
  ((List.range (vs.length + 1)).flatMap (fun n => chooseN n vs)).find? (fun out => s.rectTakes c l members out)

/-- The clusters that stand stopped for an incoming cluster. -/
def State.stoppedFor (s : State) (ck : Nat) : List Nat :=
  (s.clusters.filter (fun p => p.2.stopped = some (.evict ck))).map Prod.fst

/-- PARTIAL_EVICTION (R326, R388): a priority-3 cluster that has waited 2 µs without a rectangle that would admit it gets
one by eviction. Victims stop at their groups' boundaries; once all are saved the cluster is admitted. -/
def execPartialEviction (cluster x y : Nat) (s : State) : Out :=
  match s.cluster cluster with
  | none => .next s
  | some c =>
    match s.launch c.launch with
    | none => .next s
    | some l =>
      let d := s.die c.die
      let waits := c.state.unstarted && c.state != .frontEnd && l.record.prio = 3 && decide (c.since + us 2 ≤ s.now)
      let none_ := !origins.any (fun o => match d.placement l.record o.1 o.2 with
        | some ms => s.rectTakes c l ms []
        | none => false)
      match d.placement l.record x y, s.stoppedFor cluster with
      | some ms, [] =>
        if waits && none_ then
          match s.evictionFor c l ms with
          | some out =>
            let s1 := out.foldl (fun a k => a.stopCluster k (.evict cluster)) s
            if (s1.stoppedFor cluster).isEmpty && s1.admits c l ms [] then .next (s1.startCluster cluster c l x y ms)
            else .next s1
          | none => .next s
        else .next s
      | some ms, out =>
        let s1 := out.foldl (fun a k => a.stopCluster k (.evict cluster)) s
        if (s1.stoppedFor cluster).isEmpty && s1.admits c l ms [] then .next (s1.startCluster cluster c l x y ms)
        else .next s1
      | none, _ => .next s

/-! ## Work donation -/

/-- The teams of a queued block: the members of its own rectangle as it stands, or all its sites. -/
def State.blockMembers (s : State) (d : Nat) (c : Cluster) (l : Launch) : Nat :=
  match c.origin with
  | some o => (((s.die d).placement l.record o.1 o.2).map List.length).getD l.record.sites
  | none => l.record.sites

/-- A block can be shipped to an origin of the thief: its own rectangle is legal there and free, no member site holding a
team, its origin lies in the thief's pound, and the cluster keeps its number of members, and so its %teamid and %gid sets.
Every free rectangle lies in one of the largest, so the rectangles that the thief's request names cover it (R61, R62; log 75). -/
def State.fitsOffer (s : State) (d thief : Nat) (c : Cluster) (l : Launch) (o : Nat × Nat) : Bool :=
  originPound d o.1 o.2 = thief &&
  (match (s.die d).placement l.record o.1 o.2 with
    | some ms => ms.all (fun i => !s.coreHolds (d * 144 + i)) && ms.length == s.blockMembers d c l
    | none => false)

/-- The unstarted clusters of a pound's queue, in the order of their arrival: the MODEL's choice of the order in which the pound
would itself admit them, for which the spec names none (R61; log 69). -/
def State.unstartedBlocks (s : State) (key : Nat) : List (Nat × Cluster × Launch) :=
  (s.pound key).blocks.filterMap (fun k => match s.cluster k with
    | some c => if c.state = .pound key then (s.launch c.launch).map (fun l => (k, c, l)) else none
    | none => none)

/-- The single-core clusters that the victim ships, with their origins: at most n of the blocks, an offer each (R61). -/
def State.shipSingles (s : State) (d thief : Nat) : Nat → List (Nat × Cluster × Launch) → List (Nat × Nat) →
    List (Nat × Nat × Nat)
  | 0, _, _ => []
  | _ + 1, [], _ => []
  | n + 1, (k, c, l) :: bs, offers =>
    if l.record.sites = 1 then
      match offers.find? (fun o => s.fitsOffer d thief c l o) with
      | some o => (k, o) :: s.shipSingles d thief n bs (offers.filter (· != o))
      | none => s.shipSingles d thief (n + 1) bs offers
    else s.shipSingles d thief (n + 1) bs offers

/-- What the victim ships: up to four single-core clusters, or one multi-core cluster whole, in the order in which it
would have admitted them. The request names all that is free; the origins that the event gives are tried first (R61; log 75). -/
def State.shipment (s : State) (d thief victim : Nat) (first : List (Nat × Nat)) : List (Nat × Nat × Nat) :=
  let bs := s.unstartedBlocks victim
  let offers := first ++ origins.filter (fun o => !first.contains o)
  match bs.find? (fun b => offers.any (fun o => s.fitsOffer d thief b.2.1 b.2.2 o)) with
  | some (k, c, l) =>
    if l.record.sites = 1 then s.shipSingles d thief 4 bs offers
    else (match offers.find? (fun o => s.fitsOffer d thief c l o) with
      | some o => [(k, o)]
      | none => [])
  | none => []

/-- A pound has a block that it could admit now: a cluster that has not started, or a saved one that may resume (R61,
R326). -/
def State.hasAdmissible (s : State) (key : Nat) : Bool :=
  (s.pound key).blocks.any (fun k => match s.cluster k with
    | none => false
    | some c =>
      match s.launch c.launch, c.origin with
      | some l, some o =>
        if c.state = .pound key then (match (s.die c.die).placement l.record o.1 o.2 with
          | some ms => s.admits c l ms []
          | none => false)
        else (c.state = .evicted || c.state = .swapped) && s.resumable c l
      | _, _ => false)

/-- A pound takes part in donation: its lock is open (R337). -/
def State.lockOpen (s : State) (key : Nat) : Bool :=
  ((s.pound key).state = .run || (s.pound key).state = .drain) && !(s.pound key).lock

/-- STEAL_REQUEST (R61, R62, R337): pounds of one die, both with open locks; the thief has no admissible work. A shipped block
cancels a gating of the thief that is not yet committed. -/
def execStealRequest (thief victim : Nat) (offers : List (Nat × Nat)) (s : State) : Out :=
  let d := thief / 16
  if thief < 64 && victim / 16 = d && thief != victim && s.lockOpen thief && s.lockOpen victim && s.dieAccepts d &&
      !s.hasAdmissible thief then
    let out := s.shipment d thief victim offers
    let s1 := if out.isEmpty then s else s.dispatchAt thief
    .next (out.foldl (fun a p => a.queueAt p.1 d p.2.1 p.2.2) s1)
  else .next s

/-! ## Dispatches at a closed lock -/

/-- The cluster is dispatched to a pound: it has a rectangle with a member there, or it was saved from cores there (R326, R337,
R384). -/
def State.dispatches (s : State) (key : Nat) (c : Cluster) : Bool :=
  match s.launch c.launch with
  | none => false
  | some l =>
    let here := fun (o : Nat × Nat) => match (s.die c.die).placement l.record o.1 o.2 with
      | some ms => ms.any (fun i => corePound (c.die * 144 + i) = key)
      | none => false
    let saved := c.teams.any (fun t => match s.team t with
      | some x => corePound x.core = key
      | none => false)
    s.contextRuns l.ctx && (match c.state with
      | .distributor => origins.any here
      | .pound _ => (match c.origin with
        | some o => here o
        | none => false)
      | .evicted => saved
      | .swapped => saved && !s.unanswered c
      | _ => false)

/-- A later run of a check is dispatched to a pound: to be placed on one of its cores, or to resume there (R344, R345, R384). -/
def State.runDispatches (s : State) (key : Nat) (c : Check) : Bool :=
  match s.launch c.launch with
  | none => false
  | some l =>
    s.contextRuns l.ctx && (poundCores key).any (fun k => match s.stoppedRun c k, c.wantsRun with
      | some (t, x), _ => x.residency = .swapped && !s.teamUnanswered t
      | none, some run => s.runCoreOk c l run k
      | none, none => false)

/-- DISPATCH_AT_LOCK (R337, R422): a dispatch meets the admit lock of a gating pound. -/
def execDispatchAtLock (die pound : Nat) (s : State) : Out :=
  let key := poundKey die pound
  let real := s.clusters.any (fun c => s.dispatches key c.2) || s.checks.any (fun c => s.runDispatches key c.2)
  if die < 4 && pound < 16 && real then .next (s.dispatchAt key).settleRestores else .next s

end Sys2Proof.Machine
end

