-- ==== Sys2Proof/Machine/Coherence.lean ====
section
/-!
DEFINITION. What happens to lines between instructions: token requests (R112, R113), leases (R119), drains of the remote-write
buffers (R115), the host's accesses, snoops and answers (R117, R118, R398), invalidations from the host (R147, R399) and
uncorrectable errors (R357).
-/

namespace Sys2Proof.Machine

open Sys2Proof

/-! ## Tokens -/

/-- What an ordinary request that gathers too few tokens takes: those that rest at the home slice, but the owner token (R113). -/
def LineTokens.partial_ (t : LineTokens) (core : Nat) : LineTokens :=
  let n := if t.owner.isNone then t.atHome - 1 else t.atHome
  if n = 0 then t else { t with held := Tab.insert t.held core (Tab.read 0 t.held core + n) }

/-- A request has not gathered the tokens it needs (R113). -/
def LineTokens.failTry (t : LineTokens) (core : Nat) : LineTokens :=
  { t with tries := Tab.insert t.tries core (Tab.read 0 t.tries core + 1) }

/-- A core can have tokens of a line: they are both of one die, the home answers, the core's site is enabled, and its pound
is not gated (R16, R17, R112, R423, R437). -/
def State.tokenReach (s : State) (core line : Nat) : Bool :=
  homeDie (line * 128) = some (coreDie core) && !s.errorReply (line * 128) && (s.die (coreDie core)).siteUp (coreSite core) &&
  !s.gatedCore core

/-- TOKEN_REQUEST (R112, R113). Only cores of the line's die have tokens; a request is refused while a persistent request is
admitted; one that finds too few tokens gathers a part of them. Both count as a try without success. -/
def execTokenRequest (core line : Nat) (write : Bool) (s : State) : Out :=
  let t := s.lineTokens line
  if !s.tokenReach core line || t.holds core write then .next s
  else if !t.persistent.isEmpty then .next (s.setTokens line (t.failTry core))
  else
    let r := s.freeBool
    let t1 := if !r.1 then (t.partial_ core).failTry core else if write then t.forWrite core else t.forRead core
    .next (r.2.setTokens line t1)

/-- PERSISTENT_REQUEST (R113). A request that has failed and has been retried four times without success is queued, and
admitted when no other is before it: every holder forwards its tokens to it. The admitted request completes, and the next
one is admitted. -/
def execPersistentRequest (core line : Nat) (write : Bool) (s : State) : Out :=
  let t := s.lineTokens line
  if !s.tokenReach core line then .next s
  else if !t.persistent.contains (core, write) then
    if Tab.read 0 t.tries core < 5 then .next s
    else
      let t1 := { t with persistent := t.persistent ++ [(core, write)] }
      .next (s.setTokens line (if t.persistent.isEmpty then t1.serve else t1))
  else
    match t.persistent with
    | p :: rest => if p = (core, write) then .next (s.setTokens line { t with persistent := rest }.serve) else .next s
    | [] => .next s

/-! ## Drains and leases -/

/-- REMOTE_WRITE_DRAIN (R115). -/
def execRemoteWriteDrain (die line : Nat) (s : State) : Out := .next (s.drainLine die line)

/-- The region of a line is marked poisoned in its die's error record, with an event (R119, R368). -/
def State.markRegion (s : State) (line : Nat) : State :=
  match homeDie (line * 128) with
  | some d =>
    let r := line * 128 / 4096 * 4096
    if (s.die d).poisoned.contains r then s
    else (s.recordPoison (line * 128)).addEvent 0x07 d 0xFF 4 0xFF 0 (BitVec.ofNat 64 r) 0 0
  | none => s

/-- A lease on the line has run out: a snoop of one of its halves after 20 µs, or a token recall after 5 µs (R119). -/
def State.leaseOver (s : State) (line : Nat) : Bool :=
  s.snoops.any (fun x => x.half / 2 = line && x.asked && decide (x.since + 20000 ≤ s.now)) ||
  (match (s.lineTokens line).recalled with
    | some t => decide (t + 5000 ≤ s.now)
    | none => false)

/-- A line stands as it was last written back, writes that wait for the host among it (R119). -/
def State.restoreLine (s : State) (line : Nat) (bs : List Byte) : State :=
  let old := fun (pa : Nat) => nth 0 bs (pa % 128)
  { (s.setBytes (atAddr (line * 128) bs)) with
    snoops := s.snoops.map (fun x =>
      if x.half / 2 = line then { x with writes := x.writes.map (fun p => (p.1, old p.1)) } else x) }

/-- The tokens of an expired recall come home, the line as it was last written back (R119). -/
def State.revertLine (s : State) (line : Nat) : State :=
  let t := s.lineTokens line
  match t.recalled with
  | some since =>
    if since + 5000 ≤ s.now then
      let s1 := s.setTokens line t.home
      match t.clean with
      | some bs => s1.restoreLine line bs
      | none => s1
    else s
  | none => s

/-! ## Writes that have reached their homes -/

/-- The PFREEs in flight for a frame: its size, and whether its dirty lines are discarded (R222). -/
def State.freesOf (s : State) (frame : Nat) : List (Nat × Bool) :=
  s.groups.flatMap (fun p => p.2.flights.filterMap (fun f => match f.task with
    | .purge pa size pool => if pa = frame then some (size, pool) else none
    | _ => none))

/-- Some die has not acknowledged the purge of a frame. -/
def State.purging (s : State) (frame : Nat) : Bool := !(Tab.read [] s.purges frame).isEmpty

/-- The Invalidate Completions are sent for which every die has purged its frames and every device write has been performed at its
home (R138, R146, R147). -/
def State.sendCompletions (s : State) : State :=
  let ready := fun (c : PendingCompletion) => !s.snoopsOwed && c.frames.all (fun p => !s.purging p.1)
  let over_ := s.completions.filter ready
  let gone := (over_.flatMap (fun c => c.frames.map Prod.fst)).filter (fun f => (s.freesOf f).isEmpty)
  over_.foldl (fun a c => a.send (.invalidateCompletion c.pasid))
    { s with completions := s.completions.filter (fun c => !ready c), purges := gone.foldl Tab.remove s.purges }

/-- Once the host has answered for every device write, the words that waited for it reach memory, the flag words of peers' copies that
waited for their data are written, the interrupts that waited for completion words are signalled, and Invalidate Completions are sent
(R118, R146, R405, R411, R414). -/
def State.settleOwed (s : State) : State :=
  if s.snoopsOwed then s
  else
    let s0 := State.homeEnter { s with lateWords := [] } s.lateWords
    if s0.snoopsOwed then s0
    else
      let s1 := s0.modHub (fun h => { h with heldFlags := [], owedIrqs := [] })
      let s2 := s.hub.heldFlags.foldl (fun a f => (a.frontWrite f.1 f.2.1 f.2.2).2) s1
      (s.hub.owedIrqs.foldl (fun a q => a.send (.msix q)) s2).sendCompletions

/-- A snoop is over: the host holds the half no more, the writes that waited for it stand in memory, and a snoop that
waited to be sent goes out (R118, R119, R398). Watches and read sets met those writes when they were made. -/
def State.takeHalf (s : State) (x : Snoop) : State :=
  let s1 := { s with snoops := s.snoops.filter (fun y => y.half != x.half)
                     hostHeld := Tab.write false s.hostHeld x.half false }
  (if x.writes.isEmpty then s1 else s1.settle x.writes).sendSnoop.settleOwed

/-- LEASE_EXPIRY (R119). -/
def execLeaseExpiry (line : Nat) (s : State) : Out :=
  if s.leaseOver line then
    let s1 := s.revertLine line
    let late := s1.snoops.filter (fun x => x.half / 2 = line && x.asked && decide (x.since + 20000 ≤ s.now))
    .next (late.foldl State.takeHalf ((s1.setPoison line true).markRegion line))
  else .next s

/-! ## The host -/

/-- The host's data do not enter memory: those for a bound frame (R412), and those for an AP page, whose bytes below the
tail never change and which is written only through APND (R101, R133; log 64). -/
def State.hostBarred (s : State) (pa : Nat) : Bool := (Tab.find s.bound (pa / 65536)).isSome || (s.appendPage pa).isSome

/-- BACK_INVALIDATE_ANSWER (R118, R119). A late answer, or one that answers nothing, is discarded. -/
def execBackInvalidateAnswer (half : Nat) (data : Option (List Byte)) (s : State) : Out :=
  match s.snoops.find? (fun x => x.half = half) with
  | some x =>
    if !x.asked || x.since + 20000 < s.now then .next s
    else
      let s1 := match data with
        | some bs => if s.hostBarred (half * 64) then s else s.place (atAddr (half * 64) (bs.take 64))
        | none => s
      .next (s1.takeHalf x)
  | none => .next s

/-- HOST_SNOOP (R117): the agent gives up a half, or keeps it shared, and supplies the data of a half in M. The host may then write
the half of its memory. -/
def execHostSnoop (half : Nat) (invalidate : Bool) (after : Option (List Byte)) (s : State) : Out :=
  if region (half * 64) = .host then
    let st := Tab.read CxlState.invalid s.agent half
    let data := if st = .modified then some (s.bytes (half * 64) 64) else none
    let st1 := if invalidate then CxlState.invalid else if st = .invalid then .invalid else .shared
    let s1 := { s with agent := Tab.write .invalid s.agent half st1 }.send (.snoopAnswer half data)
    match after, invalidate with
    | some bs, true =>
      let ws := atAddr (half * 64) (bs.take 64)
      .next ((s1.setBytes ws).touchWatches (ws.map Prod.fst))
    | _, _ => .next s1
  else .next s

/-- What a host read of a half gives: poison for a bound frame (R412), a poisoned line (R398) or a die that answers nothing
(R437); zeros from an AP page's published tail on (R133). -/
def State.hostRead (s : State) (half : Nat) : Msg :=
  let pa := half * 64
  let refused := (Tab.find s.bound (pa / 65536)).isSome || s.errorReply pa
  if refused then .hostData (List.replicate 64 0) true
  else .hostData ((List.range 64).map (fun i => if s.unpublished (pa + i) then 0 else s.byte (pa + i))) (s.poisoned (lineNo pa))

/-- The host writes bytes of device memory: discarded for a bound frame, an AP page or a die that answers nothing (R133, R412,
R437). -/
def State.hostWrite (s : State) (pa : Nat) (bs : List Byte) : State :=
  if s.errorReply pa then s.countError pa
  else if s.hostBarred pa || bs.isEmpty then s
  else s.place (atAddr pa bs)

/-- HOST_MEMORY_ACCESS (R118, R398, R412, R436). The host reads a half, writes bytes of one, takes a half for itself, or gives one up
with or without data: the writes that waited for its snoop then stand in memory. A half of a die that gives the error reply is
answered as a read is, and the host does not hold it. -/
def execHostMemoryAccess (offset : Nat) (access : HostAccess) (s : State) : Out :=
  let pa := hdmAddress offset
  let half := halfOf pa
  match access with
  | .read => .next ((s.countError pa).send (s.hostRead half))
  | .write bs => .next (s.hostWrite pa (bs.take (64 - pa % 64)))
  | .own =>
    if s.errorReply pa then .next ((s.countError pa).send (s.hostRead half))
    else if s.snoops.any (fun x => x.half = half) then .next s
    else
      let s1 := s.tokenHome pa
      .next ({ s1 with hostHeld := Tab.write false s1.hostHeld half true }.send (s.hostRead half))
  | .release data =>
    if Tab.read false s.hostHeld half then
      let s1 := match data with
        | some bs => s.hostWrite (half * 64) (bs.take 64)
        | none => s
      let s2 := { s1 with hostHeld := Tab.write false s1.hostHeld half false }
      match s2.snoops.find? (fun x => x.half = half) with
      | some x => .next (s2.takeHalf x)
      | none => .next s2
    else .next s

/-- The walk of an address of a context ends in a page of this frame; one that a silent die stops says nothing against it. -/
def State.mapsTo (s : State) (ctx va frame : Nat) : Bool :=
  match s.walk ctx va with
  | .page _ x _ => pteFrame x = frame
  | .error _ => true
  | _ => false

/-- A recorded mapping of an append page, in a context and range that an invalidation covers, no longer stands (R138). -/
def State.mappingGone (s : State) (covered : List Nat) (va len page size : Nat) (m : Nat × Nat) : Bool :=
  covered.contains m.1 && va < m.2 + size && m.2 < va + len && !s.mapsTo m.1 m.2 page

/-- The AP pages that an invalidation finds unmapped (R130, R138; log 65). -/
def State.unmappedPages (s : State) (covered : List Nat) (va len : Nat) : List (Nat × Nat) :=
  s.appends.filterMap (fun p =>
    if p.2.maps.any (s.mappingGone covered va len p.1 p.2.size) then some (p.1, p.2.size) else none)

/-- An ATS Invalidate Request (R138, R146, R147, R399): a DEV-scope TLBI of the range in every context whose PASID the request
covers. AP pages that the host has unmapped are purged on every die and their descriptors are discarded. The Invalidate Completion
waits for the acknowledgements, and for every device write to be performed at its home. A request beyond the queue's depth is
not accepted: it stays with the host, which may send it again (log 111). -/
def State.atsInvalidate (s : State) (pasid : Option Nat) (va len : Nat) : State :=
  if invalidateDepth ≤ s.completions.length then s else
  let covered := Tab.keys (s.parts.filter (fun p => match pasid with
    | some n => p.2.pasid = n
    | none => true))
  let pages := s.unmappedPages covered va len
  let s1 := covered.foldl (fun a c => a.invalidate (some c) va len 4 0) s
  let kept := Tab.mapWith (fun page d => { d with maps := d.maps.filter (fun m => !s.mappingGone covered va len page d.size m) })
    ((pages.map Prod.fst).foldl Tab.remove s1.appends)
  let s2 : State :=
    { s1 with
      appends := kept
      purges := pages.foldl (fun t p => Tab.insert t p.1 [0, 1, 2, 3]) s1.purges
      completions := s1.completions ++ [{ pasid := pasid, frames := pages }] }
  s2.sendCompletions

/-- ATS_INVALIDATE_REQUEST (R138, R147, R399, R408). -/
def execAtsInvalidateRequest (pasid : Option Nat) (va : BitVec 64) (len : Nat) (s : State) : Out :=
  .next (s.onLink (fun a => a.atsInvalidate pasid va.toNat len))

/-! ## Uncorrectable errors -/

/-- A line lies where the image of a saved team is kept: in its context's swap area, or in a shadow granule (R388, R392). -/
def State.holdsImage (s : State) (line : Nat) (t : Team) : Bool :=
  let pa := line * 128
  match t.residency, region pa with
  | .switchedOut, .vault d pos => s.vaultShadow d pos && (match Tab.find (s.die d).vault pos with
    | some e => e.2 = t.ctx
    | none => false)
  | _, _ => t.inSwap && (match s.part t.ctx with
    | some p => decide (p.swapBase ≤ pa) && decide (pa < p.swapBase + p.swapSize)
    | none => false)

/-- A poisoned line of a saved team's image; whose image it lies in is free among those that are kept there (R395; log 80). -/
def State.poisonImages (s : State) (line : Nat) : State :=
  s.teams.foldl (fun a p =>
    if s.holdsImage line p.2 then
      let r := a.freeBool
      if r.1 then r.2.modTeam p.1 (fun t => { t with imagePoison := true }) else r.2
    else a) s

/-- The core whose store an error lies in is charged one demerit (R357). -/
def State.chargeCore (s : State) (core : Nat) : State :=
  if core < 576 then s.charge (coreDie core) (coreSite core) 1 false else s

/-- UNCORRECTABLE_ERROR (R120, R357). A line is poisoned; the content of a register or of a tile word, for which the spec has no
poison state, becomes a free value. Errors in a core's register file, core store or tile store charge the core; those of a
core without power have no error (R16). -/
def execUncorrectableError (site : ErrorSite) (s : State) : Out :=
  match site with
  | .registerFile core k r l =>
    (match s.group k with
    | some g =>
      if s.corePowered core && g.core = core && r < g.vregs && l < g.width then
        let v := s.freeNat
        .next ((v.2.setGroup k (g.setV r l (BitVec.ofNat 32 v.1))).chargeCore core)
      else .next s
    | none => .next s)
  | .coreStore core line => if s.corePowered core then .next ((s.setPoison line true).chargeCore core) else .next s
  | .scratchpad core k line =>
    (match s.team k with
    | some t =>
      if s.corePowered core && t.core = core && line * 128 < t.scratchSize then
        .next ((s.setTeam k { t with poison := (line :: t.poison).eraseDups }).chargeCore core)
      else .next s
    | none => .next s)
  | .tileStore core i =>
    if s.corePowered core then
      let v := s.freeNat
      .next ((v.2.modCore core (fun c => { c with
        array := { c.array with words := Tab.write 0 c.array.words i (BitVec.ofNat 32 v.1) } })).chargeCore core)
    else .next s
  | .slice line => .next ((s.setPoison line true).poisonImages line)
  | .hbm line => .next ((s.setPoison line true).poisonImages line)

end Sys2Proof.Machine
end

