-- ==== Sys2Proof/Machine/GroupEvents.lean ====
section
/-!
DEFINITION. What happens to groups on its own: long-latency operations complete (R158, R211, R222, R223, R271, R273, R283),
dies acknowledge purges (R138), walks end (R381), the host answers page requests (R383), and teams parked on the host are
swapped out (R384).
-/

namespace Sys2Proof.Machine

open Sys2Proof

/-! ## Completion of long-latency operations -/

/-- After a completion, a group that is to end with its team, that owes a barrier-deadlock trap, or that waits at EXIT, goes
on (R54, R204, R378). -/
def State.afterLanding (s : State) (k : Nat) : State := ((s.settleDoom k).settleBarTrap k).tryExit k

/-- The completion has ended the group's wait for its next clause's flags: the clause's age starts (R58, R327). -/
def State.endFlagWait (s before : State) (k : Nat) : State :=
  if (before.ready k).isNone && (s.ready k).isSome then s.modGroup k (fun g => { g with age := s.now }) else s

/-- Land a flight with these register writes (R158). -/
def State.landWith (s : State) (k : Nat) (f : Flight) (writes : List RegWrite) : State :=
  ((s.modGroup k (fun g => g.land { f with writes := writes })).endFlagWait s k).afterLanding k

/-- How many flights of a group's KLAUNCHes stand before one of them. -/
def Group.launchRank (g : Group) (op : Nat) : Nat :=
  (g.flights.filter (fun f => decide (f.op < op) && (match f.task with
    | .klaunch _ _ _ _ => true
    | _ => false))).length

/-- KLAUNCH completes: the front end accepts the launch and D0 receives its sequence number; while the queue is full it
stays outstanding (R64, R211). -/
def State.landLaunch (s : State) (k : Nat) (g : Group) (f : Flight) (q : Nat) (p : LaunchPacket) (ctx : Nat)
    (dest : Option Nat) : State :=
  if 256 ≤ (s.queue q).fifo.length then s
  else
    let (seq, s1) := s.accept q ctx p
    let v := BitVec.ofNat 64 seq
    let s2 := match s1.partOf (g.who k) with
      | .original c => s1.fillLog c g.gid 0x08E (g.launchRank f.op) [v]
      | _ => s1
    s2.landWith k f (match dest with
      | some d => [.scalar d v]
      | none => [])

/-- The frames of a range that are bound to a context. -/
def State.boundIn (s : State) (pa size : Nat) : List Nat :=
  (Tab.keys s.bound).filter (fun f => pa ≤ f * 65536 && f * 65536 < pa + size)

/-- PFREE completes (R138, R222, R412): bound frames are filled with zeros and unbound, and under .pool the frame joins the
pool of its home die for the issuing group's context: the MODEL's choice of the context (log 70). -/
def State.finishFree (s : State) (ctx frame size : Nat) (pool : Bool) : State :=
  let bs := s.boundIn frame size
  let s1 := if bs.isEmpty then s else s.zeroFrame frame size
  let s2 := { s1 with bound := bs.foldl Tab.remove s1.bound, purges := Tab.remove s1.purges frame }
  match pool, homeDie frame with
  | true, some d => s2.addFrame d ctx (size = 2097152) frame
  | _, _ => s2

/-- An earlier special-function operation of the group is outstanding (R229). -/
def Group.earlierSpecial (g : Group) (op : Nat) : Bool :=
  g.flights.any (fun f => decide (f.op < op) && f.task = .special)

/-- An earlier TLBI.wait of the group is outstanding (R223). -/
def Group.earlierInvalidate (g : Group) (op : Nat) : Bool :=
  g.flights.any (fun f => decide (f.op < op) && (match f.task with
    | .invalidate _ _ _ _ _ => true
    | _ => false))

/-- OPERATION_COMPLETE (R158, R211, R222, R223, R271, R273, R283): the operation completes once what it waits for holds. -/
def execOperationComplete (k op : Nat) (s : State) : Out :=
  match s.group k with
  | none => .next s
  | some g =>
    match g.flights.find? (fun f => f.op = op) with
    | none => .next s
    | some f =>
      match f.task with
      | .plain => .next (s.landWith k f f.writes)
      | .special => if g.earlierSpecial op then .next s else .next (s.landWith k f f.writes)
      | .mapping => .next (s.landWith k f f.writes)
      | .flush => if s.snoopsOwed then .next s else .next (s.landWith k f f.writes)
      | .klaunch q p ctx dest => .next (s.landLaunch k g f q p ctx dest)
      | .seal frame dest =>
        (match s.sealedLength frame with
        | some n => .next (s.landWith k f (match dest with
          | some d => [.scalar d (BitVec.ofNat 64 n)]
          | none => []))
        | none =>
          if (Tab.find s.appends frame).isSome then .next s
          else .next (s.freeNat.2.landWith k f (match dest with
            | some d => [.scalar d (BitVec.ofNat 64 s.freeNat.1)]
            | none => [])))
      | .append frame offset => if s.appendAccepted frame offset then .next (s.landWith k f f.writes) else .next s
      | .purge frame size pool =>
        if (Tab.read [] s.purges frame).isEmpty then .next ((s.finishFree g.ctx frame size pool).landWith k f f.writes)
        else .next s
      | .invalidate ctx va len scope die =>
        if g.earlierInvalidate op then .next s
        else
          let s1 := s.invalidate ctx va len scope die
          if s1.snoopsOwed then .next s1 else .next (s1.landWith k f f.writes)
      | .record slot bytes =>
        .next ((s.modTeam g.team (fun t => { t with records := Tab.insert t.records slot bytes })).landWith k f f.writes)

/-! ## Purges -/

/-- The size of a frame under purge, and whether its dirty lines are discarded: those of the PFREE in flight, or those of
the page that the host has unmapped (R138, R222). -/
def State.purgeOf (s : State) (frame : Nat) : Option (Nat × Bool) :=
  (s.freesOf frame ++ s.completions.flatMap (fun c => (c.frames.filter (fun p => p.1 = frame)).map (fun p => (p.2, false)))).head?

/-- The cores of a die hold a line no more; a dirty copy is written back, or discarded (R222). -/
def LineTokens.leaveDie (t : LineTokens) (die : Nat) : LineTokens :=
  let gone : Bool := match t.owner with
    | some c => coreDie c == die
    | none => false
  { t with
    held := t.held.filter (fun p => coreDie p.1 != die)
    owner := if gone then none else t.owner
    clean := if gone then none else t.clean
    recalled := if gone then none else t.recalled }

/-- The last value written back of a line whose dirty copy a die's core holds. -/
def LineTokens.lost (t : LineTokens) (die : Nat) : Option (List Byte) :=
  match t.owner, t.clean with
  | some c, some b => if coreDie c = die then some b else none
  | _, _ => none

/-- A die drops its replicas and its core-store copies of a frame (R138, R222). -/
def State.purgeDie (s : State) (die frame size : Nat) (pool : Bool) : State :=
  let inside := fun (line : Nat) => decide (frame ≤ line * 128) && decide (line * 128 < frame + size)
  let lost := s.tokens.filterMap (fun p => if inside p.1 then (p.2.lost die).map (fun b => (p.1, b)) else none)
  let s1 := if pool then lost.foldl (fun a p => a.restoreLine p.1 p.2) s else s
  { s1 with
    tokens := (Tab.mapWith (fun l t => if inside l then t.leaveDie die else t) s1.tokens).filter (fun p => p.2 != {})
    replicas := s1.replicas.filter (fun p => !(inside (p.1 / 4) && p.1 % 4 = die))
    cores := Tab.mapWith (fun k c =>
      if coreDie k = die then { c with copies := c.copies.filter (fun p => !inside (p.1 / 2)) } else c) s1.cores }

/-- PURGE_ACK (R138, R222). Hub-core copies go with the last acknowledgement. -/
def execPurgeAck (frame die : Nat) (s : State) : Out :=
  match Tab.find s.purges frame, s.purgeOf frame with
  | some dies, some (size, pool) =>
    if dies.contains die then
      let rest := dies.filter (· != die)
      let s1 := s.purgeDie die frame size pool
      let s2 := if rest.isEmpty then s1.purgeDie 4 frame size pool else s1
      .next { s2 with purges := Tab.insert s2.purges frame rest }.sendCompletions
    else .next s
  | _, _ => .next s

/-! ## Walks and page requests -/

/-- The walks of a parked access, in order, until one is host-serviced: the walk faults found, the entry that the host is
to serve with the address, and the state (R381, R383). -/
def State.walkAll (s : State) (who : Who) : List (Nat × AccessKind) → List (Nat × AccessKind × Nat) →
    List (Nat × AccessKind × Nat) × Option (Nat × Nat) × State
  | [], fs => (fs, none, s)
  | (va, kind) :: rest, fs =>
    if (walkFaultAt fs va kind).isSome then s.walkAll who rest fs
    else
      match s.mtuWalk who va kind with
      | (.kept, s1) => s1.walkAll who rest fs
      | (.fault c, s1) => s1.walkAll who rest (fs ++ [(va / 65536, kind, c)])
      | (.host entry, s1) => (fs, some (entry, va), s1)

/-- A group's walks have ended: it goes on once its pipe is free and the remaining price of its clause can be drawn (R157,
R329, R381). -/
def State.unpark (s : State) (k : Nat) (p : Parked) : State :=
  match s.group k with
  | none => s
  | some g =>
    let price := g.restPrice
    if s.pipeBusy k g || !s.drawable g.core price then
      s.modGroup k (fun x => { x with parked := some { p with needs := [], request := none } })
    else
      let s1 := (s.modGroup k (fun x => { x with parked := none })).drawPrice g.core g.ctx price
      if g.clause.isSome then { s1 with cur := k } else s1

/-- MTU_WALK_COMPLETE (R143, R381, R383): the walks of a parked access end in translations, in faults that the instruction
takes when it replays, or at an entry that the host serves. -/
def execMtuWalkComplete (k : Nat) (s : State) : Out :=
  match s.group k with
  | none => .next s
  | some g =>
    match g.parked with
    | none => .next s
    | some p =>
      if p.request.isSome || !s.groupResident g || s.groupStopped g || !s.contextRuns g.ctx then .next s
      else
        match s.walkAll (g.who k) p.needs g.walkFaults with
        | (fs, none, s1) => .next ((s1.modGroup k (fun x => { x with walkFaults := fs })).unpark k p)
        | (fs, some (entry, va), s1) =>
          match s1.askHost g.ctx entry va with
          | none => .next s
          | some s2 => .next (s2.modGroup k (fun x => { x with
              walkFaults := fs
              parked := some { p with request := some entry, address := some va, since := s.now } }))

/-- The needs of an access parked on a request that the host has refused: the one it was parked for, and those whose walk
ends at the same entry with V = 0, take the host-refused fault (R383). -/
def State.refusedNeeds (s : State) (ctx entry : Nat) (p : Parked) : List (Nat × AccessKind × Nat) :=
  p.needs.filterMap (fun n =>
    let here := match s.walk ctx n.1 with
      | .invalid a _ _ => a = entry
      | _ => false
    if p.address = some n.1 || here then some (n.1 / 65536, n.2, 0x14) else none)

/-- The response settles a group parked on the request (R383). -/
def State.answerGroup (s : State) (ctx entry : Nat) (ok : Bool) (g : Group) : Group :=
  match g.parked with
  | some p =>
    if g.ctx = ctx && p.request = some entry then
      let fs := if ok then [] else s.refusedNeeds ctx entry p
      { g with parked := some { p with request := none }, walkFaults := g.walkFaults ++ fs }
    else g
  | none => g

/-- The response settles an engine operation parked on the request (R383, R385). -/
def State.answerOp (s : State) (ctx entry : Nat) (ok : Bool) (key : Nat) : State :=
  match s.op key with
  | none => s
  | some o =>
    match o.parked, s.team o.team with
    | some p, some t =>
      if t.ctx = ctx && p.request = some entry then
        let s1 := s.modOp key (fun x => { x with parked := none })
        let va := match p.needs with
          | (a, _) :: _ => a
          | [] => 0
        if ok then s1 else s1.engineFault key o 0x14 va false
      else s
    | _, _ => s

/-- A Page Request Group Response (R383, R384): the host's answer settles every access parked on the request. -/
def State.pageResponse (s : State) (ctx page : Nat) (ok : Bool) : State :=
  match s.requests.find? (fun r => r.ctx = ctx && r.page = page) with
  | none => s
  | some r =>
    let s1 : State :=
      { s with
        requests := s.requests.filter (fun x => !(x.ctx = ctx && x.entry = r.entry))
        groups := Tab.mapWith (fun _ g => s.answerGroup ctx r.entry ok g) s.groups }
    (((Tab.keys s1.ops).foldl (fun a key => a.answerOp ctx r.entry ok key) s1).payOwed ctx r.entry ok).requeueSwapped

/-- PAGE_REQUEST_GROUP_RESPONSE (R383, R384, R408). -/
def execPageRequestGroupResponse (ctx page : Nat) (ok : Bool) (s : State) : Out :=
  .next (s.onLink (fun a => a.pageResponse ctx page ok))

/-! ## Swap-out -/

/-- A parked access has waited 50 µs for the host (R384). -/
def Parked.late (p : Parked) (now : Nat) : Bool := p.request.isSome && decide (p.since + us 50 ≤ now)

/-- An access of the team, or a step of its engines, has been parked under tier 3 for 50 µs (R384). -/
def State.teamLate (s : State) (t : Nat) (x : Team) : Bool :=
  let late := fun (p : Option Parked) => match p with
    | some y => y.late s.now
    | none => false
  x.groups.any (fun k => match s.group k with
    | some g => late g.parked
    | none => false) || s.ops.any (fun p => p.2.team = t && late p.2.parked)

/-- TIER3_SWAP_OUT (R384, R388): the team is swapped out, with its whole cluster. -/
def execTier3SwapOut (team : Nat) (s : State) : Out :=
  match s.team team with
  | none => .next s
  | some x =>
    match x.cluster with
    | some ck =>
      (match s.cluster ck with
      | some c =>
        if c.state = .started && s.clusterHere c && (s.teamLate team x || (c.stopped = some .swap && s.unanswered c)) then
          .next (s.stopCluster ck .swap)
        else .next s
      | none => .next s)
    | none =>
      if x.core < 576 && x.residency = .resident && s.teamLate team x then .next (s.stopRunTeam team x) else .next s

end Sys2Proof.Machine
end

