-- ==== Sys2Proof/Machine/Links.lean ====
section
/-!
DEFINITION. The host link, the confidential interface, key slots, SPDM and the peer ports (R397, R407 to R409, R413 to R415).
-/

namespace Sys2Proof.Machine

open Sys2Proof

/-! ## TDISP -/

/-- Every key slot is erased; the copies queued for a slot that held a key complete with 0x06 (R407, R411). -/
def State.eraseKeys (s : State) : State :=
  let hit := fun (o : EngineOp) => !o.done && (match o.kind with
    | .cpyx _ _ _ _ slot _ => (Tab.find s.hub.keys slot).isSome
    | _ => false)
  let s1 := { s with ops := Tab.mapWith (fun _ o => if hit o then { o with erased := true } else o) s.ops }
  s1.modHub (fun h => { h with keys := [] })

/-- The contexts with a confidential mapping (R407). -/
def State.confidentialContexts (s : State) : List Nat := (s.bound.map Prod.snd).eraseDups

/-- The launches of a context end as context lost, with their teams, clusters and checks (R407). -/
def State.loseContext (s : State) (ctx : Nat) : State :=
  let checks := (s.checks.filter (fun p => p.2.ctx = ctx)).map Prod.fst
  let s1 := checks.foldl State.discardCheck s
  let ts := (s1.contextTeams ctx).filter (fun t => match s1.team t with
    | some x => x.launch.isSome
    | none => false)
  let s2 := ts.foldl State.removeTeam s1
  let own := (s2.clusters.filter (fun p => match s2.launch p.2.launch with
    | some l => l.ctx = ctx
    | none => false)).map Prod.fst
  let s3 : State :=
    { s2.dropBlocks own.contains with clusters := own.foldl Tab.remove s2.clusters }
  s3.loseLaunches ctx

/-- The scratchpad and the tile words that a team of a context has in core stores, arrays or the vault are cleared: its image in
the swap area and its save slot lie in HBM and stay (R298, R388, R391, R407; log 83). -/
def Team.cleared (t : Team) : Team :=
  if t.residency = .evicted || t.residency = .swapped then t
  else { t with
    scratch := []
    poison := []
    arraySave := (if t.heldArray then t.arraySave.map (fun a => { a with words := [] }) else t.arraySave) }

/-- The vault, scratchpad and tile stores of a context are cleared (R407). -/
def State.clearStores (s : State) (ctx : Nat) : State :=
  let s1 := s.clearVault ctx
  let owns : Core → Bool := fun c => match c.owner.bind s1.team with
    | some x => x.ctx == ctx
    | none => false
  { s1 with
    teams := Tab.mapWith (fun _ t => if t.ctx = ctx then t.cleared else t) s1.teams
    cores := Tab.mapWith (fun _ c => if owns c then { c with array := { c.array with words := [] } } else c) s1.cores }

/-- A change of the TDISP state (R407, R425). -/
def State.toTdisp (s : State) (x : TdispState) : State := (s.modHub (fun h => { h with tdisp := x })).raiseIrq 5

/-- A copy whose slot was erased while it was queued completes with 0x06, where its STATUS can be written (R411). -/
def State.completeErased (s : State) (key : Nat) : State :=
  match s.op key with
  | some o =>
    (match o.kind, s.team o.team with
    | .cpyx enc x y origin slot block, some t =>
      if !o.erased || o.done then s
      else (match s.tensor t x, s.tensor t y with
        | some a, some b =>
          (match s.settleCpyx key o t enc a b origin slot block with
          | .inl s1 => s1
          | .inr (s1, _) => s1)
        | _, _ => s)
    | _, _ => s)
  | none => s

/-- The interface enters ERROR: keys are erased, the copies queued for them complete, and launches of contexts with a
confidential mapping are lost (R407, R411). -/
def State.enterError (s : State) : State :=
  let s1 := s.eraseKeys
  let s2 := (Tab.keys s1.ops).foldl State.completeErased s1
  (s2.confidentialContexts.foldl State.loseContext s2).toTdisp .error

/-- CONFIG_LOCKED or RUN: settings are frozen and failures end in ERROR (R407). -/
def TdispState.frozen (x : TdispState) : Bool := x = .locked || x = .run

/-- LOCK_INTERFACE_REQUEST (R407). -/
def execLockInterfaceRequest (s : State) : Out := if s.hub.tdisp = .unlocked then .next (s.toTdisp .locked) else .next s

/-- START_INTERFACE_REQUEST (R407). -/
def execStartInterfaceRequest (s : State) : Out := if s.hub.tdisp = .locked then .next (s.toTdisp .run) else .next s

/-- STOP_INTERFACE_REQUEST (R407). -/
def execStopInterfaceRequest (s : State) : Out :=
  if s.hub.tdisp = .run || s.hub.tdisp = .error then
    .next ((s.confidentialContexts.foldl State.clearStores s.eraseKeys).toTdisp .unlocked)
  else .next s

/-- LINK_DOWN (R407). -/
def execLinkDown (s : State) : Out := if s.hub.tdisp = .run then .next s.enterError else .next s

/-- FROZEN_SETTINGS_CHANGE (R407). -/
def execFrozenSettingsChange (s : State) : Out := if s.hub.tdisp.frozen then .next s.enterError else .next s

/-! ## IDE streams -/

def State.setStream (s : State) (i : Nat) (x : IdeStream) : State :=
  s.modHub (fun h => { h with ide := Tab.write {} h.ide i x })

/-- IDE_KM (R397, R407, R408): a stream is programmed and leaves its error state; IDE settings are frozen from CONFIG_LOCKED on. -/
def execIdeKm (stream : Nat) (s : State) : Out :=
  match s.hub.tdisp with
  | .unlocked => .next (s.setStream stream { programmed := true, err := false })
  | .error => .next s
  | .locked => .next s.enterError
  | .run => .next s.enterError

/-- IDE_MAC_FAILURE (R408): the TLP is discarded and its stream enters the error state. -/
def execIdeMacFailure (stream : Nat) (s : State) : Out :=
  let s1 := s.setStream stream { (Tab.read {} s.hub.ide stream) with err := true }
  if s.hub.tdisp.frozen then .next s1.enterError else .next s1

/-! ## SPDM -/

/-- KEY_LOAD (R409, R415): only in RUN and inside a session; every field of the slot is replaced. -/
def execKeyLoad (slot ctx : Nat) (key : BitVec 256) (salt : BitVec 32) (hwm : BitVec 64) (s : State) : Out :=
  if s.hub.tdisp = .run && s.hub.session = .established then
    .next (s.modHub (fun h => { h with keys := Tab.insert h.keys slot { key := key, salt := salt, ctx := ctx, hwm := hwm } }))
  else .next s

/-- The fence store as numbers: masks, generation and demerits of each die, the event number and the powered time (R17, R357, R366,
R368). -/
def State.fenceStore (s : State) : List (List Nat) :=
  ([0, 1, 2, 3].map (fun d =>
    let x := s.die d
    [x.fenced.toNat, x.fencePending.toNat, x.clearPending.toNat, x.fenceGen.toNat] ++
      (List.range 144).map (fun i => (x.health i).demerits.toNat))) ++ [[s.hub.lastSeq, s.hub.powered, s.hub.decays]]

/-- What the responder answers (R415). -/
def State.spdmAnswer (s : State) (r : SpdmRequest) : SpdmAnswer :=
  match r with
  | .getVersion => { request := r, versions := [0x12, 0x13] }
  | .getCapabilities => { request := r }
  | .negotiateAlgorithms => { request := r, algorithms := [.ecdsaP384, .sha384, .secp384r1, .aes256Gcm] }
  | .getDigests => { request := r, slots := [0] }
  | .getCertificate => { request := r, slots := [0] }
  | .challenge => { request := r, slots := [0] }
  | .getMeasurements =>
    { request := r
      measurements := (match s.hub.flash with
        | some i => [i.digest]
        | none => []) ++ [Config.storeDigest s.fenceStore] }
  | .keyExchange => { request := r, slots := [0] }
  | .finish => { request := r }
  | .endSession => { request := r }

/-- The session after a request: KEY_EXCHANGE and FINISH establish it, END_SESSION ends it (R415; log 84). -/
def SpdmSession.after (x : SpdmSession) (r : SpdmRequest) : SpdmSession :=
  match r, x with
  | .keyExchange, _ => .exchanged
  | .finish, .exchanged => .established
  | .endSession, _ => .closed
  | _, _ => x

/-- SPDM_REQUEST (R415): the device answers as a responder. -/
def execSpdmRequest (request : SpdmRequest) (s : State) : Out :=
  .next ((s.modHub (fun h => { h with session := h.session.after request })).send (.spdm (s.spdmAnswer request)))

/-! ## Peer ports -/

/-- The copies that run over a port, those that a fault has stopped among them (R414). -/
def State.portCopies (s : State) (port : Nat) : List (Nat × EngineOp) :=
  s.ops.filter (fun p => !p.2.done && (match p.2.kind with
    | .cpyr (some n) _ _ _ _ _ => n = port
    | _ => false))

/-- The port of a copy has left UP: the copy ends with the device-error fault; one that a fault has stopped does so when it goes on
(R414). -/
def State.failCopy (s : State) (key : Nat) (o : EngineOp) (base : Nat) : State :=
  if o.stopped then s.modOp key (fun x => { x with portDown := true }) else s.engineFault key o 0x21 base true

/-- The offset in the peer window at which a copy's destination lies. -/
def State.peerBase (s : State) (o : EngineOp) : Nat :=
  match o.kind, s.team o.team with
  | .cpyr _ _ y _ _ _, some t => (match s.tensor t y with
    | some b => b.base
    | none => 0)
  | _, _ => 0

/-- The copies that were arriving over a port have failed here (R414). -/
def State.failArriving (s : State) (port : Nat) : State :=
  s.modHub (fun h => { h with
    peerFailed := (h.peerArriving.filter (·.1 = port) ++ h.peerFailed).eraseDups
    peerArriving := h.peerArriving.filter (·.1 ≠ port) })

/-- PEER_PORT_STATE_CHANGE (R413, R414): the copies on a port that leaves UP fail, those that leave here and those that arrive. -/
def execPeerPortStateChange (port : Nat) (next : PortState) (s : State) : Out :=
  let old := Tab.read PortState.down s.hub.ports port
  if old = next then .next s
  else
    let s1 := (s.modHub (fun h => { h with ports := Tab.write .down h.ports port next })).raiseIrq 5
    if old = .up then .next (((s1.portCopies port).foldl (fun a p => a.failCopy p.1 p.2 (s1.peerBase p.2)) s1).failArriving port)
    else .next s1

/-- The partition that a port is bound to (R413). -/
def State.portOwner (s : State) (port : Nat) : Option (Nat × Partition) := s.parts.find? (fun p => p.2.ports.getLsbD port)

/-- The virtual address that an offset of a partition's peer window stands for; none for an empty entry (R413, R433). -/
def Partition.windowAddress (p : Partition) (offset : Nat) : Option Nat :=
  match p.window[offset / 2 ^ 32]? with
  | some e => if e.getLsbD 63 then some ((e.extractLsb' 32 25).toNat * 2 ^ 32 + offset % 2 ^ 32) else none
  | none => none

/-- Bytes that came with poison mark the lines that they were written to (R120). -/
def State.poisonArrived (s : State) (poison : Bool) (pa n : Nat) : State :=
  if poison then ((linesOf pa n).foldl (fun a l => a.setPoison l true) s) else s

/-- Write the bytes that arrive, page by page; the first piece without a translation ends the copy (R413, R414). -/
def State.peerWrite (s : State) (ctx : Nat) (p : Partition) (poison : Bool) : List (Nat × List Byte) → Bool × State
  | [] => (true, s)
  | (o, bs) :: rest =>
    match p.windowAddress o with
    | none => (false, s)
    | some va =>
      match s.frontPhys ctx va .write with
      | (.done pa, s1) =>
        (match s1.frontWrite ctx va bs with
        | (.done _, s2) => (s2.poisonArrived poison pa bs.length).peerWrite ctx p poison rest
        | (_, s2) => (false, s2))
      | (_, s1) => (false, s1)

/-- Cut arriving bytes where pages of 64 KiB meet. -/
def peerPieces (offset : Nat) (bs : List Byte) : List (Nat × List Byte) :=
  (List.range ((offset + bs.length) / 65536 + 1 - offset / 65536)).map (fun i =>
    let lo := max offset ((offset / 65536 + i) * 65536)
    let hi := min (offset + bs.length) ((offset / 65536 + i + 1) * 65536)
    (lo, (bs.drop (lo - offset)).take (hi - lo)))

/-- A copy that arrives over a port has failed here (R414). -/
def State.failPeer (s : State) (port copy : Nat) : State :=
  s.modHub (fun h => { h with peerFailed := ((port, copy) :: h.peerFailed).eraseDups })

/-- Data of a peer's copy are written as stores of the receiver's context; where a piece cannot be, the copy has failed (R414). -/
def State.peerData (s : State) (port copy offset : Nat) (bs : List Byte) (poison : Bool) : State :=
  match s.portOwner port with
  | some (ctx, p) =>
    (match s.peerWrite ctx p poison ((peerPieces offset bs).filter (fun x => !x.2.isEmpty)) with
    | (true, s1) => s1
    | (false, s1) => s1.failPeer port copy)
  | none => s.failPeer port copy

/-- The flag word of a peer's copy: not written where the copy has failed; otherwise a SYS-scope release, which waits until the host
has answered for the data (R118, R123, R414). -/
def State.peerFlag (s : State) (port copy offset : Nat) (bs : List Byte) : State :=
  let s0 := s.modHub (fun h => { h with
    peerArriving := h.peerArriving.filter (· != (port, copy))
    peerFailed := h.peerFailed.filter (· != (port, copy)) })
  if s.hub.peerFailed.contains (port, copy) then s0
  else
    let s1 := s0.drainAll 4
    match s1.snoopsOwed, (s1.portOwner port).bind (fun q => (q.2.windowAddress offset).map (fun va => (q.1, va))) with
    | true, some (ctx, va) => s1.modHub (fun h => { h with heldFlags := h.heldFlags ++ [(ctx, va, bs)] })
    | true, none => s1
    | false, _ => s1.peerData port copy offset bs false

/-- Bytes of a peer's copy have come (R414). -/
def State.notePeer (s : State) (port copy : Nat) : State :=
  s.modHub (fun h => { h with peerArriving := ((port, copy) :: h.peerArriving).eraseDups })

/-- PEER_COPY_ARRIVAL (R413, R414): data or the flag word of a peer's copy arrive over a port that is UP; what comes to another
port is lost, and its copy has failed. -/
def execPeerCopyArrival (port offset : Nat) (arrival : PeerArrival) (flag : Bool) (s : State) : Out :=
  if Tab.read PortState.down s.hub.ports port ≠ .up then .next (s.failPeer port arrival.copy)
  else if flag then .next (s.peerFlag port arrival.copy offset arrival.bytes)
  else .next ((s.notePeer port arrival.copy).peerData port arrival.copy offset arrival.bytes arrival.poison)

end Sys2Proof.Machine
end

