-- ==== Sys2Proof/Machine/Sluice.lean ====
section
/-!
DEFINITION. The Sluice on its own: the resolution of checks (R347, R353, R355, R356), HOLDMAX (R342), decay (R358), Mace
(R360) and the signed health record (R366, R367, R369).
-/

namespace Sys2Proof.Machine

open Sys2Proof

/-! ## Resolution -/

/-- Two runs match when both their signatures are equal (R349). -/
def Run.matchesRun (a b : Run) : Bool := a.storeSig = b.storeSig && a.regSig = b.regSig

/-- The original and the replica of a check match, or a run is missing. -/
def Check.replicaMatches (c : Check) : Bool :=
  match c.runs with
  | a :: b :: _ => a.matchesRun b
  | _ => true

/-- The run of that number has exited. -/
def Check.runExited (c : Check) (r : Nat) : Bool :=
  match c.runs[r]? with
  | some x => x.exited
  | none => false

/-- The check of the other team of the pair, while it is open (R317, R341). -/
def State.pairOf (s : State) (c : Check) : Option (Nat × Check) := c.pair.bind (fun q => (s.check q).map (fun y => (q, y)))

/-- MATCH (R355): the original's version is committed. -/
def State.resolveMatch (s : State) (ck : Nat) (c : Check) : State :=
  (((s.commitRun ck 0).countHealth c.die 0).countHealth c.die 1).freeCheck ck

/-- The vote is detected only: bytes were committed before it, or a later run's operands differed from the log (R368). -/
def Check.detectedOnly (c : Check) : Bool := c.exposed || c.runs.any Run.differed

/-- VOTE (R355, R357, R368): the winner's version is committed, and the loser's core is charged. -/
def State.resolveVote (s : State) (ck : Nat) (c : Check) (win lose : Nat) : State :=
  let core := c.coreOf lose
  let d := coreDie core
  let i := coreSite core
  let only := c.detectedOnly
  let s1 := ((s.commitRun ck win).countHealth c.die 0).countHealth c.die 2
  let s2 := (if only then s1.countHealth c.die 6 else s1).addDemerits d i 1
  let s3 := s2.addEvent (if only then 0x02 else 0x01) d i (eventFlags c.injected (!only) only) 0xFF (s2.demerits d i)
    (BitVec.ofNat 64 c.launch) c.id (BitVec.ofNat 32 c.teamId)
  (s3.fenceIfDue d i c.injected).freeCheck ck

/-- NONREPRO (R355, R356, R368): every version is discarded, and no further cluster of the launch is placed. -/
def State.resolveNonRepro (s : State) (ck : Nat) (c : Check) : State :=
  let core := c.coreOf 0
  let d := coreDie core
  let i := coreSite core
  let s1 := s.addEvent 0x03 d i (eventFlags c.injected false true) 0xFF (s.demerits d i) (BitVec.ofNat 64 c.launch) c.id
    (BitVec.ofNat 32 c.teamId)
  let s2 := ((s1.countHealth c.die 0).countHealth c.die 3).freeCheck ck
  let s3 := s2.modLaunch c.launch (fun l => { l with nonrepro := true, closed := true })
  ((s3.unstartedOf c.launch).foldl State.withdraw s3).advanceLaunch c.launch

/-- The vote of three runs (R355). Runs of a pair that went to the vote for the other team's sake may still match. -/
def State.resolveThree (s : State) (ck : Nat) (c : Check) : State :=
  match c.runs with
  | a :: b :: t :: _ =>
    if a.matchesRun b then s.resolveMatch ck c
    else if t.matchesRun a then s.resolveVote ck c 0 1
    else if t.matchesRun b then s.resolveVote ck c 1 0
    else s.resolveNonRepro ck c
  | _ => s

/-- The check goes to the vote (R347). -/
def State.toVote (s : State) (ck : Nat) : State := s.modCheck ck (fun c => { c with state := .vote })

/-- The replica has exited: a match ends the check, a mismatch calls the third run; the checks of a pair go together (R341,
R345, R347). -/
def State.resolveTwo (s : State) (ck : Nat) (c : Check) : State :=
  match s.pairOf c with
  | some (q, y) =>
    if y.state = .replay then
      if !y.runExited 1 then s
      else if c.replicaMatches && y.replicaMatches then s.resolveMatch ck c
      else (s.toVote ck).toVote q
    else if c.replicaMatches then s.resolveMatch ck c else s.toVote ck
  | none => if c.replicaMatches then s.resolveMatch ck c else s.toVote ck

/-- CHECK_RESOLVE (R353, R355). -/
def execCheckResolve (check : Nat) (s : State) : Out :=
  match s.check check with
  | none => .next s
  | some c =>
    let end_ := fun (x : State) => x.advanceLaunch c.launch
    if c.perturbed then .next (end_ (s.endUnchecked check 4))
    else
      match c.state with
      | .replay => if c.runExited 1 then .next (end_ (s.resolveTwo check c)) else .next s
      | .vote => if c.runExited 2 then .next (end_ (s.resolveThree check c)) else .next s
      | _ => .next s

/-- TIMEOUT (R342): HOLDMAX µs after the original's exit its version is committed unchecked, and the check goes on. -/
def execTimeout (check : Nat) (s : State) : Out :=
  match s.check check with
  | none => .next s
  | some c =>
    match c.exitedAt, s.launch c.launch with
    | some t, some l =>
      if s.policyOf check = 2 && !c.timedOut && !c.perturbed && decide (t + 1000 * l.record.holdmax.toNat ≤ s.now) then
        .next (((s.exposeHeld check).modCheck check (fun x => { x with timedOut := true })).countHealth c.die 5)
      else .next s
    | _, _ => .next s

/-! ## Demerits -/

/-- Powered seconds counted for decay (R358, R366). -/
def State.poweredSeconds (s : State) : Nat := s.hub.powered + s.now / 1000000000

/-- DEMERIT_DECAY (R358): after another 604,800 s of powered time every nonzero count falls by one; no fence is cleared. -/
def execDemeritDecay (s : State) : Out :=
  if (s.hub.decays + 1) * 604800 ≤ s.poweredSeconds then
    let fall := fun (_ : Nat) (h : SiteHealth) => { h with demerits := if h.demerits = 0 then 0 else h.demerits - 1 }
    let s1 := s.modHub (fun h => { h with decays := h.decays + 1 })
    .next { s1 with dies := Tab.mapWith (fun _ d => { d with
      sites := (Tab.mapWith fall d.sites).filter (fun p => p.2 != {}) }) s1.dies }
  else .next s

/-! ## Mace -/

/-- A core is idle for Mace: its site is enabled, its pound runs, and no resident team is bound to it (R360). -/
def State.maceIdle (s : State) (core : Nat) : Bool :=
  (s.die (coreDie core)).siteUp (coreSite core) && (s.pound (corePound core)).state = .run &&
  (s.die (coreDie core)).resetStep = 0 && !s.teams.any (fun t => t.2.core = core && t.2.residency = .resident)

/-- The core is the enabled one whose last full pass is the oldest, and no other core is under test (R360). -/
def State.maceNext (s : State) (core : Nat) : Bool :=
  !s.cores.any (fun p => p.2.mace.isSome) &&
  (List.range 576).all (fun k => !(s.die (coreDie k)).siteUp (coreSite k) || decide ((s.core core).maceLast ≤ (s.core k).maceLast))

/-- One of the 20 segments of a pass is done; the last one ends the pass (R360, R367). -/
def State.maceSegmentDone (s : State) (core : Nat) : State :=
  let n := (s.core core).maceSegments + 1
  if n < 20 then s.modCore core (fun c => { c with mace := none, maceSegments := n })
  else
    (s.modCore core (fun c => { c with mace := none, maceSegments := 0, maceLast := s.now })).modSite (coreDie core)
      (coreSite core) (fun h => { h with maceRun := true })

/-- A segment passes or fails: the unit's bit follows, and a failure fences the site (R357, R360, R367). -/
def State.maceResult (s : State) (core unit : Nat) (failed : Bool) : State :=
  let d := coreDie core
  let i := coreSite core
  let mark := fun (h : SiteHealth) =>
    { h with maceFail := if failed then h.maceFail ||| (1#13 <<< unit) else h.maceFail &&& ~~~(1#13 <<< unit) }
  let s1 := (s.maceSegmentDone core).modSite d i mark
  if failed then
    let s2 := s1.addDemerits d i (s1.die d).thresh.toNat
    (s2.addEvent 0x05 d i 0 unit (s2.demerits d i) 0 0 0).fenceIfDue d i false
  else s1

/-- MACE_SEGMENT (R360): a segment starts on an idle core, or the running one ends. An aborted segment records nothing. -/
def execMaceSegment (core unit : Nat) (outcome : MaceOutcome) (s : State) : Out :=
  match (s.core core).mace with
  | none => if s.maceIdle core && s.maceNext core then .next (s.modCore core (fun c => { c with mace := some unit })) else .next s
  | some u =>
    match outcome with
    | .aborted => .next (s.modCore core (fun c => { c with mace := none }))
    | .passed => .next (s.maceResult core u false)
    | .failed => .next (s.maceResult core u true)

/-! ## The health record -/

/-- STATE of a site entry (R16, R17, R367): 0 enabled, 1 defective, 2 spare, 3 fenced. -/
def Die.siteState (d : Die) (site : Nat) : Nat :=
  if d.fenced.getLsbD site then 3 else if d.defective.getLsbD site then 1 else if d.disabled.getLsbD site then 2 else 0

/-- A site entry (R367). SUSP is set while a sub-array of the site is marked suspect. -/
def Die.siteEntry (d : Die) (site : Nat) : BitVec 32 :=
  let h := d.health site
  h.retries ++ 0#3 ++ h.maceFail ++ BitVec.ofBool h.maceRun ++ BitVec.ofBool (h.subSuspect != 0) ++ h.demerits ++
    BitVec.ofNat 2 (d.siteState site)

/-- A number from bits, the first one lowest. -/
def bitsNat : List Bool → Nat
  | [] => 0
  | b :: bs => natOf b + 2 * bitsNat bs

/-- An event entry (R368). -/
def HealthEvent.bytes (e : HealthEvent) : List Byte :=
  leBytes 8 e.seq ++ [e.kind, e.die, e.site, e.flags, e.unit, e.demerits] ++ leBytes 2 0 ++ wordBytes 8 e.launch ++
    leBytes 4 e.check.toNat ++ leBytes 4 e.team.toNat

/-- The parts of the record that hold one item for each die (R366). -/
def State.perDie (s : State) (f : Die → List Byte) : List Byte := ([0, 1, 2, 3].map (fun d => f (s.die d))).flatten

/-- Bytes 0x000 to 0xF9F of the health record (R366). -/
def State.healthBytes (s : State) : List Byte :=
  let evs := (s.hub.events.map HealthEvent.bytes).flatten
  leBytes 4 1 ++ leBytes 4 0 ++ wordBytes 8 s.hub.serial ++ leBytes 8 s.hub.lastSeq ++ leBytes 8 s.poweredSeconds ++
  s.perDie (fun d => leBytes 2 d.fenceGen.toNat) ++ s.perDie (fun d => leBytes 1 d.thresh.toNat) ++
  leBytes 4 s.hub.events.length ++ List.replicate 16 0 ++
  s.perDie (fun d => ((List.range 144).map (fun i => leBytes 4 (d.siteEntry i).toNat)).flatten) ++
  s.perDie (fun d => leBytes 18 d.sliceSuspect.toNat) ++
  s.perDie (fun d => leBytes 72 (bitsNat ((List.range 576).map (fun i => (d.health (i / 4)).subSuspect.getLsbD (i % 4))))) ++
  s.perDie (fun d => leBytes 16 d.channelSuspect.toNat) ++
  s.perDie (fun d => ((List.range 8).map (fun i => leBytes 8 (nth 0 d.counters i))).flatten) ++
  List.replicate 24 0 ++ evs ++ List.replicate (928 - evs.length) 0

/-- HEALTH_RECORD_SIGN (R369, R416): a new signed snapshot; the newest two are kept. -/
def execHealthRecordSign (s : State) : Out :=
  let body := s.healthBytes
  let sig := (Config.sign body ++ List.replicate 96 0).take 96
  let x : Snapshot := { lastSeq := s.hub.lastSeq, bytes := body ++ sig }
  .next (s.modHub (fun h => { h with snapshots := (x :: h.snapshots).take 2 }))

/-- HR_LATCH (R408, R416): BAR0 shows the newest snapshot from now on. -/
def execHrLatch (s : State) : Out :=
  .next (s.onLink (fun a => a.modHub (fun h => { h with latched := match h.snapshots.head? with
    | some x => some x
    | none => h.latched })))

/-- GET_HEALTH (R416): at most 64 bytes of the snapshot named, or of the newest; the newest LASTSEQ and no bytes when it is no
longer held. -/
def execGetHealth (lastSeq : BitVec 64) (offset len : Nat) (s : State) : Out :=
  let newest := match s.hub.snapshots.head? with
    | some x => x.lastSeq
    | none => 0
  let wanted := if lastSeq = 0 then s.hub.snapshots.head? else s.hub.snapshots.find? (fun x => x.lastSeq = lastSeq.toNat)
  match wanted with
  | some x => .next (s.send (.health x.lastSeq ((x.bytes.drop offset).take (min len 64))))
  | none => .next (s.send (.health newest []))

/-- CLEAR_FENCE (R359, R368, R415): inside a session the clearing is recorded, and happens at the next cold reset. -/
def execClearFence (die : Nat) (mask : BitVec 144) (s : State) : Out :=
  if s.hub.session ≠ .established then .next s
  else .next ((s.modDie die (fun d => { d with clearPending := d.clearPending ||| mask })).addEvent 0x09 die 0xFF 0 0xFF 0 0 0 0)

end Sys2Proof.Machine
end

