-- ==== Sys2Proof/Machine/Special.lean ====
section
/-!
DEFINITION. The special-function instructions (R93, R94, R244, R245). FDIV and FSQRT round correctly. Of the others the
spec gives an error bound, exact cases and monotonicity: the model encloses the exact value by fixed-point arithmetic,
forms the set of FP32 results within the bound, and lets a free threshold choose among them (log 16).
-/

namespace Sys2Proof.Machine

open Sys2Proof

/-! ## Fixed-point evaluation -/

/-- Fraction bits of the fixed-point values. -/
def fxBits : Nat := 448
def fxOne : Int := (2 ^ fxBits : Nat)
def fxMul (x y : Int) : Int := Int.fdiv (x * y) fxOne
def fxDiv (x y : Int) : Int := Int.fdiv (x * fxOne) y

/-- A finite exact value in fixed point, rounded down. -/
def toFx : Exact → Int
  | .fin s n d e =>
    let v : Int := Int.fdiv ((n : Int) * shiftUp (e + fxBits)) ((d : Int) * shiftUp (-(e + fxBits)))
    if s then -v else v
  | _ => 0

/-- A fixed-point value as an exact value. -/
def ofFx (x : Int) : Exact := .fin (decide (x < 0)) x.natAbs 1 (-(fxBits : Int))

/-- The sum of x^k ÷ k! from term k on. -/
def expTerms : Nat → Nat → Int → Int → Int
  | 0, _, _, _ => 0
  | n + 1, k, x, term => term + expTerms n (k + 1) x (Int.fdiv (fxMul term x) (k + 1))

/-- e^x for a small x. -/
def fxExp (x : Int) : Int := expTerms 160 0 x fxOne

/-- The odd series of z: sum of sign^k × z^(2k+1) ÷ (2k + 1). -/
def oddTerms : Nat → Nat → Int → Int → Int → Int
  | 0, _, _, _, _ => 0
  | n + 1, k, sq, sg, pow => Int.fdiv pow (2 * k + 1) + oddTerms n (k + 1) sq sg (sg * fxMul pow sq)

/-- atan(1 ÷ n) and atanh(z). -/
def fxAtanInv (n : Int) : Int :=
  let z := Int.fdiv fxOne n
  oddTerms 330 0 (fxMul z z) (-1) z
def fxAtanh (z : Int) : Int := oddTerms 330 0 (fxMul z z) 1 z

/-- π and ln 2. -/
def fxPi : Int := 16 * fxAtanInv 5 - 4 * fxAtanInv 239
def fxLn2 : Int := 2 * fxAtanh (Int.fdiv fxOne 3)

/-- 2^f for f in [0, 1). -/
def fxExp2 (f : Int) : Int := fxExp (fxMul f fxLn2)

/-- The alternating series of sine and cosine: sum of (-1)^k × x^(2k+j) ÷ (2k+j)!. -/
def trigTerms : Nat → Nat → Int → Int → Int
  | 0, _, _, _ => 0
  | n + 1, j, sq, term => term - trigTerms n (j + 2) sq (Int.fdiv (fxMul term sq) ((j + 1) * (j + 2)))

/-- Fixed-point sine and cosine. -/
def fxSin (x : Int) : Int := let r := Int.fmod x (2 * fxPi); trigTerms 120 1 (fxMul r r) r
def fxCos (x : Int) : Int := let r := Int.fmod x (2 * fxPi); trigTerms 120 0 (fxMul r r) fxOne

/-! ## Choosing a result -/

/-- The position of an FP32 code in numerical order; both zeros have one position. -/
def fpOrder (code : Nat) : Nat := if bit code 31 then 2 ^ 31 - code % 2 ^ 31 else 2 ^ 31 + code

/-- The FP32 code at a position. -/
def fpAt (o : Nat) : Nat := if o < 2 ^ 31 then 2 ^ 31 + (2 ^ 31 - o) else o - 2 ^ 31

/-- One unit in the last place at the binade of a value (R93). -/
def ulpOf (v : Exact) : Exact :=
  match v with
  | .fin _ n d e => if n = 0 then .fin false 1 1 (-149) else .fin false 1 1 (max (floorLog2 n d e) (-126) - 23)
  | _ => .zero false

/-- The positions of the FP32 results within `k` units of a value that lies between lo and hi. -/
def allowed (k : Nat) (lo hi : Exact) : Nat × Nat :=
  let u := ((ulpOf hi).mul (.ofInt k)).1
  (fpOrder (round fp32 .rup (lo.add false u.negate).1).code, fpOrder (round fp32 .rdn (hi.add false u).1).code)

/-- An enclosure of the exact value of a monotone function, by the position of its argument in the order in which the
function does not decrease; none outside the domain. -/
abbrev Enclosure := Nat → Option (Exact × Exact)

/-- The binade of a value that is not zero. -/
def binadeOf (v : Exact) : Int :=
  match v with
  | .fin _ n d e => floorLog2 n d e
  | _ => 0

/-- The lower bound that the nearest earlier argument of a lower binade sets: a unit is smaller there, and a function that
does not decrease stays above that bound (R93). -/
def lowerBefore (k : Nat) (f : Enclosure) (l : Int) : Nat → Nat → Nat
  | 0, _ => 0
  | n + 1, o =>
    match f o with
    | none => 0
    | some (lo, hi) =>
      if hi.neg? || hi.isZero then 0
      else if binadeOf hi < l then (allowed k lo hi).1
      else lowerBefore k f l n (o - 1)

/-- The upper bound that the nearest later argument of a lower binade sets, where the function is negative (R93). -/
def upperAfter (k : Nat) (f : Enclosure) (l : Int) : Nat → Nat → Nat
  | 0, _ => 2 ^ 33
  | n + 1, o =>
    match f o with
    | none => 2 ^ 33
    | some (lo, hi) =>
      if !lo.neg? || lo.isZero then 2 ^ 33
      else if binadeOf lo < l then (allowed k lo hi).2
      else upperAfter k f l n (o + 1)

/-- The positions of the results that the bound and the monotonicity allow together at an argument (R93): the bound drops
back where the value enters a binade, and the arguments before it forbid what lies below their own bound. Eight
arguments span the units in question for every function of the table. -/
def monotoneBounds (k : Nat) (f : Enclosure) (o : Nat) (lo hi : Exact) : Nat × Nat :=
  let (a, b) := allowed k lo hi
  let l := binadeOf hi
  let edge := (round fp32 .rne (.fin hi.neg? 1 1 l)).code
  if hi.neg? then (a, if fpOrder edge < b then min b (upperAfter k f l 8 (o + 1)) else b)
  else (if a < fpOrder edge then max a (lowerBefore k f l 8 (o - 1)) else a, b)

/-- The greatest position from `top` downwards, over `n` candidates, that the threshold lets through; else the least. -/
def pickBelow (fn arg : Nat) : Nat → Nat → Nat
  | 0, top => top
  | n + 1, top => if Config.threshold fn top ≤ arg then top else pickBelow fn arg n (top - 1)

/-- The flags of a result beside the exact value: NX when they differ, UF when it is also tiny (R86, R93). -/
def pickFlags (exact : Option Exact) (code : Nat) : FpFlags :=
  let same := match exact with
    | some v => (decodeFloat fp32 code).eq v
    | none => false
  if same then 0 else flagNX ||| (if code % 2 ^ 31 < 2 ^ 23 then flagUF else 0)

/-- The sign of a zero result. -/
def withZeroSign (neg : Bool) (code : Nat) : Nat := if code % 2 ^ 31 = 0 then (if neg then 2 ^ 31 else 0) else code

/-- A result of a monotone function within `k` units of a value between lo and hi, and within the positions `least` and
`most`: the threshold of each position decides from which argument on it is given, so that the results never decrease.
An overflow gives what rounding to nearest gives. -/
def monotoneResult (fn k : Nat) (f : Enclosure) (o : Nat) (exact : Option Exact) (lo hi : Exact) (least most : Nat) :
    Nat × FpFlags :=
  let r := round fp32 .rne hi
  if r.flags &&& flagOF != 0 then (r.code, r.flags)
  else
    let (a, b) := monotoneBounds k f o lo hi
    let a1 := max a least
    let b1 := min b most
    let c := withZeroSign hi.neg? (fpAt (if b1 ≤ a1 then a1 else pickBelow fn o (b1 - a1) b1))
    (c, pickFlags exact c)

/-- A result within `k` units of a value between lo and hi where no monotonicity is stated: free for each operand. -/
def boundedResult (fn k code : Nat) (lo hi : Exact) : Nat × FpFlags :=
  let (a, b) := allowed k lo hi
  let c := withZeroSign hi.neg? (fpAt (if b ≤ a then a else a + Config.candidate fn code % (b - a + 1)))
  (c, pickFlags none c)

/-- No limit of the table stands on the positions. -/
def noLeast : Nat := 0
def noMost : Nat := 2 ^ 33

/-- An interval of two fixed-point steps around an approximation. -/
def fxAround (x : Int) : Exact × Exact := (ofFx (x - 2 ^ 32), ofFx (x + 2 ^ 32))

/-- x × (1 − x² ÷ m). -/
def cubicNear (m : Nat) (x : Exact) : Exact :=
  (x.mul (Exact.one.add false ((x.mul x).1.over (.ofInt m)).negate).1).1

/-- An odd function x − x³ ÷ m + … at an argument below 2^-64, between its cubic and that with m + 1: strictly on the side of x
that the function lies on, however small x is (R93). -/
def oddNear (m : Nat) (x : Exact) : Exact × Exact :=
  if x.neg? then (cubicNear (m + 1) x, cubicNear m x) else (cubicNear m x, cubicNear (m + 1) x)

/-- The argument is so small that the cubic decides. -/
def tinyArg (x : Exact) : Bool := decide (binadeOf x < -64)

/-- The order of the arguments of a function that does not increase. -/
def downward (o : Nat) : Nat := 2 ^ 33 - o

/-- The finite value of an argument position. -/
def finiteAt (o : Nat) : Option Exact :=
  match decodeFloat fp32 (fpAt o) with
  | .fin s n d e => some (.fin s n d e)
  | _ => none

/-- 1 ÷ a (R93). -/
def frcpAt : Enclosure := fun o => (finiteAt (downward o)).bind (fun x =>
  if x.isZero then none else some (Exact.one.over x, Exact.one.over x))

/-- FRCP on a code (R93). -/
def frcp (code : Nat) : Nat × FpFlags :=
  let x := decodeFloat fp32 code
  match x with
  | .nan => (fp32.nanCode, 0)
  | .inf s => (signed fp32 s 0, 0)
  | .fin s n _ _ =>
    if n = 0 then (signed fp32 s 0x7F800000, flagDZ)
    else
      let v := Exact.one.over x
      monotoneResult (2 * 0x18B + natOf s) 1 frcpAt (downward (fpOrder code)) (some v) v v noLeast noMost

/-- 1 ÷ √a for a positive a, to the width of the root (R93). -/
def rsqrtOf (n d : Nat) (e : Int) : Exact := (Exact.fin false d 1 0).over (sqrtExact (n * d) e)

def frsqAt : Enclosure := fun o =>
  match finiteAt (downward o) with
  | some (.fin s n d e) => if s || n = 0 then none else some (rsqrtOf n d e, rsqrtOf n d e)
  | _ => none

/-- FRSQ on a code (R93). -/
def frsq (code : Nat) : Nat × FpFlags :=
  match decodeFloat fp32 code with
  | .nan => (fp32.nanCode, 0)
  | .inf s => if s then (fp32.nanCode, flagIV) else (0, 0)
  | .fin s n d e =>
    if n = 0 then (signed fp32 s 0x7F800000, flagDZ)
    else if s then (fp32.nanCode, flagIV)
    else
      let v := rsqrtOf n d e
      let exact := if ((v.mul v).1.mul (.fin false n d e)).1.eq .one then some v else none
      monotoneResult (2 * 0x18C) 1 frsqAt (downward (fpOrder code)) exact v v noLeast noMost

/-- log2 of a positive value (R93). -/
def log2Of (n d : Nat) (e : Int) : Exact × Exact :=
  let l := floorLog2 n d e
  let z := toFx (.fin false n d (e - l))
  let ln := 2 * fxAtanh (fxDiv (z - fxOne) (z + fxOne))
  fxAround (fxDiv ln fxLn2 + l * fxOne)

def flg2At : Enclosure := fun o =>
  match finiteAt o with
  | some (.fin s n d e) => if s || n = 0 then none else some (log2Of n d e)
  | _ => none

/-- FLG2 on a code (R93): exact at exact powers of two, and between two of them not outside their values, since it does
not decrease. -/
def flg2 (code : Nat) : Nat × FpFlags :=
  match decodeFloat fp32 code with
  | .nan => (fp32.nanCode, 0)
  | .inf s => if s then (fp32.nanCode, flagIV) else (0x7F800000, 0)
  | .fin s n d e =>
    if n = 0 then (0xFF800000, flagDZ)
    else if s then (fp32.nanCode, flagIV)
    else
      let l := floorLog2 n d e
      let whole := fun (i : Int) => (round fp32 .rne (.ofInt i)).code
      if (Exact.fin false n d (e - l)).eq .one then (whole l, 0)
      else
        let (lo, hi) := log2Of n d e
        monotoneResult (2 * 0x18E) 1 flg2At (fpOrder code) none lo hi (fpOrder (whole l)) (fpOrder (whole (l + 1)))

/-- An argument lies between two fixed-point bounds. -/
def fxBetween (x lo hi : Int) : Bool := decide (lo ≤ x) && decide (x ≤ hi)

/-- The results of an odd function that does not decrease lie on the side of zero of its argument (R93). -/
def sideLeast (neg : Bool) : Nat := if neg then 0 else fpOrder 0
def sideMost (neg : Bool) : Nat := if neg then fpOrder 0 else 2 ^ 33

/-- sin of a nonzero argument. -/
def sinOf (x : Exact) : Exact × Exact := if tinyArg x then oddNear 6 x else fxAround (fxSin (toFx x))

def fsinAt : Enclosure := fun o => (finiteAt o).bind (fun x =>
  if x.isZero || !fxBetween (2 * toFx x) (-fxPi) fxPi then none else some (sinOf x))

/-- FSIN on a code (R93). -/
def fsin (code : Nat) : Nat × FpFlags :=
  let x := decodeFloat fp32 code
  match x with
  | .nan => (fp32.nanCode, 0)
  | .inf _ => (fp32.nanCode, flagIV)
  | .fin s n _ _ =>
    if n = 0 then (code, 0)
    else
      let (lo, hi) := sinOf x
      if fxBetween (2 * toFx x) (-fxPi) fxPi then
        monotoneResult (2 * 0x18F) 2 fsinAt (fpOrder code) none lo hi (sideLeast s) (sideMost s)
      else boundedResult (2 * 0x18F) 2 code lo hi

/-- cos of a fixed-point argument; of zero exactly. -/
def cosOf (x : Exact) : Exact × Exact := if x.isZero then (.one, .one) else fxAround (fxCos (toFx x))

def fcosAt : Enclosure := fun o => (finiteAt (downward o)).bind (fun x =>
  if fxBetween (toFx x) 0 fxPi then some (cosOf x) else none)

/-- FCOS on a code (R93). -/
def fcos (code : Nat) : Nat × FpFlags :=
  let x := decodeFloat fp32 code
  match x with
  | .nan => (fp32.nanCode, 0)
  | .inf _ => (fp32.nanCode, flagIV)
  | .fin _ n _ _ =>
    let (lo, hi) := cosOf x
    if fxBetween (toFx x) 0 fxPi then
      monotoneResult (2 * 0x190) 2 fcosAt (downward (fpOrder code)) (if n = 0 then some .one else none) lo hi noLeast noMost
    else boundedResult (2 * 0x190) 2 code lo hi

/-- tanh of a fixed-point value: 1 − 2 ÷ (e^(2a) + 1), or near ±1 from 64 on. -/
def fxTanh (a : Int) : Int :=
  if 64 * fxOne ≤ a then fxOne - 1 else if a ≤ -(64 * fxOne) then 1 - fxOne
  else
    let y := fxDiv (2 * a) fxLn2
    let i := Int.fdiv y fxOne
    let f := fxExp2 (y - i * fxOne)
    let ex := if 0 ≤ i then f * shiftUp i else Int.fdiv f (shiftUp (-i))
    fxDiv (ex - fxOne) (ex + fxOne)

/-- An enclosure of tanh a for a nonzero a, which lies strictly between -1 and 1. -/
def tanhOf (x : Exact) : Exact × Exact :=
  if tinyArg x then oddNear 3 x
  else
  let v := fxTanh (toFx x)
  (ofFx (max (v - 2 ^ 32) (1 - fxOne)), ofFx (min (v + 2 ^ 32) (fxOne - 1)))

def ftanhAt : Enclosure := fun o => (finiteAt o).bind (fun x => if x.isZero then none else some (tanhOf x))

/-- FTANH on a code (R93): every result lies within [-1, 1]. DESIGN CHOICE (log 67): the table lists no case for ±0 and
allows 2 units there; the model gives ±0, the exact value, without a flag. -/
def ftanh (code : Nat) : Nat × FpFlags :=
  let x := decodeFloat fp32 code
  match x with
  | .nan => (fp32.nanCode, 0)
  | .inf s => (signed fp32 s 0x3F800000, 0)
  | .fin s n _ _ =>
    if n = 0 then (code, 0)
    else
      let (lo, hi) := tanhOf x
      monotoneResult (2 * 0x191) 2 ftanhAt (fpOrder code) none lo hi (max (sideLeast s) (fpOrder 0xBF800000))
        (min (sideMost s) (fpOrder 0x3F800000))

/-- A product rounded RNE to a 36-bit significand with an unbounded exponent (R94). -/
def round36 : Exact → Exact
  | .fin s n d e =>
    if n = 0 then .fin s 0 1 0
    else
      let q := floorLog2 n d e - 35
      let (k, r, b) := inSteps n d e q
      .fin s (if roundsUp .rne s k r b then k + 1 else k) 1 q
  | x => x

/-- The position of t in numerical order, for the threshold of FEX2. -/
def orderOf36 (t : Exact) : Nat :=
  match t with
  | .fin s n d e =>
    let mag := if n = 0 then 0 else
      let l := floorLog2 n d e
      (l + 1000).toNat * 2 ^ 36 + (inSteps n d e (l - 35)).1
    if s then 2 ^ 50 - mag else 2 ^ 50 + mag
  | _ => 0

/-- 2^t for a finite t that is not both integral and representable: the two adjacent FP32 values (R94). -/
def exp2Neighbours (t : Exact) : Nat × Nat :=
  if (Exact.ofInt 200).lt t then (0x7F800000, 0x7F800000)
  else if t.lt (.ofInt (-200)) then (0, 1)
  else
    let x := toFx t
    let i := Int.fdiv x fxOne
    let f := x - i * fxOne
    let v : Exact := match ofFx (fxExp2 f) with
      | .fin s n d e => .fin s (if f = 0 then 2 ^ fxBits else n) d (e + i)
      | y => y
    match v with
    | .fin _ n d e =>
      let k := (gridFloor fp32 n d e).1
      if 0x7F7FFFFF ≤ k then (0x7F800000, 0x7F800000) else (k, k + 1)
    | _ => (0, 1)

/-- The exact integer value of t, if it is one. -/
def integral? : Exact → Option Int
  | .fin s n d e =>
    let (k, r, _) := inSteps n d e 0
    if r = 0 then some (if s then -(k : Int) else k) else none
  | _ => none

/-- FEX2 (R94). DESIGN CHOICE (log 67): the rule gives NaN for a NaN operand and IV for ∞ − ∞ and does not say which comes
first; with both, the model gives NaN without IV. -/
def fex2 (a b c : Exact) : Nat × FpFlags :=
  let (d, f1) := a.add false b.negate
  if a.isNan || b.isNan || c.isNan then (fp32.nanCode, 0)
  else
    let (p, f2) := d.mul c
    match p with
    | .nan => (fp32.nanCode, f1 ||| f2)
    | .inf s => (if s then 0 else 0x7F800000, 0)
    | .fin _ _ _ _ =>
      let t := round36 p
      let above := match integral? t with
        | some i => decide (128 ≤ i)
        | none => (Exact.ofInt 128).lt t
      let inexact := !(p.eq t)
      match integral? t with
      | some i =>
        if -149 ≤ i && i ≤ 127 then
          ((round fp32 .rne (.fin false 1 1 i)).code,
            if inexact then flagNX ||| (if i < -126 then flagUF else 0) else 0)
        else if above then (0x7F800000, flagOF ||| flagNX)
        else
          let c := if Config.threshold (2 * 0x18D) 1 ≤ orderOf36 t then 1 else 0
          (c, flagUF ||| flagNX)
      | none =>
        if above then (0x7F800000, flagOF ||| flagNX)
        else
          let (lo, hi) := exp2Neighbours t
          let r := if Config.threshold (2 * 0x18D) hi ≤ orderOf36 t then hi else lo
          (r, flagNX ||| (if r < 2 ^ 23 then flagUF else 0) ||| (if r = 0x7F800000 then flagOF else 0))

/-! ## The instructions -/

/-- A special-function operation: results are captured at issue and written when the operation completes (R229, R244). -/
def specialFn (n : Nat) (mode : Bool) (w : Slot) (s : State) (op : Nat → Nat → Nat → Nat × FpFlags) : Out :=
  issue { fpForm [.f32] n mode true true with long := true } (fun _ => modifiersOk w) noMore w s (fun k g =>
    let d := w.d0.vecIndex
    let each := fun (l : Nat) =>
      let x := readFp fp32 w 3 (s.laneSource g w w.a l).toNat
      let y := readFp fp32 w 5 (s.laneSource g w w.b l).toNat
      let z := readFp fp32 w 7 (s.laneSource g w w.c l).toNat
      let (c, f) := op x y z
      let r := flushResult fp32 (fpFtz w) { code := c, flags := f }
      (RegWrite.vec d l (BitVec.ofNat 32 r.code), r.flags)
    let rs := (lanesOf (g.lanes w) g.width).map each
    let flags := rs.foldl (fun a r => a ||| r.2) 0
    .done (s.putVec k w g (g.depart w [.vec d] (rs.map Prod.fst) flags none .special)))

/-- FDIV: correctly rounded in the mode (R93). -/
def execFdiv (w : Slot) (s : State) : Out :=
  specialFn 2 true w s (fun x y _ =>
    roundResult fp32 (fpMode w) false ((decodeFloat fp32 x).div (decodeFloat fp32 y)))

/-- The square root of a code in a mode (R93). -/
def fsqrtCode (m : Mode) (code : Nat) : Nat × FpFlags :=
  match decodeFloat fp32 code with
  | .nan => (fp32.nanCode, 0)
  | .inf s => if s then (fp32.nanCode, flagIV) else (0x7F800000, 0)
  | .fin s n _ e =>
    if n = 0 then (code, 0)
    else if s then (fp32.nanCode, flagIV)
    else
      let r := round fp32 m (sqrtExact n e)
      (r.code, r.flags)

/-- FSQRT: correctly rounded in the mode (R93). -/
def execFsqrt (w : Slot) (s : State) : Out := specialFn 1 true w s (fun x _ _ => fsqrtCode (fpMode w) x)

def execFrcp (w : Slot) (s : State) : Out := specialFn 1 false w s (fun x _ _ => frcp x)
def execFrsq (w : Slot) (s : State) : Out := specialFn 1 false w s (fun x _ _ => frsq x)
def execFlg2 (w : Slot) (s : State) : Out := specialFn 1 false w s (fun x _ _ => flg2 x)
def execFsin (w : Slot) (s : State) : Out := specialFn 1 false w s (fun x _ _ => fsin x)
def execFcos (w : Slot) (s : State) : Out := specialFn 1 false w s (fun x _ _ => fcos x)
def execFtanh (w : Slot) (s : State) : Out := specialFn 1 false w s (fun x _ _ => ftanh x)

/-- FEX2 (R94, R245). -/
def execFex2 (w : Slot) (s : State) : Out :=
  specialFn 3 false w s (fun x y z => fex2 (decodeFloat fp32 x) (decodeFloat fp32 y) (decodeFloat fp32 z))

end Sys2Proof.Machine
end

