-- ==== Sys2Proof/Machine/Towpath.lean ====
section
/-!
DEFINITION. The Towpath: mints (R330), the ring and its stations (R331, R332), claims (R334) and %energy (R336).
-/

namespace Sys2Proof.Machine

open Sys2Proof

/-! ## Mints -/

/-- CONTROL_INTERVAL (R325, R330): a new interval of %clock begins. A die under warm reset mints nothing. The charges of
resident teams are the sums that admission forms. -/
def execControlInterval (die measured : Nat) (s : State) : Out :=
  let d := s.die die
  if d.interval < s.intervalNow then
    let m := if d.resetStep = 0 then mintOf measured s.factor else 0
    .next (s.modDie die (fun x => { x with interval := s.intervalNow, mint := m, mintLeft := m, measured := measured }))
  else .next s

/-! ## The ring -/

/-- Serve a claim: what it takes of `n` tokens within the core's room, and what is left of it (R334). -/
def serveClaim (claim : Option Nat) (n room : Nat) : Nat × Option Nat :=
  match claim with
  | some c =>
    let k := min c (min n room)
    (k, if k = c then none else some (c - k))
  | none => (0, none)

/-- A station serves the open claims of one core, of its core purse first (R334). -/
def Core.served (c : Core) (n : Nat) : Nat × Core :=
  let a := serveClaim c.claim n 256
  let b := serveClaim c.engineClaim (n - a.1) (256 - a.1)
  (a.1 + b.1, { c with purse := min 4096 (c.purse + a.1), claim := a.2
                       enginePurse := min 4096 (c.enginePurse + b.1), engineClaim := b.2 })

/-- A purse of a station's cores: its content, its core and whether it is the engine purse. -/
structure Purse where
  content : Nat
  core : Nat
  engine : Bool
  deriving DecidableEq, Repr

/-- The order in which purses are filled: ascending content, then the lower site; of one core the core purse first (R332). -/
def Purse.before (a b : Purse) : Bool :=
  decide (a.content < b.content) || (a.content = b.content && (decide (a.core < b.core) || (a.core = b.core && !a.engine)))

/-- Put a purse at its place in the order. -/
def insertPurse (p : Purse) : List Purse → List Purse
  | [] => [p]
  | q :: qs => if p.before q then p :: q :: qs else q :: insertPurse p qs

/-- The purses of cores in the order in which they are filled. -/
def State.purseOrder (s : State) (cores : List Nat) : List Purse :=
  (cores.flatMap (fun c => [{ content := (s.core c).purse, core := c, engine := false },
    { content := (s.core c).enginePurse, core := c, engine := true : Purse }])).foldl (fun a p => insertPurse p a) []

/-- What a core has already taken in this fabric cycle. -/
def takenBy (core : Nat) (done : List (Nat × Nat)) : Nat := ((done.filter (fun p => p.1 = core)).map Prod.snd).foldl (· + ·) 0

/-- A station fills purses in their order with `n` tokens (R332). -/
def State.fillPurses (s : State) : List Purse → Nat → List (Nat × Nat) → Nat × State
  | [], n, _ => (n, s)
  | p :: ps, n, done =>
    let k := min n (min (4096 - p.content) (256 - takenBy p.core done))
    let s1 := s.modCore p.core (fun c =>
      if p.engine then { c with enginePurse := c.enginePurse + k } else { c with purse := c.purse + k })
    s1.fillPurses ps (n - k) ((p.core, k) :: done)

/-- The cores of a pound that take tokens: the enabled sites, unless the pound is in CLKOFF or has not woken since (R332). -/
def State.takers (s : State) (die p : Nat) : List Nat :=
  match (s.pound (die * 16 + p)).state with
  | .run => ((poundSites p).filter (s.die die).siteUp).map (fun i => die * 144 + i)
  | .drain => ((poundSites p).filter (s.die die).siteUp).map (fun i => die * 144 + i)
  | .quiet => ((poundSites p).filter (s.die die).siteUp).map (fun i => die * 144 + i)
  | .save => ((poundSites p).filter (s.die die).siteUp).map (fun i => die * 144 + i)
  | _ => []

/-- A claim is open on a die's ring (R334). -/
def State.claimOpen (s : State) (die : Nat) : Bool :=
  s.cores.any (fun p => coreDie p.1 = die && (p.2.claim.isSome || p.2.engineClaim.isSome))

/-- One station takes what its pound's cores may have of `n` tokens, and passes the rest (R332, R334). -/
def State.station (s : State) (claims : Bool) (die p n : Nat) : Nat × State :=
  let cores := s.takers die p
  if claims then
    cores.foldl (fun (a : Nat × State) c =>
      let r := (a.2.core c).served a.1
      (a.1 - r.1, a.2.modCore c (fun _ => r.2))) (n, s)
  else s.fillPurses (s.purseOrder cores) n []

/-- The stations of a die in ring order, each with the tokens before it; what each passes on. -/
def State.stations (s : State) (claims : Bool) (die : Nat) : List (Nat × Nat) → List Nat × State
  | [] => ([], s)
  | (p, n) :: rest =>
    let r := s.station claims die p n
    let q := r.2.stations claims die rest
    (r.1 :: q.1, q.2)

/-- The tokens that are injected in one fabric cycle: one of 2,000 equal parts of the mint, rounded up, and none while the ring
holds the mint (R331). -/
def Die.injection (d : Die) (held : Nat) : Nat :=
  if d.mint ≤ held then 0 else min (ceilDiv d.mint 2000) d.mintLeft

/-- STATION_DELIVERY (R331, R332, R334): one fabric cycle of a die's ring. The tokens that station p passed in the cycle before
stand before station p + 1, and those that station 15 passed come round to station 0, where the injection joins them. -/
def execStationDelivery (die : Nat) (s : State) : Out :=
  let d := s.die die
  let before := (List.range 16).map (fun i => nth 0 d.ring i)
  let held := before.foldl (· + ·) 0
  let put := d.injection held
  let here := (List.range 16).map (fun i => (i, nth 0 before ((i + 15) % 16) + (if i = 0 then put else 0)))
  let r := s.stations (s.claimOpen die) die here
  .next (r.2.modDie die (fun x => { x with ring := r.1, mintLeft := x.mintLeft - put }))

/-! ## Claims -/

/-- The group and the price of the core's oldest flag-clear eligible clause (R329, R334). -/
def State.oldestClause (s : State) (core : Nat) : Option (Group × Nat) := (oldestOf (s.readyOf core)).map Prod.snd

/-- The time for which a claim waits: two revolutions of 16 fabric cycles each, in ns (R331, R334). -/
def claimWait : Nat := 16

/-- The first operation of the core whose next draw the purse has not covered for two revolutions, with that draw (R303,
R334). -/
def State.starved (s : State) (core : Nat) : Option Nat :=
  (s.ops.filterMap (fun p =>
    match s.team p.2.team, p.2.hungry with
    | some t, some since =>
      (match s.readyOp p.1 p.2 t with
      | some s1 =>
        let draw := min 96 (s1.stepNeed p.2 t - p.2.paid)
        ((s1.stepDraws p.2 t draw).find? (fun q => q.1 = core && (s1.core core).enginePurse < q.2 &&
          decide (since + claimWait ≤ s.now))).map Prod.snd
      | none => none)
    | _, _ => none)).head?

/-- %clock since which a group's next clause, flag-clear and eligible, has waited for its price: since the boundary before it or the
end of the wait after that (R327), and no longer than its team has been resident (R65). -/
def Group.priceSince (g : Group) : Nat := max g.age (g.gtSince.getD 0)

/-- CLAIM (R334). The core's oldest clause has waited two revolutions for its price, or an engine operation for its step. -/
def execClaim (core : Nat) (engine : Bool) (s : State) : Out :=
  if engine then
    match (s.core core).engineClaim, s.starved core with
    | none, some n => .next (s.modCore core (fun c => { c with engineClaim := some n }))
    | _, _ => .next s
  else
    match (s.core core).claim, s.oldestClause core with
    | none, some (g, price) =>
      if (s.core core).purse < price && decide (g.priceSince + claimWait ≤ s.now) then
        .next (s.modCore core (fun c => { c with claim := some (price - c.purse) }))
      else .next s
    | _, _ => .next s

/-! ## Energy -/

/-- ENERGY_UPDATE (R336): at a millisecond boundary %energy takes the count of whole millijoules. -/
def execEnergyUpdate (ctx : Nat) (s : State) : Out := .next (s.modPart ctx (fun p => p.settleMs s.now))

end Sys2Proof.Machine
end

