-- ==== Sys2Proof/Machine/Dispatch.lean ====
section
/-!
DEFINITION. The one dispatch: each operation and event of the table goes to its meaning.
-/

namespace Sys2Proof.Machine

open Sys2Proof

/-- The meaning of an instruction or event in a state. -/
def exec (i : Instr) (s : State) : Host.Outcome State Fault Refusal :=
  match i with
  | .smov x0 => Sys2Proof.Machine.execSmov x0 s
  | .smovi x0 => Sys2Proof.Machine.execSmovi x0 s
  | .sadd x0 => Sys2Proof.Machine.execSadd x0 s
  | .ssub x0 => Sys2Proof.Machine.execSsub x0 s
  | .smul x0 => Sys2Proof.Machine.execSmul x0 s
  | .smulh x0 => Sys2Proof.Machine.execSmulh x0 s
  | .sdiv x0 => Sys2Proof.Machine.execSdiv x0 s
  | .srem x0 => Sys2Proof.Machine.execSrem x0 s
  | .smin x0 => Sys2Proof.Machine.execSmin x0 s
  | .smax x0 => Sys2Proof.Machine.execSmax x0 s
  | .sand x0 => Sys2Proof.Machine.execSand x0 s
  | .sor x0 => Sys2Proof.Machine.execSor x0 s
  | .sxor x0 => Sys2Proof.Machine.execSxor x0 s
  | .sandn x0 => Sys2Proof.Machine.execSandn x0 s
  | .sshl x0 => Sys2Proof.Machine.execSshl x0 s
  | .sshr x0 => Sys2Proof.Machine.execSshr x0 s
  | .ssra x0 => Sys2Proof.Machine.execSsra x0 s
  | .sclz x0 => Sys2Proof.Machine.execSclz x0 s
  | .spopc x0 => Sys2Proof.Machine.execSpopc x0 s
  | .sbfx x0 => Sys2Proof.Machine.execSbfx x0 s
  | .sbfi x0 => Sys2Proof.Machine.execSbfi x0 s
  | .scmp x0 => Sys2Proof.Machine.execScmp x0 s
  | .ssel x0 => Sys2Proof.Machine.execSsel x0 s
  | .slea x0 => Sys2Proof.Machine.execSlea x0 s
  | .sld x0 => Sys2Proof.Machine.execSld x0 s
  | .sst x0 => Sys2Proof.Machine.execSst x0 s
  | .clog x0 => Sys2Proof.Machine.execClog x0 s
  | .nop x0 => Sys2Proof.Machine.execNop x0 s
  | .bra x0 => Sys2Proof.Machine.execBra x0 s
  | .brc x0 => Sys2Proof.Machine.execBrc x0 s
  | .brv x0 => Sys2Proof.Machine.execBrv x0 s
  | .bri x0 => Sys2Proof.Machine.execBri x0 s
  | .call x0 => Sys2Proof.Machine.execCall x0 s
  | .ret x0 => Sys2Proof.Machine.execRet x0 s
  | .exit x0 => Sys2Proof.Machine.execExit x0 s
  | .yield x0 => Sys2Proof.Machine.execYield x0 s
  | .sleep x0 => Sys2Proof.Machine.execSleep x0 s
  | .bar x0 => Sys2Proof.Machine.execBar x0 s
  | .cbarArrive x0 => Sys2Proof.Machine.execCbarArrive x0 s
  | .cbarWait x0 => Sys2Proof.Machine.execCbarWait x0 s
  | .waitc x0 => Sys2Proof.Machine.execWaitc x0 s
  | .waitb x0 => Sys2Proof.Machine.execWaitb x0 s
  | .klaunch x0 => Sys2Proof.Machine.execKlaunch x0 s
  | .sigf x0 => Sys2Proof.Machine.execSigf x0 s
  | .ifence x0 => Sys2Proof.Machine.execIfence x0 s
  | .vmov x0 => Sys2Proof.Machine.execVmov x0 s
  | .vmovi x0 => Sys2Proof.Machine.execVmovi x0 s
  | .vadd x0 => Sys2Proof.Machine.execVadd x0 s
  | .vsub x0 => Sys2Proof.Machine.execVsub x0 s
  | .vmul x0 => Sys2Proof.Machine.execVmul x0 s
  | .vmulh x0 => Sys2Proof.Machine.execVmulh x0 s
  | .vmad x0 => Sys2Proof.Machine.execVmad x0 s
  | .vmin x0 => Sys2Proof.Machine.execVmin x0 s
  | .vmax x0 => Sys2Proof.Machine.execVmax x0 s
  | .vabs x0 => Sys2Proof.Machine.execVabs x0 s
  | .vneg x0 => Sys2Proof.Machine.execVneg x0 s
  | .vand x0 => Sys2Proof.Machine.execVand x0 s
  | .vor x0 => Sys2Proof.Machine.execVor x0 s
  | .vxor x0 => Sys2Proof.Machine.execVxor x0 s
  | .vnot x0 => Sys2Proof.Machine.execVnot x0 s
  | .vshl x0 => Sys2Proof.Machine.execVshl x0 s
  | .vshr x0 => Sys2Proof.Machine.execVshr x0 s
  | .vsra x0 => Sys2Proof.Machine.execVsra x0 s
  | .vbfx x0 => Sys2Proof.Machine.execVbfx x0 s
  | .vbfi x0 => Sys2Proof.Machine.execVbfi x0 s
  | .vclz x0 => Sys2Proof.Machine.execVclz x0 s
  | .vpopc x0 => Sys2Proof.Machine.execVpopc x0 s
  | .vsel x0 => Sys2Proof.Machine.execVsel x0 s
  | .vcmp x0 => Sys2Proof.Machine.execVcmp x0 s
  | .vdot4 x0 => Sys2Proof.Machine.execVdot4 x0 s
  | .vidx x0 => Sys2Proof.Machine.execVidx x0 s
  | .fadd x0 => Sys2Proof.Machine.execFadd x0 s
  | .fsub x0 => Sys2Proof.Machine.execFsub x0 s
  | .fmul x0 => Sys2Proof.Machine.execFmul x0 s
  | .ffma x0 => Sys2Proof.Machine.execFfma x0 s
  | .fmin x0 => Sys2Proof.Machine.execFmin x0 s
  | .fmax x0 => Sys2Proof.Machine.execFmax x0 s
  | .fcmp x0 => Sys2Proof.Machine.execFcmp x0 s
  | .fcls x0 => Sys2Proof.Machine.execFcls x0 s
  | .frndi x0 => Sys2Proof.Machine.execFrndi x0 s
  | .fdiv x0 => Sys2Proof.Machine.execFdiv x0 s
  | .fsqrt x0 => Sys2Proof.Machine.execFsqrt x0 s
  | .frcp x0 => Sys2Proof.Machine.execFrcp x0 s
  | .frsq x0 => Sys2Proof.Machine.execFrsq x0 s
  | .fex2 x0 => Sys2Proof.Machine.execFex2 x0 s
  | .flg2 x0 => Sys2Proof.Machine.execFlg2 x0 s
  | .fsin x0 => Sys2Proof.Machine.execFsin x0 s
  | .fcos x0 => Sys2Proof.Machine.execFcos x0 s
  | .ftanh x0 => Sys2Proof.Machine.execFtanh x0 s
  | .pkfma x0 => Sys2Proof.Machine.execPkfma x0 s
  | .pkadd x0 => Sys2Proof.Machine.execPkadd x0 s
  | .pkmul x0 => Sys2Proof.Machine.execPkmul x0 s
  | .cvt x0 => Sys2Proof.Machine.execCvt x0 s
  | .cvtb x0 => Sys2Proof.Machine.execCvtb x0 s
  | .cvte x0 => Sys2Proof.Machine.execCvte x0 s
  | .shfl x0 => Sys2Proof.Machine.execShfl x0 s
  | .vrdl x0 => Sys2Proof.Machine.execVrdl x0 s
  | .vwrl x0 => Sys2Proof.Machine.execVwrl x0 s
  | .vred x0 => Sys2Proof.Machine.execVred x0 s
  | .vscan x0 => Sys2Proof.Machine.execVscan x0 s
  | .vote x0 => Sys2Proof.Machine.execVote x0 s
  | .qmov x0 => Sys2Proof.Machine.execQmov x0 s
  | .qlog x0 => Sys2Proof.Machine.execQlog x0 s
  | .qcnt x0 => Sys2Proof.Machine.execQcnt x0 s
  | .ld x0 => Sys2Proof.Machine.execLd x0 s
  | .st x0 => Sys2Proof.Machine.execSt x0 s
  | .ldp x0 => Sys2Proof.Machine.execLdp x0 s
  | .stp x0 => Sys2Proof.Machine.execStp x0 s
  | .ldv x0 => Sys2Proof.Machine.execLdv x0 s
  | .stv x0 => Sys2Proof.Machine.execStv x0 s
  | .atom x0 => Sys2Proof.Machine.execAtom x0 s
  | .satom x0 => Sys2Proof.Machine.execSatom x0 s
  | .apnd x0 => Sys2Proof.Machine.execApnd x0 s
  | .apst x0 => Sys2Proof.Machine.execApst x0 s
  | .seal x0 => Sys2Proof.Machine.execSeal x0 s
  | .fence x0 => Sys2Proof.Machine.execFence x0 s
  | .pref x0 => Sys2Proof.Machine.execPref x0 s
  | .cflush x0 => Sys2Proof.Machine.execCflush x0 s
  | .ldsx x0 => Sys2Proof.Machine.execLdsx x0 s
  | .monw x0 => Sys2Proof.Machine.execMonw x0 s
  | .mwait x0 => Sys2Proof.Machine.execMwait x0 s
  | .trec x0 => Sys2Proof.Machine.execTrec x0 s
  | .cpy x0 => Sys2Proof.Machine.execCpy x0 s
  | .cpyx x0 => Sys2Proof.Machine.execCpyx x0 s
  | .cpyr x0 => Sys2Proof.Machine.execCpyr x0 s
  | .cpyb x0 => Sys2Proof.Machine.execCpyb x0 s
  | .gath x0 => Sys2Proof.Machine.execGath x0 s
  | .coll x0 => Sys2Proof.Machine.execColl x0 s
  | .bcfg x0 => Sys2Proof.Machine.execBcfg x0 s
  | .bput x0 => Sys2Proof.Machine.execBput x0 s
  | .btake x0 => Sys2Proof.Machine.execBtake x0 s
  | .tcfg x0 => Sys2Proof.Machine.execTcfg x0 s
  | .mma x0 => Sys2Proof.Machine.execMma x0 s
  | .mldb x0 => Sys2Proof.Machine.execMldb x0 s
  | .msto x0 => Sys2Proof.Machine.execMsto x0 s
  | .mzero x0 => Sys2Proof.Machine.execMzero x0 s
  | .mq4 x0 => Sys2Proof.Machine.execMq4 x0 s
  | .srds x0 => Sys2Proof.Machine.execSrds x0 s
  | .swrs x0 => Sys2Proof.Machine.execSwrs x0 s
  | .trap x0 => Sys2Proof.Machine.execTrap x0 s
  | .eret x0 => Sys2Proof.Machine.execEret x0 s
  | .pmap x0 => Sys2Proof.Machine.execPmap x0 s
  | .pfree x0 => Sys2Proof.Machine.execPfree x0 s
  | .tlbi x0 => Sys2Proof.Machine.execTlbi x0 s
  | .haltc x0 => Sys2Proof.Machine.execHaltc x0 s
  | .dbrk x0 => Sys2Proof.Machine.execDbrk x0 s
  | .clauseIssue x0 => Sys2Proof.Machine.execClauseIssue x0 s
  | .operationComplete x0 x1 => Sys2Proof.Machine.execOperationComplete x0 x1 s
  | .timerTrap x0 => Sys2Proof.Machine.execTimerTrap x0 s
  | .sleepExpiry x0 => Sys2Proof.Machine.execSleepExpiry x0 s
  | .barrierComplete x0 x1 => Sys2Proof.Machine.execBarrierComplete x0 x1 s
  | .cbarPhaseComplete x0 => Sys2Proof.Machine.execCbarPhaseComplete x0 s
  | .waitcComplete x0 => Sys2Proof.Machine.execWaitcComplete x0 s
  | .waitbComplete x0 => Sys2Proof.Machine.execWaitbComplete x0 s
  | .mwaitWake x0 x1 => Sys2Proof.Machine.execMwaitWake x0 x1 s
  | .mwaitTimeout x0 => Sys2Proof.Machine.execMwaitTimeout x0 s
  | .watchReread x0 => Sys2Proof.Machine.execWatchReread x0 s
  | .watchTableRecheck x0 => Sys2Proof.Machine.execWatchTableRecheck x0 s
  | .haltcWake x0 => Sys2Proof.Machine.execHaltcWake x0 s
  | .stickyPriority x0 => Sys2Proof.Machine.execStickyPriority x0 s
  | .controlInterval x0 x1 => Sys2Proof.Machine.execControlInterval x0 x1 s
  | .claim x0 x1 => Sys2Proof.Machine.execClaim x0 x1 s
  | .energyUpdate x0 => Sys2Proof.Machine.execEnergyUpdate x0 s
  | .engineFire x0 => Sys2Proof.Machine.execEngineFire x0 s
  | .engineStep x0 => Sys2Proof.Machine.execEngineStep x0 s
  | .engineRetire x0 => Sys2Proof.Machine.execEngineRetire x0 s
  | .pairArrival x0 => Sys2Proof.Machine.execPairArrival x0 s
  | .cpyxSettle x0 => Sys2Proof.Machine.execCpyxSettle x0 s
  | .tokenRequest x0 x1 x2 => Sys2Proof.Machine.execTokenRequest x0 x1 x2 s
  | .persistentRequest x0 x1 x2 => Sys2Proof.Machine.execPersistentRequest x0 x1 x2 s
  | .leaseExpiry x0 => Sys2Proof.Machine.execLeaseExpiry x0 s
  | .remoteWriteDrain x0 x1 => Sys2Proof.Machine.execRemoteWriteDrain x0 x1 s
  | .appendComplete x0 x1 => Sys2Proof.Machine.execAppendComplete x0 x1 s
  | .sealComplete x0 => Sys2Proof.Machine.execSealComplete x0 s
  | .purgeAck x0 x1 => Sys2Proof.Machine.execPurgeAck x0 x1 s
  | .mtuWalkComplete x0 => Sys2Proof.Machine.execMtuWalkComplete x0 s
  | .tier3SwapOut x0 => Sys2Proof.Machine.execTier3SwapOut x0 s
  | .teamAdmit x0 x1 x2 => Sys2Proof.Machine.execTeamAdmit x0 x1 x2 s
  | .launchComplete x0 => Sys2Proof.Machine.execLaunchComplete x0 s
  | .clusterSend x0 => Sys2Proof.Machine.execClusterSend x0 s
  | .dependenceHolds x0 => Sys2Proof.Machine.execDependenceHolds x0 s
  | .stealRequest x0 x1 x2 => Sys2Proof.Machine.execStealRequest x0 x1 x2 s
  | .partialEviction x0 x1 x2 => Sys2Proof.Machine.execPartialEviction x0 x1 x2 s
  | .fenceTakesEffect x0 x1 => Sys2Proof.Machine.execFenceTakesEffect x0 x1 s
  | .demeritDecay => Sys2Proof.Machine.execDemeritDecay s
  | .maceSegment x0 x1 x2 => Sys2Proof.Machine.execMaceSegment x0 x1 x2 s
  | .replicaPlace x0 x1 => Sys2Proof.Machine.execReplicaPlace x0 x1 s
  | .checkResolve x0 => Sys2Proof.Machine.execCheckResolve x0 s
  | .timeout x0 => Sys2Proof.Machine.execTimeout x0 s
  | .healthRecordSign => Sys2Proof.Machine.execHealthRecordSign s
  | .launchByRecord x0 x1 x2 => Sys2Proof.Machine.execLaunchByRecord x0 x1 x2 s
  | .launchByRegisteredEntry x0 x1 x2 => Sys2Proof.Machine.execLaunchByRegisteredEntry x0 x1 x2 s
  | .register x0 x1 x2 => Sys2Proof.Machine.execRegister x0 x1 x2 s
  | .emptyAnEntry x0 x1 x2 => Sys2Proof.Machine.execEmptyAnEntry x0 x1 x2 s
  | .launchWindowDrop x0 x1 => Sys2Proof.Machine.execLaunchWindowDrop x0 x1 s
  | .atsInvalidateRequest x0 x1 x2 => Sys2Proof.Machine.execAtsInvalidateRequest x0 x1 x2 s
  | .pageRequestGroupResponse x0 x1 x2 => Sys2Proof.Machine.execPageRequestGroupResponse x0 x1 x2 s
  | .hostSnoop x0 x1 x2 => Sys2Proof.Machine.execHostSnoop x0 x1 x2 s
  | .backInvalidateAnswer x0 x1 => Sys2Proof.Machine.execBackInvalidateAnswer x0 x1 s
  | .hostMemoryAccess x0 x1 => Sys2Proof.Machine.execHostMemoryAccess x0 x1 s
  | .ideKm x0 => Sys2Proof.Machine.execIdeKm x0 s
  | .ideMacFailure x0 => Sys2Proof.Machine.execIdeMacFailure x0 s
  | .lockInterfaceRequest => Sys2Proof.Machine.execLockInterfaceRequest s
  | .startInterfaceRequest => Sys2Proof.Machine.execStartInterfaceRequest s
  | .stopInterfaceRequest => Sys2Proof.Machine.execStopInterfaceRequest s
  | .linkDown => Sys2Proof.Machine.execLinkDown s
  | .keyLoad x0 x1 x2 x3 x4 => Sys2Proof.Machine.execKeyLoad x0 x1 x2 x3 x4 s
  | .clearFence x0 x1 => Sys2Proof.Machine.execClearFence x0 x1 s
  | .getHealth x0 x1 x2 => Sys2Proof.Machine.execGetHealth x0 x1 x2 s
  | .spdmRequest x0 => Sys2Proof.Machine.execSpdmRequest x0 s
  | .peerPortStateChange x0 x1 => Sys2Proof.Machine.execPeerPortStateChange x0 x1 s
  | .peerCopyArrival x0 x1 x2 x3 => Sys2Proof.Machine.execPeerCopyArrival x0 x1 x2 x3 s
  | .hrLatch => Sys2Proof.Machine.execHrLatch s
  | .coldReset => Sys2Proof.Machine.execColdReset s
  | .rcvGo x0 => Sys2Proof.Machine.execRcvGo x0 s
  | .fwUpdCmd x0 => Sys2Proof.Machine.execFwUpdCmd x0 s
  | .hcGo x0 x1 => Sys2Proof.Machine.execHcGo x0 x1 s
  | .doorbell x0 x1 => Sys2Proof.Machine.execDoorbell x0 x1 s
  | .dbgResumeGroup => Sys2Proof.Machine.execDbgResumeGroup s
  | .dbgEndTeam => Sys2Proof.Machine.execDbgEndTeam s
  | .create x0 => Sys2Proof.Machine.execCreate x0 s
  | .switchout x0 => Sys2Proof.Machine.execSwitchout x0 s
  | .partitionImageSave x0 => Sys2Proof.Machine.execPartitionImageSave x0 s
  | .switchin x0 => Sys2Proof.Machine.execSwitchin x0 s
  | .reset x0 => Sys2Proof.Machine.execReset x0 s
  | .destroy x0 => Sys2Proof.Machine.execDestroy x0 s
  | .hangWatchdogExpiry x0 => Sys2Proof.Machine.execHangWatchdogExpiry x0 s
  | .saveTimerExpiry x0 => Sys2Proof.Machine.execSaveTimerExpiry x0 s
  | .drCtl x0 x1 => Sys2Proof.Machine.execDrCtl x0 x1 s
  | .drStepEnd x0 => Sys2Proof.Machine.execDrStepEnd x0 s
  | .railCtl x0 => Sys2Proof.Machine.execRailCtl x0 s
  | .railVoltageReached => Sys2Proof.Machine.execRailVoltageReached s
  | .pdCtl x0 x1 x2 => Sys2Proof.Machine.execPdCtl x0 x1 x2 s
  | .pdWake x0 x1 x2 => Sys2Proof.Machine.execPdWake x0 x1 x2 s
  | .autoidleExpiry x0 x1 => Sys2Proof.Machine.execAutoidleExpiry x0 x1 s
  | .poundStateComplete x0 x1 => Sys2Proof.Machine.execPoundStateComplete x0 x1 s
  | .dispatchAtLock x0 x1 => Sys2Proof.Machine.execDispatchAtLock x0 x1 s
  | .droopFire x0 x1 => Sys2Proof.Machine.execDroopFire x0 x1 s
  | .droopHoldExpiry x0 x1 => Sys2Proof.Machine.execDroopHoldExpiry x0 x1 s
  | .ftp64 x0 x1 x2 => Sys2Proof.Machine.execFtp64 x0 x1 x2 s
  | .ftp2m x0 x1 x2 => Sys2Proof.Machine.execFtp2m x0 x1 x2 s
  | .qBind x0 x1 => Sys2Proof.Machine.execQBind x0 x1 s
  | .slInject x0 x1 => Sys2Proof.Machine.execSlInject x0 x1 s
  | .mgmtRegisterWrite x0 x1 => Sys2Proof.Machine.execMgmtRegisterWrite x0 x1 s
  | .stationDelivery x0 => Sys2Proof.Machine.execStationDelivery x0 s
  | .uncorrectableError x0 => Sys2Proof.Machine.execUncorrectableError x0 s
  | .frozenSettingsChange => Sys2Proof.Machine.execFrozenSettingsChange s

end Sys2Proof.Machine
end

