-- ==== Sys2Proof/Machine/Step.lean ====
section
/-!
DEFINITION. One step of the machine: time passes, then an event from outside happens if one is due, else the group
whose clause is in progress issues its next instruction, else an event of the module happens.
-/

namespace Sys2Proof.Machine

open Sys2Proof

/-- The next instruction of group k is issued. -/
def issueNext (k : Nat) (s : State) : Host.Outcome State Fault Refusal :=
  match s.headSlot k with
  | none => .next (s.dropClause k)
  | some x =>
    match decodeWord x with
    | .ok i => exec i { s with cur := k }
    | .error _ => .next ({ s with cur := k }.illegalSlot k)

/-- One step. -/
def step (s : State) : Host.Outcome State Fault Refusal :=
  match s.agenda with
  | e :: rest =>
    if e.isEvent then exec e { s.tick with agenda := rest } else .next { s.tick with agenda := rest }
  | [] =>
    match s.running with
    | some k => issueNext k s.tick
    | none =>
      let e := Config.nextEvent s.freeIx
      if e.isEvent then exec e s.tick.retryHolding else .next s.tick.retryHolding

/-- The state in which the next step fetches and runs the slot whose low bits are given (log 8). -/
def State.withFetchWord (s : State) (nbits w : Nat) : State := s.placeSlot (BitVec.ofNat 160 (w % 2 ^ nbits))

end Sys2Proof.Machine
end

