-- ==== Sys2Proof/Machine/Bar.lean ====
section
/-!
DEFINITION. What the host reads: BAR0 with its identity page, launch windows, queue registers and latched snapshot, in its usual
and its recovery layout (R400, R401, R406, R416, R429, R439), and what the capability structures advertise (R397).
-/

namespace Sys2Proof.Machine

open Sys2Proof

/-- What the device advertises in its capability structures (R397). -/
structure Capabilities where
  pasidBits : Nat := 20
  msixVectors : Nat := 65
  invalidate : Bool := true
  invalidateQueue : Nat := invalidateDepth
  pageRequests : Bool := true
  virtualFunctions : Nat := 0
  translationRequests : Bool := false
  cxlType : Nat := 2
  backInvalidate : Bool := true
  hdmDecoders : Nat := 1
  hdmWays : Nat := 1
  ideStreams : Nat := 4
  linkIde : Bool := false
  cxlContainment : Bool := true
  skidMode : Bool := false
  tdispInterfaces : Nat := 1
  deriving DecidableEq, Repr, Inhabited

/-- The capabilities of the module. -/
def capabilities : Capabilities := {}

/-- The identity page, up to its last assigned byte (R439): IDFMT, SERIAL, ORDCODE "LRM-5120", FWVER and FWSTAGED. -/
def Hub.identity (h : Hub) : List Byte :=
  leBytes 4 1 ++ leBytes 4 0 ++ wordBytes 8 h.serial ++ [0x4C#8, 0x52, 0x4D, 0x2D, 0x35, 0x31, 0x32, 0x30] ++ List.replicate 8 (0 : Byte) ++
  wordBytes 8 h.fwVersion ++ wordBytes 8 (match h.staged with
    | some i => i.version
    | none => 0)

/-- Q_STAT (R406): EN, CTX, DEPTH and DROP. -/
def Queue.statWord (q : Queue) : Word :=
  BitVec.ofNat 64 (natOf q.ctx.isSome * 2 ^ 63 + (match q.ctx with
    | some c => c % 256 * 2 ^ 48
    | none => 0) + q.fifo.length % 512 * 2 ^ 32 + q.drop.toNat * 2 ^ 16)

/-- The 32 bytes of a queue's registers (R406). -/
def Queue.registers (q : Queue) : List Byte :=
  wordBytes 8 q.statWord ++ wordBytes 8 q.frCause ++ wordBytes 8 q.frSlot ++ wordBytes 8 q.frSeq

/-- The byte that the host reads at an offset of BAR0 (R400, R429). Launch windows, HR_LATCH, RCV_GO and unassigned ranges read
zero. -/
def State.barByte (s : State) (off : Nat) : Byte :=
  if off < 0x1000 then nth 0 s.hub.identity off
  else match s.hub.boot with
    | .recovery =>
      if 0x300008 ≤ off && off < 0x300010 then nth 0 (wordBytes 8 s.hub.rcvStat) (off - 0x300008)
      else if 0x1000000 ≤ off && off < 0x3000000 then Tab.read 0 s.hub.rcvBuffer (off - 0x1000000)
      else 0
    | .running =>
      if 0x200000 ≤ off && off < 0x201000 then nth 0 (s.queue ((off - 0x200000) / 64)).registers (off % 64)
      else if 0x301000 ≤ off && off < 0x302000 then (match s.hub.latched with
        | some x => nth 0 x.bytes (off - 0x301000)
        | none => 0)
      else 0

end Sys2Proof.Machine
end

