-- ==== Sys2Proof/Machine/Encoding.lean ====
section
/-!
DEFINITION. The encoding rules of every instruction in one place: what claims name when they say that an instruction is
legal and that no register of it is pending (R158 to R172, R175). Events have none.
-/

namespace Sys2Proof.Machine

open Sys2Proof

/-- The encoding rules of an instruction: its slot, its form, its own rules, and the registers it names beyond its
fields. -/
structure Encoding where
  slot : Slot
  form : Form
  ok : Group → Bool := always
  more : Group → List DestReg := noMore

/-- A scalar ALU instruction of n sources. -/
def encAlu (w : Slot) (n : Nat) : Encoding := { slot := w, form := aluForm n }

/-- A vector integer instruction that .sat may modify. -/
def encSat (w : Slot) (tys : List Ty) (n : Nat) : Encoding :=
  { slot := w, form := { vecForm tys n with mod := 1 }, ok := satOk w }

/-- A vector integer instruction without .sat. -/
def encVec (w : Slot) (tys : List Ty) (n : Nat) : Encoding := { slot := w, form := vecForm tys n }

/-- A floating-point instruction. -/
def encFp (w : Slot) (f : Form) : Encoding := { slot := w, form := f, ok := fun _ => modifiersOk w }

/-- A special-function instruction. -/
def encSfu (w : Slot) (n : Nat) (mode : Bool) : Encoding := encFp w { fpForm [.f32] n mode true true with long := true }

/-- The encoding rules of an instruction in a state; none for an event. -/
def encodingOf (s : State) : Instr → Option Encoding
  | .smov w => some (encAlu w 1)
  | .smovi w => some { slot := w, form := { tys := [.b64], d0 := .scalarReg, mod := 0x3, immOwn := true }
                       ok := fun _ => decide (w.mod ≠ 3) }
  | .sadd w => some (encAlu w 2)
  | .ssub w => some (encAlu w 2)
  | .smul w => some (encAlu w 2)
  | .smulh w => some (encAlu w 2)
  | .sdiv w => some (encAlu w 2)
  | .srem w => some (encAlu w 2)
  | .smin w => some (encAlu w 2)
  | .smax w => some (encAlu w 2)
  | .sand w => some (encAlu w 2)
  | .sor w => some (encAlu w 2)
  | .sxor w => some (encAlu w 2)
  | .sandn w => some (encAlu w 2)
  | .sshl w => some (encAlu w 2)
  | .sshr w => some (encAlu w 2)
  | .ssra w => some (encAlu w 2)
  | .sclz w => some (encAlu w 1)
  | .spopc w => some (encAlu w 1)
  | .sbfx w => some (encAlu w 2)
  | .sbfi w => some (encAlu w 3)
  | .scmp w => some
      { slot := w
        form := { tys := scalarTys, d0 := .cond, a := .scalarSrc, b := .scalarSrc
                  c := { Kinds.cond with zero := true }, mod := 0x1F }
        ok := fun _ => decide ((w.mod.extractLsb' 0 3).toNat ≤ 5) && decide ((w.mod.extractLsb' 3 2).toNat ≠ 3) &&
          (decide ((w.mod.extractLsb' 3 2).toNat = 0) == (w.c == .vec 0)) }
  | .ssel w => some { slot := w, form := { aluForm 2 with c := .cond } }
  | .slea w => some
      { slot := w, form := { aluForm 2 with tys := [.u64], c := { Kinds.scalarSrc with zero := true }, mod := 0x7 } }
  | .sld w => some { slot := w, form := { scalarMemForm with d0 := .scalarReg, long := true }, ok := scalarMemOk w false }
  | .sst w => some
      { slot := w, form := { scalarMemForm with b := { scalar := true, imm := true } }, ok := scalarMemOk w true }
  | .clog w => some { slot := w, form := { tys := [.b32], d0 := .cond, a := .cond, b := .cond, mod := 0xF } }
  | .nop w => some { slot := w, form := {}, ok := fun _ => w.imm == 0 }
  | .bra w => some { slot := w, form := branchForm }
  | .brc w => some
      { slot := w, form := { branchForm with tys := scalarTys, a := .scalarSrc, b := .scalarSrc, mod := 0x7 }
        ok := fun _ => decide ((w.mod.extractLsb' 0 3).toNat ≤ 5) }
  | .brv w => some
      { slot := w, form := { branchForm with a := .predicate, mod := 0x7 }
        ok := fun _ => decide ((w.mod.extractLsb' 0 2).toNat ≠ 3) }
  | .bri w => some { slot := w, form := indirectForm }
  | .call w => some
      { slot := w
        form := if w.mod.getLsbD 0 then { indirectForm with mod := 1 } else { branchForm with mod := 1 }
        more := fun _ => [.scalar 62] }
  | .ret w => some { slot := w, form := indirectForm }
  | .exit w => some { slot := w, form := { boundary := true } }
  | .yield w => some { slot := w, form := waitForm }
  | .sleep w => some { slot := w, form := { waitForm with a := .scalarOrImm } }
  | .bar w => some { slot := w, form := { waitForm with mod := 0x3 } }
  | .cbarArrive w => some
      { slot := w, form := { waitForm with d0 := { scalar := true, zero := true }, mod := 0x1 }
        ok := fun _ => !w.mod.getLsbD 0 }
  | .cbarWait w => some
      { slot := w, form := { waitForm with a := .scalarOrImm, mod := 0x1 }, ok := fun _ => w.mod.getLsbD 0 }
  | .waitc w => some
      { slot := w, form := { waitForm with a := .scalarOrImm, mod := 0x1F }
        ok := fun _ => decide ((w.mod.extractLsb' 0 2).toNat ≠ 3) && decide ((w.mod.extractLsb' 2 3).toNat ≤ 5) }
  | .waitb w => some
      { slot := w, form := { waitForm with a := .scalarSrc, mod := 0x1C }
        ok := fun _ => decide ((w.mod.extractLsb' 2 3).toNat ≤ 5) }
  | .klaunch w => some
      { slot := w
        form := { d0 := .scalarReg, a := .scalarOrImm, b := .scalarReg, c := { scalar := true, zero := true }
                  mod := 0x1, long := true, immOwn := true }
        ok := fun _ => w.imm.extractLsb' 6 26 == 0 }
  | .sigf w => some { slot := w, form := { tys := [.b32, .b64], a := { vec := true }, lanes := true } }
  | .ifence w => some { slot := w, form := waitForm }
  | .vmov w => some (encVec w logicTys 1)
  | .vmovi w => some
      { slot := w, form := { tys := logicTys, d0 := .vecReg, lanes := true, mod := 1, immOwn := true } }
  | .vadd w => some (encSat w intTys 2)
  | .vsub w => some (encSat w intTys 2)
  | .vmul w => some (encSat w usTys 2)
  | .vmulh w => some (encVec w [.u32, .s32] 2)
  | .vmad w => some (encSat w [.u32, .s32, .u16x2, .s16x2] 3)
  | .vmin w => some (encVec w usTys 2)
  | .vmax w => some (encVec w usTys 2)
  | .vabs w => some (encSat w [.s32, .s64, .s16x2, .s8x4] 1)
  | .vneg w => some (encSat w [.s32, .s64, .s16x2, .s8x4] 1)
  | .vand w => some (encVec w logicTys 2)
  | .vor w => some (encVec w logicTys 2)
  | .vxor w => some (encVec w logicTys 2)
  | .vnot w => some (encVec w logicTys 1)
  | .vshl w => some (encVec w shiftTys 2)
  | .vshr w => some (encVec w shiftTys 2)
  | .vsra w => some (encVec w shiftTys 2)
  | .vbfx w => some (encVec w [.u32, .s32, .b32] 2)
  | .vbfi w => some (encVec w [.u32, .s32, .b32] 3)
  | .vclz w => some (encVec w logicTys 1)
  | .vpopc w => some (encVec w logicTys 1)
  | .vsel w => some { slot := w, form := { vecForm logicTys 2 with c := .qReg } }
  | .vcmp w => some
      { slot := w
        form := { tys := scalarTys, d0 := .qReg, a := .vecSrc, b := .vecSrc, c := { Kinds.qReg with zero := true }
                  lanes := true, mod := 0x1F }
        ok := fun _ => decide ((w.mod.extractLsb' 0 3).toNat ≤ 5) && combOk w (w.mod.extractLsb' 3 2).toNat }
  | .vdot4 w => some { slot := w, form := { vecForm [.u8x4, .s8x4] 3 with mod := 0x3 } }
  | .vidx w => some (encVec w [.u32, .u64] 2)
  | .fadd w => some (encFp w (fpForm [.f32] 2 true true true))
  | .fsub w => some (encFp w (fpForm [.f32] 2 true true true))
  | .fmul w => some (encFp w (fpForm [.f32] 2 true true true))
  | .ffma w => some (encFp w (fpForm [.f32] 3 true true true))
  | .fmin w => some (encFp w (fpForm (.f32 :: packedTys) 2 false true true))
  | .fmax w => some (encFp w (fpForm (.f32 :: packedTys) 2 false true true))
  | .fcmp w => some
      { slot := w
        form := { fpForm [.f32] 2 false true true with
                  d0 := .qReg, c := { Kinds.qReg with zero := true }
                  mod := (fpForm [.f32] 2 false true true).mod ||| 0x3E00 }
        ok := fun _ => modifiersOk w && combOk w (w.mod.extractLsb' 12 2).toNat }
  | .fcls w => some
      { slot := w, form := { tys := [.f32], d0 := .qReg, a := .vecSrc, b := { imm := true }, lanes := true }
        ok := fun _ => (classMask w).isSome }
  | .frndi w => some (encFp w (fpForm [.f32] 1 true true true))
  | .fdiv w => some (encSfu w 2 true)
  | .fsqrt w => some (encSfu w 1 true)
  | .frcp w => some (encSfu w 1 false)
  | .frsq w => some (encSfu w 1 false)
  | .fex2 w => some (encSfu w 3 false)
  | .flg2 w => some (encSfu w 1 false)
  | .fsin w => some (encSfu w 1 false)
  | .fcos w => some (encSfu w 1 false)
  | .ftanh w => some (encSfu w 1 false)
  | .pkfma w => some (encFp w (fpForm packedTys 3 true true true))
  | .pkadd w => some (encFp w (fpForm packedTys 2 true true true))
  | .pkmul w => some (encFp w (fpForm packedTys 2 true true true))
  | .cvt w =>
      let n := if ((cvtSource w).getD .b32).wide then 2 else 1
      some { slot := w
             form := { vecForm cvtTys 1 with
                       b := (if cvtPack w then .vecSrc else .unused), mod := 0x7FF, na := some n, nb := some n }
             ok := fun _ => cvtOk w }
  | .cvtb w => some
      { slot := w, form := cvtbForm w (s.curSlot w)
        ok := fun g => cvtbOk (s.slotDesc g (cvtSlot w)) w g && d1Ok w g }
  | .cvte w => some
      { slot := w, form := { vecForm [.b32, .f32] 1 with mod := 0x4F }
        ok := fun g => directionOk w && slotV (s.slotDesc g (cvtSlot w)) &&
          decide (slotGeom (s.slotDesc g (cvtSlot w)) = 0) }
  | .shfl w => some { slot := w, form := { vecForm logicTys 2 with a := .vecReg, mod := 0x3 } }
  | .vrdl w => some
      { slot := w
        form := { tys := [.b32, .s32, .b64], d0 := .scalarReg, a := .vecReg, b := { scalar := true, imm := true } } }
  | .vwrl w => some
      { slot := w
        form := { tys := logicTys, d0 := .vecReg, a := { scalar := true, imm := true }
                  b := { scalar := true, imm := true } } }
  | .vred w => some
      { slot := w
        form := { tys := redTys, d0 := { vec := true, scalar := true }, a := .vecSrc, lanes := true, mod := 0xFF }
        ok := fun _ => redOk w false }
  | .vscan w => some { slot := w, form := { vecForm redTys 1 with mod := 0xFF }, ok := fun _ => redOk w true }
  | .vote w => some
      { slot := w
        form := { tys := [], d0 := (if (w.mod.extractLsb' 0 2).toNat = 0 then .scalarReg else .cond), a := .qReg
                  lanes := true, mod := 0x7 } }
  | .qmov w => some { slot := w, form := { tys := [.b32], d0 := .qReg, a := .vecSrc, lanes := true } }
  | .qlog w => some
      { slot := w, form := { tys := [.b32], d0 := .qReg, a := .qReg, b := .qReg, lanes := true, mod := 0xF } }
  | .qcnt w => some
      { slot := w, form := { tys := [.b32], d0 := .scalarReg, a := .qReg, lanes := true, mod := 0x3 }
        ok := fun _ => decide ((w.mod.extractLsb' 0 2).toNat ≠ 3) }
  | .ld w => some
      { slot := w, form := loadForm w (bitsSC ||| bitsIX ||| bitsSZ ||| bitsACQ ||| bitsSCOPE), ok := loadOk w }
  | .st w => some
      { slot := w, form := storeForm w (bitsSC ||| bitsIX ||| bitsSZ ||| bitsREL ||| bitsSCOPE), ok := storeOk w }
  | .ldp w => some
      { slot := w, form := loadForm w (bitsSC ||| bitsIX ||| bitsSZ ||| bitsACQ ||| bitsSCOPE ||| bitsRMT)
        ok := loadOk w }
  | .stp w => some
      { slot := w, form := storeForm w (bitsSC ||| bitsIX ||| bitsSZ ||| bitsREL ||| bitsSCOPE ||| bitsRMT)
        ok := storeOk w }
  | .ldv w => some
      { slot := w
        form := { blockForm w (bitsSC ||| bitsCNT ||| bitsACQ ||| bitsSCOPE) with d0 := .vecReg, long := true }
        ok := blockOk w w.d0 }
  | .stv w => some
      { slot := w, form := { blockForm w (bitsSC ||| bitsCNT ||| bitsREL ||| bitsSCOPE) with b := .vecReg }
        ok := blockOk w w.b }
  | .atom w => some { slot := w, form := atomForm w atomMods, ok := atomOk w }
  | .satom w => some
      { slot := w, form := atomForm w (atomMods ||| bitsRMT), ok := fun g => atomOk w g && decide (w.hint = 0) }
  | .apnd w => some
      { slot := w
        form := { tys := [.b32, .b64], d0 := { vec := true, scalar := true }, d1 := .scalarReg, a := .scalarReg
                  b := .vecReg, mod := bitsCNT, long := true, lanes := true, immOwn := true, n0 := some 1
                  nb := some (appendRegs w), anyIndex := true }
        ok := fun _ => decide (memCnt w ≤ 4) && decide (w.b.vecIndex % elemRegs w = 0) &&
          (isVecField w.d0 || decide (w.d0.scalarIndex = 0)) }
  | .apst w => some { slot := w, form := { pageForm with d1 := .scalarReg } }
  | .seal w => some { slot := w, form := pageForm }
  | .fence w => some
      { slot := w, form := { mod := bitsACQ ||| bitsREL ||| bitsSCOPE }
        ok := fun _ => (memAcq w || memRel w) && scopeOk w }
  | .pref w => some
      { slot := w
        form := { a := .scalarReg, c := .index, mod := bitsSC ||| bitsIX, lanes := true, hint := true, immOwn := true
                  nc := some (if memIX w = 2 then 2 else 1), anyIndex := true }
        ok := fun _ => indexOk w }
  | .cflush w => some
      { slot := w, form := { d0 := .scalarReg, a := .scalarReg, b := .scalarOrImm, mod := bitsOPC, long := true }
        ok := fun _ => decide (memOpc w ≤ 1) }
  | .ldsx w => some
      { slot := w
        form := { blockForm w (bitsSC ||| bitsCNT ||| bitsSLOT) with d0 := .vecReg, long := true, tys := [.bf16x2] }
        ok := fun g => decide (memCnt w ≤ 2) && expandable (s.slotDesc g (memSlot w)) }
  | .monw w => some
      { slot := w
        form := { tys := [.b32, .b64], a := .scalarReg, b := { scalar := true, imm := true }
                  mod := bitsOPC ||| bitsSCOPE, immOwn := true }
        ok := fun _ => decide (memOpc w ≤ 5) && decide (memScope w ≤ 5) }
  | .mwait w => some
      { slot := w, form := { boundary := true, d0 := .scalarReg, d1 := .scalarReg, a := .scalarOrImm } }
  | .trec w => some { slot := w, form := { a := .scalarReg, mod := 0x7, long := true, immOwn := true } }
  | .cpy w => some
      { slot := w, form := { copyForm with mod := 0x3FF }
        ok := fun _ => !(w.mod.getLsbD 0 && w.mod.getLsbD 1) && (w.mod.getLsbD 0 || decide (copySrc w ≤ 7)) &&
          (w.mod.getLsbD 1 || decide (copyDst w ≤ 7)) }
  | .cpyx w => some
      { slot := w, form := { copyForm with a := .scalarReg, mod := 0xFFFC }
        ok := fun _ => decide (copySrc w ≤ 7) && decide (copyDst w ≤ 7) }
  | .cpyr w => some
      { slot := w, form := { copyForm with a := .scalarReg, mod := 0x7FFC, hint := false }
        ok := fun _ => decide (copySrc w ≤ 7) && decide (copyDst w ≤ 7) &&
          (if w.mod.getLsbD 10 then decide ((w.mod.extractLsb' 11 4).toNat ≤ 8)
           else (w.mod.extractLsb' 11 4).toNat = 0) }
  | .cpyb w => some { slot := w, form := { d0 := .scalarReg } }
  | .gath w => some
      { slot := w
        form := { a := .scalarOrImm, b := { scalar := true, imm := true, zero := true }, mod := 0x7FF, hint := true } }
  | .coll w => some
      { slot := w, form := { tys := [.f32, .s32, .u32, .b32], a := .scalarOrImm, mod := 0x7FF }
        ok := fun _ => decide (w.ty ≠ .b32) || decide ((w.mod.extractLsb' 0 2).toNat = 0) }
  | .bcfg w => some { slot := w, form := { a := .scalarOrImm, b := .scalarOrImm, c := .scalarOrImm, mod := 0xF } }
  | .bput w => some { slot := w, form := basinForm }
  | .btake w => some { slot := w, form := basinForm }
  | .tcfg w => some { slot := w, form := { electedForm with a := .scalarOrImm, b := .scalarOrImm } }
  | .mma w => some
      { slot := w, form := { electedForm with mod := 0xFFFFF }
        ok := fun g => matrixSlot (s.slotDesc g (modField w 16 3)) &&
          sideOk (s.slotDesc g (modField w 16 3)) (w.mod.getLsbD 11) (modField w 7 4) &&
          (!w.mod.getLsbD 19 || s.isPaired g) }
  | .mldb w => some
      { slot := w
        form := { electedForm with a := .scalarOrImm, b := .scalarOrImm, c := .scalarOrImm, mod := 0x1FFFF }
        ok := fun g => matrixSlot (s.slotDesc g (modField w 13 3)) &&
          sideOk (s.slotDesc g (modField w 13 3)) (w.mod.getLsbD 8) (modField w 4 4) &&
          !(w.mod.getLsbD 16 && isInline (s.slotDesc g (modField w 13 3))) }
  | .msto w => some
      { slot := w, form := { electedForm with mod := 0x1FFF }
        ok := fun g => (w.mod.getLsbD 7 || !w.mod.getLsbD 12) &&
          (!w.mod.getLsbD 7 || storeSlotOk (s.slotDesc g (modField w 8 3))) }
  | .mzero w => some { slot := w, form := { electedForm with mod := 0xFF } }
  | .mq4 w => some
      { slot := w
        form := { a := { vec := true }, b := { vec := true }, c := .scalarOrImm, mod := 0x7FF
                  na := some (imageRegs (fusion (modField w 3 2)).1 s.curWidth)
                  nb := some (imageRegs (fusion (modField w 3 2)).2.1 s.curWidth), anyIndex := true }
        ok := fun g => stepSlotOk (s.slotDesc g (modField w 5 3)) && stepSlotOk (s.slotDesc g (modField w 8 3)) &&
          slotsAlike (s.slotDesc g (modField w 5 3)) (s.slotDesc g (modField w 8 3)) }
  | .srds w => some
      { slot := w
        form := { tys := if isVecField w.d0 then [.b32, .b64] else [.b64], d0 := { vec := true, scalar := true }
                  a := .specialReg, b := { scalar := true, imm := true, zero := true }, lanes := isVecField w.d0 }
        ok := fun _ => isVecField w.d0 || decide (w.a.specialIndex ≠ 0x40) }
  | .swrs w => some
      { slot := w, form := { tys := [.b64], d0 := .specialReg, a := .scalarOrImm }
        ok := fun _ => specialWritable w.d0.specialIndex }
  | .trap w => some { slot := w, form := codeForm, ok := codeOk w }
  | .eret w => some { slot := w, form := { boundary := true, mod := 1 }, more := eretRegs }
  | .pmap w => some
      { slot := w, form := { d0 := .scalarReg, d1 := .scalarReg, a := .scalarSrc, b := .scalarSrc, long := true } }
  | .pfree w => some { slot := w, form := { a := .scalarReg, mod := 0x3, long := true } }
  | .tlbi w =>
      let range : Kinds := if w.mod.getLsbD 0 then .unused else .scalarSrc
      some { slot := w
             form := { a := range, b := range, c := (if w.mod.getLsbD 5 then .scalarSrc else .unused), mod := 0x3F
                       long := w.mod.getLsbD 4 }
             ok := fun g => (w.mod.extractLsb' 1 3 = 3 || w.mod.extractLsb' 1 3 = 4) &&
               (!w.mod.getLsbD 5 || g.system) }
  | .haltc w => some
      { slot := w, form := { waitForm with d0 := .scalarReg, a := .scalarOrImm, b := .scalarOrImm } }
  | .dbrk w => some { slot := w, form := codeForm, ok := codeOk w }
  | .clauseIssue _ => none
  | .operationComplete _ _ => none
  | .timerTrap _ => none
  | .sleepExpiry _ => none
  | .barrierComplete _ _ => none
  | .cbarPhaseComplete _ => none
  | .waitcComplete _ => none
  | .waitbComplete _ => none
  | .mwaitWake _ _ => none
  | .mwaitTimeout _ => none
  | .watchReread _ => none
  | .watchTableRecheck _ => none
  | .haltcWake _ => none
  | .stickyPriority _ => none
  | .controlInterval _ _ => none
  | .claim _ _ => none
  | .energyUpdate _ => none
  | .engineFire _ => none
  | .engineStep _ => none
  | .engineRetire _ => none
  | .pairArrival _ => none
  | .cpyxSettle _ => none
  | .tokenRequest _ _ _ => none
  | .persistentRequest _ _ _ => none
  | .leaseExpiry _ => none
  | .remoteWriteDrain _ _ => none
  | .appendComplete _ _ => none
  | .sealComplete _ => none
  | .purgeAck _ _ => none
  | .mtuWalkComplete _ => none
  | .tier3SwapOut _ => none
  | .teamAdmit _ _ _ => none
  | .launchComplete _ => none
  | .clusterSend _ => none
  | .dependenceHolds _ => none
  | .stealRequest _ _ _ => none
  | .partialEviction _ _ _ => none
  | .fenceTakesEffect _ _ => none
  | .demeritDecay => none
  | .maceSegment _ _ _ => none
  | .replicaPlace _ _ => none
  | .checkResolve _ => none
  | .timeout _ => none
  | .healthRecordSign => none
  | .launchByRecord _ _ _ => none
  | .launchByRegisteredEntry _ _ _ => none
  | .register _ _ _ => none
  | .emptyAnEntry _ _ _ => none
  | .launchWindowDrop _ _ => none
  | .atsInvalidateRequest _ _ _ => none
  | .pageRequestGroupResponse _ _ _ => none
  | .hostSnoop _ _ _ => none
  | .backInvalidateAnswer _ _ => none
  | .hostMemoryAccess _ _ => none
  | .ideKm _ => none
  | .ideMacFailure _ => none
  | .lockInterfaceRequest => none
  | .startInterfaceRequest => none
  | .stopInterfaceRequest => none
  | .linkDown => none
  | .keyLoad _ _ _ _ _ => none
  | .clearFence _ _ => none
  | .getHealth _ _ _ => none
  | .spdmRequest _ => none
  | .peerPortStateChange _ _ => none
  | .peerCopyArrival _ _ _ _ => none
  | .hrLatch => none
  | .coldReset => none
  | .rcvGo _ => none
  | .fwUpdCmd _ => none
  | .hcGo _ _ => none
  | .doorbell _ _ => none
  | .dbgResumeGroup => none
  | .dbgEndTeam => none
  | .create _ => none
  | .switchout _ => none
  | .partitionImageSave _ => none
  | .switchin _ => none
  | .reset _ => none
  | .destroy _ => none
  | .hangWatchdogExpiry _ => none
  | .saveTimerExpiry _ => none
  | .drCtl _ _ => none
  | .drStepEnd _ => none
  | .railCtl _ => none
  | .railVoltageReached => none
  | .pdCtl _ _ _ => none
  | .pdWake _ _ _ => none
  | .autoidleExpiry _ _ => none
  | .poundStateComplete _ _ => none
  | .dispatchAtLock _ _ => none
  | .droopFire _ _ => none
  | .droopHoldExpiry _ _ => none
  | .ftp64 _ _ _ => none
  | .ftp2m _ _ _ => none
  | .qBind _ _ => none
  | .slInject _ _ => none
  | .mgmtRegisterWrite _ _ => none
  | .stationDelivery _ => none
  | .uncorrectableError _ => none
  | .frozenSettingsChange => none

/-- The instruction is legal in the group (check 3 of R175). -/
def Encoding.legalIn (e : Encoding) (g : Group) : Bool := legal e.form e.slot g && e.ok g

/-- The instruction names a register that is pending in the group (check 4 of R175). -/
def Encoding.pendingIn (e : Encoding) (g : Group) : Bool := hazard g (formRegs e.form e.slot ++ e.more g)

end Sys2Proof.Machine
end

