-- ==== Sys2Proof/Safety.lean ====
section
/-!
DEFINITION. What counts as a safe state in claims: memory and registers in their canonical form, hard-wired registers
not stored, the program counters at slot addresses. And the vocabulary of the claims: when a group stands ready to
execute an instruction, and what stays as it was.
-/

namespace Sys2Proof.Machine

open Sys2Proof

/-- The tables of a group hold their canonical form, and s0 and q0 have no storage (R171). -/
def Group.wf (g : Group) : Bool :=
  Tab.wf 0 g.sregs && Tab.wf 0 g.qregs && Tab.wf 0 g.vecs && Tab.wf 0 g.flags &&
  (Tab.find g.sregs 0).isNone && (Tab.find g.qregs 0).isNone

/-- Memory is canonical and every group is well formed. -/
def State.wf (s : State) : Bool :=
  Memory.wf s.mem && Tab.sortedFrom 0 s.groups && s.groups.all (fun p => p.2.wf)

/-- The instruction is legal in the group, no register that it names is pending, and its scalar guard is true (R165,
R175). -/
def State.clears (s : State) (i : Instr) (g : Group) : Bool :=
  match encodingOf s i with
  | some e => e.legalIn g && !e.pendingIn g && g.guard e.slot
  | none => false

/-- Group k, whose record is g, is the group that issues; instruction i passes checks 3 and 4 of R175 and its scalar
guard; and the group is not to end with its team. -/
structure ReadyTo (i : Instr) (s : State) (k : Nat) (g : Group) : Prop where
  current : s.cur = k
  group : s.group k = some g
  clear : s.clears i g = true
  live : g.doomed = none

/-- The state after group k has become g' and moved past the instruction w. -/
def State.retire (s : State) (k : Nat) (w : Slot) (g' : Group) : State := (s.setGroup k g').advance k w

/-- The state after group k has executed the instruction w of groups 2 and 3, whose vector result makes its record g';
an armed injection strikes the result (R362). -/
def State.vecRetire (s : State) (k : Nat) (w : Slot) (g g' : Group) : State := (s.putVec k w g g').advance k w

/-- Element i of a source in lane l, as the TY reads it (R232). -/
def State.elem (s : State) (g : Group) (w : Slot) (o : Operand) (l i : Nat) : Int :=
  readElem w.ty (elemWidth w.ty) (nth 0 (s.laneElems g w o l) i)

/-- The loop of R232: each element of the destination in each active lane gets what `value` gives for the elements of A,
B and C, with its flags. -/
def State.elementwise (s : State) (g : Group) (w : Slot) (value : Int → Int → Int → Nat × FpFlags) : Group :=
  g.eachLane w (fun l =>
    let rs := (List.range (elemCount w.ty)).map (fun i => value (s.elem g w w.a l i) (s.elem g w w.b l i) (s.elem g w w.c l i))
    (joinElems (elemWidth w.ty) (rs.map Prod.fst), rs.foldl (fun a r => a ||| r.2) 0))

/-- Instruction i of group k, issued in state s, takes the trap c in state t (R158, R161). -/
def State.trapFrom (t s : State) (k : Nat) (i : Instr) (c : Cause) : State :=
  match encodingOf s i with
  | some e => t.issueTrap s k e.form e.slot c
  | none => t

/-- What a load over lanes comes to (R102, R113, R264, R265, R381): it waits at issue while another core's persistent
request refuses its tokens; it parks when a translation is missing; it traps with no effect when every lane has failed;
else the lanes that pass read, their writes go in flight, and the group passes on or takes the trap of the lanes that
failed. `place` makes a lane's register writes from the bytes of its accesses. -/
def LoadsLanes (i : Instr) (w : Slot) (s : State) (k : Nat) (g : Group) (op : Nat) (dests : List DestReg)
    (accesses : Nat → List (Nat × Nat)) (place : Nat → List (List Byte) → List RegWrite) : Prop :=
  let r := s.routeLanes g k .read .any (lanesOf (g.lanes w) g.width) noEarly accesses
  let s1 := if memAcq w then s.acquire (g.who k) (memScope w) else s
  (r.waits s (g.who k) false = true → exec i s = .next (s.hold k)) ∧
  (r.waits s (g.who k) false = false →
    (r.needs ≠ [] → exec i s = .next (s.park k r.needs)) ∧
    (r.needs = [] → r.ready = [] → r.failed ≠ [] → s.trapWaits k = false →
      exec i s = .next (s.trapFrom s k i (laneTrap r.failed))) ∧
    ∀ x s2, r.needs = [] → (r.failed = [] ∨ r.ready ≠ []) → s1.readLogged k g op r.ready = (some x, s2) →
      let t := s2.departLoad k w dests ((x.values.map (fun v => place v.1 v.2)).flatten) x.fault
      (r.failed = [] → exec i s = .next (t.advance k w)) ∧
      (r.failed ≠ [] → s.trapWaits k = false → exec i s = .next (t.trapFrom s k i (laneTrap r.failed))))

/-- The state after group k has released at a scope, if it releases (R105). -/
def State.released (s : State) (k : Nat) (g : Group) : Option Nat → State
  | some x => s.release (g.who k) x
  | none => s

/-- What a store of group k comes to as a release, if it is one (R105, R115, R118, R386): it takes a refusal that the group
owes; it waits at issue while a release of SYS scope waits for the host to answer a snoop; else `rest` says what it does in
the state that the release leaves. -/
def Releases (i : Instr) (s : State) (k : Nat) (g : Group) (scope : Option Nat) (rest : State → Prop) : Prop :=
  match scope with
  | none => rest s
  | some x =>
    let s1 := s.release (g.who k) x
    (∀ c, g.refused = some c → s.trapWaits k = false →
      exec i s = .next ((s.modGroup k (fun y => { y with refused := none })).trapFrom s k i { c with lanes := g.q0 })) ∧
    (g.refused = none → x = 5 → s1.snoopsOwed = true → exec i s = .next (s1.hold k)) ∧
    (g.refused = none → (x ≠ 5 ∨ s1.snoopsOwed = false) → rest s1)

/-- What a store over lanes comes to (R102, R105, R113, R262, R265, R381, R386): where it is a release, what Releases says;
then it waits at issue while another core's persistent request refuses its tokens, or parks when a translation is missing;
else the lanes that pass store, and the group passes on or takes the trap of the lanes that failed. `data` gives a lane's
values. -/
def StoresLanes (i : Instr) (w : Slot) (s : State) (k : Nat) (g : Group) (accesses : Nat → List (Nat × Nat))
    (data : Nat → List (List Byte)) : Prop :=
  Releases i s k g (g.releaseScope (memRel w) (memScope w)) (fun s1 =>
    let r := s1.routeLanes g k .write .ordinary (lanesOf (g.lanes w) g.width) noEarly accesses
    let t := s1.storeAll k g ((r.ready.map (fun x => (List.zip (accesses x.lane) (List.zip x.accesses (data x.lane))).map
      (fun q => (q.1.1, q.2.1, q.2.2)))).flatten)
    (r.waits s1 (g.who k) true = true → exec i s = .next (s1.hold k)) ∧
    (r.waits s1 (g.who k) true = false →
      (r.needs ≠ [] → exec i s = .next (s1.park k r.needs)) ∧
      (r.needs = [] → r.failed = [] → exec i s = .next (t.advance k w)) ∧
      (r.needs = [] → r.failed ≠ [] → s.trapWaits k = false → exec i s = .next (t.trapFrom s k i (laneTrap r.failed)))))

/-- The die's remote-write buffer of a group holds a byte for an address (R115). -/
def State.waits (s : State) (g : Group) (a : Nat) : Prop :=
  ∃ l, l ∈ s.rwb (coreDie g.core) ∧ ∃ p, p ∈ l.bytes ∧ l.line * 128 + p.1 = a

end Sys2Proof.Machine
end

