-- ==== Sys2Proof/Certificates/Slice0/Obligations.lean ====
section
/-!
DEFINITION. The statements for the provers. Each docstring names the rules of the spec that it formalises; a statement
that rests on a choice of the model names the log entry.
-/

open Sys2Proof Sys2Proof.Machine

/-! ## General -/

/-- R164, R174: the words that the spec writes out byte by byte stand for the instructions that it names: the
canonical NOP, the pair SADD.u64 s3, s1, s2 and VADD.u32 v4, v1, v2, the FFMA, the LD and the MMA. -/
def Obligations.WrittenOutWords : Prop :=
  let plain : Slot :=
    { sf := .none, mod := 0, yld := false, reuse := 0, stall := 0, bnd := false, hint := 0, imm := 0, c := .vec 0
      b := .vec 0, a := .vec 0, d1 := .vec 0, d0 := .vec 0, lgNeg := false, lg := 0, sgNeg := false, sg := 7, ty := .b32 }
  decodeBytes [0x80, 0xC0, 0x01, 0, 0, 0, 0, 0, 0, 0, 0, 0, 0, 0, 0x80, 0, 0, 0, 0, 0] =
    .ok (.nop { plain with bnd := true }, []) ∧
  decodeBytes [0x02, 0xE8, 0x81, 0x01, 0x02, 0x80, 0x00, 0x12, 0x20, 0, 0, 0, 0, 0, 0, 0, 0, 0, 0, 0] =
    .ok (.sadd { plain with ty := .u64, d0 := .scalar 3, a := .scalar 1, b := .scalar 2 }, []) ∧
  decodeBytes [0x02, 0xC5, 0x01, 0x02, 0x00, 0x80, 0x00, 0x10, 0, 0, 0, 0, 0, 0, 0x80, 0, 0, 0, 0, 0] =
    .ok (.vadd { plain with ty := .u32, d0 := .vec 4, a := .vec 1, b := .vec 2, bnd := true }, []) ∧
  decodeBytes [0x83, 0xDD, 0x01, 0x02, 0x00, 0x80, 0x00, 0x10, 0x80, 0x01, 0, 0, 0, 0, 0, 0x04, 0x61, 0, 0, 0] =
    .ok (.ffma { plain with ty := .f32, d0 := .vec 4, a := .vec 1, b := .vec 2, c := .vec 3, stall := 4, mod := 0x61 }, []) ∧
  decodeBytes [0x80, 0xC2, 0x01, 0x04, 0, 0, 0x02, 0x02, 0, 0x01, 0, 0x02, 0, 0, 0, 0x01, 0x02, 0, 0, 0x10] =
    .ok (.ld { plain with d0 := .vec 8, a := .scalar 4, c := .vec 2, imm := 0x40, stall := 1, mod := 2, sf := .setA }, []) ∧
  decodeBytes [0x0B, 0xC3, 0x19, 0, 0, 0, 0, 0, 0, 0, 0, 0, 0, 0, 0, 0, 0x11, 0x30, 0x05, 0] =
    .ok (.mma { plain with lg := 6, mod := 0x53011 }, [])

/-- R164, R166, R169, R174, R205: decoding and encoding agree. The slot of a well-formed instruction decodes to it,
with every operand at every value, and a slot that decodes is the one slot of its instruction, which is well formed.
-/
def Obligations.DecodeAndEncodeAgree : Prop :=
  (∀ i x, i.wf = true → encode i = some x → decodeWord x = .ok i) ∧
  (∀ x i, decodeWord x = .ok i → i.wf = true ∧ encode i = some x) ∧
  ∀ i, (encode i).isSome = !i.isEvent

/-- A step runs the decoded instruction: the group in progress issues what its next slot decodes to (R151, R164), and
a slot that is no instruction raises the illegal-instruction trap (R175). The rest is the model's choice (log 9, 6,
7): an event of the agenda happens first, the running group goes before other events, any other event is a free
choice, groups that hold at issue try again before it, and time advances freely at each step. -/
def Obligations.StepRunsDecoded : Prop :=
  ∀ s : State,
    (s.tick.groups = s.groups ∧ s.tick.mem = s.mem ∧ s.now ≤ s.tick.now) ∧
    (∀ (k : Nat) (g : Group) (c : ClausePos) (a : Nat) (x : BitVec 160) (rest : List (Nat × BitVec 160)),
      s.agenda = [] → s.running = some k → s.group k = some g → g.clause = some c → c.rest = (a, x) :: rest →
      (∀ i, decodeWord x = .ok i → step s = exec i { s.tick with cur := k }) ∧
      (∀ e, decodeWord x = .error e → step s = .next ({ s.tick with cur := k }.trapAt k (trapAll g 0x01 0)))) ∧
    (∀ e rest, s.agenda = e :: rest → e.isEvent = true → step s = exec e { s.tick with agenda := rest }) ∧
    (s.agenda = [] → s.running = none → step s = (let e := Config.nextEvent s.freeIx
      cond e.isEvent (exec e s.tick.retryHolding) (.next s.tick.retryHolding)))

/-- R165, R175: the checks at issue, in their order. An illegal encoding traps with 0x01, a pending register with
0x03, and a false scalar guard only passes on; this holds for every instruction, and only events are outside it. -/
def Obligations.ChecksAtIssue : Prop :=
  ∀ (i : Instr) (s : State),
    ((encodingOf s i).isSome = !i.isEvent) ∧
    ∀ (g : Group) (e : Encoding), s.group s.cur = some g → encodingOf s i = some e →
      (e.legalIn g = false → exec i s = .next (s.trapAt s.cur (trapAll g 0x01 0))) ∧
      (e.legalIn g = true → e.pendingIn g = true → exec i s = .next (s.trapAt s.cur (trapAll g 0x03 0))) ∧
      (e.legalIn g = true → e.pendingIn g = false → g.guard e.slot = false → exec i s = .next (s.advance s.cur e.slot))

/-- R171: s0 reads zero and q0 the launch mask, and both discard writes; another scalar or lane predicate reads what
was written, a predicate only in the lanes of the group; writing one register leaves the others. -/
def Obligations.RegisterWrites : Prop :=
  ∀ (g : Group) (v : Word) (x : Lane),
    g.s 0 = 0 ∧ g.setS 0 v = g ∧ g.q 0 = BitVec.ofNat 64 (2 ^ g.width - 1) ∧ g.setQ 0 v = g ∧
    (∀ r, r ≠ 0 → Tab.wf 0 g.sregs = true →
      (g.setS r v).s r = v ∧ (∀ j, j ≠ r → (g.setS r v).s j = g.s j) ∧ (g.setS r v).vecs = g.vecs ∧
      (g.setS r v).qregs = g.qregs) ∧
    (∀ r, r ≠ 0 → Tab.wf 0 g.qregs = true →
      (g.setQ r v).q r = v &&& g.q 0 ∧ (∀ j, j ≠ r → (g.setQ r v).q j = g.q j) ∧ (g.setQ r v).sregs = g.sregs) ∧
    (∀ r l, l < 64 → Tab.wf 0 g.vecs = true →
      (g.setV r l x).v r l = x ∧ (g.setV r l x).sregs = g.sregs ∧
      ∀ r2 l2, l2 < 64 → r2 ≠ r ∨ l2 ≠ l → (g.setV r l x).v r2 l2 = g.v r2 l2)

/-- R426, R428: the end of cold reset. One group runs, on hub core 0, of width 16 with 64 vector registers, in system
mode and context 0; no partition exists, no queue is bound, every pound is in RUN with its lock open, and vault and
key slots are empty. Its address and its zero registers (log 3, 4), and that memory lists nothing, so that every byte
reads zero (log 1), are the model's choices; the state is well formed. -/
def Obligations.ResetState : Prop :=
  (∃ g, State.reset.groups = [(0, g)] ∧ g.core = 576 ∧ g.width = 16 ∧ g.vregs = 64 ∧ g.system = true ∧ g.ctx = 0 ∧
    g.handler = false ∧ g.gid = 0 ∧ g.pc = 0x100 ∧ (∀ r, g.s r = 0) ∧ (∀ r l, g.v r l = 0)) ∧
  State.reset.parts = [] ∧ State.reset.hub.queues = [] ∧ State.reset.hub.keys = [] ∧
  (∀ d, (State.reset.die d).vault = []) ∧ (∀ k, (State.reset.pound k).state = .run ∧ (State.reset.pound k).lock = false) ∧
  State.reset.mem = [] ∧ State.reset.launches = [] ∧ State.reset.wf = true

/-- Every step keeps memory in its canonical form: addresses strictly rising, and no entry that reads as an unlisted
address does (the model's form, log 1). -/
def Obligations.StepsKeepMemoryCanonical : Prop :=
  ∀ (s t : State), Memory.wf s.mem = true → step s = .next t → Memory.wf t.mem = true

/-! ## Scalar instructions -/

/-- R187: what a scalar source reads and what a scalar result writes at each operating width. R188, R189, R191, R192:
the moves, the arithmetic and the address instruction write D0 and pass on. -/
def Obligations.ScalarArithmetic : Prop :=
  (∀ (s : State) (g : Group) (w : Slot) (o : Operand),
     let v := s.scalarSource g w o
     ((w.ty = .u64 ∨ w.ty = .b64) → s.scalarInt g w o = v.toNat) ∧
     (w.ty = .s64 → s.scalarInt g w o = v.toInt) ∧
     ((w.ty = .u32 ∨ w.ty = .b32) → s.scalarInt g w o = (v.extractLsb' 0 32).toNat) ∧
     (w.ty = .s32 → s.scalarInt g w o = (v.extractLsb' 0 32).toInt) ∧
     ∀ x : Int,
       ((w.ty = .u64 ∨ w.ty = .s64 ∨ w.ty = .b64) → scalarResult w.ty x = BitVec.ofInt 64 x) ∧
       ((w.ty = .u32 ∨ w.ty = .b32) → scalarResult w.ty x = (BitVec.ofInt 32 x).zeroExtend 64) ∧
       (w.ty = .s32 → scalarResult w.ty x = (BitVec.ofInt 32 x).signExtend 64)) ∧
  (∀ (s : State) (k : Nat) (g : Group) (w : Slot),
     let x := s.scalarInt g w w.a
     let y := s.scalarInt g w w.b
     let z := s.scalarInt g w w.c
     let d := w.d0.scalarIndex
     let gives : Int → Out := fun v => .next (s.retire k w (g.setS d (scalarResult w.ty v)))
     (ReadyTo (.smov w) s k g → exec (.smov w) s = gives x) ∧
     (ReadyTo (.smovi w) s k g → exec (.smovi w) s = .next (s.retire k w (g.setS d
       (if w.mod = 0 then w.imm.zeroExtend 64 else if w.mod = 1 then w.imm.signExtend 64
        else w.imm ++ (g.s d).extractLsb' 0 32)))) ∧
     (ReadyTo (.sadd w) s k g → exec (.sadd w) s = gives (x + y)) ∧
     (ReadyTo (.ssub w) s k g → exec (.ssub w) s = gives (x - y)) ∧
     (ReadyTo (.smul w) s k g → exec (.smul w) s = gives (x * y)) ∧
     (ReadyTo (.smulh w) s k g → exec (.smulh w) s = gives (x * y / (2 ^ opWidth w.ty : Nat))) ∧
     (ReadyTo (.sdiv w) s k g → exec (.sdiv w) s = gives (if y = 0 then -1 else x.tdiv y)) ∧
     (ReadyTo (.srem w) s k g → exec (.srem w) s = gives (if y = 0 then x else x - y * x.tdiv y)) ∧
     (ReadyTo (.smin w) s k g → exec (.smin w) s = gives (if x ≤ y then x else y)) ∧
     (ReadyTo (.smax w) s k g → exec (.smax w) s = gives (if x ≤ y then y else x)) ∧
     (ReadyTo (.slea w) s k g → exec (.slea w) s = gives (x + y * (2 ^ (w.mod.toNat % 8) : Nat) + z)) ∧
     (ReadyTo (.ssel w) s k g → exec (.ssel w) s = gives (if g.c w.c.specialIndex then x else y)))

/-- R188, R189: the bitwise and shift instructions, on the patterns of the sources at the operating width. R188, R189:
counts and bit fields. `pos` and `len` are the position and the effective length of a field-control value. -/
def Obligations.ScalarLogic : Prop :=
  (∀ (s : State) (k : Nat) (g : Group) (w : Slot),
     let n := opWidth w.ty
     let a := wrapInt (s.scalarInt g w w.a) n
     let b := wrapInt (s.scalarInt g w w.b) n
     let gives : Int → Out := fun v => .next (s.retire k w (g.setS w.d0.scalarIndex (scalarResult w.ty v)))
     (ReadyTo (.sand w) s k g → exec (.sand w) s = gives (a &&& b : Nat)) ∧
     (ReadyTo (.sor w) s k g → exec (.sor w) s = gives (a ||| b : Nat)) ∧
     (ReadyTo (.sxor w) s k g → exec (.sxor w) s = gives (a ^^^ b : Nat)) ∧
     (ReadyTo (.sandn w) s k g → exec (.sandn w) s = gives (a &&& (2 ^ n - 1 - b) : Nat)) ∧
     (ReadyTo (.sshl w) s k g → exec (.sshl w) s = gives (if n ≤ b then 0 else a * 2 ^ b : Nat)) ∧
     (ReadyTo (.sshr w) s k g → exec (.sshr w) s = gives (if n ≤ b then 0 else a / 2 ^ b : Nat)) ∧
     (ReadyTo (.ssra w) s k g → exec (.ssra w) s = gives
       (if n ≤ b then (if signedOf a n < 0 then -1 else 0) else signedOf a n / (2 ^ b : Nat)))) ∧
  (∀ (s : State) (k : Nat) (g : Group) (w : Slot),
     let n := opWidth w.ty
     let a := wrapInt (s.scalarInt g w w.a) n
     let b := wrapInt (s.scalarInt g w w.b) n
     let pos := fun (fc : Int) => wrapInt fc 64 % 128
     let len := fun (fc : Int) => if n ≤ pos fc then 0 else min (wrapInt fc 64 / 256 % 128) (n - pos fc)
     let gives : Int → Out := fun v => .next (s.retire k w (g.setS w.d0.scalarIndex (scalarResult w.ty v)))
     (ReadyTo (.sclz w) s k g → ∃ h : Nat, exec (.sclz w) s = gives (n - h : Nat) ∧
       h ≤ n ∧ a < 2 ^ h ∧ ∀ j, a < 2 ^ j → h ≤ j) ∧
     (ReadyTo (.spopc w) s k g → exec (.spopc w) s =
       gives (((List.range n).filter (fun i => a.testBit i)).length : Nat)) ∧
     (ReadyTo (.sbfx w) s k g →
       let p := pos (s.scalarInt g w w.b)
       let l := len (s.scalarInt g w w.b)
       exec (.sbfx w) s = gives (if l = 0 then 0 else if w.ty.signed then signedOf (a / 2 ^ p) l
         else (a / 2 ^ p % 2 ^ l : Nat))) ∧
     (ReadyTo (.sbfi w) s k g →
       let p := pos (s.scalarInt g w w.c)
       let l := len (s.scalarInt g w w.c)
       exec (.sbfi w) s = gives (if l = 0 then s.scalarInt g w w.a
         else (a % 2 ^ p + b % 2 ^ l * 2 ^ p + a / 2 ^ (p + l) * 2 ^ (p + l) : Nat))))

/-- R190, R191: SCMP and CLOG write one condition bit, and a write to c7 is discarded. -/
def Obligations.ConditionBits : Prop :=
  ∀ (s : State) (k : Nat) (g : Group) (w : Slot),
    let x := s.scalarInt g w w.a
    let y := s.scalarInt g w w.b
    let comb := w.mod.toNat / 8 % 4
    let holds : Bool := match w.mod.toNat % 8 with
      | 0 => decide (x = y)
      | 1 => decide (x ≠ y)
      | 2 => decide (x < y)
      | 3 => decide (x ≤ y)
      | 4 => decide (x > y)
      | _ => decide (x ≥ y)
    (ReadyTo (.scmp w) s k g → exec (.scmp w) s = .next (s.retire k w (g.setC w.d0.specialIndex
      (if comb = 0 then holds else if comb = 1 then holds && g.c w.c.specialIndex
       else holds || g.c w.c.specialIndex)))) ∧
    (ReadyTo (.clog w) s k g → exec (.clog w) s = .next (s.retire k w (g.setC w.d0.specialIndex
      (w.mod.toNat.testBit (2 * natOf (g.c w.a.specialIndex) + natOf (g.c w.b.specialIndex)))))) ∧
    (∀ v, g.setC 7 v = g ∧ g.c 7 = true) ∧
    ∀ i v, i < 7 → (g.setC i v).c i = v ∧ ∀ j, j ≠ i → (g.setC i v).c j = g.c j

/-- R191: SSEL writes x to D0 when the c bit named in C, which is of kind 10 with an index from 0x000 to 0x007, is 1,
and y otherwise. CLOG, OP 0x01A with TY b32, writes the c bit that D0 names with T[2 × a + b], where D0, A and B each
name c0 to c7; T = MOD[3:0]; 0x8 is AND, 0xE OR, 0x6 XOR, 0x4 a AND NOT b, 0x7 NAND, 0x1 NOR and 0x9 XNOR, and 0xC
copies a. -/
def Obligations.SelectAndTruthTables : Prop :=
  let isCond : Operand → Prop := fun o => ∃ n, o = .special n ∧ n.toNat < 8
  (∀ (s : State) (k : Nat) (g : Group) (w : Slot),
    (ReadyTo (.ssel w) s k g → exec (.ssel w) s = .next (s.retire k w (g.setS w.d0.scalarIndex (scalarResult w.ty
      (if g.c w.c.specialIndex then s.scalarInt g w w.a else s.scalarInt g w w.b)))) ∧ isCond w.c) ∧
    (Instr.clog w).opSlot = some (0x01A#10, w) ∧
    (ReadyTo (.clog w) s k g → exec (.clog w) s = .next (s.retire k w (g.setC w.d0.specialIndex
      (w.mod.getLsbD (2 * natOf (g.c w.a.specialIndex) + natOf (g.c w.b.specialIndex))))) ∧
      w.ty = .b32 ∧ w.mod.toNat < 16 ∧ isCond w.d0 ∧ isCond w.a ∧ isCond w.b)) ∧
  ∀ a b : Bool, let pick := fun (t : Nat) => t.testBit (2 * natOf a + natOf b)
    pick 0x8 = (a && b) ∧ pick 0xE = (a || b) ∧ pick 0x6 = (a != b) ∧ pick 0x4 = (a && !b) ∧ pick 0x7 = !(a && b) ∧
    pick 0x1 = !(a || b) ∧ pick 0x9 = (a == b) ∧ pick 0xC = a

/-! ## Vector integer and logic instructions -/

/-- R71: element i of a lane's value is its bits from i × width on, and a value is put together in the same way. R95,
R232: the result of one element, wrapped to the width, or with .sat clamped to the least and the greatest value of the
TY with SAT when the clamp changed it. R226, R86: what a write over lanes does. The active lanes below the width
receive their values; every other lane of the destination, every other register and everything else of the group but
the flags of %fpstat keep what they held. -/
def Obligations.LanesWritten : Prop :=
  (∀ (ty : Ty) (x i : Nat), i < elemCount ty →
     elemCount ty * elemWidth ty = (if ty.wide then 64 else 32) ∧
     nth 0 (splitElems ty x) i = x / 2 ^ (i * elemWidth ty) % 2 ^ elemWidth ty ∧
     (x < 2 ^ (elemCount ty * elemWidth ty) → joinElems (elemWidth ty) (splitElems ty x) = x) ∧
     ∀ xs : List Nat, xs.length = elemCount ty →
       joinElems (elemWidth ty) xs / 2 ^ (i * elemWidth ty) % 2 ^ elemWidth ty = nth 0 xs i % 2 ^ elemWidth ty) ∧
  (∀ (ty : Ty) (x : Int),
     let n := elemWidth ty
     let lo : Int := if ty.signed then -(2 ^ (n - 1) : Nat) else 0
     let hi : Int := if ty.signed then (2 ^ (n - 1) : Nat) - 1 else (2 ^ n : Nat) - 1
     finishElem ty false x = ((x % (2 ^ n : Nat)).toNat, 0) ∧
     (lo ≤ x → x ≤ hi → finishElem ty true x = finishElem ty false x) ∧
     (x < lo → finishElem ty true x = ((lo % (2 ^ n : Nat)).toNat, flagSAT)) ∧
     (hi < x → finishElem ty true x = ((hi % (2 ^ n : Nat)).toNat, flagSAT))) ∧
  (∀ (g : Group) (w : Slot) (value : Nat → Nat × FpFlags),
     g.width ≤ 64 → Tab.wf 0 g.vecs = true →
     let h := g.eachLane w value
     let d := w.d0.vecIndex
     let acts := fun (l : Nat) => l < g.width ∧ (g.lanes w).getLsbD l = true
     (∀ l, acts l → if w.ty.wide then h.v64 d l = BitVec.ofNat 64 (value l).1 else h.v d l = BitVec.ofNat 32 (value l).1) ∧
     (∀ r l, l < 64 → ¬(acts l ∧ (r = d ∨ (w.ty.wide = true ∧ r = d + 1))) → h.v r l = g.v r l) ∧
     (∀ b, h.fpstat.getLsbD b = true ↔ g.fpstat.getLsbD b = true ∨ ∃ l, acts l ∧ (value l).2.getLsbD b = true) ∧
     h = { g with vecs := h.vecs, fpstat := h.fpstat })

/-- R232, R233, R234: the arithmetic instructions, element by element; R237: VDOT4 sums four byte products; R238: VIDX
adds a multiple of the lane number. -/
def Obligations.VectorArithmetic : Prop :=
  ∀ (s : State) (k : Nat) (g : Group) (w : Slot),
    let gives : (Int → Int → Int → Int) → Out := fun f => .next (s.vecRetire k w g
      (s.elementwise g w (fun x y z => finishElem w.ty (w.mod.getLsbD 0) (f x y z))))
    (ReadyTo (.vadd w) s k g → exec (.vadd w) s = gives (fun x y _ => x + y)) ∧
    (ReadyTo (.vsub w) s k g → exec (.vsub w) s = gives (fun x y _ => x - y)) ∧
    (ReadyTo (.vmul w) s k g → exec (.vmul w) s = gives (fun x y _ => x * y)) ∧
    (ReadyTo (.vmulh w) s k g → exec (.vmulh w) s = gives (fun x y _ => x * y / 2 ^ 32)) ∧
    (ReadyTo (.vmad w) s k g → exec (.vmad w) s = gives (fun x y z => x * y + z)) ∧
    (ReadyTo (.vmin w) s k g → exec (.vmin w) s = gives (fun x y _ => if x ≤ y then x else y)) ∧
    (ReadyTo (.vmax w) s k g → exec (.vmax w) s = gives (fun x y _ => if x ≤ y then y else x)) ∧
    (ReadyTo (.vabs w) s k g → exec (.vabs w) s = gives (fun x _ _ => if x < 0 then -x else x)) ∧
    (ReadyTo (.vneg w) s k g → exec (.vneg w) s = gives (fun x _ _ => -x)) ∧
    (ReadyTo (.vdot4 w) s k g →
      let aSigned := w.ty == .s8x4
      let bSigned := aSigned != w.mod.getLsbD 1
      let ty : Ty := if aSigned || bSigned then .s32 else .u32
      let byte := fun (sg : Bool) (x i : Nat) => if sg then signedOf (x / 2 ^ (8 * i)) 8 else (x / 2 ^ (8 * i) % 256 : Nat)
      exec (.vdot4 w) s = .next (s.vecRetire k w g (g.eachLane w (fun l =>
        let a := (s.laneSource g w w.a l).toNat
        let b := (s.laneSource g w w.b l).toNat
        let c := (s.laneSource g w w.c l).toNat
        finishElem ty (w.mod.getLsbD 0) (readElem ty 32 c + byte aSigned a 0 * byte bSigned b 0 +
          byte aSigned a 1 * byte bSigned b 1 + byte aSigned a 2 * byte bSigned b 2 + byte aSigned a 3 * byte bSigned b 3))))) ∧
    (ReadyTo (.vidx w) s k g → exec (.vidx w) s = .next (s.vecRetire k w g (g.eachLane w (fun l =>
      ((s.laneValue g w w.a l + l * s.laneValue g w w.b l) % 2 ^ elemWidth w.ty, 0)))))

/-- R233, R234, R236: logic, shifts, bit fields, counts, moves and select, on the patterns of the elements. `pos` and
`len` are the position and the effective length of a field-control value (R189). -/
def Obligations.VectorLogicAndMoves : Prop :=
  ∀ (s : State) (k : Nat) (g : Group) (w : Slot),
    let n := elemWidth w.ty
    let m := opWidth w.ty
    let pos := fun (fc : Int) => wrapInt fc 64 % 128
    let len := fun (fc : Int) => if m ≤ pos fc then 0 else min (wrapInt fc 64 / 256 % 128) (m - pos fc)
    let gives : (Int → Int → Int → Int) → Out := fun f => .next (s.vecRetire k w g
      (s.elementwise g w (fun x y z => (wrapInt (f x y z) n, 0))))
    (ReadyTo (.vand w) s k g → exec (.vand w) s = gives (fun x y _ => (wrapInt x n &&& wrapInt y n : Nat))) ∧
    (ReadyTo (.vor w) s k g → exec (.vor w) s = gives (fun x y _ => (wrapInt x n ||| wrapInt y n : Nat))) ∧
    (ReadyTo (.vxor w) s k g → exec (.vxor w) s = gives (fun x y _ => (wrapInt x n ^^^ wrapInt y n : Nat))) ∧
    (ReadyTo (.vnot w) s k g → exec (.vnot w) s = gives (fun x _ _ => (2 ^ n : Nat) - 1 - x)) ∧
    (ReadyTo (.vshl w) s k g → exec (.vshl w) s = gives (fun x y _ =>
      (if n ≤ wrapInt y n then 0 else wrapInt x n * 2 ^ wrapInt y n : Nat))) ∧
    (ReadyTo (.vshr w) s k g → exec (.vshr w) s = gives (fun x y _ =>
      (if n ≤ wrapInt y n then 0 else wrapInt x n / 2 ^ wrapInt y n : Nat))) ∧
    (ReadyTo (.vsra w) s k g → exec (.vsra w) s = gives (fun x y _ =>
      let v := signedOf (wrapInt x n) n
      if n ≤ wrapInt y n then (if v < 0 then -1 else 0) else v / (2 ^ wrapInt y n : Nat))) ∧
    (ReadyTo (.vbfx w) s k g → exec (.vbfx w) s = gives (fun x fc _ =>
      let v := wrapInt x m / 2 ^ pos fc
      if len fc = 0 then 0 else if w.ty.signed then signedOf v (len fc) else (v % 2 ^ len fc : Nat))) ∧
    (ReadyTo (.vbfi w) s k g → exec (.vbfi w) s = gives (fun x y fc =>
      let v := wrapInt x m
      if len fc = 0 then x
      else (v % 2 ^ pos fc + wrapInt y m % 2 ^ len fc * 2 ^ pos fc + v / 2 ^ (pos fc + len fc) * 2 ^ (pos fc + len fc) : Nat))) ∧
    (ReadyTo (.vclz w) s k g → exec (.vclz w) s = gives (fun x _ _ => (n - bitLength (wrapInt x n) : Nat))) ∧
    (ReadyTo (.vpopc w) s k g → exec (.vpopc w) s = gives (fun x _ _ =>
      (((List.range n).filter (fun i => (wrapInt x n).testBit i)).length : Nat))) ∧
    (ReadyTo (.vmov w) s k g → exec (.vmov w) s = gives (fun x _ _ => x)) ∧
    (ReadyTo (.vmovi w) s k g → exec (.vmovi w) s = .next (s.vecRetire k w g (g.eachLane w (fun _ =>
      (if !w.ty.wide then w.imm.toNat else if w.mod.getLsbD 0 then (w.imm.signExtend 64).toNat
       else w.imm.toNat, 0))))) ∧
    (ReadyTo (.vsel w) s k g → exec (.vsel w) s = .next (s.vecRetire k w g (g.eachLane w (fun l =>
      (if (g.q (w.c.specialIndex - 0x10)).getLsbD l then s.laneValue g w w.a l else s.laneValue g w w.b l, 0)))))

/-- R187: the frame of the scalar instructions that write one scalar register. Every other register, the flag counts,
the marks and the special registers of the group stay, and so do the other groups, every byte of memory, the teams,
dies, cores, launches, the hub and the page-table roots; the program counter moves on. R226, R232, R362: the frame of
the vector instructions of integers, logic and floating point that write one vector destination. When the next state
is reached every byte of memory and every other group are as before; no scalar, condition or lane-mask register, no
flag count, %sig, class counter, batch number and no other special register but %fpstat changes; no vector register
but the destination (and the next one, for a TY of 64 bits) changes; and the program counter moves on. -/
def Obligations.RegisterFrames : Prop :=
  (∀ (i : Instr) (w : Slot) (s t : State) (k : Nat) (g : Group),
     i ∈ [Instr.smov w, .smovi w, .sadd w, .ssub w, .smul w, .smulh w, .sdiv w, .srem w, .smin w, .smax w, .sand w,
       .sor w, .sxor w, .sandn w, .sshl w, .sshr w, .ssra w, .sclz w, .spopc w, .sbfx w, .sbfi w, .ssel w, .slea w] →
     ReadyTo i s k g → exec i s = .next t →
     (∀ a, t.byte a = s.byte a) ∧ (∀ j, j ≠ k → t.group j = s.group j) ∧ t.teams = s.teams ∧ t.dies = s.dies ∧
     t.cores = s.cores ∧ t.hub = s.hub ∧ t.launches = s.launches ∧ t.ptroots = s.ptroots ∧
     ∃ h, t.group k = some h ∧
       (∀ r, r ≠ w.d0.scalarIndex → h.s r = g.s r) ∧ h.s 0 = 0 ∧ h.cregs = g.cregs ∧ h.qregs = g.qregs ∧
       h.vecs = g.vecs ∧ h.flags = g.flags ∧ h.marks = g.marks ∧ h.flights = g.flights ∧ h.fpstat = g.fpstat ∧
       h.gtimer = g.gtimer ∧ h.hidden = g.hidden ∧ h.handler = g.handler ∧ h.sig = g.sig ∧ h.mxcnt = g.mxcnt ∧
       h.gacnt = g.gacnt ∧ h.cocnt = g.cocnt ∧ h.cbopen = g.cbopen ∧ h.cbdone = g.cbdone ∧
       h.pc = (if w.bnd then g.pc / 64 * 64 + 64 else if g.pc % 64 = 40 then g.pc / 64 * 64 + 64 else g.pc + 20)) ∧
  (∀ (i : Instr) (w : Slot) (s t : State) (k : Nat) (g : Group),
     i ∈ [Instr.vadd w, .vsub w, .vmul w, .vmulh w, .vmad w, .vmin w, .vmax w, .vabs w, .vneg w, .vdot4 w, .vidx w,
       .vand w, .vor w, .vxor w, .vnot w, .vshl w, .vshr w, .vsra w, .vbfx w, .vbfi w, .vclz w, .vpopc w, .vmov w,
       .vmovi w, .vsel w, .fadd w, .fsub w, .fmul w, .ffma w, .fmin w, .fmax w, .frndi w, .pkadd w, .pkmul w, .pkfma w] →
     ReadyTo i s k g → g.width ≤ 64 → Tab.wf 0 g.vecs = true → exec i s = .next t →
     (∀ a, t.byte a = s.byte a) ∧ (∀ j, j ≠ k → t.group j = s.group j) ∧ t.teams = s.teams ∧ t.cores = s.cores ∧
     t.launches = s.launches ∧ t.ptroots = s.ptroots ∧
     ∃ h, t.group k = some h ∧ h.sregs = g.sregs ∧ h.cregs = g.cregs ∧ h.qregs = g.qregs ∧ h.flags = g.flags ∧
       h.marks = g.marks ∧ h.flights = g.flights ∧ h.hidden = g.hidden ∧ h.gtimer = g.gtimer ∧ h.handler = g.handler ∧
       h.sig = g.sig ∧ h.mxcnt = g.mxcnt ∧ h.gacnt = g.gacnt ∧ h.cocnt = g.cocnt ∧ h.cbopen = g.cbopen ∧ h.cbdone = g.cbdone ∧
       (∀ r l, l < 64 → r ≠ w.d0.vecIndex → (w.ty.wide = true → r ≠ w.d0.vecIndex + 1) → h.v r l = g.v r l) ∧
       h.pc = (if w.bnd then g.pc / 64 * 64 + 64 else if g.pc % 64 = 40 then g.pc / 64 * 64 + 64 else g.pc + 20))

/-! ## Floating point -/

/-- R239: the three steps by which a floating-point element is read. `i` is the place of its negation bit in MOD.
R239, R240, R243, R246: the arithmetic of group 3 forms the exact result, rounds it once in the mode, and flushes a
subnormal result under .ftz; FMIN, FMAX and FRNDI give codes and raise no flag. R190, R235, R241, R242, R257: the
instructions that write a lane predicate: the conditions of VCMP and FCMP, the class bits of FCLS, and the bits that
QMOV takes from each kind of source. Active lanes get their new bit, the others keep theirs, and q0 discards the
write. That QMOV reads IMM sign-extended is the model's choice (log 98). -/
def Obligations.FloatArithmetic : Prop :=
  (∀ (w : Slot) (code : Nat), code < 2 ^ 32 →
     let c1 := if w.mod.getLsbD 2 && fp32.isSubnormal code then code / 2 ^ 31 * 2 ^ 31 else code
     let c2 := if w.mod.getLsbD 4 then c1 % 2 ^ 31 else c1
     readFp fp32 w 3 code = (if w.mod.getLsbD 3 then (c2 + 2 ^ 31) % 2 ^ 32 else c2) ∧
     (fp32.isSubnormal code = true ↔ code % 2 ^ 31 ≠ 0 ∧ code % 2 ^ 31 < 2 ^ 23)) ∧
  (∀ (s : State) (k : Nat) (g : Group) (w : Slot),
     let f := fmtOf w.ty
     let v := decodeFloat f
     let down := decide (fpMode w = .rdn)
     let codes : (Nat → Nat → Nat → Nat × FpFlags) → Out := fun op => .next (s.vecRetire k w g (g.fpLanes s w op))
     let rounded : (Nat → Nat → Nat → Exact × FpFlags) → Out := fun op => codes (fun x y z =>
       let r := flushResult f (w.mod.getLsbD 2) (round f (fpMode w) (op x y z).1)
       (r.code, r.flags ||| (op x y z).2))
     (ReadyTo (.fadd w) s k g → exec (.fadd w) s = rounded (fun x y _ => (v x).add down (v y))) ∧
     (ReadyTo (.fsub w) s k g → exec (.fsub w) s = rounded (fun x y _ => (v x).add down (v y).negate)) ∧
     (ReadyTo (.fmul w) s k g → exec (.fmul w) s = rounded (fun x y _ => (v x).mul (v y))) ∧
     (ReadyTo (.ffma w) s k g → exec (.ffma w) s = rounded (fun x y z => (v x).fma down (v y) (v z))) ∧
     (ReadyTo (.pkadd w) s k g → exec (.pkadd w) s = rounded (fun x y _ => (v x).add down (v y))) ∧
     (ReadyTo (.pkmul w) s k g → exec (.pkmul w) s = rounded (fun x y _ => (v x).mul (v y))) ∧
     (ReadyTo (.pkfma w) s k g → exec (.pkfma w) s = rounded (fun x y z => (v x).fma down (v y) (v z))) ∧
     (ReadyTo (.fmin w) s k g → exec (.fmin w) s = codes (fun x y _ => (fminNum f x y, 0))) ∧
     (ReadyTo (.fmax w) s k g → exec (.fmax w) s = codes (fun x y _ => (fmaxNum f x y, 0))) ∧
     (ReadyTo (.frndi w) s k g → exec (.frndi w) s = codes (fun x _ _ =>
       ((round fp32 .rne (roundIntegral (fpMode w) (decodeFloat fp32 x))).code, 0)))) ∧
  (∀ (s : State) (k : Nat) (g : Group) (w : Slot),
     let d := w.d0.specialIndex - 0x10
     let old := fun (o : Operand) (l : Nat) => (g.q (o.specialIndex - 0x10)).getLsbD l
     let combined := fun (comb : Nat) (r : Bool) (l : Nat) =>
       if comb = 1 then r && old w.c l else if comb = 2 then r || old w.c l else r
     let gives : (Nat → Bool) → Out := fun bitOf => .next (s.retire k w (g.eachQ w bitOf))
     let x := fun (l : Nat) => readElem w.ty (elemWidth w.ty) (s.laneValue g w w.a l)
     let y := fun (l : Nat) => readElem w.ty (elemWidth w.ty) (s.laneValue g w w.b l)
     let fx := fun (l : Nat) => decodeFloat fp32 (readFp fp32 w 3 (s.laneSource g w w.a l).toNat)
     let fy := fun (l : Nat) => decodeFloat fp32 (readFp fp32 w 5 (s.laneSource g w w.b l).toNat)
     let holds : Int → Int → Bool := fun a b => match (w.mod.extractLsb' 0 3).toNat with
       | 0 => decide (a = b)
       | 1 => decide (a ≠ b)
       | 2 => decide (a < b)
       | 3 => decide (a ≤ b)
       | 4 => decide (a > b)
       | _ => decide (a ≥ b)
     let fholds : Exact → Exact → Bool := fun a b =>
       let nan := a.isNan || b.isNan
       match (w.mod.extractLsb' 9 3).toNat with
       | 0 => a.eq b
       | 1 => !a.eq b
       | 2 => !nan && a.lt b
       | 3 => !nan && !b.lt a
       | 4 => !nan && b.lt a
       | 5 => !nan && !a.lt b
       | 6 => !nan
       | _ => nan
     let cls : Nat → Nat := fun c => match decodeFloat fp32 c with
       | .nan => 8
       | .inf neg => if neg then 0 else 7
       | .fin neg m _ _ =>
         if m = 0 then (if neg then 3 else 4)
         else if c % 2 ^ 31 < 2 ^ 23 then (if neg then 2 else 5)
         else (if neg then 1 else 6)
     (ReadyTo (.vcmp w) s k g → exec (.vcmp w) s = gives (fun l =>
       combined (w.mod.extractLsb' 3 2).toNat (holds (x l) (y l)) l)) ∧
     (ReadyTo (.fcmp w) s k g → exec (.fcmp w) s = gives (fun l =>
       combined (w.mod.extractLsb' 12 2).toNat (fholds (fx l) (fy l)) l)) ∧
     (ReadyTo (.fcls w) s k g → ∃ mask, w.b = .imm mask ∧ exec (.fcls w) s = gives (fun l =>
       mask.toNat.testBit (cls (s.laneSource g w w.a l).toNat))) ∧
     (ReadyTo (.qmov w) s k g →
       (∀ r, w.a = .vec r → exec (.qmov w) s = gives (fun l => decide (g.v r.toNat l ≠ 0))) ∧
       (w.a = .special 0x40 → exec (.qmov w) s = gives (fun l => decide (l ≠ 0))) ∧
       (∀ r, w.a = .scalar r → exec (.qmov w) s = gives (fun l => (g.s r.toNat).getLsbD l)) ∧
       (∀ v, w.a = .imm v → exec (.qmov w) s = gives (fun l =>
         (if v = 0x200 then w.imm.signExtend 64 else v.signExtend 64).getLsbD l)) ∧
       (∀ n, w.a = .special n → n.toNat < 8 → exec (.qmov w) s = gives (fun _ => g.c n.toNat)) ∧
       (∀ n, w.a = .special n → 0x10 ≤ n.toNat → n.toNat < 0x20 → exec (.qmov w) s = gives (fun l => (g.q (n.toNat - 0x10)).getLsbD l)) ∧
       (∀ n, w.a = .special n → 0x20 ≤ n.toNat → n ≠ 0x40 → exec (.qmov w) s = gives (fun l => (s.special g n.toNat 0).getLsbD l))) ∧
     (Exact.zero true).eq (Exact.zero false) = true ∧
     (ReadyTo (.qlog w) s k g → exec (.qlog w) s = gives (fun l =>
       w.mod.getLsbD (2 * natOf (old w.a l) + natOf (old w.b l)))) ∧
     ∀ bitOf : Nat → Bool, g.width ≤ 64 → Tab.wf 0 g.qregs = true → d < 16 → ∀ l, l < g.width →
       ((g.eachQ w bitOf).q d).getLsbD l =
         (if d = 0 then true else if (g.lanes w).getLsbD l then bitOf l else (g.q d).getLsbD l))

/-- R82: a value that the format represents rounds to its own code in every mode, and raises no flag. -/
def Obligations.RepresentableRoundsToItself : Prop :=
  ∀ (f : Fmt) (m : Mode) (code : Nat),
    f = fp32 ∨ f = bf16 ∨ f = fp16 → code < 2 ^ f.width → (decodeFloat f code).isNan = false →
    round f m (decodeFloat f code) = { code := code, flags := 0 }

/-- R93, R244, R245: a special-function instruction leaves D0 as it is, makes it pending, raises its flag's count by
one, and has its results in flight: one for each active lane, read with the source modifiers, computed, and flushed
under .ftz. R93: the special inputs of its table. FRCP, FRSQ, FLG2, FSQRT, FSIN, FCOS and FTANH on zeros, infinities
and negative values, with their flags. -/
def Obligations.SpecialFunctions : Prop :=
  (∀ (s : State) (k : Nat) (g : Group) (w : Slot),
     let departs : (Nat → Nat → Nat → Nat × FpFlags) → Out := fun op =>
       let each := fun (l : Nat) =>
         let r := op (readFp fp32 w 3 (s.laneSource g w w.a l).toNat) (readFp fp32 w 5 (s.laneSource g w w.b l).toNat)
           (readFp fp32 w 7 (s.laneSource g w w.c l).toNat)
         let x := flushResult fp32 (w.mod.getLsbD 2) { code := r.1, flags := r.2 }
         (RegWrite.vec w.d0.vecIndex l (BitVec.ofNat 32 x.code), x.flags)
       let rs := (lanesOf (g.lanes w) g.width).map each
       .next (s.vecRetire k w g (g.depart w [.vec w.d0.vecIndex] (rs.map Prod.fst) (rs.foldl (fun a r => a ||| r.2) 0)
         none .special))
     (ReadyTo (.fdiv w) s k g → exec (.fdiv w) s = departs (fun x y _ =>
       roundResult fp32 (fpMode w) false ((decodeFloat fp32 x).div (decodeFloat fp32 y)))) ∧
     (ReadyTo (.fsqrt w) s k g → exec (.fsqrt w) s = departs (fun x _ _ => fsqrtCode (fpMode w) x)) ∧
     (ReadyTo (.frcp w) s k g → exec (.frcp w) s = departs (fun x _ _ => frcp x)) ∧
     (ReadyTo (.frsq w) s k g → exec (.frsq w) s = departs (fun x _ _ => frsq x)) ∧
     (ReadyTo (.fex2 w) s k g → exec (.fex2 w) s = departs (fun x y z =>
       fex2 (decodeFloat fp32 x) (decodeFloat fp32 y) (decodeFloat fp32 z))) ∧
     (ReadyTo (.flg2 w) s k g → exec (.flg2 w) s = departs (fun x _ _ => flg2 x)) ∧
     (ReadyTo (.fsin w) s k g → exec (.fsin w) s = departs (fun x _ _ => fsin x)) ∧
     (ReadyTo (.fcos w) s k g → exec (.fcos w) s = departs (fun x _ _ => fcos x)) ∧
     (ReadyTo (.ftanh w) s k g → exec (.ftanh w) s = departs (fun x _ _ => ftanh x))) ∧
  (frcp 0x00000000 = (0x7F800000, flagDZ) ∧ frcp 0x80000000 = (0xFF800000, flagDZ) ∧
   frcp 0x7F800000 = (0, 0) ∧ frcp 0xFF800000 = (0x80000000, 0) ∧
   frsq 0x00000000 = (0x7F800000, flagDZ) ∧ frsq 0x80000000 = (0xFF800000, flagDZ) ∧ frsq 0x7F800000 = (0, 0) ∧
   flg2 0x00000000 = (0xFF800000, flagDZ) ∧ flg2 0x80000000 = (0xFF800000, flagDZ) ∧ flg2 0x7F800000 = (0x7F800000, 0) ∧
   fsin 0x00000000 = (0, 0) ∧ fsin 0x80000000 = (0x80000000, 0) ∧
   ftanh 0x7F800000 = (0x3F800000, 0) ∧ ftanh 0xFF800000 = (0xBF800000, 0) ∧
   (∀ m, fsqrtCode m 0x80000000 = (0x80000000, 0)) ∧
   (∀ x : Nat, x = 0x7F800000 ∨ x = 0xFF800000 → fsin x = (fp32.nanCode, flagIV) ∧ fcos x = (fp32.nanCode, flagIV)) ∧
   ∀ x : Nat, 0x80000000 < x → x ≤ 0xFF800000 →
     (∀ m, fsqrtCode m x = (fp32.nanCode, flagIV)) ∧ frsq x = (fp32.nanCode, flagIV) ∧ flg2 x = (fp32.nanCode, flagIV))

/-- R158, R159, R229: the life of a long-latency operation. At issue its flag counts one more, each destination but s0
is pending and no register has changed; when it completes without a fault its writes take effect and the count falls
by one, and it is in flight no more. R86, R158, R264: what landing does. Without a deferred fault the flight's writes
and FP flags take effect; with one nothing is written and the fault is owed; either way its flag falls by one and the
flight is gone. -/
def Obligations.LongLatencyLife : Prop :=
  (∀ (g : Group) (w : Slot) (dests : List DestReg) (writes : List RegWrite) (fp : BitVec 7) (task : Task),
     Tab.wf 0 g.flags = true →
     (∀ x, x ∈ g.flights → x.op < g.nextOp) →
     let h := g.depart w dests writes fp none task
     let f := g.flagOf w
     h.flag f = g.flag f + 1 ∧ (∀ j, j ≠ f → h.flag j = g.flag j) ∧
     h.sregs = g.sregs ∧ h.vecs = g.vecs ∧ h.qregs = g.qregs ∧ h.cregs = g.cregs ∧ h.fpstat = g.fpstat ∧ h.pc = g.pc ∧
     (∀ r, r ∈ dests → r ≠ .scalar 0 → ∃ m, m ∈ h.marks ∧ m.reg = r ∧ m.flag = f ∧ m.slot = g.pc) ∧
     ∃ x, h.flights = g.flights ++ [x] ∧ x.writes = writes ∧ x.fp = fp ∧ x.flag = f ∧ x.slot = g.pc ∧ x.fault = none ∧
       x.task = task ∧
       let e := h.land x
       e.flag f = g.flag f ∧ e.flights = g.flights ∧ e.fpstat = g.fpstat ||| fp ∧
       (∀ r, e.s r = (writes.foldl Group.apply g).s r) ∧ ∀ r l, e.v r l = (writes.foldl Group.apply g).v r l) ∧
  (∀ (g : Group) (f : Flight),
     (f.fault = none → f.writes = [] → (g.land f).fpstat = g.fpstat ||| f.fp ∧ (g.land f).owed = g.owed) ∧
     (∀ c, f.fault = some c → (g.land f).owed = g.owed ++ [{ flag := f.flag, slot := f.slot, cause := c }] ∧
       (g.land f).fpstat = g.fpstat ∧ (∀ d, (g.land f).s d = g.s d)) ∧
     (∀ d v, f.fault = none → f.writes = [.scalar d v] → ∀ j, (g.land f).s j = (g.setS d v).s j) ∧
     (∀ x ∈ (g.land f).flights, x.op ≠ f.op ∧ x ∈ g.flights) ∧
     (g.wf = true → f.writes = [] → f.flag < 12 → (g.land f).flag f.flag = g.flag f.flag - 1))

/-- R83, R248 to R251: the conversions, lane by lane. CVTE.enc and CVTB.enc count the stochastic draws: whenever a
lane is active in the stochastic mode, which is the model's reading (log 68). -/
def Obligations.Conversions : Prop :=
  ∀ (s : State) (k : Nat) (g : Group) (w : Slot),
    let d := s.slotDesc g (w.mod.extractLsb' 0 3).toNat
    let acts := lanesOf (g.lanes w) g.width
    let ftz := w.mod.getLsbD 6
    (ReadyTo (.cvt w) s k g → ∃ src, Ty.decode (w.mod.extractLsb' 0 4) = some src ∧
      exec (.cvt w) s = .next (s.retire k w (g.eachLane w (s.cvtLane g w src)))) ∧
    (ReadyTo (.cvte w) s k g → w.mod.getLsbD 3 = true → exec (.cvte w) s = .next (s.retire k w (g.eachLane w (fun l =>
      roundResult fp32 .rne ftz (decodeElem d (s.laneSource g w w.a l).toNat, 0))))) ∧
    (ReadyTo (.cvte w) s k g → w.mod.getLsbD 3 = false → exec (.cvte w) s = .next (s.retire k w ((g.eachLane w (fun l =>
      encodeElem d (s.slotMode g d g.stoch l) ftz (s.laneFp32 g w ftz w.a l))).countStochastic d (!acts.isEmpty)))) ∧
    (ReadyTo (.cvtb w) s k g → w.mod.getLsbD 3 = true →
      exec (.cvtb w) s = .next (s.retire k w (g.eachLane w (s.decodeLane w g d)))) ∧
    (ReadyTo (.cvtb w) s k g → w.mod.getLsbD 3 = false → exec (.cvtb w) s = .next (s.retire k w
      (((List.range (g.width / blockSize (slotGeom d))).foldl (s.encodeBlock w g d (g.lanes w)) g).countStochastic d
        (decide (g.lanes w ≠ 0)))))

/-- R252 to R257: SHFL, VRDL, VWRL, VRED, VSCAN, VOTE and QCNT. VRDL and VWRL name the lane by B at the width of the
TY and trap on one at or above the width. -/
def Obligations.CrossLane : Prop :=
  ∀ (s : State) (k : Nat) (g : Group) (w : Slot),
    let b := (s.scalarSource g w w.b).toNat
    let lam := if w.ty.wide then b else b % 2 ^ 32
    let acts := lanesOf (g.lanes w) g.width
    let q := fun (l : Nat) => (g.q (w.a.specialIndex - 0x10)).getLsbD l
    (ReadyTo (.shfl w) s k g → exec (.shfl w) s = .next (s.retire k w (g.eachLane w (fun l =>
      let m := s.laneValue g w w.b l % 2 ^ 32
      let j := match w.mod.toNat % 4 with
        | 0 => m % g.width
        | 1 => if m ≤ l then l - m else l
        | 2 => if l + m < g.width then l + m else l
        | _ => if l ^^^ m < g.width then l ^^^ m else l
      (s.laneValue g w w.a j, 0))))) ∧
    (ReadyTo (.vrdl w) s k g → lam < g.width → exec (.vrdl w) s = .next (s.retire k w (g.setS w.d0.scalarIndex
      (if w.ty = .b64 then g.v64 w.a.vecIndex lam else if w.ty = .s32 then (g.v w.a.vecIndex lam).signExtend 64
       else (g.v w.a.vecIndex lam).zeroExtend 64)))) ∧
    (ReadyTo (.vwrl w) s k g → lam < g.width → exec (.vwrl w) s = .next (s.retire k w
      (g.setLane w.ty w.d0.vecIndex lam (s.scalarSource g w w.a).toNat))) ∧
    (ReadyTo (.vrdl w) s k g → g.width ≤ lam → exec (.vrdl w) s = .next (s.trapAt k (trapAll g 0x07 0))) ∧
    (ReadyTo (.vwrl w) s k g → g.width ≤ lam → exec (.vwrl w) s = .next (s.trapAt k (trapAll g 0x07 0))) ∧
    (ReadyTo (.vred w) s k g → ∀ i, w.d0 = .scalar i → exec (.vred w) s = .next (s.retire k w ((g.setS i.toNat
      (if w.ty.wide then BitVec.ofNat 64 (s.reduce g w).1
       else if w.ty = .s32 then (BitVec.ofNat 32 (s.reduce g w).1).signExtend 64
       else (BitVec.ofNat 32 (s.reduce g w).1).zeroExtend 64)).raise (s.reduce g w).2))) ∧
    (ReadyTo (.vred w) s k g → ∀ r, w.d0 = .vec r → exec (.vred w) s = .next (s.retire k w
      ((g.eachLane w (fun _ => ((s.reduce g w).1, 0))).raise (s.reduce g w).2))) ∧
    (ReadyTo (.vscan w) s k g → w.ty ≠ .f32 → exec (.vscan w) s = .next (s.retire k w
      ((scanInt w w.ty (redOp w) (w.mod.getLsbD 3) (w.mod.getLsbD 4) (intIdentity w.ty (redOp w))
        (acts.map (fun l => (l, s.laneInt g w l)))).foldl
          (fun a r => (a.setLane w.ty w.d0.vecIndex r.1 r.2.1).raise r.2.2) g))) ∧
    (ReadyTo (.vscan w) s k g → w.ty = .f32 → exec (.vscan w) s = .next (s.retire k w
      ((scanFp (redOp w) (modeOf (w.mod.extractLsb' 5 2).toNat) (w.mod.getLsbD 7) (w.mod.getLsbD 4)
        (fpIdentity (redOp w)) (acts.map (fun l => (l, (s.laneSource g w w.a l).toNat)))).foldl
          (fun a r => (a.setLane w.ty w.d0.vecIndex r.1 r.2.1).raise r.2.2) g))) ∧
    (ReadyTo (.vote w) s k g →
      let set := g.lanes w &&& (if w.mod.getLsbD 2 then ~~~(g.q (w.a.specialIndex - 0x10)) else g.q (w.a.specialIndex - 0x10))
      exec (.vote w) s = .next (s.retire k w (match w.mod.toNat % 4 with
        | 0 => g.setS w.d0.scalarIndex set
        | 1 => g.setC w.d0.specialIndex (decide (set ≠ 0))
        | 2 => g.setC w.d0.specialIndex (decide (set = g.lanes w))
        | _ => g.setC w.d0.specialIndex (decide (set = 0) || decide (set = g.lanes w))))) ∧
    (ReadyTo (.qcnt w) s k g → exec (.qcnt w) s = .next (s.retire k w (g.setS w.d0.scalarIndex (BitVec.ofNat 64
      (match w.mod.toNat % 4 with
        | 0 => (acts.filter q).length
        | 1 => ((acts.filter q).head?).getD g.width
        | _ => ((acts.filter q).getLast?).getD g.width)))))

/-! ## Memory -/

/-- R193 to R195: SLD and SST. The address is A + C + IMM modulo 2^64; a missing translation parks the group, a fault
of the access traps, an access whose tokens another core's persistent request refuses (R113) waits at issue, which is
the model's choice (log 29); else SLD puts one register write in flight and SST stores, after a release when it is
one. -/
def Obligations.ScalarLoadsAndStores : Prop :=
  ∀ (s : State) (k : Nat) (g : Group) (w : Slot),
    let who := g.who k
    let n := 2 ^ (w.mod.toNat % 4)
    let scope := (w.mod.extractLsb' 4 3).toNat
    let ordered := w.mod.getLsbD 3
    let va := g.scalarAddress w
    let d := w.d0.scalarIndex
    let s1 := if ordered then s.acquire who scope else s
    let index : Word := match w.c with
      | .scalar i => g.s i.toNat
      | _ => 0
    (va < 2 ^ 64 ∧ BitVec.ofNat 64 va = g.s w.a.scalarIndex + index + w.imm.signExtend 64) ∧
    (ReadyTo (.sld w) s k g →
      (∀ needs, s.routeOne who g.walkFaults .read .any va n = .miss needs → exec (.sld w) s = .next (s.park k needs)) ∧
      (∀ c a, s.routeOne who g.walkFaults .read .any va n = .fault c a → s.trapWaits k = false →
        exec (.sld w) s = .next (s.trapFrom s k (.sld w) (trapAll g c (BitVec.ofNat 64 a)))) ∧
      (∀ ps, s.routeOne who g.walkFaults .read .any va n = .ok ps → (oneReady ps).waits s who false = true →
        exec (.sld w) s = .next (s.hold k)) ∧
      (∀ ps x t, s.routeOne who g.walkFaults .read .any va n = .ok ps → (oneReady ps).waits s who false = false →
        s1.readLogged k g 0x018 [{ lane := 0, accesses := [ps] }] = (some x, t) →
        let bs := (x.values.map (fun y => y.2.flatten)).flatten
        exec (.sld w) s = .next ((t.departLoad k w [.scalar d] [.scalar d
          (if w.mod.getLsbD 2 then BitVec.ofInt 64 (signedOf (leNat bs) (8 * bs.length)) else BitVec.ofNat 64 (leNat bs))]
          x.fault).advance k w))) ∧
    (ReadyTo (.sst w) s k g → Releases (.sst w) s k g (g.releaseScope ordered scope) (fun s2 =>
      (∀ needs, s2.routeOne who g.walkFaults .write .ordinary va n = .miss needs →
        exec (.sst w) s = .next (s2.park k needs)) ∧
      (∀ c a, s2.routeOne who g.walkFaults .write .ordinary va n = .fault c a → s.trapWaits k = false →
        exec (.sst w) s = .next (s2.trapAt k (trapAll g c (BitVec.ofNat 64 a)))) ∧
      (∀ ps, s2.routeOne who g.walkFaults .write .ordinary va n = .ok ps → (oneReady ps).waits s2 who true = true →
        exec (.sst w) s = .next (s2.hold k)) ∧
      ∀ ps, s2.routeOne who g.walkFaults .write .ordinary va n = .ok ps → (oneReady ps).waits s2 who true = false →
        exec (.sst w) s = .next ((s2.storeAll k g [(va, ps, wordBytes n (s2.scalarSource g w w.b))]).advance k w)))

/-- R105, R113, R259 to R261, R265, R266, R277: the loads over lanes, LD, LDV and LDSX. That an access waits at issue
while another core's persistent request refuses it tokens is the model's choice (log 29). R105, R113, R260, R262,
R265, R266, R386: the stores over lanes, ST and STV. A store waits at issue as a load does (log 29), and one in a
release form after the release. R260: the address of a lane is base + index × 2^SC + IMM modulo 2^64, the index read
as MOD says. -/
def Obligations.LaneAccesses : Prop :=
  (∀ (s : State) (k : Nat) (g : Group) (w : Slot),
     let d := w.d0.vecIndex
     let e := if w.ty.wide then 2 else 1
     let count := 2 ^ memCnt w
     (ReadyTo (.ld w) s k g → LoadsLanes (.ld w) w s k g 0x280 (vecDests d (valueRegs w))
       (fun l => [(g.laneAddress w l, accessSize w)]) (fun l bs => loadWrites w d l bs.flatten)) ∧
     (ReadyTo (.ldv w) s k g → LoadsLanes (.ldv w) w s k g 0x284 (vecDests d (count * e))
       (fun l => (List.range count).map (fun r => ((g.laneAddress w 0 + (r * g.width + l) * (4 * e)) % 2 ^ 64, 4 * e)))
       (fun l vs => ((List.range count).map (fun r => (List.range e).map (fun j =>
         RegWrite.vec (d + r * e + j) l (BitVec.ofNat 32 (leNat (((nth [] vs r).drop (4 * j)).take 4)))))).flatten)) ∧
     (ReadyTo (.ldsx w) s k g → LoadsLanes (.ldsx w) w s k g 0x28E (vecDests d count)
       (fun l => ((List.range count).map (g.chunkAccesses w l)).flatten)
       (fun l vs => (List.range count).map (fun r => RegWrite.vec (d + r) l
         (expandPair (s.slotDesc g (memSlot w)) (leNat (nth [] vs (2 * r))) (leNat (nth [] vs (2 * r + 1)))))))) ∧
  (∀ (s : State) (k : Nat) (g : Group) (w : Slot),
     let e := if w.ty.wide then 2 else 1
     let count := 2 ^ memCnt w
     (ReadyTo (.st w) s k g → StoresLanes (.st w) w s k g (fun l => [(g.laneAddress w l, accessSize w)])
       (fun l => [s.storeValue g w l (accessSize w)])) ∧
     (ReadyTo (.stv w) s k g → StoresLanes (.stv w) w s k g
       (fun l => (List.range count).map (fun r => ((g.laneAddress w 0 + (r * g.width + l) * (4 * e)) % 2 ^ 64, 4 * e)))
       (fun l => (List.range count).map (fun r => g.regBytes (w.b.vecIndex + r * e) e l)))) ∧
  (∀ (g : Group) (w : Slot) (l : Nat),
     let index : Word := match w.c with
       | .vec r => if memIX w = 2 then g.v64 r.toNat l else if memIX w = 1 then (g.v r.toNat l).signExtend 64
           else (g.v r.toNat l).zeroExtend 64
       | .scalar i => g.s i.toNat
       | _ => 0
     g.laneAddress w l < 2 ^ 64 ∧
     BitVec.ofNat 64 (g.laneAddress w l) =
       g.s w.a.scalarIndex + index * BitVec.ofNat 64 (2 ^ (w.mod.toNat % 8)) + w.imm.signExtend 64)

/-- R102, R264, R381: the checks on the lanes. A lane all of whose accesses pass is ready; a lane with a missing
translation is among the needs; any other lane has failed with its first fault. -/
def Obligations.LaneChecks : Prop :=
  ∀ (s : State) (g : Group) (k : Nat) (kind : AccessKind) (need : PageNeed) (lanes : List Nat)
    (accesses : Nat → List (Nat × Nat)) (l : Nat), l ∈ lanes →
    let r := s.routeLanes g k kind need lanes noEarly accesses
    let routes := (accesses l).map (fun p => s.routeOne (g.who k) g.walkFaults kind need p.1 p.2)
    (∀ n p, routes.foldl Route.and (.ok []) = .miss n → p ∈ n → p ∈ r.needs) ∧
    (∀ c a, routes.foldl Route.and (.ok []) = .fault c a → (l, c, a) ∈ r.failed) ∧
    (∀ ps, routes.foldl Route.and (.ok []) = .ok ps → ∃ x, x ∈ r.ready ∧ x.lane = l ∧ x.accesses.flatten = ps)

/-- R26, R27, R114, R116, R120, R437: what a read of memory gives: zeros and the error reply from a location that
answers with it; else each byte is the one the party sees at the home, or that of an untracked copy of its own core or
of a replica of its own die, and the reply carries poison exactly when a line is poisoned for the party. Memory is as
it was. R115, R118: what becomes of bytes that reach their homes. Each goes into memory, or, in a half that the host
holds, waits for the answer to a back-invalidate snoop; no other byte of memory changes. R4, R103: byte order and
reading back. A word put into memory at an address is read back from it, its low byte lies at the lowest address, and
other bytes are as before. -/
def Obligations.MemoryBytes : Prop :=
  (∀ (s : State) (who : Who) (cached : Bool) (pa n i : Nat), 0 < n → i < n →
     let r := s.load who cached pa n
     r.bytes.length = n ∧ (∀ a, r.state.byte a = s.byte a) ∧
     (s.errorReply pa = true → r.error = true ∧ r.poison = false ∧ nth 1 r.bytes i = 0) ∧
     (s.errorReply pa = false →
       r.error = false ∧ (r.poison = true ↔ ∃ a, pa ≤ a ∧ a < pa + n ∧ s.poisonedFor who (a / 128) = true) ∧
       (s.runOf who = none → ∀ l, s.poisonedFor who l = s.poisoned l) ∧
       (nth 1 r.bytes i = s.seenByte who (pa + i) ∨
         ∃ bs, cached = true ∧ remote who.core ((pa + i) / 64 * 64) = true ∧ nth 1 r.bytes i = nth 0 bs ((pa + i) % 64) ∧
           (Tab.find (s.core who.core).copies ((pa + i) / 64) = some bs ∨
             s.replicaHalf (coreDie who.core) ((pa + i) / 64) = some bs)))) ∧
  (∀ (s : State) (origin : Option Nat) (ws : List (Nat × Byte)),
     let t := s.commit origin ws
     (∀ a, (∀ p, p ∈ ws → p.1 ≠ a) → t.byte a = s.byte a) ∧
     ((ws.map Prod.fst).Nodup → Memory.wf s.mem = true → ∀ a b, (a, b) ∈ ws →
       (Tab.read false s.hostHeld (a / 64) = false → t.byte a = b) ∧
       (Tab.read false s.hostHeld (a / 64) = true → t.byte a = s.byte a ∧ t.snoopedByte a = some b))) ∧
  (∀ (s : State) (a : Nat) (x : Word),
     Memory.wf s.mem = true →
     let t := s.setBytes (atAddr a (wordBytes 8 x))
     t.word a = x ∧ (∀ i, i < 8 → t.byte (a + i) = x.extractLsb' (8 * i) 8) ∧
     (∀ b, b < a ∨ a + 8 ≤ b → t.byte b = s.byte b) ∧ Memory.wf t.mem = true)

/-- R158, R193, R259, R264: the frame of the loads SLD, LD, LDV and LDSX in a group that is not under check, when
every access passes its checks. Every byte of memory and every other group are as before. The loading group's
registers keep their values until the load completes; no condition or lane-mask register, no %sig, class counter,
batch number or other special register, and no page-table root changes. R103, R115, R262: the frame of SST, ST and STV
in a group that is not under check, when every access passes its checks and none goes to a management register. Every
byte of memory outside the stored bytes is as before, but for bytes that the die's remote-write buffer held for their
addresses; no register, flag or special register of any group changes, and of the program counters only that of the
storing group. -/
def Obligations.MemoryFrames : Prop :=
  (∀ (i : Instr) (w : Slot) (s t : State) (k : Nat) (g : Group) (lanes : List Nat) (accesses : Nat → List (Nat × Nat)),
     let e := if w.ty.wide then 2 else 1
     let active := lanesOf (g.lanes w) g.width
     (i = .sld w ∧ lanes = [0] ∧ (accesses = fun _ => [(g.scalarAddress w, 2 ^ (w.mod.toNat % 4))]) ∨
       i = .ld w ∧ lanes = active ∧ (accesses = fun l => [(g.laneAddress w l, accessSize w)]) ∨
       i = .ldv w ∧ lanes = active ∧ (accesses = fun l => (List.range (2 ^ memCnt w)).map (fun r =>
           ((g.laneAddress w 0 + (r * g.width + l) * (4 * e)) % 2 ^ 64, 4 * e))) ∨
       i = .ldsx w ∧ lanes = active ∧ (accesses = fun l => ((List.range (2 ^ memCnt w)).map (g.chunkAccesses w l)).flatten)) →
     ReadyTo i s k g → s.runOf (g.who k) = none →
     (∀ l, l ∈ lanes → ∀ q, q ∈ accesses l → ∃ ps, s.routeOne (g.who k) g.walkFaults .read .any q.1 q.2 = .ok ps) →
     exec i s = .next t →
     (∀ a, t.byte a = s.byte a) ∧ (∀ j, j ≠ k → t.group j = s.group j) ∧ t.teams = s.teams ∧ t.ptroots = s.ptroots ∧
     ∃ h, t.group k = some h ∧ h.sregs = g.sregs ∧ h.vecs = g.vecs ∧ h.cregs = g.cregs ∧ h.qregs = g.qregs ∧
       h.fpstat = g.fpstat ∧ h.hidden = g.hidden ∧ h.gtimer = g.gtimer ∧ h.handler = g.handler ∧ h.sig = g.sig ∧
       h.mxcnt = g.mxcnt ∧ h.gacnt = g.gacnt ∧ h.cocnt = g.cocnt ∧ h.cbopen = g.cbopen ∧ h.cbdone = g.cbdone) ∧
  (∀ (i : Instr) (w : Slot) (s s1 t : State) (k : Nat) (g : Group) (lanes : List Nat) (accesses : Nat → List (Nat × Nat)),
     let e := if w.ty.wide then 2 else 1
     let stored := fun (a : Nat) => ∃ l, l ∈ lanes ∧ ∃ q, q ∈ accesses l ∧ ∃ ps,
       s1.routeOne (g.who k) g.walkFaults .write .ordinary q.1 q.2 = .ok ps ∧ ∃ p, p ∈ ps ∧ p.pa ≤ a ∧ a < p.pa + p.len
     (i = .sst w ∧ lanes = [0] ∧ (accesses = fun _ => [(g.scalarAddress w, 2 ^ (w.mod.toNat % 4))]) ∧
         s1 = s.released k g (g.releaseScope (w.mod.getLsbD 3) (w.mod.extractLsb' 4 3).toNat) ∨
       i = .st w ∧ lanes = lanesOf (g.lanes w) g.width ∧ (accesses = fun l => [(g.laneAddress w l, accessSize w)]) ∧
         s1 = s.released k g (g.releaseScope (memRel w) (memScope w)) ∨
       i = .stv w ∧ lanes = lanesOf (g.lanes w) g.width ∧ (accesses = fun l => (List.range (2 ^ memCnt w)).map (fun r =>
           ((g.laneAddress w 0 + (r * g.width + l) * (4 * e)) % 2 ^ 64, 4 * e))) ∧
         s1 = s.released k g (g.releaseScope (memRel w) (memScope w))) →
     ReadyTo i s k g → s.runOf (g.who k) = none → g.refused = none →
     (∀ l, l ∈ lanes → ∀ q, q ∈ accesses l → ∃ ps, s1.routeOne (g.who k) g.walkFaults .write .ordinary q.1 q.2 = .ok ps ∧
       ∀ p, p ∈ ps → region p.pa ≠ .management) →
     exec i s = .next t →
     (∀ a, ¬ stored a → ¬ s.waits g a → t.byte a = s.byte a) ∧ t.ptroots = s.ptroots ∧
     ∀ j x, s.group j = some x → ∃ y, t.group j = some y ∧ y.sregs = x.sregs ∧ y.vecs = x.vecs ∧ y.qregs = x.qregs ∧
       y.cregs = x.cregs ∧ y.flags = x.flags ∧ y.marks = x.marks ∧ y.fpstat = x.fpstat ∧ y.hidden = x.hidden ∧
       y.gtimer = x.gtimer ∧ y.handler = x.handler ∧ y.sig = x.sig ∧ y.mxcnt = x.mxcnt ∧ y.gacnt = x.gacnt ∧
       y.cocnt = x.cocnt ∧ y.cbopen = x.cbopen ∧ y.cbdone = x.cbdone ∧ (j ≠ k → y.pc = x.pc))

/-- R53, R97, R267: scratchpad loads and stores of a group's own scratchpad. LDP puts what the lanes read in flight,
STP writes; a lane whose bytes pass the end of the scratchpad fails with 0x08. R53, R267: LDP.rmt and STP.rmt of a
group that is not under check, with an active lane. Bits [55:32] of sA that are not zero, and a member beyond the
cluster's, trap for every active lane; else the access goes to that member's scratchpad, at (base + index × 2^SC +
IMM) mod 2^32, and a lane that passes its end fails with 0x08. A store to another team's scratchpad perturbs that
team's check (R350). R105, R106, R115, R148, R274 to R276, R386: FENCE releases, then acquires, and a releasing FENCE
makes the group's later stores releases; PREF changes no register and no byte of memory; CFLUSH flushes its range page
by page and returns the number of pages skipped; its flag falls no earlier than the stores of the range that wait for
the host. A range that starts at 2^57 or above, or crosses 2^57, takes the address fault at the first such address
(for an empty range the model's choice, log 99). -/
def Obligations.ScratchpadAndOrder : Prop :=
  (∀ (s : State) (k : Nat) (g : Group) (w : Slot) (r : PadRoute),
     let n := accessSize w
     let d := w.d0.vecIndex
     let s1 := if memAcq w then s.acquire (g.who k) (memScope w) else s
     memRmt w = false →
     (∀ l, s.routePad g w n false = .inl r → l ∈ lanesOf (g.lanes w) g.width →
       (g.laneAddress w l % 2 ^ 32 + n ≤ (s.teamOf g).scratchSize → (l, g.laneAddress w l % 2 ^ 32) ∈ r.ready) ∧
       ((s.teamOf g).scratchSize < g.laneAddress w l % 2 ^ 32 + n → (l, 0x08, g.laneAddress w l % 2 ^ 32) ∈ r.failed)) ∧
     (ReadyTo (.ldp w) s k g → s.routePad g w n false = .inl r → (r.failed = [] ∨ r.ready ≠ []) →
       let t := s1.departLoad k w (vecDests d (valueRegs w))
         (((s1.readPad r n).1.map (fun v => loadWrites w d v.1 v.2)).flatten) (s1.readPad r n).2
       (r.failed = [] → exec (.ldp w) s = .next (t.advance k w)) ∧
       (r.failed ≠ [] → s.trapWaits k = false →
         exec (.ldp w) s = .next (t.trapFrom s k (.ldp w) (laneTrap r.failed)))) ∧
     (ReadyTo (.ldp w) s k g → s.routePad g w n false = .inl r → r.failed ≠ [] → r.ready = [] → s.trapWaits k = false →
       exec (.ldp w) s = .next (s.trapFrom s k (.ldp w) (laneTrap r.failed))) ∧
     (ReadyTo (.stp w) s k g → Releases (.stp w) s k g (g.releaseScope (memRel w) (memScope w)) (fun s2 =>
       s2.routePad g w n false = .inl r →
       let writes := (r.ready.map (fun p => atAddr p.2 (s2.storeValue g w p.1 n))).flatten
       (r.failed = [] → exec (.stp w) s = .next ((s2.writePad r.team writes).advance k w)) ∧
       (r.failed ≠ [] → s.trapWaits k = false →
         exec (.stp w) s = .next ((s2.writePad r.team writes).trapAt k (laneTrap r.failed))))) ∧
     ∀ (team : Nat) (ws : Writes) (x : Team) (o : Nat), s.team team = some x → (∀ p, p ∈ ws → p.1 ≠ o) →
       (s.writePad team ws).mem = s.mem ∧ ∃ y, (s.writePad team ws).team team = some y ∧
         Tab.read 0 y.scratch o = Tab.read 0 x.scratch o) ∧
  (∀ (s : State) (k : Nat) (g : Group) (w : Slot),
     let who := g.who k
     let n := accessSize w
     let d := w.d0.vecIndex
     let v := g.s w.a.scalarIndex
     let m := (v.extractLsb' 56 8).toNat
     let lanes := lanesOf (g.lanes w) g.width
     let offset := g.padOffset w
     let ready := fun (x : State) =>
       (lanes.filter (fun l => decide (offset l + n ≤ (x.teamOf g).scratchSize))).map (fun l => (l, offset l))
     let failed := fun (x : State) =>
       (lanes.filter (fun l => decide ((x.teamOf g).scratchSize < offset l + n))).map (fun l => (l, 0x08, offset l))
     let beyond : Cause := { code := 0x08, faddr := BitVec.ofNat 64 (offset (lanes.headD 0)), lanes := maskOf lanes }
     let noMember : Cause := { code := 0x09, faddr := BitVec.ofNat 64 m, lanes := maskOf lanes }
     let s1 := if memAcq w then s.acquire who (memScope w) else s
     memRmt w = true → lanes ≠ [] →
     (∀ l, let index : Word := match w.c with
             | .vec r => if memIX w = 2 then g.v64 r.toNat l else if memIX w = 1 then (g.v r.toNat l).signExtend 64
                 else (g.v r.toNat l).zeroExtend 64
             | .scalar i => g.s i.toNat
             | _ => 0
       offset l < 2 ^ 32 ∧ BitVec.ofNat 32 (offset l) =
         v.extractLsb' 0 32 + (index * BitVec.ofNat 64 (2 ^ (w.mod.toNat % 8))).extractLsb' 0 32 + w.imm) ∧
     (∀ c x, (s.teamOf g).member ≠ m → (s.teamOf g).cluster = some c → s.cluster c = some x →
       (∃ i, i ∈ x.teams ∧ ∃ y, s.team i = some y ∧ y.member = m) →
       s.memberTeam g m ∈ x.teams ∧ ∃ y, s.team (s.memberTeam g m) = some y ∧ y.member = m) ∧
     (ReadyTo (.ldp w) s k g → s.trapWaits k = false → v.extractLsb' 32 24 ≠ 0 →
       exec (.ldp w) s = .next (s.trapFrom s k (.ldp w) beyond)) ∧
     (ReadyTo (.ldp w) s k g → s.trapWaits k = false → v.extractLsb' 32 24 = 0 → (s.teamOf g).members ≤ m →
       exec (.ldp w) s = .next (s.trapFrom s k (.ldp w) noMember)) ∧
     (ReadyTo (.ldp w) s k g → v.extractLsb' 32 24 = 0 → m < (s.teamOf g).members → s1.runOf who = none →
       let team := s.memberTeam g m
       let t := s1.departLoad k w (vecDests d (valueRegs w))
         (((ready s).map (fun p => loadWrites w d p.1 (s1.padBytes team p.2 n))).flatten)
         ((ready s).findSome? (fun p => s1.padFault team p.2 n))
       (failed s = [] → exec (.ldp w) s = .next (t.advance k w)) ∧
       (failed s ≠ [] → ready s ≠ [] → s.trapWaits k = false →
         exec (.ldp w) s = .next (t.trapFrom s k (.ldp w) (laneTrap (failed s)))) ∧
       (failed s ≠ [] → ready s = [] → s.trapWaits k = false →
         exec (.ldp w) s = .next (s.trapFrom s k (.ldp w) (laneTrap (failed s))))) ∧
     (ReadyTo (.stp w) s k g → Releases (.stp w) s k g (g.releaseScope (memRel w) (memScope w)) (fun s2 =>
       let team := s2.memberTeam g m
       let ws := ((ready s2).map (fun p => atAddr p.2 (s2.storeValue g w p.1 n))).flatten
       let t := if team ≠ g.team ∧ ws ≠ [] then (s2.writePad team ws).perturbPad team else s2.writePad team ws
       (s.trapWaits k = false → v.extractLsb' 32 24 ≠ 0 → exec (.stp w) s = .next (s2.trapAt k beyond)) ∧
       (s.trapWaits k = false → v.extractLsb' 32 24 = 0 → (s2.teamOf g).members ≤ m →
         exec (.stp w) s = .next (s2.trapAt k noMember)) ∧
       (v.extractLsb' 32 24 = 0 → m < (s2.teamOf g).members → s2.runOf who = none → failed s2 = [] →
         exec (.stp w) s = .next (t.advance k w)) ∧
       (v.extractLsb' 32 24 = 0 → m < (s2.teamOf g).members → s2.runOf who = none → failed s2 ≠ [] →
         s.trapWaits k = false → exec (.stp w) s = .next (t.trapAt k (laneTrap (failed s2))))))) ∧
  (∀ (s : State) (k : Nat) (g : Group) (w : Slot),
     let who := g.who k
     let a := (g.s w.a.scalarIndex).toNat
     let b := (s.scalarSource g w w.b).toNat
     let d := w.d0.scalarIndex
     let acq := fun (x : State) => if memAcq w then x.acquire who (memScope w) else x
     let f := s.flushAll who (memOpc w = 1) (a / 128 * 128) (flushParts a b)
     (ReadyTo (.fence w) s k g → memRel w = true → Releases (.fence w) s k g (some (memScope w)) (fun s1 =>
       exec (.fence w) s = .next (((acq s1).modGroup k (fun x =>
         { x with fenced := x.releaseScope true (memScope w) })).advance k w))) ∧
     (ReadyTo (.fence w) s k g → memRel w = false → g.refused = none → exec (.fence w) s = .next ((acq s).advance k w)) ∧
     (ReadyTo (.fence w) s k g → s.trapWaits k = false → ∀ c, g.refused = some c → exec (.fence w) s =
       .next ((s.modGroup k (fun x => { x with refused := none })).trapAt k { c with lanes := g.q0 })) ∧
     (ReadyTo (.pref w) s k g → exec (.pref w) s =
       .next (((lanesOf (g.lanes w) g.width).foldl (fun x l => x.prefetch who (g.laneAddress w l)) s).advance k w)) ∧
     (∀ p va, let t := s.prefetch p va
       t.groups = s.groups ∧ t.teams = s.teams ∧ t.parts = s.parts ∧ t.hub = s.hub ∧ ∀ x, t.byte x = s.byte x) ∧
     (ReadyTo (.cflush w) s k g → a < 2 ^ 57 → a + b ≤ 2 ^ 57 → exec (.cflush w) s = .next
       ((f.1.modGroup k (fun x =>
         x.depart w [.scalar d] [.scalar d (BitVec.ofNat 64 f.2)] 0 none .flush)).advance k w)) ∧
     (ReadyTo (.cflush w) s k g → s.trapWaits k = false → 2 ^ 57 ≤ a →
       exec (.cflush w) s = .next (s.trapFrom s k (.cflush w) (trapAll g 0x10 (BitVec.ofNat 64 a)))) ∧
     (ReadyTo (.cflush w) s k g → s.trapWaits k = false → a < 2 ^ 57 → 2 ^ 57 < a + b →
       exec (.cflush w) s = .next (s.trapFrom s k (.cflush w) (trapAll g 0x10 (BitVec.ofNat 64 (2 ^ 57))))) ∧
     (s.runOf who = none → memScope w = 4 ∨ memScope w = 5 → ∀ l, l ∉ (s.release who (memScope w)).rwb (coreDie g.core)))

/-- R268: the new value that each operation of ATOM and SATOM stores, for the old value and the operand. R268, R269:
ATOM and SATOM in a group that is not under check. The lanes that pass perform one after another; a returning form
puts the old values in flight, a .nr form writes no register. One lane of ATOM reads the old value at the line's home
and commits the new one there. Two points are the model's choice (log 59): every lane's check is that of a write, and
an atomic on a half that the host holds (R118) snoops it and waits at issue. -/
def Obligations.Atomics : Prop :=
  (∀ (ty : Ty) (old y cmp : Nat),
     let n := if ty.wide then 64 else 32
     let v := fun (x : Nat) => if ty.signed then signedOf x n else (x : Int)
     (ty ≠ .f32 → atomNew ty 0 old y cmp = ((v old + v y) % (2 ^ n : Nat)).toNat) ∧
     (ty ≠ .f32 → old < 2 ^ n → y < 2 ^ n → atomNew ty 1 old y cmp = (if v old ≤ v y then old else y)) ∧
     (ty ≠ .f32 → old < 2 ^ n → y < 2 ^ n → atomNew ty 2 old y cmp = (if v old ≤ v y then y else old)) ∧
     (atomNew .f32 0 old y cmp = (round fp32 .rne ((decodeFloat fp32 old).add false (decodeFloat fp32 y)).1).code) ∧
     (atomNew .f32 1 old y cmp = fminNum fp32 old y ∧ atomNew .f32 2 old y cmp = fmaxNum fp32 old y) ∧
     (ty = .b32 ∨ ty = .b64 → atomNew ty 3 old y cmp = old &&& y ∧ atomNew ty 4 old y cmp = old ||| y ∧
       atomNew ty 5 old y cmp = old ^^^ y ∧ atomNew ty 6 old y cmp = y ∧
       atomNew ty 7 old y cmp = (if old = cmp then y else old))) ∧
  (∀ (s : State) (k : Nat) (g : Group) (w : Slot),
     let who := g.who k
     let n := opWidth w.ty / 8
     let acq := fun (a : State) => if memAcq w then a.acquire who (memScope w) else a
     (ReadyTo (.atom w) s k g → Releases (.atom w) s k g (g.releaseScope (memRel w) (memScope w)) (fun sr =>
       let s1 := acq sr
       s1.runOf who = none → ∀ r, r = s1.routeLanes g k .write .ordinary (lanesOf (g.lanes w) g.width)
         (fun l => if g.laneAddress w l % n != 0 then some (0x15, g.laneAddress w l)
           else match s1.routeOne who g.walkFaults .read .any (g.laneAddress w l) n with
             | .fault c f => some (c, f)
             | _ => none) (fun l => [(g.laneAddress w l, n)]) →
       let halves := s1.hostHalves who r
       (r.needs ≠ [] → exec (.atom w) s = .next (s1.park k r.needs)) ∧
       (r.needs = [] → halves ≠ [] → exec (.atom w) s = .next ((halves.foldl (fun a h => a.snoopWrite h []) s1).hold k)) ∧
       (r.needs = [] → r.failed = [] → halves = [] →
         let x := s1.atomLanes who none g w r.ready
         exec (.atom w) s = .next ((x.state.atomFinish k w x.olds x.fault).advance k w)) ∧
       (r.needs = [] → r.failed ≠ [] → r.ready = [] → s.trapWaits k = false →
         exec (.atom w) s = .next (s1.trapFrom s k (.atom w) (laneTrap r.failed))))) ∧
     (ReadyTo (.satom w) s k g → Releases (.satom w) s k g (g.releaseScope (memRel w) (memScope w)) (fun sr =>
       let s1 := acq sr
       s1.runOf who = none → ∀ r, s1.routePad g w n true = .inl r → r.failed = [] →
       let x := r.ready.foldl (fun (d : AtomDone) p =>
         let y := d.state.satomLane g w r.team p.1 p.2
         { olds := d.olds ++ y.olds, fault := firstFault d.fault y.fault, state := y.state })
         { olds := [], fault := none, state := s1 }
       exec (.satom w) s = .next ((x.state.atomFinish k w x.olds x.fault).advance k w))) ∧
     ∀ (l : Nat) (p : Piece) (y cmp : Nat), region p.pa ≠ .management →
       let s0 := s.drainLine (coreDie who.core) (p.pa / 128)
       s0.errorReply p.pa = false → s0.poisoned (p.pa / 128) = false →
       let old := leNat ((List.range n).map (fun i => s0.homeByte (p.pa + i)))
       let x := s.atomLane who none w l p y cmp
       x.olds = [(l, old)] ∧ x.fault = none ∧
       x.state.mem = (s0.commit none (atAddr p.pa (leBytes n (atomNew w.ty (memOpc w) old y cmp)))).mem)

/-- R130 to R135, R270 to R273: APND, APST and SEAL of a group that is not under check, at the page that holds sA +
off. APND with no active lane answers 2^62, one that does not fit 2^63, else its offset; APST gives the tails; SEAL of
a sealed page gives its length, else it waits for the page to be sealed. That a reservation and its bytes are one step
of APND, and the bytes' acceptance an event, is the model's choice (log 56). R131, R132, R135, R138, R222, R271:
append pages and purges. A reservation whose bytes are accepted is marked, and the published tail moves over complete
reservations; SEAL ends once it has arrived, nothing is reserved and no check holds bytes of the page; a die that
acknowledges a purge drops its copies of the page and is no longer waited for. That a check which holds bytes bars the
sealing (log 56), and that the hub cores' copies go with the last acknowledgement (log 60), are the model's choice. -/
def Obligations.AppendPages : Prop :=
  (∀ (s : State) (k : Nat) (g : Group) (w : Slot) (e : TlbEntry),
     let who := g.who k
     let va := g.pageAddress w
     let lanes := lanesOf (g.lanes w) g.width
     let bs := g.appendData w lanes
     let d := s.descriptor e
     let d0 := w.d0.scalarIndex
     s.runOf who = none →
     (ReadyTo (.apnd w) s k g → lanes = [] → exec (.apnd w) s = .next ((s.modGroup k (fun x => x.depart w (appendDests w)
       [.scalar w.d1.scalarIndex (BitVec.ofNat 64 (2 ^ 62))] 0 none .plain)).advance k w)) ∧
     (ReadyTo (.apnd w) s k g → lanes ≠ [] → s.routePage who g.walkFaults .write va = .page e → e.sealed = false →
       s.errorReply e.pa = false → d.sealed = false → d.arrived = false →
       (d.reserved + bs.length ≤ d.size → exec (.apnd w) s = .next
         ((((s.reserve e bs.length none).homeEnter (atAddr (e.pa + d.reserved) bs)).departAppend k w lanes (.at_ d.reserved)
           (.append e.pa d.reserved)).advance k w)) ∧
       (d.size < d.reserved + bs.length → exec (.apnd w) s = .next
         ((s.departAppend k w lanes .refused .plain).advance k w))) ∧
     (ReadyTo (.apst w) s k g → s.routePage who g.walkFaults .read va = .page e → s.errorReply e.pa = false →
       exec (.apst w) s = .next (((s.ensureAppend e.pa e.size (g.ctx, e.va)).departLoad k w [.scalar d0, .scalar w.d1.scalarIndex]
         [.scalar d0 (BitVec.ofNat 64 ((if d.sealed then d.final else d.published) % 2 ^ 32 + 2 ^ 62 * natOf d.arrived +
           2 ^ 63 * natOf d.sealed)), .scalar w.d1.scalarIndex (BitVec.ofNat 64 (d.reserved % 2 ^ 32))] none).advance k w)) ∧
     (ReadyTo (.seal w) s k g → s.routePage who g.walkFaults .write va = .page e → s.errorReply e.pa = false →
       (d.sealed = true → exec (.seal w) s = .next (((s.ensureAppend e.pa e.size (g.ctx, e.va)).departLoad k w [.scalar d0]
         [.scalar d0 (BitVec.ofNat 64 d.final)] none).advance k w)) ∧
       (d.sealed = false → exec (.seal w) s = .next ((((s.ensureAppend e.pa e.size (g.ctx, e.va)).sealArrive e.pa).modGroup k (fun y =>
         y.depart w [.scalar d0] [] 0 none (.seal e.pa (some d0)))).advance k w)))) ∧
  (∀ (s : State) (page : Nat),
     (∀ d offset, Tab.find s.appends page = some d →
       (∀ r rest, d.open_ = r :: rest → r.offset = offset → r.check = none →
         (∀ q ∈ rest, q.offset ≠ offset ∧ q.written = false) →
         let tail := match rest with
           | q :: _ => q.offset
           | [] => d.reserved
         let s1 : State := { s with appends := Tab.insert s.appends page { d with open_ := rest, published := tail } }
         let bytes := (List.range r.len).map (fun i => page + offset + i)
         exec (.appendComplete page offset) s = .next ((s1.touchWatches bytes).perturb r.owner bytes)) ∧
       (d.arrived = true → d.sealed = false → d.open_ = [] → s.pageHeld page d.size = false →
         exec (.sealComplete page) s =
           .next { s with appends := Tab.insert s.appends page { d with sealed := true, final := d.published } })) ∧
     (∀ dies die size pool, Tab.find s.purges page = some dies → die ∈ dies → s.purgeOf page = some (size, pool) →
       (∀ rest e, dies.filter (· != die) = e :: rest →
         let s1 := s.purgeDie die page size pool
         exec (.purgeAck page die) s =
           .next ({ s1 with purges := Tab.insert s1.purges page (e :: rest) } : State).sendCompletions) ∧
       (dies.filter (· != die) = [] →
         let s1 := (s.purgeDie die page size pool).purgeDie 4 page size pool
         exec (.purgeAck page die) s = .next ({ s1 with purges := Tab.insert s1.purges page [] } : State).sendCompletions)) ∧
     ∀ die dropsDirty size,
       let t := s.purgeDie die page size dropsDirty
       let inside := fun (line : Nat) => page ≤ line * 128 ∧ line * 128 < page + size
       (∀ c h, coreDie c = die → inside (h / 2) → Tab.find (t.core c).copies h = none) ∧
       (∀ line y, inside line → Tab.find t.tokens line = some y → ∀ q ∈ y.held, coreDie q.1 ≠ die) ∧
       (∀ line, die < 4 → inside line → Tab.find t.replicas (line * 4 + die) = none) ∧ (dropsDirty = false → t.mem = s.mem))

/-- R59, R278, R279, R432: MONW arms a watch and evaluates it at once; of a partition whose WATCH flag is clear no
watch stands in a table. That a word with the error reply arms none and is refused as a store is (log 105) is the
model's choice. MWAIT of a group that is not under check gives a lost watch's reason 2, no watch's reason 3 or a
satisfied watch's reason 0 with its value and disarms the watch; else the group waits. R59, R278, R279: watches. An
evaluation records the word when the comparison holds on it and leaves a satisfied watch alone. A wait whose watch has
held ends with reason 0 and the value, as an acquire at the watch's scope; one whose watch is lost, or that the device
ends early, with reason 2 and value 0; one whose time-out has come with reason 1 and value 0; and the watch is
disarmed. The group is under no check. When a wait ends early, that a lost watch gives reason 2 before any other (log
57), and that a re-read with the error reply loses the watch (log 105), are the model's choice. -/
def Obligations.Watches : Prop :=
  (∀ (s : State) (k : Nat) (g : Group) (w : Slot),
     let who := g.who k
     let va := wrapInt ((g.s w.a.scalarIndex).toNat + signedOf w.imm.toNat 32) 64
     let t := (s.scalarSource g w w.a).toNat
     (∀ p pa, s.part g.ctx = some p → p.watch = false → s.watchHome g.ctx k pa = none) ∧
     (ReadyTo (.monw w) s k g → ∀ e, va % (if w.ty.wide then 8 else 4) = 0 →
       s.translate who g.walkFaults va .read = .ok e → s.errorReply (e.phys va) = true → exec (.monw w) s = .next
         ((((s.modGroup k (fun y => { y with watch := none, watchLost := false })).refuse k
           { code := 0x21, faddr := BitVec.ofNat 64 va }).countError (e.phys va)).advance k w)) ∧
     (ReadyTo (.monw w) s k g → ∀ e, va % (if w.ty.wide then 8 else 4) = 0 →
       s.translate who g.walkFaults va .read = .ok e → s.errorReply (e.phys va) = false → exec (.monw w) s = .next ((s.modGroup k (fun y =>
         { y with watch := some (s.checkWatch
                    { pa := e.phys va, wide := w.ty.wide, cond := w.mod.extractLsb' 14 4, ref := s.scalarSource g w w.b
                      scope := w.mod.extractLsb' 10 3, home := s.watchHome g.ctx k (e.phys va), hit := none })
                  watchLost := false })).advance k w)) ∧
     (ReadyTo (.monw w) s k g → s.trapWaits k = false → va % (if w.ty.wide then 8 else 4) ≠ 0 →
       exec (.monw w) s = .next (s.trapAt k (trapAll g 0x15 (BitVec.ofNat 64 va)))) ∧
     (ReadyTo (.mwait w) s k g → s.runOf who = none →
       let give := fun (r v : Word) => Host.Outcome.next (φ := Fault) (ρ := Refusal)
         ((s.mwaitGive k (destOf w.d0) (destOf w.d1) r v).advance k w)
       (g.watchLost = true → exec (.mwait w) s = give 2 0) ∧
       (g.watchLost = false → g.watch = none → exec (.mwait w) s = give 3 0) ∧
       (∀ x v, g.watchLost = false → g.watch = some x → x.hit = some v → exec (.mwait w) s = give 0 v) ∧
       (∀ x, g.watchLost = false → g.watch = some x → x.hit = none → exec (.mwait w) s = .next
         (s.beginWait k g w (.mwait (if t = 0 then none else some (s.now + t)) (destOf w.d0) (destOf w.d1)))))) ∧
  (∀ (s : State) (k : Nat) (g : Group) (x : Wait) (deadline d0 d1 : Option Nat), s.group k = some g → g.wait = some x →
     x.kind = .mwait deadline d0 d1 → s.runOf (g.who k) = none →
     let put := fun (y : Group) (d : Option Nat) (v : Word) => match d with
       | some i => y.setS i v
       | none => y
     let ends : State → Word → Word → Out := fun a reason value => .next ((a.modGroup k (fun y =>
       put (put { y with watch := none, watchLost := false } d0 reason) d1 value)).endWait k)
     (∀ (w : Watch) v as, w.hit = some v → s.checkWatch w = w ∧ s.evalWatch w = w ∧ s.touchWatch as w = w) ∧
     (∀ early, g.watchLost = true → exec (.mwaitWake k early) s = ends s 2 0) ∧
     (∀ early w v, g.watchLost = false → g.watch = some w → w.hit = some v →
       exec (.mwaitWake k early) s = ends (s.acquire (g.who k) w.scope.toNat) 0 v) ∧
     (∀ w, g.watchLost = false → g.watch = some w → w.hit = none →
       exec (.mwaitWake k true) s = ends s 2 0 ∧
       (w.home = none → s.errorReply w.pa = true → exec (.watchReread k) s = .next
         (((s.countError w.pa).modGroup k (fun y => { y with watch := none, watchLost := true })).mwaitPoke k)) ∧
       (∀ v, s.watchValue w = some v → watchHolds w.cond w.wide v w.ref = true →
         s.checkWatch w = { w with hit := some v } ∧
         (w.home = none → exec (.watchReread k) s =
           .next ((s.modGroup k (fun y => { y with watch := some { w with hit := some v } })).mwaitPoke k)) ∧
         ∀ h, w.home = some h → (∀ q ∈ s.launches, q.2.watch = none) → (s.groups.filter (fun p => match p.2.watch with
             | some { home := some j, .. } => j / 144 = h / 144
             | _ => false)).map Prod.fst = [k] →
           exec (.watchTableRecheck (h / 144)) s =
             .next ((s.modGroup k (fun y => { y with watch := some { w with hit := some v } })).mwaitPoke k))) ∧
     (∀ d, deadline = some d → d ≤ s.now → exec (.mwaitTimeout k) s = ends s 1 0))

/-! ## Control, traps and the system -/

/-- R150, R163, R190, R196 to R199: the control transfers. A taken branch fetches its target's line; a target that is
no slot address, or whose line lacks C or the slot's TGT bit, traps with 0x04; else the clause ends there and the
group stands at the target, CALL having written s62 with the address of the next line. A branch that is not taken
passes on. -/
def Obligations.ControlTransfer : Prop :=
  ∀ (s : State) (k : Nat) (g : Group) (w : Slot),
    let relative := wrapInt (g.pc + signedOf w.imm.toNat 32) 64
    let indirect := (g.s w.a.scalarIndex).toNat
    let takes := fun (i : Instr) (target : Nat) (link : Bool) => ∀ x s1,
      s.fetchLine (g.who k) g.walkFaults (target / 64 * 64) = (.line x, s1) →
      let good : Bool := (target % 64 = 0 || target % 64 = 20 || target % 64 = 40) && x.getLsbD 487 &&
        x.getLsbD (484 + target % 64 / 20)
      (good = true → exec i s = .next ((if link then
        s1.modGroup k (fun y => y.setS 62 (BitVec.ofNat 64 (g.pc / 64 * 64 + 64))) else s1).branchTo k w target)) ∧
      (good = false → s.trapWaits k = false →
        exec i s = .next (s1.trapAt k (trapAll g 0x04 (BitVec.ofNat 64 target))))
    let falls := fun (i : Instr) => exec i s = .next (s.advance k w)
    let x := s.scalarInt g w w.a
    let y := s.scalarInt g w w.b
    let holds : Bool := match w.mod.toNat % 8 with
      | 0 => decide (x = y)
      | 1 => decide (x ≠ y)
      | 2 => decide (x < y)
      | 3 => decide (x ≤ y)
      | 4 => decide (x > y)
      | _ => decide (x ≥ y)
    let q := g.q (w.a.specialIndex - 0x10)
    let set := g.q0 &&& (if w.mod.getLsbD 2 then ~~~q else q)
    let test := w.mod.toNat % 4
    (ReadyTo (.bra w) s k g → takes (.bra w) relative false) ∧
    (ReadyTo (.brc w) s k g → (holds = true → takes (.brc w) relative false) ∧ (holds = false → falls (.brc w))) ∧
    (ReadyTo (.brv w) s k g →
      (test = 0 → (set ≠ 0 → takes (.brv w) relative false) ∧ (set = 0 → falls (.brv w))) ∧
      (test = 1 → (set = g.q0 → takes (.brv w) relative false) ∧ (set ≠ g.q0 → falls (.brv w))) ∧
      (test = 2 → (set = g.q0 → takes (.brv w) relative false) ∧ (set = 0 → g.q0 ≠ 0 → falls (.brv w)) ∧
        (set ≠ g.q0 → set ≠ 0 → s.trapWaits k = false → exec (.brv w) s = .next (s.trapAt k (trapAll g 0x05 0))))) ∧
    (ReadyTo (.bri w) s k g → takes (.bri w) indirect false) ∧
    (ReadyTo (.ret w) s k g → takes (.ret w) indirect false) ∧
    (ReadyTo (.call w) s k g → takes (.call w) (if w.mod.getLsbD 0 then indirect else relative) true) ∧
    ∀ (t : State) (h : Group) (target : Nat), t.group k = some h → h.doomed = none →
      ∃ z, (t.branchTo k w target).group k = some z ∧ z.pc = target ∧ z.clause = none ∧ z.sregs = h.sregs ∧
        z.vecs = h.vecs ∧ z.qregs = h.qregs ∧ z.cregs = h.cregs ∧ (t.branchTo k w target).mem = t.mem

/-- R54, R58, R200 to R203, R213: the plain boundaries, sleeping, the team barrier and the end of a group. NOP only
passes on; YIELD passes as a NOP with BND and YLD does; SLEEP of 0 is YIELD, else the group waits for the deadline;
IFENCE empties the core's instruction cache; BAR waits at its barrier, or reports a refusal of an earlier store
(R386); a group with nothing outstanding ends at EXIT. R122, R123, R205 to R208: cluster barriers and the waits on
engine counters. CBAR.arrive gives the arrival number and raises it by one, at once while it is below P + 2; CBAR.wait
for a phase that the group has not arrived at traps with 0x06, passes when the phase is complete, and waits otherwise;
WAITC and WAITB end at once, as acquires, when their counts hold, and WAITB then shows the group what its copies
wrote; a WAITB for a batch that is not open traps with 0x07. R54, R202, R203, R205, R207, R208, R224: how waits end. A
SLEEP ends when its deadline has come; a barrier when every group of the team that has not ended waits at it, for all
of them; a cluster-barrier phase when every member team has arrived at it, the count going up by one and the groups
that wait for it going on; WAITC and WAITB when the counter has fallen, or the batch has completed, as an acquire at
their scope; HALTC when an event of its mask is latched, which it returns and clears, even after its deadline (the
model's choice, log 96), or at its deadline with the value 4. -/
def Obligations.Waits : Prop :=
  (∀ (s : State) (k : Nat) (g : Group) (w : Slot),
     let yields : Out := .next (s.advance k { w with yld := true, bnd := true })
     let t := (s.scalarSource g w w.a).toNat
     let b := w.mod.toNat % 4
     (ReadyTo (.nop w) s k g → exec (.nop w) s = .next (s.advance k w)) ∧
     (ReadyTo (.yield w) s k g → exec (.yield w) s = yields) ∧
     (ReadyTo (.sleep w) s k g → exec (.sleep w) s =
       (if t = 0 then yields else .next (s.beginWait k g w (.sleep (s.now + t))))) ∧
     (ReadyTo (.ifence w) s k g → exec (.ifence w) s =
       .next ((s.modCore g.core (fun c => { c with icache := [] })).advance k w)) ∧
     (ReadyTo (.bar w) s k g → g.refused = none → exec (.bar w) s =
       .next ((s.beginWait k g w (.bar b)).barDeadlock g.team)) ∧
     (ReadyTo (.bar w) s k g → s.trapWaits k = false → ∀ c, g.refused = some c → exec (.bar w) s =
       .next ((s.modGroup k (fun x => { x with refused := none })).trapAt k { c with lanes := g.q0 })) ∧
     (ReadyTo (.exit w) s k g → g.handler = false → g.flights = [] → g.refused = none → g.engFaults = [] →
       g.owed = [] → g.batchUsed = false → s.arrayFault g = none → (∀ p, p ∈ s.ops → p.2.group ≠ k) →
       exec (.exit w) s = .next (((s.setGroup k { (g.endClause s.now (g.pc / 64 * 64 + 64) w.yld) with
         exiting := some (g.waitHere (.sleep 0)) }).endGroup k).barDeadlock g.team)) ∧
     ∀ h, s.group k = some h → h.doomed = none → ∀ kind, ∃ z, (s.beginWait k g w kind).group k = some z ∧
       z.wait = some (g.waitHere kind) ∧ z.sregs = h.sregs ∧ z.vecs = h.vecs ∧
       z.pc = (if w.bnd then h.pc / 64 * 64 + 64 else if h.pc % 64 = 40 then h.pc / 64 * 64 + 64 else h.pc + 20)) ∧
  (∀ (s : State) (k : Nat) (g : Group) (w : Slot),
     let dest := match w.d0 with
       | .scalar i => some i.toNat
       | _ => none
     let n := (s.scalarSource g w w.a).toNat
     let cls := w.mod.toNat % 4
     let scope := w.mod.extractLsb' 2 3
     let a := s.beginWait k g w (.cbarArrive dest)
     g.refused = none →
     (ReadyTo (.cbarArrive w) s k g → ∀ p, s.phaseOf g = some p →
       (g.arrivals < p + 2 → exec (.cbarArrive w) s = .next (a.modGroup k (fun x => x.arriveAt dest s.now))) ∧
       (p + 2 ≤ g.arrivals → exec (.cbarArrive w) s = .next a)) ∧
     (∀ h : Group, ∀ d, (h.arriveAt (some d) s.now).arrivals = h.arrivals + 1 ∧ (h.arriveAt (some d) s.now).wait = none ∧
       (h.arriveAt (some d) s.now).sregs = (h.setS d (BitVec.ofNat 64 h.arrivals)).sregs) ∧
     (ReadyTo (.cbarWait w) s k g → ∀ p, s.phaseOf g = some p →
       (g.arrivals ≤ n → s.trapWaits k = false →
         exec (.cbarWait w) s = .next (s.trapAt k { trapAll g 0x06 0 with arg := n % 65536 })) ∧
       (n < g.arrivals → n < p → exec (.cbarWait w) s = .next (s.advance k w)) ∧
       (n < g.arrivals → p ≤ n → exec (.cbarWait w) s = .next (s.beginWait k g w (.cbarWait n)))) ∧
     (ReadyTo (.waitc w) s k g → (cls = 0 → s.arrayFault g = none) →
       let t := s.beginWait k g w (.waitc cls n scope)
       let count := if cls = 0 then g.mxcnt else if cls = 1 then g.gacnt else g.cocnt
       (count ≤ n → exec (.waitc w) s = .next ((t.acquire (g.who k) scope.toNat).endWait k)) ∧
       (n < count → g.engFaults = [] → exec (.waitc w) s = .next t)) ∧
     (ReadyTo (.waitb w) s k g →
       let t := s.beginWait k g w (.waitb n scope)
       (g.cbopen < n → s.trapWaits k = false → exec (.waitb w) s = .next (s.trapAt k (trapAll g 0x07 0))) ∧
       (n ≤ g.cbopen → n ≤ g.cbdone →
         exec (.waitb w) s = .next (((t.acquire (g.who k) scope.toNat).seeCopies k n).endWait k)) ∧
       (n ≤ g.cbopen → g.cbdone < n → g.engFaults = [] → exec (.waitb w) s = .next t))) ∧
  (∀ (s : State),
     (∀ t team b, s.team t = some team → s.barriers t ≠ [] → (∀ y ∈ s.barriers t, y = some b) →
       s.owesBarTrap team = false → exec (.barrierComplete t b) s = .next (team.groups.foldl State.endWait s)) ∧
     (∀ c cluster, s.cluster c = some cluster → cluster.teams ≠ [] →
       (∀ t ∈ cluster.teams, s.teamArrived t cluster.phase = true) → exec (.cbarPhaseComplete c) s =
         .next ((s.modCluster c (fun y => { y with phase := cluster.phase + 1 })).wakeCluster cluster (cluster.phase + 1))) ∧
     ∀ (k : Nat) (g : Group) (x : Wait), s.group k = some g → g.wait = some x →
     (∀ d, x.kind = .sleep d → d ≤ s.now →
       exec (.sleepExpiry k) s = .next (s.setGroup k { g with wait := none, age := s.now })) ∧
     (∀ cls n scope, x.kind = .waitc cls n scope → cls ≠ 0 ∨ s.arrayFault g = none → g.counter cls ≤ n →
       exec (.waitcComplete k) s = .next ((s.acquire (g.who k) scope.toNat).endWait k)) ∧
     (∀ n scope, x.kind = .waitb n scope → n ≤ g.cbdone →
       exec (.waitbComplete k) s = .next (((s.acquire (g.who k) scope.toNat).seeCopies k n).endWait k)) ∧
     (∀ mask deadline dest, x.kind = .haltc mask deadline (some dest) →
       (g.latch &&& mask ≠ 0#2 → exec (.haltcWake k) s = .next (s.setGroup k
         ({ g with latch := g.latch &&& ~~~mask, wait := none, age := s.now }.setS dest
           ((g.latch &&& mask).zeroExtend 64)))) ∧
       (∀ d, g.latch &&& mask = 0#2 → deadline = some d → d ≤ s.now → exec (.haltcWake k) s = .next (s.setGroup k
         ({ g with latch := g.latch &&& ~~~mask, wait := none, age := s.now }.setS dest 4)))))

/-- R172, R185, R212, R214 to R216: special registers and signatures. SRDS reads into a scalar, or lane by lane into a
vector register; SWRS writes the register that it names and no other; %ptroot is refused outside system mode with
0x12; SIGF folds the active lanes of A into the group's signature in ascending order. R19, R21, R158, R172, R187,
R214: what each special register reads. -/
def Obligations.SpecialRegisters : Prop :=
  (∀ (s : State) (k : Nat) (g : Group) (w : Slot),
     let n := w.a.specialIndex
     let word := (s.scalarSource g w w.b).toNat
     let m := w.d0.specialIndex
     let v := s.scalarSource g w w.a
     let writes : Group → Out := fun h => .next (s.retire k w h)
     (ReadyTo (.srds w) s k g → n ≠ 0x80 ∨ g.system = true → word < specialWords n →
       ((∃ r, w.d0 = .scalar r) → exec (.srds w) s = writes (g.setS w.d0.scalarIndex (s.special g n word))) ∧
       ((∃ r, w.d0 = .vec r) → exec (.srds w) s = writes ((lanesOf (g.lanes w) g.width).foldl (fun a l =>
         a.setLane w.ty w.d0.vecIndex l (s.specialLane g n word l).toNat) g))) ∧
     (ReadyTo (.srds w) s k g → n ≠ 0x80 ∨ g.system = true → specialWords n ≤ word → s.trapWaits k = false →
       exec (.srds w) s = .next (s.trapAt k (trapAll g 0x07 0))) ∧
     (ReadyTo (.srds w) s k g → n = 0x80 → g.system = false → s.trapWaits k = false →
       exec (.srds w) s = .next (s.trapAt k (trapAll g 0x12 0))) ∧
     (ReadyTo (.swrs w) s k g →
       (m < 7 → exec (.swrs w) s = writes (g.setC m (v.getLsbD 0))) ∧
       (0x10 < m → m < 0x20 → exec (.swrs w) s = writes (g.setQ (m - 0x10) v)) ∧
       (m = 0x53 → exec (.swrs w) s = writes { g with gtimer := v }) ∧
       (m = 0x58 → exec (.swrs w) s = writes { g with fpstat := v.extractLsb' 0 7 }) ∧
       (m = 0x80 → g.system = true → exec (.swrs w) s = .next
         ({ s with ptroots := Tab.write 0 s.ptroots g.ctx (v &&& 0x000FFFFFFFFFFF05) }.advance k w)) ∧
       (m = 0x80 → g.system = false → s.trapWaits k = false →
         exec (.swrs w) s = .next (s.trapAt k (trapAll g 0x12 0)))) ∧
     (ReadyTo (.sigf w) s k g → exec (.sigf w) s = writes { g with
       sig := (lanesOf (g.lanes w) g.width).foldl (fun x l => sigFold x (BitVec.ofNat 8 l ::
         (if w.ty.wide then wordBytes 8 (g.v64 w.a.vecIndex l) else leBytes 4 (g.v w.a.vecIndex l).toNat))) g.sig })) ∧
  (∀ (s : State) (g : Group) (word l : Nat),
     let t := s.teamOf g
     let gives := fun (n : Nat) (x : Nat) => s.special g n word = BitVec.ofNat 64 x
     (∀ i, i < 7 → s.special g i word = if g.c i then 1 else 0) ∧ s.special g 7 word = 1 ∧
     (∀ i, i < 16 → s.special g (0x10 + i) word = g.q i ∧
       s.specialLane g (0x10 + i) word l = if (g.q i).getLsbD l then 1 else 0) ∧
     (s.specialLane g 0x40 word l = BitVec.ofNat 64 l) ∧
     (∀ n, n < 0x10 ∨ 0x20 ≤ n → n ≠ 0x40 → s.specialLane g n word l = s.special g n word) ∧
     (∀ i, i < 12 → gives (0x20 + i) (g.flag i)) ∧
     gives 0x30 g.mxcnt ∧ gives 0x31 g.gacnt ∧ gives 0x32 g.cocnt ∧ gives 0x34 g.cbopen ∧ gives 0x35 g.cbdone ∧
     gives 0x41 g.width ∧ gives 0x42 g.gid ∧ gives 0x43 t.member ∧ gives 0x44 t.clusterId ∧ gives 0x45 t.teamId ∧
     gives 0x47 (coreDie g.core) ∧ gives 0x49 g.ctx ∧
     (∀ i, g.core < 576 → (s.die (coreDie g.core)).logicalId (coreSite g.core) = some i →
       gives 0x46 (coreDie g.core * 128 + i)) ∧
     (576 ≤ g.core → gives 0x46 (512 + (g.core - 576))) ∧
     (∀ i, g.core < 576 → (s.die (coreDie g.core)).unpaired (coreSite g.core) = false →
       (s.die (coreDie g.core)).logicalId (partnerSite (coreSite g.core)) = some i → gives 0x48 i) ∧
     (g.core < 576 → (s.die (coreDie g.core)).unpaired (coreSite g.core) = true → gives 0x48 0xFF) ∧
     gives 0x50 s.now ∧ gives 0x51 (s.core g.core).cycles ∧
     (g.gtSince = none → gives 0x52 g.gtBase) ∧ (∀ b, g.gtSince = some b → gives 0x52 (g.gtBase + (s.now - b))) ∧
     (s.special g 0x53 word = g.gtimer) ∧ (∀ p, s.part g.ctx = some p → gives 0x54 (p.settleMs s.now).energy) ∧
     (s.special g 0x58 word = g.fpstat.zeroExtend 64) ∧
     (∀ x seq a, s.team g.team = some x → x.launch = some seq → s.launch seq = some a → s.special g 0x60 word =
       (a.record.redund.extractLsb' 0 6).zeroExtend 64 ||| (if x.checked then 0x40 else 0)) ∧
     (s.special g 0x61 word = g.sig) ∧
     (∀ i, i < 4 → gives (0x70 + i) ((s.die i).disabled.toNat / 2 ^ (64 * word) % 2 ^ 64)) ∧
     (coreDie g.core < 4 →
       (word < 2 → gives 0x74 ((s.die (coreDie g.core)).fenced.toNat / 2 ^ (64 * word) % 2 ^ 64)) ∧
       (word = 2 → (s.special g 0x74 word).extractLsb' 0 16 = (s.die (coreDie g.core)).fenced.extractLsb' 128 16 ∧
         (s.special g 0x74 word).extractLsb' 48 16 = (s.die (coreDie g.core)).fenceGen.zeroExtend 16) ∧
       s.special g 0x78 word = bytesWord (((s.die (coreDie g.core)).lpt.drop (8 * word)).take 8)) ∧
     (4 ≤ coreDie g.core → s.special g 0x74 word = 0 ∧ s.special g 0x78 word = 0xFFFFFFFFFFFFFFFF) ∧
     s.special g 0x80 word = Tab.read 0 s.ptroots g.ctx)

/-- R217, R371, R373, R374, R377: taking a trap. With a handler entry, outside handler state, s1, s2 and s3 are saved
in the hidden registers and receive the cause word, the fault address and the slot, q15 is saved and receives the
lanes, the group enters handler state and stands at the entry; every other register, memory and every other group
stay. In handler state, or without an entry, the trap is fatal. TRAP takes code 0x0A, and DBRK takes 0x0B when
debugging is off and stops the group for the debugger when it is on. -/
def Obligations.TakingATrap : Prop :=
  ∀ (s : State) (k : Nat) (g : Group) (w : Slot) (c : Cause) (slot : Nat) (resume : Resume),
    (s.group k = some g → g.doomed = none →
      (∀ entry, s.handlerEntry g = some entry → g.handler = false → g.trapMustWait = false →
        let t := s.takeTrap k c slot resume
        let h0 := g.settleTrapRegs
        (∀ a, t.byte a = s.byte a) ∧ (∀ j, j ≠ k → t.group j = s.group j) ∧ ∃ h, t.group k = some h ∧
          h.hidden = some { s1 := h0.s 1, s2 := h0.s 2, s3 := h0.s 3, q15 := h0.q 15, resume := resume, slot := slot,
                            own := h0.replayOps, cause := c } ∧
          h.handler = true ∧ h.pc = entry ∧ h.clause = none ∧
          (Tab.wf 0 h0.sregs = true → h.s 1 = (c.word false).zeroExtend 64 ∧ h.s 2 = c.faddr ∧
            h.s 3 = BitVec.ofNat 64 slot) ∧
          (∀ r, r ≠ 1 → r ≠ 2 → r ≠ 3 → h.s r = h0.s r) ∧
          (Tab.wf 0 h0.qregs = true → h.q 15 = c.lanes &&& g.q0) ∧ (∀ r, r ≠ 15 → h.q r = h0.q r) ∧
          h.vecs = h0.vecs ∧ h.cregs = h0.cregs ∧ h.fpstat = h0.fpstat ∧
          h.gtimer = (if c.code = 0x0C then 0 else h0.gtimer)) ∧
      (g.handler = true → s.handlerEntry g ≠ none → s.takeTrap k c slot resume = s.fatalTrap k c true slot) ∧
      (s.handlerEntry g = none → s.takeTrap k c slot resume = s.fatalTrap k c g.handler slot)) ∧
    (ReadyTo (.trap w) s k g → s.trapWaits k = false →
      exec (.trap w) s = .next ((s.modGroup k (Group.yields w)).trapAt k { trapAll g 0x0A 0 with arg := w.imm.toNat })) ∧
    (ReadyTo (.dbrk w) s k g →
      (s.debugEnabled g = false → s.trapWaits k = false →
        exec (.dbrk w) s = .next ((s.modGroup k (Group.yields w)).trapAt k { trapAll g 0x0B 0 with arg := w.imm.toNat })) ∧
      (s.debugEnabled g = true → g.trapMustWait = false → exec (.dbrk w) s = .next
        (((s.setGroup k { g.settleTrapRegs with debugStop := true }).modHub (fun h =>
          { h with stopped := h.stopped ++ [(k, g.pc)] })).raiseIrq 3)))

/-- R185, R218, R376: ERET. In handler state it restores s1, s2, s3 and q15 from the hidden registers, leaves handler
state, and the group goes on at the saved slot with the lanes of q15, or after the instruction, once the rest of the
interrupted clause can be drawn and has been; until then it waits. Elsewhere it traps with 0x12. -/
def Obligations.ReturningFromATrap : Prop :=
  ∀ (s : State) (k : Nat) (g : Group) (w : Slot),
    (ReadyTo (.eret w) s k g → s.trapWaits k = false → g.handler = false →
      exec (.eret w) s = .next (s.trapAt k (trapAll g 0x12 0))) ∧
    ∀ h : Hidden, g.hidden = some h →
      let x := (g.returnFrom h s.now (w.mod.getLsbD 0)).yields w
      let price := h.price g.width
      (ReadyTo (.eret w) s k g → g.handler = true → s.drawable g.core price = true →
        exec (.eret w) s = .next (((s.setGroup k x).drawPrice g.core g.ctx price).resumeEngines k)) ∧
      (ReadyTo (.eret w) s k g → g.handler = true → s.drawable g.core price = false → exec (.eret w) s = .next (s.hold k)) ∧
      (s.drawable g.core price = true ↔
        price = 0 ∨ 576 ≤ g.core ∨ price ≤ (s.core g.core).purse ∧ s.purseBlocked g.core = false) ∧
      x.hidden = none ∧ x.handler = false ∧ x.yielded = w.yld ∧ x.vecs = g.vecs ∧ x.cregs = g.cregs ∧ x.fpstat = g.fpstat ∧
      (Tab.wf 0 g.sregs = true → x.s 1 = h.s1 ∧ x.s 2 = h.s2 ∧ x.s 3 = h.s3) ∧
      (∀ r, r ≠ 1 → r ≠ 2 → r ≠ 3 → x.s r = g.s r) ∧ (∀ r, r ≠ 15 → x.q r = g.q r) ∧
      (Tab.wf 0 g.qregs = true → x.q 15 = h.q15 &&& g.q0) ∧
      (∀ slot, h.resume = .entrySlot slot → x.pc = slot ∧ x.clause = none ∧ x.replay = none) ∧
      ∀ c sk a word rest, h.resume = .instruction c sk → c.rest = (a, word) :: rest →
        (w.mod.getLsbD 0 = false → sk = false → g.q 15 ≠ 0 →
          x.pc = a ∧ x.clause = some c ∧ x.replay = some (g.q 15) ∧ x.replayOps = h.own) ∧
        (w.mod.getLsbD 0 = true ∨ sk = true ∨ g.q 15 = 0 → x.replay = none ∧
          x.pc = (match rest with
            | [] => a / 64 * 64 + 64
            | p :: _ => p.1))

/-- R138, R146, R185, R219 to R224: mapping, freeing and invalidating, and HALTC. PMAP, PFREE and TLBI trap with 0x12
in user mode outside handler state, HALTC outside system mode. PMAP maps the first frame of the named pool, bound to
the context where it is CONF, or tells why it does not, by the status in D1; a bad attribute word traps with 0x07, an
address at or above 2^57 with 0x10 (the model's choice, log 95), an entry of a bad format with 0x13, and an entry on a
die that answers with errors is counted and traps with 0x21 (the model's choice, log 90). A PFREE of a frame that is
misaligned or outside device HBM, and a HALTC whose mask has a bit above bit 1, trap with 0x07. PFREE drops the append
pages of the frame and puts its purge in flight; TLBI invalidates at once, or with .wait in flight (that a TLBI
without .wait acts at once, and that TLBI.ctx takes any context, is the model's choice, log 23); HALTC waits for a
latched event or its deadline. -/
def Obligations.PagesAndHalt : Prop :=
  ∀ (s : State) (k : Nat) (g : Group) (w : Slot),
    let refuses := fun (i : Instr) => exec i s = .next (s.trapFrom s k i (trapAll g 0x12 0))
    let may := g.handler || g.system
    let va := (s.scalarSource g w w.a).toNat
    let attr := (s.scalarSource g w w.b).toNat
    let page := (g.s w.a.scalarIndex).toNat
    let big := ptePS attr
    let size := if w.mod.getLsbD 0 then 2097152 else 65536
    let mask := s.scalarSource g w w.a
    let t := (s.scalarSource g w w.b).toNat
    let all := w.mod.getLsbD 0
    let scope := w.mod.extractLsb' 1 3
    let ctx := if w.mod.getLsbD 5 then (s.scalarSource g w w.c).toNat else g.ctx
    let base := if all then 0 else (s.scalarSource g w w.a).toNat
    let len := if all then 2 ^ 64 else (s.scalarSource g w w.b).toNat
    (s.trapWaits k = false → may = false →
      (ReadyTo (.pmap w) s k g → refuses (.pmap w)) ∧ (ReadyTo (.pfree w) s k g → refuses (.pfree w)) ∧
      (ReadyTo (.tlbi w) s k g → refuses (.tlbi w))) ∧
    (s.trapWaits k = false → g.system = false → ReadyTo (.haltc w) s k g → refuses (.haltc w)) ∧
    (ReadyTo (.pmap w) s k g → may = true → attr &&& 0xE2FC = attr → va < 2 ^ 57 → ∀ die,
      attributeDie g.core attr = some die →
      let gives : Nat → Nat → State → Out := fun x st s1 => .next ((s1.modGroup k (fun y => y.depart w
        [.scalar w.d0.scalarIndex, .scalar w.d1.scalarIndex] (pairWrites2 w (BitVec.ofNat 64 x) (BitVec.ofNat 64 st)) 0
        none .mapping)).advance k w)
      (s.mapWalk g.ctx va big = .absent → exec (.pmap w) s = gives 0 4 s) ∧
      ∀ a e, s.mapWalk g.ctx va big = .entry a e →
        (pteV e = true → exec (.pmap w) s = gives e 1 s) ∧
        (pteV e = false → pteFT e = false → exec (.pmap w) s = gives 0 3 s) ∧
        (pteV e = false → pteFT e = true → (s.die die).pool g.ctx big = [] → exec (.pmap w) s = gives 0 2 s) ∧
        ∀ frame rest, pteV e = false → pteFT e = true → (s.die die).pool g.ctx big = frame :: rest →
          let s1 := (s.modDie die (fun d => d.setPool g.ctx big rest)).zeroFrame frame (pageBytes big)
          exec (.pmap w) s = gives (mappedEntry attr die frame) 0
            ((if attr.testBit 9 then s1.bindFrames g.ctx frame (pageBytes big) else s1).homeCommit none
              (atAddr a (leBytes 8 (mappedEntry attr die frame))))) ∧
    (s.trapWaits k = false →
      let range := fun (i : Instr) => exec i s = .next (s.trapFrom s k i (trapAll g 0x07 0))
      (ReadyTo (.pmap w) s k g → may = true → attr &&& 0xE2FC ≠ attr ∨ attributeDie g.core attr = none → range (.pmap w)) ∧
      (ReadyTo (.pfree w) s k g → may = true → page % size ≠ 0 ∨ inHbm page size = false → range (.pfree w)) ∧
      (ReadyTo (.haltc w) s k g → g.system = true → 3 < mask.toNat → range (.haltc w))) ∧
    (ReadyTo (.pmap w) s k g → may = true → attr &&& 0xE2FC = attr → s.trapWaits k = false →
      attributeDie g.core attr ≠ none →
      let traps : State → Nat → Out := fun x code => .next (x.trapFrom s k (.pmap w) (trapAll g code (BitVec.ofNat 64 va)))
      (2 ^ 57 ≤ va → exec (.pmap w) s = traps s 0x10) ∧
      (va < 2 ^ 57 → s.mapWalk g.ctx va big = .format → exec (.pmap w) s = traps s 0x13) ∧
      (va < 2 ^ 57 → ∀ a, s.mapWalk g.ctx va big = .error a → exec (.pmap w) s = traps (s.countError a) 0x21)) ∧
    (ReadyTo (.pfree w) s k g → may = true → page % size = 0 → inHbm page size = true → exec (.pfree w) s = .next
      (({ s with appends := s.appends.filter (fun p => !(decide (page ≤ p.1) && decide (p.1 < page + size))), purges := Tab.insert s.purges page [0, 1, 2, 3] }.modGroup k (fun y =>
        y.depart w [] [] 0 none (.purge page size (w.mod.getLsbD 1)))).advance k w)) ∧
    (ReadyTo (.tlbi w) s k g → may = true →
      (w.mod.getLsbD 4 = true → exec (.tlbi w) s = .next ((s.modGroup k (fun y =>
        y.depart w [] [] 0 none (.invalidate (some ctx) base len scope (coreDie g.core)))).advance k w)) ∧
      (w.mod.getLsbD 4 = false →
        exec (.tlbi w) s = .next ((s.invalidate (some ctx) base len scope (coreDie g.core)).advance k w))) ∧
    (ReadyTo (.haltc w) s k g → g.system = true → mask.toNat ≤ 3 → exec (.haltc w) s = .next
      ((s.beginWait k g w (.haltc (mask.extractLsb' 0 2) (if t = 0 then none else some (s.now + t))
        (some w.d0.scalarIndex))).pokeHalt k))

/-! ## Engines -/

/-- R284, R285: basins. BCFG of a basin that no issued operation names writes its descriptor with both pointers zero,
outside its operand ranges it traps with 0x07, and beyond the scratchpad with 0x08. BPUT with room for n elements
advances PROD by n and gives the old PROD; BTAKE with n elements held advances CONS and gives the old CONS; either
gives all ones when it cannot; both trap with 0x07 for a basin that is not configured or holds fewer than n elements
in all. The original of a check logs which it was, and a later run does what the log says, waiting for its own basin
(R296, R350; the log's content and that wait are the model's choice, log 74). -/
def Obligations.Basins : Prop :=
  ∀ (s : State) (k : Nat) (g : Group) (w : Slot),
    let i := w.mod.toNat % 16
    let x := (s.scalarSource g w w.a).toNat
    let e := (s.scalarSource g w w.b).toNat
    let n := (s.scalarSource g w w.c).toNat
    let b := (s.teamOf g).basin i
    let d := w.d0.scalarIndex
    let traps := fun (j : Instr) (c : Nat) (a : Word) => exec j s = .next (s.trapAt k (trapAll g c a))
    let inRange : Bool := x % 128 = 0 && e % 16 = 0 && 16 ≤ e && e ≤ 65536 && 1 ≤ n && n ≤ 4096
    let moved : Basin → BitVec 32 → Out := fun y v => .next (((s.modTeam g.team (fun t => t.setBasin i y)).modGroup k
      (fun h => h.setS d (v.zeroExtend 64))).advance k w)
    let ones : Out := .next ((s.modGroup k (fun h => h.setS d 0xFFFFFFFFFFFFFFFF#64)).advance k w)
    (ReadyTo (.bcfg w) s k g →
      (s.basinBusy g.team i = false → inRange = true → x + e * n ≤ (s.teamOf g).scratchSize → exec (.bcfg w) s = .next
        (((s.modTeam g.team (fun t => t.setBasin i { base := x, esize := e, count := n, prod := 0, cons := 0 })).modGroup k
          id).advance k w)) ∧
      (s.trapWaits k = false → s.basinBusy g.team i = true ∨ inRange = false → traps (.bcfg w) 0x07 0) ∧
      (s.trapWaits k = false → s.basinBusy g.team i = false → inRange = true →
        (s.teamOf g).scratchSize < x + e * n → traps (.bcfg w) 0x08 (BitVec.ofNat 64 x))) ∧
    (ReadyTo (.bput w) s k g →
      (s.runOf (g.who k) = none → b.count ≠ 0 → x ≤ b.count → x ≤ b.room → g.refused = none →
        exec (.bput w) s = moved { b with prod := b.prod + BitVec.ofNat 32 x } b.prod) ∧
      (s.runOf (g.who k) = none → b.count ≠ 0 → x ≤ b.count → b.room < x → exec (.bput w) s = ones) ∧
      (s.trapWaits k = false → b.count = 0 ∨ b.count < x → traps (.bput w) 0x07 0)) ∧
    (ReadyTo (.btake w) s k g →
      (s.runOf (g.who k) = none → b.count ≠ 0 → x ≤ b.count → x ≤ b.held →
        exec (.btake w) s = moved { b with cons := b.cons + BitVec.ofNat 32 x } b.cons) ∧
      (s.runOf (g.who k) = none → b.count ≠ 0 → x ≤ b.count → b.held < x → exec (.btake w) s = ones) ∧
      (s.trapWaits k = false → b.count = 0 ∨ b.count < x → traps (.btake w) 0x07 0)) ∧
    (b.count ≠ 0 → x ≤ b.count → g.refused = none → ∀ (i : Instr) (op : Nat) (fits : Bool) (old : BitVec 32) (y : Basin),
      i = .bput w ∧ op = 0x308 ∧ fits = decide (x ≤ b.room) ∧ old = b.prod ∧ y = { b with prod := b.prod + BitVec.ofNat 32 x } ∨
        i = .btake w ∧ op = 0x309 ∧ fits = decide (x ≤ b.held) ∧ old = b.cons ∧
          y = { b with cons := b.cons + BitVec.ofNat 32 x } →
      ReadyTo i s k g →
      (∀ c, s.runOf (g.who k) = some (c, 0) → exec i s = .next (((s.logFor (g.who k) g.gid
        { op := op, lanes := 0, operands := [BitVec.ofNat 64 x]
          values := [if fits then old.zeroExtend 64 else 0xFFFFFFFFFFFFFFFF#64] }).moveBasin k g w fits old y).advance k w)) ∧
      ∀ c r e s1, s.runOf (g.who k) = some (c, r + 1) → s.readLog c (r + 1) k g op 0 [BitVec.ofNat 64 x] = (some e, s1) →
        let was := nth 0 e.values 0 != 0xFFFFFFFFFFFFFFFF#64
        (was = true → fits = false → exec i s = .next (s.hold k)) ∧
        (was = false ∨ fits = true → exec i s = .next ((s1.moveBasin k g w was old y).advance k w)))

/-- R122, R283, R287 to R289, R294: TREC, CPY and CPYB. TREC of an aligned record that reads without a fault and is
well formed puts it in flight for its slot. A copy between two records that match in tile and format, or between a
record and a basin, whose origin suits the format, enters the copy queue, unless its team has 63 unretired copies,
when the instruction waits. CPYB closes the open batch and gives its number. R290 to R294: the encrypting and the
releasing copy, the gather and the collective, of a group that is not under check, each entering its engine's queue,
or waiting while its team has 63 unretired operations of the class. -/
def Obligations.Copies : Prop :=
  (∀ (s : State) (k : Nat) (g : Group) (w : Slot),
     let t := s.teamOf g
     let o := g.origin w w.imm.toNat
     let src := s.copySide t (w.mod.getLsbD 0) (w.mod.extractLsb' 2 4).toNat
     let dst := s.copySide t (w.mod.getLsbD 1) (w.mod.extractLsb' 6 4).toNat
     let op : CopyEnd → CopyEnd → List (Nat × Nat) → List (Nat × Nat) → EngineOp := fun a b ins outs =>
       { cls := .copy, team := g.team, group := k, slot := g.pc, kind := .cpy a b o, ins := ins, outs := outs }
     let enters : EngineOp → List (Nat × Nat) → Prop := fun x touched => exec (.cpy w) s =
       (if 63 ≤ (s.unretired g.team .copy).length then .next (s.hold k)
        else .next (((s.drainFor (g.who k) touched).submit k g x).advance k w))
     (ReadyTo (.trec w) s k g → g.pageAddress w % 64 = 0 → ∀ ps x s1,
       s.routeOne (g.who k) g.walkFaults .read .any (g.pageAddress w) 64 = .ok ps →
       s.readLogged k g 0x300 [{ lane := 0, accesses := [ps] }] = (some x, s1) → x.fault = none →
       let r := BitVec.ofNat 512 (leNat ((x.values.map (fun y => y.2.flatten)).flatten))
       (s1.tensor (s1.teamOf g) r).isSome = true → exec (.trec w) s = .next ((s1.modGroup k (fun y =>
         y.depart w [] [] 0 none (.record (w.mod.toNat % 8) r))).advance k w)) ∧
     (ReadyTo (.trec w) s k g → g.pageAddress w % 64 ≠ 0 → s.trapWaits k = false →
       exec (.trec w) s = .next (s.trapFrom s k (.trec w) (trapAll g 0x07 0))) ∧
     (ReadyTo (.cpy w) s k g →
       (∀ x a y b, src = .tensor x a → dst = .tensor y b → tilesMatch a b = true → a.originOk o = true →
         enters (op (.tensor x) (.tensor y) [] []) (a.ranges o ++ b.ranges o)) ∧
       (∀ x a i b n, src = .tensor x a → dst = .basin i b → a.originOk o = true → b.elements a.tile = some n →
         enters (op (.tensor x) (.basin i) [] [(i, n)]) (a.ranges o)) ∧
       (∀ i b x a n, src = .basin i b → dst = .tensor x a → a.originOk o = true → b.elements a.tile = some n →
         enters (op (.basin i) (.tensor x) [(i, n)] []) (a.ranges o)) ∧
       ∀ x a y b, src = .tensor x a → dst = .tensor y b → tilesMatch a b = false → s.trapWaits k = false →
         exec (.cpy w) s = .next (s.trapAt k (trapAll g 0x1A 0))) ∧
     (ReadyTo (.cpyb w) s k g → exec (.cpyb w) s = .next (((s.setGroup k (g.closeBatch.setS w.d0.scalarIndex
       (BitVec.ofNat 64 (g.cbopen + 1)))).pokeWait k).advance k w))) ∧
  (∀ (s : State) (k : Nat) (g : Group) (w : Slot),
     let t := s.teamOf g
     let side := fun (lo : Nat) => s.copySide t false (w.mod.extractLsb' lo 4).toNat
     let v := (g.s w.a.scalarIndex).toNat
     let queued : Instr → EngineOp → List (Nat × Nat) → Prop := fun i x touched => exec i s =
       (if 63 ≤ (s.unretired g.team x.cls).length then .next (s.hold k)
        else .next (((s.drainFor (g.who k) touched).submit k g x).advance k w))
     s.runOf (g.who k) = none →
     (ReadyTo (.cpyx w) s k g → ∀ x a y b, side 2 = .tensor x a → side 6 = .tensor y b →
       let o := g.origin w w.imm.toNat
       (isBytes x a && isBytes y b && tilesMatch a b) = true → v % 8 = 0 → a.originOk o = true →
         queued (.cpyx w) { cls := .copy, team := g.team, group := k, slot := g.pc
                            kind := .cpyx (w.mod.getLsbD 10) x y o (w.mod.extractLsb' 11 5).toNat v }
           ((v, 32) :: a.ranges o ++ b.ranges o)) ∧
     (ReadyTo (.cpyr w) s k g → ∀ x a y b, side 2 = .tensor x a → side 6 = .tensor y b →
       let o := g.origin w 0
       a.rank ≤ 4 → b.rank ≤ 4 → tilesMatch a b = true → v % 8 = 0 → a.originOk o = true →
         queued (.cpyr w) { cls := .copy, team := g.team, group := k, slot := g.pc
                            kind := .cpyr (if w.mod.getLsbD 10 then some (w.mod.extractLsb' 11 4).toNat else none) x y o
                              (if w.a.scalarIndex = 0 then none else some v) w.imm
                            portDown := w.mod.getLsbD 10 &&
                              Tab.read PortState.down s.hub.ports (w.mod.extractLsb' 11 4).toNat != .up }
           (a.ranges o ++ (if w.mod.getLsbD 10 then [] else b.ranges o))) ∧
     (ReadyTo (.gath w) s k g → ∀ x r i e, s.copySide t false (w.mod.extractLsb' 0 3).toNat = .tensor x r → r.rank = 2 →
       let n := (s.scalarSource g w w.a).toNat
       let o := (s.scalarSource g w w.b).toNat % 2 ^ 32
       let bytes := r.extent 0 * r.ub
       let bi := (w.mod.extractLsb' 3 4).toNat
       let bo := (w.mod.extractLsb' 7 4).toNat
       (t.basin bi).elements (4 * n) = some i → (t.basin bo).elements (n * bytes) = some e → 1 ≤ n → n ≤ 65536 →
       (t.basin bo).esize = bytes → r.originOk [o] = true → queued (.gath w)
         { cls := .gather, team := g.team, group := k, slot := g.pc, kind := .gath x n o, ins := [(bi, i)]
           outs := [(bo, e)] } (r.gatherRanges o)) ∧
     (ReadyTo (.coll w) s k g →
       let root := (s.scalarSource g w w.a).toNat
       let all := w.mod.getLsbD 2
       let bi := (w.mod.extractLsb' 3 4).toNat
       let bo := (w.mod.extractLsb' 7 4).toNat
       let size := (t.basin bi).esize
       ∀ i outs, (t.basin bi).elements size = some i →
       (if receives all root t.member then ((t.basin bo).elements size).map (fun n => [(bo, n)]) else some []) = some outs →
       root < t.members → (∀ p c d e m z l, p ∈ s.matching g t.collCount → p.2.kind = .coll c d e m t.collCount z l → z = size) →
       exec (.coll w) s = if 63 ≤ (s.unretired g.team .coll).length then .next (s.hold k) else
         .next ((((s.modTeam g.team (fun x => { x with collCount := x.collCount + 1 })).drainFor (g.who k) []).submit k g
         { cls := .coll, team := g.team, group := k, slot := g.pc
           kind := .coll (w.mod.extractLsb' 0 2).toNat all w.ty root t.collCount size none, ins := [(bi, 1)]
           outs := outs, names := [bo] }).advance k w)))

/-- R297, R302, R304, R305, R308 to R313, R316: the matrix instructions. With no active lane an elected one does
nothing, with more than one it traps with 0x07; with one lane, an array that no fault stopped, fewer than 63 unretired
operations and the array in the team's hands, it enters the matrix queue, and TCFG and MLDB change what later
instructions are checked against. That MSTO.cv advances the stochastic count whenever .cv stands (log 68), and the
order of the lane count before the recorded fault (log 112), are the model's choice. R90, R91: one K step of one
output word. In an integer slot the sum of the products is added to the word modulo 2^32; in a floating-point slot the
word and the exact sum of the products are added exactly and rounded once, to nearest even. -/
def Obligations.MatrixIssue : Prop :=
  (∀ (s s1 : State) (k : Nat) (g : Group) (w : Slot),
     let lanes := (lanesOf (g.lanes w) g.width).length
     let free := s.arrayFault g = none ∧ (s.unretired g.team .matrix).length < 63 ∧ s.takeArray g.core g.team = some s1
     let a := (s1.core g.core).array
     let f := fun (lo n : Nat) => (w.mod.extractLsb' lo n).toNat
     let t := s1.teamOf g
     let slot := fun (lo : Nat) => s.slotDesc g (f lo 3)
     (∀ i, i ∈ [Instr.tcfg w, .mzero w, .mldb w, .mma w, .msto w] → ReadyTo i s k g →
       (lanes = 0 → exec i s = .next (s.advance k w)) ∧
       (1 < lanes → s.trapWaits k = false → exec i s = .next (s.trapAt k (trapAll g 0x07 0)))) ∧
     (ReadyTo (.tcfg w) s k g → lanes = 1 → free →
       let x := s1.scalarSource g w w.a
       let y := s1.scalarSource g w w.b
       let tiles := (List.range 8).filterMap (fun j => match tileField x y j with
         | some (r, c) => if r = 0 then none else some (j, (r, c))
         | none => none)
       (∀ j, j < 8 → tileField x y j ≠ none) → (tiles.map (fun p => p.2.1 * p.2.2)).foldl (· + ·) 0 ≤ 65536 →
       exec (.tcfg w) s = .next (((s1.modArray g.core (fun z => { z with view := tiles })).submit k g
         (g.matrixOp k (.tcfg tiles) [] [])).advance k w)) ∧
     (ReadyTo (.mzero w) s k g → lanes = 1 → free → (∀ j, j < 8 → w.mod.getLsbD j = true → Tab.find a.view j ≠ none) →
       exec (.mzero w) s = .next ((s1.submit k g (g.matrixOp k (.mzero (w.mod.extractLsb' 0 8)) [] [])).advance k w)) ∧
     (ReadyTo (.mldb w) s k g → lanes = 1 → free →
       let sp := w.mod.getLsbD 16
       let d := slot 13
       let n := (s1.scalarSource g w w.b).toNat
       let p : Panel := { offset := (s1.scalarSource g w w.a).toNat, cols := n, steps := (s1.scalarSource g w w.c).toNat
                          slot := d, sparse := sp, data := [], side := [] }
       ∀ ins, p.offset % 128 = 0 → n % 16 = 0 → 16 ≤ n → n ≤ 4080 → 1 ≤ p.steps → p.steps ≤ 4096 →
       p.offset + n * p.steps * (if sp then 32 else 64) ≤ 262144 →
       t.operand d sp n p.steps (f 0 4) (f 4 4) = some ins → exec (.mldb w) s = .next
         (((s1.modArray g.core (fun z => { z with viewPanels := putPanel z.viewPanels (f 9 4) p })).submit k g
           (g.matrixOp k (.mldb (f 9 4) p) ins [])).advance k w)) ∧
     (ReadyTo (.mma w) s k g → lanes = 1 → free → ∀ rows cols p ins, Tab.find a.view (f 0 3) = some (rows, cols) →
       Tab.find a.viewPanels (f 12 4) = some p → p.cols = cols → slotsAlike (slot 16) p.slot = true →
       t.operand (slot 16) false rows p.steps (f 3 4) (f 7 4) = some ins → exec (.mma w) s = .next
         (((if w.mod.getLsbD 19 then s1.evenFirst t else s1).submit k g
           (g.matrixOp k (.mma (f 0 3) (f 12 4) (slot 16) (w.mod.getLsbD 19)) ins [])).advance k w)) ∧
     (ReadyTo (.msto w) s k g → lanes = 1 → free →
       let cv := w.mod.getLsbD 7
       let d := if cv then slot 8 else 0
       ∀ rows cols rb n, Tab.find a.view (f 0 3) = some (rows, cols) → storeRowBytes cv d cols = some rb →
       (t.basin (f 3 4)).elements (rows * rb) = some n → exec (.msto w) s = .next
         (((s1.submit k g (g.matrixOp k (.msto (f 0 3) cv (w.mod.getLsbD 12) (w.mod.getLsbD 11) d g.stoch) []
           [(f 3 4, n)])).modGroup k (fun x => x.countStochastic d cv)).advance k w)) ∧
     (ReadyTo (.mq4 w) s k g → free → ∀ r n,
       let z := fusion (f 3 2)
       let c := (s1.scalarSource g w w.c).toNat
       Tab.find a.view (f 0 3) = some (r, n) → c % 65536 % 8 = 0 → c / 65536 % 65536 % 8 = 0 →
       c % 65536 + z.2.2.1 ≤ r → c / 65536 % 65536 + z.2.2.2 ≤ n → exec (.mq4 w) s = .next ((s1.submit k g
         (g.matrixOp k (.mq4 (f 0 3) (f 3 2) (slot 5) (slot 8) (g.image w.a.vecIndex (imageRegs z.1 g.width))
           (g.image w.b.vecIndex (imageRegs z.2.1 g.width)) (c % 65536) (c / 65536 % 65536)) [] [])).advance k w))) ∧
  (∀ (c : BitVec 32) (xs ys : List Exact), xs.length = ys.length → xs ≠ [] →
     let products := List.zipWith (fun x y => (x.mul y).1) xs ys
     let sum := match products with
       | [] => Exact.zero false
       | p :: ps => ps.foldl (fun a q => (a.add false q).1) p
     accumulate true c (xs.map some) (ys.map some) = c + BitVec.ofInt 32 sum.toInt ∧
     accumulate false c (xs.map some) (ys.map some) =
       BitVec.ofNat 32 (round fp32 .rne ((decodeFloat fp32 c.toNat).add false sum).1).code)

/-- The frame of the queues: putting an engine or a matrix operation into its team's queue raises the counter of its
class (R122, R294) and changes no memory, no register of any group and no other group. R122, R286, R289 to R316, R333,
R409 to R411: engine operations. One that may fire notes where its basins stand, and a COLL contributes its element.
One that is ready for its next step draws at most 96 tokens towards its price, and takes the step when it has drawn it
all; in a pair each array's own purse pays its own price. That one ENGINE_STEP draws 96 tokens at most and a dearer
step several times is the model's choice (log 52), and so is the pair's binding to its follower on arrival (log 55).
One that may retire leaves, its counter falls, and the waits of its group are looked at again. A paired operation
reaches the follower, whose tile and panel must fit, or the array stops. An encrypted copy that is first in line is
settled by the key engine. -/
def Obligations.EngineEvents : Prop :=
  (∀ (s : State) (k : Nat) (g : Group) (o : EngineOp), s.group k = some g →
     let t := s.submit k g o
     t.mem = s.mem ∧ (∀ j, j ≠ k → t.group j = s.group j) ∧
     (∃ n, t.ops = Tab.insert s.ops n { o with batch := (if o.cls = .copy then g.cbopen + 1 else 0), ordinal := g.copyPos }) ∧
     ∃ h, t.group k = some h ∧ h.sregs = g.sregs ∧ h.vecs = g.vecs ∧ h.qregs = g.qregs ∧ h.cregs = g.cregs ∧
       h.flags = g.flags ∧ h.fpstat = g.fpstat ∧ h.pc = g.pc ∧ h.hidden = g.hidden ∧
       h.mxcnt = g.mxcnt + natOf (o.cls = .matrix) ∧ h.gacnt = g.gacnt + natOf (o.cls = .gather) ∧
       h.cocnt = g.cocnt + natOf (o.cls = .coll)) ∧
  (∀ (s : State) (key : Nat) (o : EngineOp) (t : Team), s.op key = some o → s.team o.team = some t →
     (s.mayFire key o t = true →
       let places := (o.ins.map (fun q => (t.basin q.1).cons.toNat), o.outs.map (fun q => (t.basin q.1).prod.toNat))
       exec (.engineFire key) s = .next ((s.modOp key (fun x => { x with fired := some places })).contribute key o t)) ∧
     (∀ s1, s.readyOp key o t = some s1 →
       let need := s1.stepNeed o t
       let draw := min 96 (need - o.paid)
       let paid := { o with paid := o.paid + draw, hungry := none }
       let drawn := s1.drawEngine t.ctx (s1.stepDraws o t draw)
       (s1.pairArray o = none → need = s1.stepPrice o t) ∧ (∀ c, s1.pairArray o = some c →
         need = max (s1.stepPrice o t) (s1.matrixPrice o c) ∧
         s1.stepDraws o t draw = (if o.paid < s1.stepPrice o t then [(t.core, min draw (s1.stepPrice o t - o.paid))] else []) ++
           (if o.paid < s1.matrixPrice o c then [(c, min draw (s1.matrixPrice o c - o.paid))] else [])) ∧
       (0 < draw → drawn = none → exec (.engineStep key) s =
         .next (s.modOp key (fun x => { x with hungry := if x.hungry.isNone then some s.now else x.hungry }))) ∧
       (∀ s2, 0 < draw → drawn = some s2 →
         (o.paid + draw < need → exec (.engineStep key) s = .next { s2 with ops := Tab.insert s2.ops key paid }) ∧
         (need ≤ o.paid + draw → exec (.engineStep key) s = .next (s2.afterStep key paid t))) ∧
       (need ≤ o.paid → exec (.engineStep key) s = .next (s1.afterStep key paid t))) ∧
     (s.engineRuns t = true → s.mayRetire key o t = true →
       let s1 := { s with ops := Tab.remove s.ops key }
       let s2 := (s1.modTeam o.team (fun x => x.modEngineQueue o.cls (fun q =>
         { q with retired := q.retired + 1 }))).noteProg o.team o.cls
       let s3 := (s2.modGroup o.group (fun g => g.retireOp o)).feedWatchdog t.ctx
       exec (.engineRetire key) s = .next ((s3.pokeWait o.group).tryExit o.group)) ∧
     (∀ tile index z s1, o.kind = .mma tile index z true → s.engineRuns t = true → o.done = false → o.arrived = none →
       o.fired ≠ none → t.arrayStop = none → s.oldest key o = true → s.pairHeld t = false →
       s.pairBlocks key o.team = false → s.takeArray t.core o.team = some s1 →
       (∀ f y, s1.followerOf t = some (f, y) → s1.pairFits t f y (s1.pairBound f) tile index = true → exec (.pairArrival key) s =
         .next (s1.modOp key (fun x => { x with arrived := some (s1.pairBound f), follower := some f }))) ∧
       (s1.followerOf t = none ∨
           (∃ f y, s1.followerOf t = some (f, y) ∧ s1.pairFits t f y (s1.pairBound f) tile index = false) →
         exec (.pairArrival key) s = .next (s1.stopArray key o 0x23 0))) ∧
     (∀ enc x y origin slot block a b, o.kind = .cpyx enc x y origin slot block → s.engineRuns t = true →
       o.done = false → o.stopped = false → o.parked = none → o.arrived ≠ none → s.keyQueued o slot = false →
       s.tensor t x = some a → s.tensor t y = some b →
       (∀ s1, s.settleCpyx key o t enc a b origin slot block = .inl s1 → exec (.cpyxSettle key) s = .next s1) ∧
       (∀ s1 code va, s.settleCpyx key o t enc a b origin slot block = .inr (s1, .fault code va) →
         exec (.cpyxSettle key) s = .next (s1.engineFault key o code va false)) ∧
       (∀ s1 entry va, s.settleCpyx key o t enc a b origin slot block = .inr (s1, .host entry va) →
         exec (.cpyxSettle key) s = .next (s1.parkOp key t.ctx entry va))))

/-! ## Clauses, completions and walks -/

/-- R155 to R157, R216, R327 to R329: the issue of clauses. A group that may issue and owes no trap, whose next clause
predecodes, whose WAIT flags are clear and which the arbiter chooses starts that clause: its price is drawn, its
priority marks fall, and it becomes the current group. When its timer is due and its next clause waits for no flag it
takes a TIMER trap at the entry slot instead. A group that has lost 64 arbitrations becomes sticky. R151, R155, R156:
what predecode lets through is a clause: it holds 1 to 24 slots of which the last, and no other, carries BND; the
first is at the entry slot; and its price is the sum of its slots' prices. -/
def Obligations.ClausesIssue : Prop :=
  (∀ (s : State) (k : Nat) (g : Group), s.group k = some g →
     (s.eligible g = true → s.timerDue g = false → g.engFaults = [] → ∀ c price s1,
       s.predecode (g.who k) g.walkFaults g.pc g.width = (.clause c price, s1) → g.flagsClear c.header = true →
       g.owedFor c.header = none → s1.chosen k g price = true →
       exec (.clauseIssue k) s = .next (s1.startClause k g c price)) ∧
     (s.eligible g = true → s.timerDue g = true → s.waitsFlags k g = false → s.trapWaits k = false →
       exec (.timerTrap k) s = .next (s.trapEntry k { code := 0x0C } g.pc)) ∧
     (64 ≤ g.losses → exec (.stickyPriority k) s = .next (s.setGroup k { g with sticky := true }))) ∧
  (∀ (s s1 : State) (who : Who) (known : List (Nat × AccessKind × Nat)) (entry width : Nat) (c : ClausePos) (price : Nat),
     s.predecode who known entry width = (.clause c price, s1) →
     isSlotAddress entry = true ∧ c.entry = entry ∧ 1 ≤ c.rest.length ∧ c.rest.length ≤ 24 ∧
     (c.rest.head?).map Prod.fst = some entry ∧ (c.rest.getLast?).map (fun p => slotBnd p.2) = some true ∧
     (∀ p ∈ c.rest.dropLast, slotBnd p.2 = false) ∧
     price = (c.rest.map (fun p => slotPrice p.2 width)).sum)

/-- R131, R132, R135, R158, R211, R222, R223, R271, R273, R283: completions. A flight lands when what it waits for
holds: a special function when no earlier one of its group is outstanding; a KLAUNCH when its queue has room, with the
launch's sequence number for D0; a SEAL when the page is sealed, with its final length; an append when its bytes have
been accepted; a PFREE when no die has still to acknowledge; a CFLUSH when no store waits for the host; a TLBI.wait
when no earlier one of its group is outstanding, its translations are gone and no store waits for the host; the others
at any time. That a CFLUSH waits for every device write that waits for the host (log 58), and that a TLBI.wait
invalidates when it completes (log 23), are the model's choice. R143, R381, R383, R384: walks and page requests. When
every walk that a parked group of a running team waits for has ended, the faults found are kept for the replay and the
group goes on; where one ends at an entry that the host serves, a page request goes out and the group waits for it.
The host's response ends the request and the waits for it, with the fault 0x14 where it is refused. A write of a front
end that finds no translation is kept with the request it made, and is made, or given up, when the host answers (log
25); its interrupt is signalled in both cases. A team one of whose groups or engine operations has waited 50 µs is
swapped out with its cluster, and a later run of a check alone. -/
def Obligations.OperationsLand : Prop :=
  (∀ (s : State) (k op : Nat) (g : Group) (f : Flight), s.group k = some g →
     g.flights.find? (fun x => x.op = op) = some f →
     let lands : State → List RegWrite → Prop := fun a ws => exec (.operationComplete k op) s = .next (a.landWith k f ws)
     let length : Option Nat → Nat → List RegWrite := fun dest n => match dest with
       | some d => [.scalar d (BitVec.ofNat 64 n)]
       | none => []
     (f.task = .plain ∨ f.task = .mapping → lands s f.writes) ∧
     (f.task = .special → g.earlierSpecial op = false → lands s f.writes) ∧
     (∀ frame dest n, f.task = .seal frame dest → s.sealedLength frame = some n → lands s (length dest n)) ∧
     (∀ frame offset, f.task = .append frame offset → s.appendAccepted frame offset = true → lands s f.writes) ∧
     (∀ frame size pool, f.task = .purge frame size pool → Tab.read [] s.purges frame = [] →
       lands (s.finishFree g.ctx frame size pool) f.writes) ∧
     (f.task = .flush → (s.snoopsOwed = false → lands s f.writes) ∧
       (s.snoopsOwed = true → exec (.operationComplete k op) s = .next s)) ∧
     (∀ ctx va len scope die, f.task = .invalidate ctx va len scope die → g.earlierInvalidate op = false →
       let s1 := s.invalidate ctx va len scope die
       (s1.snoopsOwed = false → lands s1 f.writes) ∧
       (s1.snoopsOwed = true → exec (.operationComplete k op) s = .next s1)) ∧
     (∀ slot bytes, f.task = .record slot bytes →
       lands (s.modTeam g.team (fun t => { t with records := Tab.insert t.records slot bytes })) f.writes) ∧
     (∀ q p ctx dest, f.task = .klaunch q p ctx dest →
       (256 ≤ (s.queue q).fifo.length → exec (.operationComplete k op) s = .next s) ∧
       ((s.queue q).fifo.length < 256 → (s.accept q ctx p).2.partOf (g.who k) = .plain →
         lands (s.accept q ctx p).2 (length dest (s.accept q ctx p).1)))) ∧
  (∀ (s : State),
     (∀ (k : Nat) (g : Group) (p : Parked), s.group k = some g → g.parked = some p → p.request = none →
       s.groupResident g = true → s.groupStopped g = false → s.contextRuns g.ctx = true →
       (∀ fs s1, s.walkAll (g.who k) p.needs g.walkFaults = (fs, none, s1) →
         exec (.mtuWalkComplete k) s = .next ((s1.modGroup k (fun x => { x with walkFaults := fs })).unpark k p)) ∧
       (∀ fs entry va s1 s2, s.walkAll (g.who k) p.needs g.walkFaults = (fs, some (entry, va), s1) →
         s1.askHost g.ctx entry va = some s2 → exec (.mtuWalkComplete k) s = .next (s2.modGroup k (fun x =>
           { x with walkFaults := fs, parked := some { p with request := some entry, address := some va
                                                              since := s.now } })))) ∧
     (∀ ctx page ok r, s.requests.find? (fun x => x.ctx = ctx && x.page = page) = some r → (∀ q ∈ s.hub.ide, q.2.err = false) →
       (∀ w ∈ s.hub.owedWrites, w.request ≠ none ∧ (w.ctx = ctx → w.request ≠ some r.entry)) →
       ∃ t, exec (.pageRequestGroupResponse ctx page ok) s = .next t ∧
         (∀ x, x ∈ t.requests ↔ x ∈ s.requests ∧ (x.ctx ≠ ctx ∨ x.entry ≠ r.entry)) ∧
         ∀ k g p, s.group k = some g → g.parked = some p → g.ctx = ctx →
           (p.request = some r.entry → ok = true ∨ (∀ q ∈ s.ops, ∀ y, q.2.parked = some y → y.request ≠ some r.entry) →
             ∃ y, t.group k = some y ∧ y.parked = some { p with request := none } ∧
               y.walkFaults = g.walkFaults ++ (if ok then [] else s.refusedNeeds ctx r.entry p)) ∧
           (p.request ≠ some r.entry → ok = true → t.group k = some g)) ∧
     (∀ ctx va bs irq, (∀ w ∈ s.hub.owedWrites, w.va ≠ va) →
       (∀ s1, s.frontWrite ctx va bs = (.done (), s1) ∨ s.frontWrite ctx va bs = (.refused, s1) →
         s.frontStore ctx va bs irq = s1.signal irq) ∧
       ∀ entry s1 s2, s.frontWrite ctx va bs = (.host entry, s1) → s1.askHost ctx entry va = some s2 →
         s.frontStore ctx va bs irq = s2.modHub (fun h => { h with owedWrites := h.owedWrites ++
           [{ ctx := ctx, va := va, bytes := bs, irq := irq, request := some entry }] })) ∧
     (∀ w entry, s.hub.owedWrites = [w] → w.request = some entry →
       let s1 := s.modHub (fun h => { h with owedWrites := [] })
       s.payOwed w.ctx entry true = s1.frontStore w.ctx w.va w.bytes w.irq ∧
       s.payOwed w.ctx entry false = s1.signal w.irq) ∧
     ∀ t team, s.team t = some team →
       ((∃ k g p, k ∈ team.groups ∧ s.group k = some g ∧ g.parked = some p ∧ p.request.isSome = true ∧ p.since + 50000 ≤ s.now) ∨
         ∃ o ∈ s.ops, o.2.team = t ∧ ∃ q, o.2.parked = some q ∧ q.request.isSome = true ∧ q.since + 50000 ≤ s.now) →
       (∀ c cluster, team.cluster = some c → s.cluster c = some cluster → cluster.state = .started →
         s.clusterHere cluster = true → exec (.tier3SwapOut t) s = .next (s.stopCluster c .swap)) ∧
       (team.cluster = none → team.core < 576 → team.residency = .resident →
         exec (.tier3SwapOut t) s = .next (s.stopRunTeam t team)))

/-! ## Energy, tokens and the host -/

/-- R330: at the start of a control interval a die's power manager mints max(6,250,000, floor((800 µJ - S) / (16 pJ ×
F))) tokens, S the energy measured and F the greater of the two rail factors, here in thousandths; in an interval that
overlaps changes of the rails the factors of the fastest points count (R418); a die under warm reset mints nothing. S
in whole pJ and given from outside the machine (log 7), the rounding (log 26) and the factor of an interval that
overlaps a change (log 77) are the model's choice. -/
def Obligations.Mints : Prop :=
  ∀ (s : State),
    (∀ die measured, (s.die die).interval < s.now / 1000 →
      let m := if (s.die die).resetStep = 0 then max 6250000 ((800000000 - measured) * 1000 / (16 * s.factor)) else 0
      exec (.controlInterval die measured) s = .next (s.modDie die (fun d =>
        { d with interval := s.now / 1000, mint := m, mintLeft := m, measured := measured }))) ∧
    (let vec := fun (p : BitVec 2) => nth 0 [1000, 800, 660, 540] p.toNat
     let mat := fun (p : BitVec 2) => nth 0 [1000, 830, 680, 550] p.toNat
     let now := max (vec s.hub.railVec) (mat s.hub.railMat)
     let change := max (max (vec s.hub.railOldVec) (vec s.hub.railCtlVec)) (max (mat s.hub.railOldMat) (mat s.hub.railCtlMat))
     let past := max (vec s.hub.railPastVec) (mat s.hub.railPastMat)
     (s.hub.railEnd ≠ some (s.now / 1000) → s.factor = if s.hub.railBusy then change else now) ∧
     (s.hub.railEnd = some (s.now / 1000) → s.factor = max (if s.hub.railBusy then change else now) past)) ∧
    max 6250000 ((800000000 - 0) * 1000 / (16 * 1000)) = 50000000

/-- R334, R336: claims and %energy. A core whose oldest ready clause has waited 16 ns for its price, counted from the
end of its last wait and no longer than its team has been resident, opens a claim for what its purse lacks; an engine
claim asks for the draw that a ready operation cannot make. The tokens of a control interval that is over count with
its factor, and at a new millisecond %energy takes the whole millijoules counted. What a claim asks for (log 27) and
when the counts are settled (log 28) are the model's choice. R331, R332: one fabric cycle of a ring on which no claim
is open and whose pounds take nothing. The tokens move on by one station, and at station 0 a 2,000th of the mint,
rounded up (the model's choice, log 26), joins those that come round, unless the ring holds the mint already. R332,
R334: what a station gives. Serving a core's claims takes at most 256 tokens and at most what is there; each claim
falls by what it got, and ends when it has got all. A purse that is filled takes what it lacks of 4,096, at most 256
tokens and at most what is there, and the rest is passed on; filling purses touches no other core. Which purse's claim
comes first is the model's choice (log 27). -/
def Obligations.ClaimsAndRing : Prop :=
  (∀ (s : State),
     (∀ core g price, (s.core core).claim = none → s.oldestClause core = some (g, price) → (s.core core).purse < price →
       max g.age (g.gtSince.getD 0) + 16 ≤ s.now → exec (.claim core false) s =
         .next (s.modCore core (fun c => { c with claim := some (price - (s.core core).purse) }))) ∧
     (∀ core n, (s.core core).engineClaim = none → s.starved core = some n → exec (.claim core true) s =
       .next (s.modCore core (fun c => { c with engineClaim := some n }))) ∧
     (∀ ctx p, s.part ctx = some p → ∃ q, exec (.energyUpdate ctx) s = .next { s with parts := Tab.insert s.parts ctx q } ∧
       let counted := if p.energyInterval = s.now / 1000 then p.energyAcc else p.energyAcc + p.energyTokens * p.energyFactor
       q.energyAcc = counted ∧
       (p.energyAt < s.now / 1000000 → q.energy = counted / 62500000000 ∧ q.energyAt = s.now / 1000000) ∧
       (s.now / 1000000 ≤ p.energyAt → q.energy = p.energy ∧ q.energyAt = p.energyAt))) ∧
  (∀ (s : State) (die : Nat) (d : Die), Tab.find s.dies die = some d → d.ring.length = 16 →
     (∀ p, p < 16 → s.takers die p = []) →
     let held := d.ring.foldl (· + ·) 0
     let put := if d.mint ≤ held then 0 else min ((d.mint + 1999) / 2000) d.mintLeft
     let ring := (List.range 16).map (fun i => nth 0 d.ring ((i + 15) % 16) + (if i = 0 then put else 0))
     exec (.stationDelivery die) s = .next { s with
       dies := Tab.insert s.dies die { d with ring := ring, mintLeft := d.mintLeft - put } }) ∧
  ((∀ (c : Core) (n : Nat), let r := c.served n
     r.1 ≤ n ∧ r.1 ≤ 256 ∧ r.2.purse ≤ 4096 ∧ r.2.enginePurse ≤ 4096 ∧
     (c.purse + c.claim.getD 0 ≤ 4096 → c.enginePurse + c.engineClaim.getD 0 ≤ 4096 →
       r.2.purse + r.2.enginePurse = c.purse + c.enginePurse + r.1) ∧
     (∀ m, c.claim = some m → r.2.claim.getD 0 + (min m (min n 256)) = m)) ∧
   (∀ (s : State) (c n : Nat), let k := min n (min (4096 - (s.core c).purse) 256)
     s.fillPurses [{ content := (s.core c).purse, core := c, engine := false }] n [] =
       (n - k, s.modCore c (fun x => { x with purse := x.purse + k }))) ∧
   ∀ (s : State) (ps : List Purse) (n : Nat) (done : List (Nat × Nat)), let r := s.fillPurses ps n done
     r.1 ≤ n ∧ (∀ c, (∀ p ∈ ps, p.core ≠ c) → r.2.core c = s.core c) ∧ r.2.groups = s.groups ∧ r.2.mem = s.mem)

/-- R16, R17, R112, R113, R115, R119: token requests, drains and leases. A core of a disabled or fenced site gets
nothing. A request of a core of the line's die, for a line that can be reached, gets what it asks for, or, as a free
choice, gathers a part, and while a persistent request stands on the line it is refused; after five tries without
success a persistent request is queued, served when it is the first, and on completion serves the next; a line of a
remote-write buffer drains to its home; a lease that has run out poisons the line, brings its tokens home, reverts its
bytes and the writes that wait for the host to those of its last write-back, and takes back the halves that the host
did not give up. A part gathered as a try without success, and a second PERSISTENT_REQUEST as the completion of the
first, are the model's choice (log 29). -/
def Obligations.TokensMove : Prop :=
  ∀ (s : State) (core line : Nat) (write : Bool),
    let t := s.lineTokens line
    ((s.die (coreDie core)).siteUp (coreSite core) = false → exec (.tokenRequest core line write) s = .next s ∧
      exec (.persistentRequest core line write) s = .next s) ∧
    (homeDie (line * 128) = some (coreDie core) → s.errorReply (line * 128) = false → s.gatedCore core = false →
        (s.die (coreDie core)).siteUp (coreSite core) = true →
      (t.holds core write = false → t.persistent = [] → exec (.tokenRequest core line write) s =
        .next (s.freeBool.2.setTokens line (if s.freeBool.1 then (if write then t.forWrite core else t.forRead core)
          else (t.partial_ core).failTry core))) ∧
      (t.holds core write = false → t.persistent ≠ [] →
        exec (.tokenRequest core line write) s = .next (s.setTokens line (t.failTry core))) ∧
      (Tab.read 0 t.tries core < 5 → (core, write) ∉ t.persistent → exec (.persistentRequest core line write) s = .next s) ∧
      (5 ≤ Tab.read 0 t.tries core → t.persistent = [] → exec (.persistentRequest core line write) s =
        .next (s.setTokens line ({ t with persistent := [(core, write)] }.forWrite core))) ∧
      (5 ≤ Tab.read 0 t.tries core → ∀ p rest, t.persistent = p :: rest → (core, write) ∉ t.persistent →
        exec (.persistentRequest core line write) s =
          .next (s.setTokens line { t with persistent := t.persistent ++ [(core, write)] })) ∧
      (∀ rest, t.persistent = (core, write) :: rest → exec (.persistentRequest core line write) s =
        .next (s.setTokens line { t with persistent := rest }.serve))) ∧
    (∀ die l, (s.rwb die).find? (fun x => x.line = line) = some l → exec (.remoteWriteDrain die line) s =
      .next ((s.modRwb die (fun x => x.filter (fun y => y.line ≠ line))).arrive l)) ∧
    (∀ since, t.recalled = some since → since + 5000 ≤ s.now →
      let home := s.setTokens line t.home
      let reverted : State := match t.clean with
        | some bs => { home.setBytes (atAddr (line * 128) bs) with snoops := home.snoops.map (fun x =>
            if x.half / 2 = line then { x with writes := x.writes.map (fun p => (p.1, nth 0 bs (p.1 % 128))) } else x) }
        | none => home
      exec (.leaseExpiry line) s = .next
        ((reverted.snoops.filter (fun x => x.half / 2 = line && x.asked && decide (x.since + 20000 ≤ s.now))).foldl
          State.takeHalf ((reverted.setPoison line true).markRegion line)))

/-- R112: what requests leave of a line's tokens. The tokens of all cores together are never more than 256, the owner
token stays with a core or with a token at home, a reader holds one token at least, and a writer holds them all with
the owner token. -/
def Obligations.TokenCounts : Prop :=
  ∀ (t : LineTokens) (core : Nat), Tab.wf 0 t.held = true → (t.held.map Prod.snd).sum ≤ 256 →
    (∀ u, u = t.forRead core ∨ u = t.forWrite core ∨ u = t.partial_ core ∨ u = t.serve ∨ u = t.home →
      Tab.wf 0 u.held = true ∧ (u.held.map Prod.snd).sum ≤ 256 ∧
        (t.owner ≠ none ∨ 0 < t.atHome → u.owner ≠ none ∨ 0 < u.atHome)) ∧
    0 < Tab.read 0 (t.forRead core).held core ∧
    Tab.read 0 (t.forWrite core).held core = 256 ∧ (t.forWrite core).owner = some core ∧
    (∀ c, c ≠ core → Tab.read 0 (t.forWrite core).held c = 0)

/-- R117, R118, R133, R138, R147, R398, R399, R412, R437: the host's accesses. A read of a half of device memory gives
its bytes, with poison where the line is poisoned, and zeros with poison where the home answers with the error reply
or the frame is bound; a write takes the line's tokens home and is placed, and is discarded where the host's data do
not enter; the host may take a half for itself and give it up with or without its bytes; an answer to a back-
invalidation within 20 µs takes the half back, writing what it carries. A snoop of a host half leaves the agent
without it, or sharing it, and gets the data of a half in M. An ATS invalidation is a DEV-scope TLBI in every context
of the PASID, or in every context, and is then acknowledged, once no store waits for the host and every die has purged
the sealed pages that it unmaps. How late and unpublished answers are treated (log 30), the values after errors (log
31) and which sealed pages count as unmapped (log 65) are the model's choice. R16, R120, R357, R395: uncorrectable
errors. One in a line of a core store, a slice or HBM poisons the line, and may poison the image of a saved team that
is kept there; one in a scratchpad marks its line; one in a register or a tile word leaves a value that the spec does
not give (log 6); those of a core's register file, core store, scratchpad or tile store charge the core one demerit,
but a disabled core, which has no power, has no error. -/
def Obligations.HostAccesses : Prop :=
  (∀ (s : State),
     (∀ offset, let pa := hdmAddress offset
       let half := pa / 64
       let data : Msg := .hostData ((List.range 64).map (fun i =>
         if s.unpublished (half * 64 + i) then 0 else s.byte (half * 64 + i))) (s.poisoned (half * 64 / 128))
       let refused := s.errorReply (half * 64) = true ∨ Tab.find s.bound (half * 64 / 65536) ≠ none
       (s.errorReply pa = false → ¬ refused → exec (.hostMemoryAccess offset .read) s = .next (s.send data)) ∧
       (s.errorReply pa = true → refused → exec (.hostMemoryAccess offset .own) s = .next
         ((s.countError pa).send (.hostData (List.replicate 64 0) true))) ∧
       (refused → exec (.hostMemoryAccess offset .read) s =
         .next ((s.countError pa).send (.hostData (List.replicate 64 0) true))) ∧
       (∀ bs, bs ≠ [] → bs.length ≤ 64 - pa % 64 → s.errorReply pa = false →
         (s.hostBarred pa = false → exec (.hostMemoryAccess offset (.write bs)) s =
           .next (s.place (atAddr pa bs))) ∧
         (s.hostBarred pa = true → exec (.hostMemoryAccess offset (.write bs)) s = .next s)) ∧
       (s.errorReply pa = false → ¬ refused → (∀ x ∈ s.snoops, x.half ≠ half) →
         exec (.hostMemoryAccess offset .own) s =
           .next ({ s.tokenHome pa with hostHeld := Tab.write false s.hostHeld half true }.send data)) ∧
       (Tab.read false s.hostHeld half = true →
         let gives : State → State := fun a => { a with hostHeld := Tab.write false a.hostHeld half false }
         let written := fun (bs : List Byte) => s.place (atAddr (half * 64) bs)
         ((∀ x ∈ s.snoops, x.half ≠ half) → exec (.hostMemoryAccess offset (.release none)) s = .next (gives s)) ∧
         (∀ x, s.snoops.find? (fun y => y.half = half) = some x →
           exec (.hostMemoryAccess offset (.release none)) s = .next ((gives s).takeHalf x)) ∧
         ∀ bs, bs.length = 64 → s.errorReply (half * 64) = false → s.hostBarred (half * 64) = false →
           ((∀ x ∈ (written bs).snoops, x.half ≠ half) →
             exec (.hostMemoryAccess offset (.release (some bs))) s = .next (gives (written bs))) ∧
           ∀ x, (written bs).snoops.find? (fun y => y.half = half) = some x →
             exec (.hostMemoryAccess offset (.release (some bs))) s = .next ((gives (written bs)).takeHalf x))) ∧
     (∀ half x, s.snoops.find? (fun y => y.half = half) = some x → x.asked = true → s.now ≤ x.since + 20000 →
       exec (.backInvalidateAnswer half none) s = .next (s.takeHalf x) ∧
       (∀ bs, bs.length = 64 →
         (s.hostBarred (half * 64) = false → exec (.backInvalidateAnswer half (some bs)) s =
           .next ((s.place (atAddr (half * 64) bs)).takeHalf x)) ∧
         (s.hostBarred (half * 64) = true → exec (.backInvalidateAnswer half (some bs)) s = .next (s.takeHalf x)))) ∧
     (∀ half, region (half * 64) = .host →
       let was := Tab.read CxlState.invalid s.agent half
       let data := if was = .modified then some (s.bytes (half * 64) 64) else none
       let gone := { s with agent := Tab.write .invalid s.agent half .invalid }.send (.snoopAnswer half data)
       exec (.hostSnoop half true none) s = .next gone ∧
       (∀ bs, bs.length = 64 → ∃ t, exec (.hostSnoop half true (some bs)) s = .next t ∧
         t.agent = gone.agent ∧ t.sent = gone.sent ∧ t.mem = (gone.setBytes (atAddr (half * 64) bs)).mem) ∧
       (was ≠ .invalid → exec (.hostSnoop half false none) s =
         .next ({ s with agent := Tab.write .invalid s.agent half .shared }.send (.snoopAnswer half data))) ∧
       (was = .invalid → exec (.hostSnoop half false none) s = .next gone)) ∧
     (∀ (pasid : Option Nat) (va : BitVec 64) len, (∀ q ∈ s.hub.ide, q.2.err = false) → 32 ≤ s.completions.length →
       exec (.atsInvalidateRequest pasid va len) s = .next s) ∧
     (∀ (pasid : Option Nat) (va : BitVec 64) len, (∀ q ∈ s.hub.ide, q.2.err = false) → s.completions.length < 32 →
       let covered := Tab.keys (s.parts.filter (fun p => match pasid with
         | some n => p.2.pasid = n
         | none => true))
       let t := covered.foldl (fun a c => a.invalidate (some c) va.toNat len 4 0) s
       let pages := s.unmappedPages covered va.toNat len
       let gone := fun (page size : Nat) (m : Nat × Nat) => decide (m.1 ∈ covered ∧ m.2 < va.toNat + len ∧ va.toNat < m.2 + size) &&
         !s.mapsTo m.1 m.2 page
       exec (.atsInvalidateRequest pasid va len) s = .next ({ t with
         appends := Tab.mapWith (fun page d => { d with maps := d.maps.filter (fun m => !gone page d.size m) })
           ((pages.map Prod.fst).foldl Tab.remove t.appends)
         purges := pages.foldl (fun a p => Tab.insert a p.1 [0, 1, 2, 3]) t.purges
         completions := t.completions ++ [{ pasid := pasid, frames := pages }] } : State).sendCompletions ∧
       ∀ page size, (page, size) ∈ pages ↔ ∃ d, (page, d) ∈ s.appends ∧ d.size = size ∧
         ∃ m ∈ d.maps, gone page size m = true) ∧
     (s.snoopsOwed = true → s.sendCompletions = s) ∧
     ∀ c, s.snoopsOwed = false → s.completions = [c] →
       ((∃ f ∈ c.frames, Tab.read [] s.purges f.1 ≠ []) → s.sendCompletions = s) ∧
       ((∀ f ∈ c.frames, Tab.read [] s.purges f.1 = []) → s.sendCompletions = ({ s with
         completions := []
         purges := ((c.frames.map Prod.fst).filter (fun f => (s.freesOf f).isEmpty)).foldl Tab.remove s.purges
         } : State).send (.invalidateCompletion c.pasid))) ∧
  (∀ (s : State),
     (∀ line site, site = .hbm line ∨ site = .slice line →
       (∃ t, exec (.uncorrectableError site) s = .next t ∧ t.poison = (s.setPoison line true).poison ∧ t.mem = s.mem ∧
         t.groups = s.groups) ∧
       ((∀ p ∈ s.teams, s.holdsImage line p.2 = false) → exec (.uncorrectableError site) s = .next (s.setPoison line true))) ∧
     (∀ core, core < 576 → (s.die (core / 144)).disabled.getLsbD (core % 144) = true →
       ∀ site, (∃ line, site = .coreStore core line) ∨ (∃ k line, site = .scratchpad core k line) ∨
         (∃ k r l, site = .registerFile core k r l) ∨ (∃ i, site = .tileStore core i) →
         exec (.uncorrectableError site) s = .next s) ∧
     ∀ core, core < 576 → (s.die (core / 144)).disabled.getLsbD (core % 144) = false →
       (∀ line, exec (.uncorrectableError (.coreStore core line)) s =
         .next ((s.setPoison line true).charge (core / 144) (core % 144) 1 false)) ∧
       (∀ k t line, s.team k = some t → t.core = core → line * 128 < t.scratchSize →
         exec (.uncorrectableError (.scratchpad core k line)) s =
           .next ((s.setTeam k { t with poison := (line :: t.poison).eraseDups }).charge (core / 144) (core % 144) 1 false)) ∧
       (∀ k g r l, s.group k = some g → g.core = core → r < g.vregs → l < g.width →
         ∃ v, exec (.uncorrectableError (.registerFile core k r l)) s = .next
           (({ s with freeIx := s.freeIx + 1 }.setGroup k (g.setV r l v)).charge (core / 144) (core % 144) 1 false)) ∧
       (∀ i, ∃ v, exec (.uncorrectableError (.tileStore core i)) s = .next
         (({ s with freeIx := s.freeIx + 1 }.modCore core (fun c => { c with
           array := { c.array with words := Tab.write 0 c.array.words i v } })).charge (core / 144) (core % 144) 1 false)))

/-! ## Launches -/

/-- R63, R64, R209 to R211: KLAUNCH of a group that is not under check. A record index above 63, a misaligned record
or completion word, or a dependence word that R210 does not allow traps with 0x07; else, once its ranges translate,
the group releases, D0 becomes pending, and the launch packet goes to its queue's front end with the operation in
flight. R401, R402, R404, R406: packets. A packet that reaches the window of a queue bound to the context of its PASID
is accepted for that context; any other is discarded, and the queue's drop count goes up by one, to 0xFFFF at most. So
are accesses to the window's first 64 bytes that are no packet; a read gives zeros. While no stream of the link is in
the error state (R408) this is so for every TLP. R319, R402, R405: acceptance. The packet takes the next sequence
number. A launch is completed at once with status 0x08 while its context is lost, 0x05 when the queue holds 256, 0x04
when its entry is empty, 0x03 and the lowest failing packet check, or 0x02 and the lowest failing record check; else
it enters the queue. Which check a record fails that no walk translates, and that a misaligned CW gets no completion
word, are the model's choice (log 39). R40 to R42: launch records. A record passes the checks 0x01 to 0x0B exactly
when each of its fields is as they say; and when one fails, the code of the rejection is the least of those that fail.
-/
def Obligations.LaunchAcceptance : Prop :=
  (∀ (s : State) (k : Nat) (g : Group) (w : Slot),
     let byIndex := w.mod.getLsbD 0
     let a := s.scalarSource g w w.a
     let cw := s.scalarSource g w w.b
     let dep := s.scalarSource g w w.c
     let d := w.d0.scalarIndex
     let kind := dep.toNat / 2 ^ 62
     let arg := dep.toNat % 2 ^ 57
     let good : Bool := (if byIndex then decide (a.toNat ≤ 63) else decide (a.toNat % 64 = 0)) && decide (cw.toNat % 8 = 0) &&
       decide (dep.toNat / 2 ^ 57 % 32 = 0) && decide (kind < 3) && (decide (kind ≠ 0) || decide (arg = 0)) &&
       (decide (kind ≠ 2) || decide (arg % 16 = 0))
     let ranges := (if byIndex then [] else [(a.toNat, 256)]) ++ (if cw = 0 then [] else [(cw.toNat, 8)]) ++
       (if kind = 2 then [(arg, 16)] else [])
     let routes := ranges.map (fun p => s.routeOne (g.who k) g.walkFaults .read .any p.1 p.2)
     ReadyTo (.klaunch w) s k g → s.runOf (g.who k) = none →
     (good = false → s.trapWaits k = false →
       exec (.klaunch w) s = .next (s.trapFrom s k (.klaunch w) (trapAll g 0x07 0))) ∧
     (good = true → (∀ needs, routes.foldl Route.and (.ok []) = .miss needs → exec (.klaunch w) s = .next (s.park k needs)) ∧
       (∀ c va, routes.foldl Route.and (.ok []) = .fault c va → s.trapWaits k = false →
         exec (.klaunch w) s = .next (s.trapFrom s k (.klaunch w) (trapAll g c (BitVec.ofNat 64 va)))) ∧
       ∀ ps, routes.foldl Route.and (.ok []) = .ok ps → g.refused = none → exec (.klaunch w) s =
         .next (((s.release (g.who k) 4).modGroup k (fun y => y.depart w [.scalar d] [] 0 none (.klaunch
           (w.imm.toNat % 64)
           { type := if byIndex then 2 else 1, ctrl := 0, index := if byIndex then a.extractLsb' 0 8 else 0, zero := 0
             record := if byIndex then 0 else a, dep := dep, cw := cw, args := 0 } g.ctx (some d)))).advance k w))) ∧
  (∀ (s : State) (q pasid : Nat) (p : LaunchPacket), (∀ i ∈ s.hub.ide, i.2.err = false) →
     let drop : State → State := fun a =>
       a.modQueue q (fun x => { x with drop := if x.drop = 0xFFFF#16 then x.drop else x.drop + 1 })
     let dropped : Out := .next (drop s)
     let gives : Out → Prop := fun o => exec (.launchByRecord q pasid p) s = o ∧
       exec (.launchByRegisteredEntry q pasid p) s = o ∧ exec (.register q pasid p) s = o ∧ exec (.emptyAnEntry q pasid p) s = o
     (∀ ctx c, (s.queue q).ctx = some ctx → s.part ctx = some c →
       (c.pasid = pasid → gives (.next (s.accept q ctx p).2)) ∧ (c.pasid ≠ pasid → gives dropped)) ∧
     ((s.queue q).ctx = none → gives dropped ∧
       ∀ off len split, off < 64 → 0 < len → exec (.launchWindowDrop q (.write pasid off len split)) s = dropped) ∧
     (∀ off len, let s1 := s.send (.hostData (List.replicate len 0) false)
       exec (.launchWindowDrop q (.read off len)) s = .next (if off < 64 ∧ 0 < len then drop s1 else s1)) ∧
     (∀ off len split, 64 ≤ off → exec (.launchWindowDrop q (.write pasid off len split)) s = .next s) ∧
     (∀ off len split, off < 64 → 0 < len → off ≠ 0 ∨ len ≠ 64 ∨ split = true →
       exec (.launchWindowDrop q (.write pasid off len split)) s = dropped)) ∧
  (∀ (s : State) (q ctx : Nat) (p : LaunchPacket), p.launches = true →
     let seq := s.hub.nextSeq
     let s1 := s.modHub (fun h => { h with nextSeq := (seq + 1) % 2 ^ 57 })
     let x := (s1.readPacket ctx p).1
     let s2 := (s1.readPacket ctx p).2
     let room := (s2.queue q).fifo.length < 256
     let named := p.type = 1 ∨ 63 < p.index.toNat ∨ x.entry.isSome = true
     let code := (s2.packetCode p x ctx ((s.queue q).ctx == some ctx)).1
     let s3 := (s2.packetCode p x ctx ((s.queue q).ctx == some ctx)).2
     let done : State → Nat → Nat → Prop := fun a st arg => s.accept q ctx p = (seq, a.complete ctx
       (if p.cw.toNat % 8 = 0 then p.cw else 0) p.irq q
       (BitVec.ofNat 64 (st * 2 ^ 56 + min arg 0xFFFF * 2 ^ 40 + seq % 2 ^ 40)))
     (s2.contextLostNow ctx = true → done s2 0x08 0) ∧
     (s2.contextLostNow ctx = false → ¬room → done s2 0x05 0) ∧
     (s2.contextLostNow ctx = false → room → ¬named → done s2 0x04 0) ∧
     (s2.contextLostNow ctx = false → room → named →
       (∀ c, code = some c → done s3 0x03 c) ∧
       (∀ r, code = none → x.record = some r →
         (∀ c, s3.launchCode ctx p r = some c → done s3 0x02 c) ∧
         (s3.launchCode ctx p r = none → s.accept q ctx p = (seq, s3.enqueue seq q ctx p x r))))) ∧
  (∀ (s : State) (ctx : Nat) (r : LaunchRecord),
     let dims := [r.gridx.toNat, r.gridy.toNat, r.gridz.toNat]
     (firstFailing r.checks = none ↔
       (r.fmtver = 1 ∧ r.width.toNat ≤ 2 ∧ 4 ≤ r.vregs.toNat ∧ r.vregs.toNat ≤ 32 ∧
         shapeOk r.clw.toNat r.clh.toNat = true ∧ 1 ≤ r.gpc.toNat ∧ r.gpc.toNat ≤ 64 * (r.clw.toNat * r.clh.toNat) ∧
         (∀ n ∈ dims, 1 ≤ n) ∧ r.gridx.toNat * r.gridy.toNat * r.gridz.toNat < 2 ^ 32 ∧
         r.scratch.toNat % 128 = 0 ∧ r.scratch.toNat ≤ 786432 ∧ r.registersFit r.sites = true ∧
         (r.paired = true → r.clw.toNat % 2 = 0) ∧ r.reservedOk = true ∧
         r.entry.toNat % 64 = 0 ∧ r.param.toNat % 64 = 0 ∧ (∀ t ∈ r.trecs, t.toNat % 64 = 0) ∧
         (∀ v ∈ r.slots, slotValid v = true))) ∧
     (∀ c, firstFailing r.checks = some c → s.recordCode ctx r = some c ∧ (c, false) ∈ r.checks ∧
       ∀ d, (d, false) ∈ r.checks → c ≤ d) ∧
     (firstFailing r.checks = none → (s.recordCode ctx r = none ↔ s.placeable ctx r = true) ∧
       (s.placeable ctx r = false → s.recordCode ctx r = some 0x0C)))

/-- R55, R210, R321 to R323, R405: the life of a launch. The head of a queue whose dependence holds, or has held since
it is watched (the model's reading, log 40), becomes ready; the launch that the front end serves sends its next
cluster to the die with the most free placements; a launch whose clusters have exited and whose checks are resolved,
the stores before it being performed at the host too (R118), completes with the status of the highest precedence:
context lost, die reset, not reproducible, aborted, unplaceable, trapped, or success. R323: the die to which a cluster
goes. Of the dies considered none has more free placements than the one chosen, and those before it in rising order
have fewer. -/
def Obligations.LaunchesMove : Prop :=
  (∀ (s : State) (seq : Nat) (l : Launch), s.launch seq = some l →
     (∀ s1, l.state = .waiting → s.dependenceMet l = (true, s1) → (∀ w, l.watch = some w → w.hit = none) →
       exec (.dependenceHolds seq) s = .next ((s1.becomeReady seq).settleQueue l.queue)) ∧
     (∀ w, l.state = .waiting → l.watch = some w → w.hit ≠ none →
       exec (.dependenceHolds seq) s = .next ((s.becomeReady seq).settleQueue l.queue)) ∧
     (∀ d n, s.servesNow seq l = true → s.chooseDie l.record (s.sendDies l.ctx) = some (d, n) →
       exec (.clusterSend seq) s = .next (s.sendTo seq d l)) ∧
     (l.state = .resolving → (∀ p ∈ s.clusters, p.2.launch ≠ seq) → (∀ p ∈ s.checks, p.2.launch ≠ seq) →
       let s1 := (((((s.drainAll 0).drainAll 1).drainAll 2).drainAll 3).drainAll 4)
       (s1.snoopsOwed = true → exec (.launchComplete seq) s = .next s1) ∧
       (s1.snoopsOwed = false → exec (.launchComplete seq) s = .next (State.settleQueue
         (if l.contextLost then s1.finishLaunch seq 0x08 0
         else if l.dieReset then s1.finishLaunch seq 0x07 0
         else if l.nonrepro then s1.finishLaunch seq 0x06 0
         else if l.aborted then s1.finishLaunch seq 0x09 l.traps
         else if l.unplaceable then s1.finishLaunch seq 0x0A l.unplaced
         else if 0 < l.traps then s1.finishLaunch seq 0x01 l.traps
         else s1.finishLaunch seq 0x00 0) l.queue)))) ∧
  (∀ (s : State) (r : LaunchRecord) (ds : List Nat), ds.Pairwise (· < ·) →
     (ds ≠ [] → ∃ d n, s.chooseDie r ds = some (d, n)) ∧
     ∀ d n, s.chooseDie r ds = some (d, n) → d ∈ ds ∧ n = s.freePlacements d r ∧
       ∀ e ∈ ds, s.freePlacements e r ≤ n ∧ (e < d → s.freePlacements e r < n))

/-- R44 to R50, R57, R61, R62, R326, R337, R345, R384, R388: placement. A cluster that is offered a legal rectangle on
which it can be admitted starts there, and else queues at the pound of the rectangle's origin, if its lock is open and
a core can ever hold its largest team; a saved cluster resumes on its own sites when it can be admitted again; one
that stands stopped for a swap goes on when its accesses are answered, and one stopped for an eviction when the
evictor has started. A priority-3 cluster that has waited 2 µs while R48 and R325 admit it on no rectangle stops the
clusters whose eviction admits it, and starts when they are saved. A pound ships blocks to another of its die that
asks for work. A later run of a check that is under no pair starts on an allowed core. The model chooses the sets of
clusters tried for an eviction and lets a victim stand stopped until it can be saved (log 44), ships in the order of
arrival (log 69), takes from the event which of several rectangles that fit is used (log 75), and restores a team as
log 45 says. -/
def Obligations.ClustersPlaced : Prop :=
  ∀ (s : State),
    (∀ ck c l x y, s.cluster ck = some c → s.launch c.launch = some l →
      (∀ ms, c.state = .distributor ∨ ((∃ k, c.state = .pound k) ∧ ∀ o, c.origin = some o →
          o = (x, y) ∨ (s.die c.die).placement l.record o.1 o.2 = none) →
        (s.die c.die).placement l.record x y = some ms →
        let may := s.admits c l ms [] && !s.runAhead c.launch l (ms.map (fun i => c.die * 144 + i))
        (may = true → exec (.teamAdmit ck x y) s = .next (s.startCluster ck c l x y ms)) ∧
        (may = false → c.origin ≠ some (x, y) → (s.pound (originPound c.die x y)).lock = false →
          memberGroups l.record.gpc.toNat 0 ms.length ≤ 64 →
          exec (.teamAdmit ck x y) s = .next ((s.dispatchAt (originPound c.die x y)).queueAt ck c.die x y))) ∧
      (c.origin = some (x, y) → c.state = .evicted ∨ (c.state = .swapped ∧ s.unanswered c = false) →
        let ts := c.teams.filterMap (fun t => (s.team t).map (fun z => (t, z)))
        s.takes c.die l.ctx [] (ts.map (fun p => s.askAgain l.record p.2)) = true → exec (.teamAdmit ck x y) s = .next
          (ts.foldl (fun a p => a.takeBack p.1 p.2 l.record)
            ((s.unqueue ck).modCluster ck (fun z => { z with state := .started })))) ∧
      (c.origin = some (x, y) → c.state = .started → (c.stopped = some .swap ∧ s.unanswered c = false) ∨
          (∃ k, c.stopped = some (.evict k) ∧ ∀ z, s.cluster k = some z → z.state.unstarted = false) →
        exec (.teamAdmit ck x y) s = .next
          (c.teams.foldl State.resumeQueues (s.modCluster ck (fun z => { z with stopped := none })))) ∧
      (∀ ms, c.state.unstarted = true → c.state ≠ .frontEnd → l.record.prio = 3 → c.since + 2000 ≤ s.now →
        (s.die c.die).placement l.record x y = some ms → s.stoppedFor ck = [] →
        (∀ o ∈ origins, ∀ m, (s.die c.die).placement l.record o.1 o.2 = some m →
          s.siteTakes [] (l.record.asks c.die m) = false) →
        ∀ out, s.evictionFor c l ms = some out →
          let s1 := out.foldl (fun a k => a.stopCluster k (.evict ck)) s
          (s1.stoppedFor ck = [] → s1.admits c l ms [] = true →
            exec (.partialEviction ck x y) s = .next (s1.startCluster ck c l x y ms)) ∧
          (s1.stoppedFor ck ≠ [] → exec (.partialEviction ck x y) s = .next s1))) ∧
    (∀ thief victim offers, thief < 64 → victim / 16 = thief / 16 → thief ≠ victim → s.lockOpen thief = true →
      s.lockOpen victim = true → s.dieAccepts (thief / 16) = true → s.hasAdmissible thief = false →
      let out := s.shipment (thief / 16) thief victim offers
      (out = [] → exec (.stealRequest thief victim offers) s = .next s) ∧
      (out ≠ [] → exec (.stealRequest thief victim offers) s = .next
        (out.foldl (fun a p => a.queueAt p.1 (thief / 16) p.2.1 p.2.2) (s.dispatchAt thief)))) ∧
    ∀ check core c l run, s.check check = some c → s.launch c.launch = some l → s.stoppedRun c core = none →
      c.wantsRun = some run → s.laterAllowed c l run core = true → c.pair = none →
      exec (.replicaPlace check core) s =
        .next ((s.startRun check c l run core).2.exitEmpty (s.startRun check c l run core).1)

/-! ## Health, links and the platform -/

/-- R341, R342, R347, R353, R355, R368: how checks end. A perturbed check ends unchecked, counted as PERTURBED. When
the replica of a check of no pair has exited, equal signatures commit the original's version, counted as MATCH, and
unequal ones call a vote. When the third run has exited, the version of the two runs that agree is committed, counted
as VOTE, and one demerit is charged to the core of the third; where no two agree every version is discarded, counted
as NONREPRO, and the launch places no further cluster. A check at the vote whose first two runs agree ends as MATCH,
which is the model's choice (log 34). HOLDMAX µs after the original's exit its held version is committed unchecked. -/
def Obligations.ChecksResolve : Prop :=
  ∀ (s : State) (k : Nat) (c : Check), s.check k = some c →
    let ends : State → Prop := fun t => exec (.checkResolve k) s = .next (t.advanceLaunch c.launch)
    let agree : Run → Run → Prop := fun a b => a.storeSig = b.storeSig ∧ a.regSig = b.regSig
    let matched := (((s.commitRun k 0).countHealth c.die 0).countHealth c.die 1).freeCheck k
    let voted : Nat → Nat → State := fun win lose =>
      let core := c.coreOf lose
      let d := coreDie core
      let i := coreSite core
      let only := c.exposed || c.runs.any Run.differed
      let s1 := ((s.commitRun k win).countHealth c.die 0).countHealth c.die 2
      let s2 := (if only then s1.countHealth c.die 6 else s1).addDemerits d i 1
      ((s2.addEvent (if only then 0x02 else 0x01) d i (natOf c.injected + 2 * natOf (!only) + 4 * natOf only) 0xFF
        (s2.demerits d i) (BitVec.ofNat 64 c.launch) c.id (BitVec.ofNat 32 c.teamId)).fenceIfDue d i c.injected).freeCheck k
    (c.perturbed = true → ends ((((s.commitRun k 0).countHealth c.die 0).countHealth c.die 4).freeCheck k)) ∧
    (c.perturbed = false → c.state = .replay → c.pair = none → ∀ a b rest, c.runs = a :: b :: rest → b.exited = true →
      (agree a b → ends matched) ∧
      (¬agree a b → ends (s.modCheck k (fun y => { y with state := .vote })))) ∧
    (c.perturbed = false → c.state = .vote → ∀ a b t rest, c.runs = a :: b :: t :: rest → t.exited = true →
      (agree a b → ends matched) ∧ (¬agree a b → agree t a → ends (voted 0 1)) ∧
      (¬agree a b → ¬agree t a → agree t b → ends (voted 1 0)) ∧
      (¬agree a b → ¬agree t a → ¬agree t b → ends (s.resolveNonRepro k c))) ∧
    (∀ t l, c.exitedAt = some t → s.launch c.launch = some l → s.policyOf k = 2 → c.timedOut = false →
      c.perturbed = false → t + 1000 * l.record.holdmax.toNat ≤ s.now → exec (.timeout k) s =
        .next (((s.exposeHeld k).modCheck k (fun x => { x with timedOut := true })).countHealth c.die 5))

/-- R362: an armed injection that strikes a vector result of groups 2 and 3 inverts one bit of one lane, counts down,
and marks the check of the team; without one the result stands. R17, R22, R357 to R362, R367, R416: health. A pending
fence takes effect when no team is bound to the core. After 604,800 s of powered time every nonzero demerit count
falls by one. A Mace segment starts on an idle core whose pass is due; it ends with its unit's bit cleared or set, and
a failure charges demerits up to the threshold. HR_LATCH shows the newest snapshot; GET_HEALTH sends at most 64 bytes
of the one asked for. Inside a session clearing a fence is recorded. A segment as two events and the oldest pass taken
literally (log 33), powered seconds as %clock (log 36) and a CLEAR_FENCE outside a session that changes nothing (log
84) are the model's choice. SL_INJECT is written while INJEN is 1; ARM stays clear with a COUNT of zero. -/
def Obligations.HealthEvents : Prop :=
  (∀ (s : State) (k : Nat) (w : Slot) (g h : Group),
     (s.injectionFor g w = none → s.putVec k w g h = s.setGroup k h) ∧
     ∀ i, s.injectionFor g w = some i →
       let t := s.putVec k w g h
       (w.sf = .none → ∃ h', t.group k = some h' ∧ h' = h.setV w.d0.vecIndex i.lane.toNat
         (h.v w.d0.vecIndex i.lane.toNat ^^^ (1#32 <<< i.bit.toNat))) ∧
       (∀ x, Tab.find s.dies (coreDie g.core) = some x → ∃ y, Tab.find t.dies (coreDie g.core) = some y ∧
         y.inject.count = x.inject.count - 1 ∧ (x.inject.count = 1 → y.inject.arm = false)) ∧
       (∀ c r, (s.teamOf g).run = some (c, r) → ∀ x, s.check c = some x → ∃ y, t.check c = some y ∧ y.injected = true)) ∧
  (∀ (s : State),
     (∀ die site, (s.die die).fencePending.getLsbD site = true → s.coreBound (die * 144 + site) = false →
       exec (.fenceTakesEffect die site) s = .next ((s.modDie die (fun x => x.fenceSite site)).retest die)) ∧
     ((s.hub.decays + 1) * 604800 ≤ s.poweredSeconds → ∃ t, exec .demeritDecay s = .next t ∧
       t.hub.decays = s.hub.decays + 1 ∧
       ∀ die d site, Tab.find s.dies die = some d → Tab.wf {} d.sites = true →
         ((t.die die).health site).demerits.toNat = (d.health site).demerits.toNat - 1 ∧ (t.die die).fenced = d.fenced) ∧
     (∀ core unit outcome, (s.core core).mace = none → s.maceIdle core = true → s.maceNext core = true →
       exec (.maceSegment core unit outcome) s = .next (s.modCore core (fun c => { c with mace := some unit }))) ∧
     (∀ core unit u, (s.core core).mace = some u →
       exec (.maceSegment core unit .aborted) s = .next (s.modCore core (fun c => { c with mace := none })) ∧
       exec (.maceSegment core unit .passed) s = .next ((s.maceSegmentDone core).modSite (coreDie core) (coreSite core)
         (fun h => { h with maceFail := h.maceFail &&& ~~~(1#13 <<< u) })) ∧
       let d := coreDie core
       let i := coreSite core
       let s1 := (s.maceSegmentDone core).modSite d i (fun h => { h with maceFail := h.maceFail ||| (1#13 <<< u) })
       let s2 := s1.addDemerits d i (s1.die d).thresh.toNat
       exec (.maceSegment core unit .failed) s =
         .next ((s2.addEvent 0x05 d i 0 u (s2.demerits d i) 0 0 0).fenceIfDue d i false)) ∧
     (∀ x rest, s.hub.snapshots = x :: rest →
       ((∀ i ∈ s.hub.ide, i.2.err = false) →
         exec .hrLatch s = .next (s.modHub (fun h => { h with latched := some x }))) ∧
       ∀ offset len, exec (.getHealth 0 offset len) s =
         .next (s.send (.health x.lastSeq ((x.bytes.drop offset).take (min len 64))))) ∧
     (∀ die mask, s.hub.session ≠ .established → exec (.clearFence die mask) s = .next s) ∧
     (∀ die mask, s.hub.session = .established → exec (.clearFence die mask) s = .next ((s.modDie die (fun d =>
       { d with clearPending := d.clearPending ||| mask })).addEvent 0x09 die 0xFF 0 0xFF 0 0 0 0)) ∧
     (∀ die (v : BitVec 64), s.dieDown die = true → exec (.slInject die v) s =
       .next (s.modDie die (fun x => { x with resetErrors := x.resetErrors + 1 }))) ∧
     (∀ die (v : BitVec 64), s.dieDown die = false → (s.die die).injen = true →
       let count := v.extractLsb' 0 32
       let inject : Inject :=
         { arm := v.getLsbD 63 && count != 0, runs := v.extractLsb' 61 2, pipe := v.extractLsb' 56 2,
           site := v.extractLsb' 48 8, lane := v.extractLsb' 42 6, bit := v.extractLsb' 37 5, count := count }
       exec (.slInject die v) s = .next (s.modDie die (fun x => { x with inject := inject }))))

/-- R366, R369, R416: the signed record. Signing keeps the new snapshot before the newest of the old; with at most 29
events it is 4,096 bytes: 4,000 bytes of the record, of which bytes 0x10 to 0x17 are LASTSEQ, and the signature. -/
def Obligations.SignedRecord : Prop :=
  ∀ (s : State),
    (∃ bytes, exec .healthRecordSign s = .next (s.modHub (fun h =>
        { h with snapshots := ({ lastSeq := s.hub.lastSeq, bytes := bytes } :: h.snapshots).take 2 })) ∧
      bytes.take s.healthBytes.length = s.healthBytes ∧ bytes.length = s.healthBytes.length + 96) ∧
    (s.hub.events.length ≤ 29 → s.healthBytes.length = 4000) ∧
    leNat ((s.healthBytes.drop 0x10).take 8) = s.hub.lastSeq % 2 ^ 64

/-- R397, R407 to R409, R411, R413 to R415: the confidential interface and the links. Lock, start and stop move the
interface from unlocked to locked to run and back; stopping erases the key slots and clears the stores of the contexts
with confidential mappings. In RUN a link that goes down, and in locked or RUN a change of a frozen setting, an IDE
key management or an IDE failure, lead to ERROR: the keys are erased, the copies queued for them complete, and the
launches of contexts with confidential mappings are lost. IDE streams are programmed while unlocked, and the TLPs of a
stream in the error state are discarded; keys are loaded in RUN inside a session; SPDM requests are answered. A port
that leaves UP fails the copies that run over it; bytes that arrive on a port that is UP are written in the context of
its partition, and the flag of a copy after its data, but not where the copy has failed. The effect of IDE key
management outside the unlocked state and the moves that R397 does not list (log 37), the order of peer arrivals (log
38), which stream a host access uses (log 82) and the session (log 84) are the model's choice. -/
def Obligations.LinksAndInterface : Prop :=
  ∀ (s : State),
    let moved : State → TdispState → Out := fun a x => .next ((a.modHub (fun h => { h with tdisp := x })).raiseIrq 5)
    let failed : State → Out := fun a =>
      let b := (Tab.keys a.eraseKeys.ops).foldl State.completeErased a.eraseKeys
      moved (b.confidentialContexts.foldl State.loseContext b) .error
    (s.hub.tdisp = .unlocked → exec .lockInterfaceRequest s = moved s .locked ∧
      ∀ i, exec (.ideKm i) s = .next (s.setStream i { programmed := true, err := false })) ∧
    (s.hub.tdisp = .locked → exec .startInterfaceRequest s = moved s .run) ∧
    (s.hub.tdisp = .run ∨ s.hub.tdisp = .error →
      exec .stopInterfaceRequest s = moved (s.confidentialContexts.foldl State.clearStores s.eraseKeys) .unlocked) ∧
    (s.hub.tdisp = .run → exec .linkDown s = failed s ∧
      ∀ slot ctx key salt hwm, s.hub.session = .established → exec (.keyLoad slot ctx key salt hwm) s =
        .next (s.modHub (fun h => { h with
          keys := Tab.insert h.keys slot { key := key, salt := salt, ctx := ctx, hwm := hwm } }))) ∧
    (s.hub.tdisp ≠ .run ∨ s.hub.session ≠ .established →
      ∀ slot ctx key salt hwm, exec (.keyLoad slot ctx key salt hwm) s = .next s) ∧
    (s.hub.tdisp = .locked ∨ s.hub.tdisp = .run → exec .frozenSettingsChange s = failed s ∧
      ∀ i, exec (.ideKm i) s = failed s) ∧
    (∀ i, let s1 := s.setStream i { (Tab.read {} s.hub.ide i) with err := true }
      (s.hub.tdisp = .unlocked ∨ s.hub.tdisp = .error → exec (.ideMacFailure i) s = .next s1) ∧
      (s.hub.tdisp = .locked ∨ s.hub.tdisp = .run → exec (.ideMacFailure i) s = failed s1)) ∧
    (∀ p ∈ s.hub.ide, p.2.err = true → (Tab.read {} s.hub.ide (s.freeNat.1 % 5)).err = true →
      ∀ q n va len x a, ∀ i ∈ ([.launchByRecord q n x, .launchByRegisteredEntry q n x, .register q n x,
          .emptyAnEntry q n x, .launchWindowDrop q a, .hrLatch, .atsInvalidateRequest (some n) va len] : List Instr),
        exec i s = .next s.freeNat.2) ∧
    (∀ r, ∃ x, exec (.spdmRequest r) s = .next ((s.modHub (fun h => { h with session := x })).send (.spdm (s.spdmAnswer r))) ∧
      (r = .keyExchange → x = .exchanged) ∧ (r = .finish → s.hub.session = .exchanged → x = .established) ∧
      (r = .endSession → x = .closed) ∧
      (r ≠ .keyExchange → r ≠ .finish → r ≠ .endSession → x = s.hub.session)) ∧
    (∀ port next, Tab.read PortState.down s.hub.ports port ≠ next →
      let s1 := (s.modHub (fun h => { h with ports := Tab.write .down h.ports port next })).raiseIrq 5
      (Tab.read PortState.down s.hub.ports port ≠ .up → exec (.peerPortStateChange port next) s = .next s1) ∧
      (Tab.read PortState.down s.hub.ports port = .up → exec (.peerPortStateChange port next) s = .next
        (((s1.portCopies port).foldl (fun a p => if p.2.stopped then a.modOp p.1 (fun x => { x with portDown := true })
          else a.engineFault p.1 p.2 0x21 (s1.peerBase p.2) true) s1).modHub (fun h => { h with
            peerFailed := (h.peerArriving.filter (·.1 = port) ++ h.peerFailed).eraseDups
            peerArriving := h.peerArriving.filter (·.1 ≠ port) })))) ∧
    (∀ port offset a flag, Tab.read PortState.down s.hub.ports port ≠ .up →
      exec (.peerCopyArrival port offset a flag) s = .next (s.modHub (fun h => { h with
        peerFailed := ((port, a.copy) :: h.peerFailed).eraseDups }))) ∧
    (∀ port offset bytes copy, Tab.read PortState.down s.hub.ports port = .up →
      let pieces := (peerPieces offset bytes).filter (fun x => !x.2.isEmpty)
      let s0 := s.modHub (fun h => { h with
        peerArriving := h.peerArriving.filter (· != (port, copy)), peerFailed := h.peerFailed.filter (· != (port, copy)) })
      let noted := s.modHub (fun h => { h with peerArriving := ((port, copy) :: h.peerArriving).eraseDups })
      let s1 := s0.drainAll 4
      let put : State → Nat → Partition → Bool → Out := fun a ctx p poison =>
        let w := a.peerWrite ctx p poison pieces
        .next (if w.1 then w.2 else w.2.failPeer port copy)
      (∀ ctx p poison, s.portOwner port = some (ctx, p) →
        exec (.peerCopyArrival port offset ⟨bytes, copy, poison⟩ false) s = put noted ctx p poison) ∧
      (∀ poison, s.hub.peerFailed.contains (port, copy) = true →
        exec (.peerCopyArrival port offset ⟨bytes, copy, poison⟩ true) s = .next s0) ∧
      (∀ ctx p poison, s.hub.peerFailed.contains (port, copy) = false → s1.portOwner port = some (ctx, p) →
        (s1.snoopsOwed = false → exec (.peerCopyArrival port offset ⟨bytes, copy, poison⟩ true) s = put s1 ctx p false) ∧
        (∀ va, s1.snoopsOwed = true → p.windowAddress offset = some va →
          exec (.peerCopyArrival port offset ⟨bytes, copy, poison⟩ true) s =
            .next (s1.modHub (fun h => { h with heldFlags := h.heldFlags ++ [(ctx, va, bytes)] })))))

/-- R428 to R430, R436: resets and firmware. Cold reset clears the machine, moves a valid staged image to the flash
and starts what the flash holds. In the recovery layout the host fills the buffer of 32 MiB, and RCV_GO takes the
image of its length from it, with the status 1 while the ROM verifies it: one that verifies goes to the flash and
starts, another sets the status 2. That the verification ends at the model's next step, by its agenda, and that an
image is taken only where its header gives the same length are the model's choice (log 9, 81). FW_UPD_CMD stages a
valid image with status 1, and else leaves status 2. A write of 1 to DR_CTL while no die is under reset quiesces the
die and enters step 1; the steps follow each other to step 6 and end. -/
def Obligations.ResetsAndFirmware : Prop :=
  ∀ (s : State),
    (s.hub.staged = none → exec .coldReset s = .next s.cleared.bootFlash) ∧
    (∀ i, s.hub.staged = some i → exec .coldReset s = .next ((s.cleared.modHub (fun h => { h with
      flash := (if imageValid i then some i else h.flash), staged := none })).bootFlash)) ∧
    (∀ off bs, s.hub.boot = .recovery →
      let t := s.modHub (fun h => h.fillBuffer off bs)
      exec (.rcvGo (.buffer off bs)) s = .next t ∧ (Tab.wf 0 s.hub.rcvBuffer = true → ∀ i, i < 2 ^ 25 →
        t.barByte (0x1000000 + i) = if off ≤ i ∧ i < off + bs.length then nth 0 bs (i - off) else
          s.barByte (0x1000000 + i))) ∧
    (∀ len : BitVec 64, s.hub.boot = .recovery → s.hub.rcvStat ≠ 1 →
      let s1 := s.modHub (fun h => { h with rcvStat := 1, rcvImage := h.bufferImage len.toNat })
      exec (.rcvGo (.go len)) s = .next { s1 with agenda := .rcvGo (.go len) :: s1.agenda }) ∧
    (∀ h : Hub, ∀ len,
      let bs := (List.range len).map (fun i => Tab.read 0 h.rcvBuffer i)
      (2 ^ 25 < len ∨ len < 256 ∨ leNat ((bs.drop 16).take 8) ≠ len → h.bufferImage len = none) ∧
      (256 ≤ len → len ≤ 2 ^ 25 → leNat ((bs.drop 16).take 8) = len → ∃ i, h.bufferImage len = some i ∧
        i.magic = BitVec.ofNat 64 (leNat (bs.take 8)) ∧ i.version = BitVec.ofNat 64 (leNat ((bs.drop 8).take 8)) ∧
        i.length = BitVec.ofNat 64 len ∧ i.entry = BitVec.ofNat 64 (leNat ((bs.drop 24).take 8)) ∧
        i.digest = Config.digest (bs.take 128 ++ bs.drop 256) ∧
        i.signature = BitVec.ofNat 768 (leNat ((bs.drop 128).take 96)))) ∧
    (∀ len, s.hub.boot = .recovery → s.hub.rcvStat = 1 →
      let s1 := s.modHub (fun h => { h with rcvImage := none })
      (∀ x, s.hub.rcvImage = some x → imageValid x = true →
        exec (.rcvGo (.go len)) s = .next (s1.modHub (fun h => { h with flash := some x })).bootFlash) ∧
      ((∀ x, s.hub.rcvImage = some x → imageValid x = false) →
        exec (.rcvGo (.go len)) s = .next (s1.modHub (fun h => { h with rcvStat := 2 })))) ∧
    (∀ w, s.hub.boot = .running → exec (.rcvGo w) s = .next s) ∧
    (∀ image t, s.imageAt s.hub.fwAddr.toNat s.hub.fwLen.toNat = (image, t) →
      (∀ i, image = some i → imageValid i = true →
        exec (.fwUpdCmd 1) s = .next ((t.modHub (fun h => { h with staged := some i, fwStat := 1 })).raiseIrq 6)) ∧
      ((∀ i, image = some i → imageValid i = false) →
        exec (.fwUpdCmd 1) s = .next ((t.modHub (fun h => { h with fwStat := 2 })).raiseIrq 6)) ∧
      ∀ v, v ≠ 1 → exec (.fwUpdCmd v) s = .next s) ∧
    (∀ die v, die < 4 → ((v ≠ 1 ∨ ∃ p ∈ s.dies, p.2.resetStep ≠ 0) → exec (.drCtl die v) s = .next s) ∧
      ((∀ p ∈ s.dies, p.2.resetStep = 0) → exec (.drCtl die 1) s =
        .next ((s.quiesceDie die).modDie die (fun x => { x with resetStep := 1, resetErrors := 0 })))) ∧
    (∀ die, die < 4 →
      let goes : Nat → State → Nat → Prop := fun n a m => (s.die die).resetStep = n →
        exec (.drStepEnd die) s = .next ((a.modDie die (fun x => { x with resetStep := m })).raiseIrq 1)
      let drained := ([0, 1, 2, 3, 4].filter (· != die)).foldl
        (fun a e => a.drainWhere e (fun l => homeDie (l * 128) = some die)) s
      let built := s.modDie die Die.rebuild
      goes 1 s 2 ∧ goes 2 (drained.beginWriteback die) 3 ∧ goes 4 s 5 ∧
      goes 5 (if (built.die die).fenceGen = (s.die die).fenceGen then built else built.retest die) 6 ∧ goes 6 s 0 ∧
      (s.writebackDone die = true → goes 3 (s.resetDie die) 4) ∧
      ((s.die die).resetStep = 3 → s.writebackDone die = false → exec (.drStepEnd die) s = .next s))

/-- R28, R361, R424 to R427, R434 to R436: registers of management space that are written with an effect. HC_GO starts
a group of a hub core with the lowest free index in the context that HC_CTX names; DOORBELL latches event 0 in its
groups; DBG_RESUME lets the oldest stopped group go on after its DBRK, or ends its team; FTP64 and FTP2M add a frame
to a pool that has room, but a die in steps 4 and 5 of its warm reset counts an error reply; Q_BIND binds an empty
queue and clears DROP (R435); a write of a register is that of its block and offset, or, where no register answers, it
is counted as an error and changes none. -/
def Obligations.ManagementWrites : Prop :=
  ∀ (s : State),
    (∀ hub (addr : BitVec 64) gid, hub < 4 →
      let ctx := (Tab.read 0 s.hub.hcCtx hub).toNat
      ctx = 0 ∨ (∃ p, s.part ctx = some p ∧ p.state = .switchedIn) →
      (List.range 16).find? (fun i => !((s.hubGroups hub).map (fun p => p.2.gid)).contains i) = some gid →
      ∃ t g, exec (.hcGo hub addr) s = .next t ∧ t.group s.nextKey = some g ∧ g.core = 576 + hub ∧ g.gid = gid ∧
        g.ctx = ctx ∧ g.pc = addr.toNat ∧ g.width = 16 ∧ g.vregs = 64 ∧ g.system = true ∧
        (∀ j, j ≠ s.nextKey → t.group j = s.group j)) ∧
    (∀ hub (addr : BitVec 64) p, Tab.read 0 s.hub.hcCtx hub ≠ 0 → s.part (Tab.read 0 s.hub.hcCtx hub).toNat = some p →
      p.state ≠ .switchedIn → exec (.hcGo hub addr) s = .next s) ∧
    (∀ hub gid, hub < 4 → exec (.doorbell hub gid) s = .next { s with groups := Tab.mapWith (fun _ g =>
      if g.core = 576 + hub && g.gid = gid then { g with latch := g.latch ||| 1 } else g) s.groups }) ∧
    (∀ k slot rest, s.hub.stopped = (k, slot) :: rest →
      let s1 := s.modHub (fun h => { h with stopped := rest })
      (∀ g w, s.group k = some g → { g with debugStop := false }.hereSlot = some w → exec .dbgResumeGroup s =
        .next ((s1.modGroup k (fun x => { x with debugStop := false })).advance k w)) ∧
      (∀ g w, s.group k = some g → g.hereSlot = some w → exec .dbgEndTeam s =
        .next (s1.fatalTrap k { code := 0x0B, arg := w.imm.toNat % 65536 } false slot))) ∧
    (∀ die ctx (addr : BitVec 64), s.dieDown die = true → ∀ i ∈ ([.ftp64 die ctx addr, .ftp2m die ctx addr] : List Instr),
      exec i s = .next (s.modDie die (fun x => { x with resetErrors := x.resetErrors + 1 }))) ∧
    (∀ die d ctx (addr : BitVec 64), s.dieDown die = false → Tab.find s.dies die = some d → region addr.toNat = .hbm die →
      (addr.toNat % 65536 = 0 → (Tab.read [] d.pool64 ctx).length < 65536 → exec (.ftp64 die ctx addr) s =
        .next (s.modDie die (fun x => { x with
          pool64 := Tab.insert x.pool64 ctx (Tab.read [] d.pool64 ctx ++ [addr.toNat]) }))) ∧
      (addr.toNat % 2097152 = 0 → (Tab.read [] d.pool2m ctx).length < 65536 → exec (.ftp2m die ctx addr) s =
        .next (s.modDie die (fun x => { x with
          pool2m := Tab.insert x.pool2m ctx (Tab.read [] d.pool2m ctx ++ [addr.toNat]) })))) ∧
    (∀ q (v : BitVec 64), q < 64 → (s.queue q).fifo = [] → exec (.qBind q v) s = .next (s.modQueue q (fun x =>
      { x with ctx := (if v.getLsbD 63 then some (v.toNat % 256) else none), bindCtx := v.extractLsb' 0 8, drop := 0 }))) ∧
    (∀ addr v, region addr = .management → addr % 8 = 0 →
      let b := (addr - 0xF800000000000) / 0x10000000
      let off := (addr - 0xF800000000000) % 0x10000000
      (s.errorReply addr = true → exec (.mgmtRegisterWrite addr v) s = .next (s.countError addr)) ∧
      (s.errorReply addr = false → exec (.mgmtRegisterWrite addr v) s =
        .next (if b < 4 then s.writeDieReg b off v else if b = 4 then s.writeHubReg off v else s)))

/-- R435: Q_BIND binds queue q: bit 63 is EN, bits [7:0] are CTX, every other bit is RZ. A write takes effect only
while the queue's DEPTH is 0, and is otherwise ignored; one that takes effect clears DROP. -/
def Obligations.QueueBinding : Prop :=
  ∀ (s : State) (q : Nat) (v : BitVec 64), q < 64 →
    ((s.queue q).fifo ≠ [] → exec (.qBind q v) s = .next s) ∧
    ((s.queue q).fifo = [] →
      let b : Queue := { s.queue q with
        ctx := (if v.getLsbD 63 then some (v.toNat % 256) else none)
        bindCtx := v.extractLsb' 0 8
        drop := 0 }
      exec (.qBind q v) s = .next (s.modQueue q (fun _ => b)) ∧
      (Tab.wf {} s.hub.queues = true → (s.modQueue q (fun _ => b)).queue q = b ∧
        (s.modQueue q (fun _ => b)).readHubReg (0x600 + 8 * q) = (v.extractLsb' 63 1 ++ 0#55 ++ v.extractLsb' 0 8 : BitVec 64))) ∧
    s.readHubReg (0x600 + 8 * q) =
      (BitVec.ofBool (s.queue q).ctx.isSome ++ 0#55 ++ (s.queue q).bindCtx : BitVec 64)

/-- R389 to R394, R431: partitions. A command is refused with RESULT 1 while another is in progress. CREATE of a
context that exists, and the others of one that does not, give RESULT 3. SWITCHOUT of a partition that is switched in
halts it; when its groups have halted its stores drain and the save timer starts; the image is saved with RESULT 0,
or, once 20 µs have passed, discarded with RESULT 5. SWITCHIN restores its teams, RESET resets it, DESTROY of one that
holds no launch and no queue releases it. The hang watchdog resets it after WDOG µs. When a partition counts as
halted, RESULT 0 for a SWITCHOUT of one that is switched out already, and the watchdog's clock (log 46), and that its
teams are restored together (log 79), are the model's choice. -/
def Obligations.PartitionCommands : Prop :=
  ∀ (s : State) (ctx : Nat),
    let result : State → Nat → State := fun a n => (a.modHub (fun h =>
      { h with ptBusy := false, ptCtx := BitVec.ofNat 8 ctx, ptResult := BitVec.ofNat 8 n })).raiseIrq 2
    let all : List Instr := [.create ctx, .switchout ctx, .switchin ctx, .reset ctx, .destroy ctx]
    (s.hub.ptBusy = true → ∀ i ∈ all, exec i s = .next (s.modHub (fun h => { h with ptResult := 1 }))) ∧
    (s.hub.ptBusy = false → s.part ctx = none →
      (∀ i ∈ all.tail, exec i s = .next (result s 3)) ∧
      ∀ bs map window, ctx ≠ 0 → inHbm s.hub.ptArg.toNat 256 = true → s.recordAt s.hub.ptArg.toNat 256 = (some bs, s) →
        let d := readDesc bs
        s.recordAt d.vmap 4096 = (some map, s) → (d.peerwin ≠ 0 → s.recordAt d.peerwin 128 = (some window, s)) →
        let ms := (List.range 2048).map (fun i => field map (2 * i) 2)
        let ws := if d.peerwin = 0 then [] else (List.range 16).map (fun i => field window (8 * i) 8)
        d.ok = true → d.ctx = ctx → (∀ p ∈ s.parts, p.2.ports &&& d.part.ports = 0) → (∀ e ∈ ms, granuleOk e = true) →
        (∀ e ∈ ws, windowOk e = true) → (∀ i, i < 4 → s.mapFits d.part.dies ms i = true) →
        (∀ i, i < 4 → 2 * nth 0 d.part.cores i ≤ shadowCount ms i) →
        exec (.create ctx) s = .next (result (s.installPartition d ms ws) 0)) ∧
    ∀ p, s.part ctx = some p →
      (s.hub.ptBusy = false → exec (.create ctx) s = .next (result s 3) ∧
        (p.state = .switchedIn → exec (.switchout ctx) s = .next (((s.modHub (fun h =>
          { h with ptBusy := true, ptCtx := BitVec.ofNat 8 ctx })).modPart ctx (fun x =>
            { x with state := .halting, watchdog := s.now - x.watchdog, haltedAt := none })).endHubGroups ctx)) ∧
        (p.state ≠ .switchedIn → exec (.switchout ctx) s = .next (result s 0)) ∧
        (p.state ≠ .switchedOut → exec (.switchin ctx) s = .next (result s 3)) ∧
        (p.state = .switchedOut →
          let s1 := (s.modHub (fun h => { h with ptBusy := true, ptCtx := BitVec.ofNat 8 ctx })).modPart ctx
            (fun x => { x with state := .restoring })
          exec (.switchin ctx) s = .next (s1.tryRestore ctx) ∧
          ((∀ t ∈ s.savedTeams ctx, ∀ x, s.team t = some x → (s.pound (corePound x.core)).state = .run) →
            exec (.switchin ctx) s = .next (result ((s.savedTeams ctx).foldl State.restoreTeam
              (s1.modPart ctx (fun x => { x with state := .switchedIn, watchdog := s.now - x.watchdog }))) 0))) ∧
        exec (.reset ctx) s = .next (result (s.resetPartition ctx) 0) ∧
        ((∀ l ∈ s.launches, l.2.ctx = ctx → l.2.state = .completed) → (∀ q ∈ s.hub.queues, q.2.ctx ≠ some ctx) →
          ∃ t, exec (.destroy ctx) s = .next (result t 0) ∧ t.parts = Tab.remove (s.endHubGroups ctx).parts ctx)) ∧
      (p.state = .halting → s.partitionHalted ctx = true →
        let s0 := (s.residentTeams ctx).foldl State.stopQueues s
        let s1 := { s0 with groups := Tab.mapWith (fun _ g =>
          if g.ctx = ctx && g.core < 576 then g.stopTime s.now else g) s0.groups }
        exec (.partitionImageSave ctx) s = .next (([0, 1, 2, 3, 4].foldl State.drainAll s1).modPart ctx (fun x =>
          { x with state := .saving, haltedAt := some s.now }))) ∧
      (∀ t, p.state = .saving → p.haltedAt = some t →
        (s.now < t + 20000 → ∃ a, exec (.partitionImageSave ctx) s = .next (result a 0) ∧
          (a.part ctx).map Partition.state = some .switchedOut) ∧
        (t + 20000 ≤ s.now → exec (.saveTimerExpiry ctx) s = .next (result
          ((s.modPart ctx (fun x => { x with state := .switchedOut })).resetPartition ctx) 5))) ∧
      (p.state = .switchedIn → p.watchdog + p.wdog * 1000 ≤ s.now →
        exec (.hangWatchdogExpiry ctx) s = .next (s.resetPartition ctx))

/-- R335, R337, R418 to R423: rails, power states and droop. A write of RAIL_CTL while no change is in progress takes
the new points, a slower one at once, and BUSY stands until every rail that changes has reached its voltage, either
rail first; a write that changes nothing leaves BUSY clear (log 48, 77). DRAIN of a pound takes two events, the lock
and the end (log 47). These are the model's choice. A write of PD_CTL sets its fields and starts or ends gating;
PD_WAKE wakes; a die in steps 4 and 5 of its warm reset counts an error reply instead; automatic gating starts when
the pound has been idle for AUTOIDLE µs. The states of a pound follow each other as R421 gives them; a dispatch that
meets a gating pound's open lock ends the gating. A detector that fires sets the droop and counts it to 0xFFFFFFFF at
most; the droop ends after HOLD µs. -/
def Obligations.PowerAndRails : Prop :=
  ∀ (s : State),
    (∀ (v : BitVec 64), (s.hub.railBusy = true → exec (.railCtl v) s = .next s) ∧ (s.hub.railBusy = false →
      let vec := v.extractLsb' 0 2
      let mat := v.extractLsb' 8 2
      ∃ t, exec (.railCtl v) s = .next t ∧ t.hub.railCtlVec = vec ∧ t.hub.railCtlMat = mat ∧
        (t.hub.railBusy = true ↔ vec ≠ s.hub.railVec ∨ mat ≠ s.hub.railMat) ∧
        (t.hub.railVecPending = true ↔ vec ≠ s.hub.railVec) ∧ (t.hub.railMatPending = true ↔ mat ≠ s.hub.railMat) ∧
        (s.hub.railVec < vec → t.hub.railVec = vec) ∧ (vec ≤ s.hub.railVec → t.hub.railVec = s.hub.railVec) ∧
        (t.hub.railOldVec = s.hub.railVec ∧ t.hub.railOldMat = s.hub.railMat) ∧
        (s.hub.railMat < mat → t.hub.railMat = mat) ∧ (mat ≤ s.hub.railMat → t.hub.railMat = s.hub.railMat) ∧
        t.mem = s.mem ∧ t.groups = s.groups)) ∧
    (let past : Hub → BitVec 2 → BitVec 2 → BitVec 2 → BitVec 2 := fun h earlier old new =>
        let faster := if old < new then old else new
        if h.railEnd = some s.intervalNow then (if earlier < faster then earlier else faster) else faster
     let reached : State → Bool → Bool → State := fun a vec busy => a.modHub (fun h => { h with
        railVec := (if vec then h.railCtlVec else h.railVec)
        railVecPending := (if vec then false else h.railVecPending)
        railMat := (if vec then h.railMat else h.railCtlMat)
        railMatPending := (if vec then h.railMatPending else false)
        railBusy := (if busy then h.railBusy else false)
        railEnd := (if busy then h.railEnd else some s.intervalNow)
        railPastVec := (if busy then h.railPastVec else past h h.railPastVec h.railOldVec h.railCtlVec)
        railPastMat := (if busy then h.railPastMat else past h h.railPastMat h.railOldMat h.railCtlMat) });
      (s.hub.railVecPending = true → s.hub.railMatPending = false →
        exec .railVoltageReached s = .next (reached s true false)) ∧
      (s.hub.railVecPending = false → s.hub.railMatPending = true →
        exec .railVoltageReached s = .next (reached s false false)) ∧
      (s.hub.railVecPending = true → s.hub.railMatPending = true →
        exec .railVoltageReached s = .next (reached s.freeBool.2 s.freeBool.1 true))) ∧
    ∀ die pound, die < 4 → pound < 16 →
      let key := die * 16 + pound
      let p := s.pound key
      let enter : PoundState → State → State := fun x a => a.modPound key (fun q => { q with state := x })
      let step_ : State → Prop := fun a => exec (.poundStateComplete die pound) s = .next a
      (∀ v, s.dieDown die = true → ∀ i ∈ ([.pdCtl die pound v, .pdWake die pound v] : List Instr),
        exec i s = .next (s.modDie die (fun x => { x with resetErrors := x.resetErrors + 1 }))) ∧
      (∀ (v : BitVec 64), s.dieDown die = false →
        let s1 := s.modPound key (fun q =>
          { q with autoidle := if v.extractLsb' 16 16 = 0 then q.autoidle else v.extractLsb' 16 16
                   autotgt := v.extractLsb' 2 2 })
        let s2 := s1.modPound key (fun q => { q with target := v.extractLsb' 0 2 })
        (v.extractLsb' 0 2 = 3 → exec (.pdCtl die pound v) s = .next s1.settleRestores) ∧
        (v.extractLsb' 0 2 = 0 → exec (.pdCtl die pound v) s = .next (s1.wakePound key).settleRestores) ∧
        (v.extractLsb' 0 2 = 1 ∨ v.extractLsb' 0 2 = 2 →
          ((s2.pound key).state ≠ .run → exec (.pdCtl die pound v) s = .next s2.settleRestores) ∧
          ((s2.pound key).state = .run → exec (.pdCtl die pound v) s = .next (s2.modPound key (fun q =>
            { q with state := .drain, waking := false })).settleRestores))) ∧
      (∀ (v : BitVec 64), s.dieDown die = false →
        let s1 := s.modPound key (fun q => { q with target := 0 })
        let st := (s1.pound key).state
        let wakes : State → Prop := fun a => exec (.pdWake die pound v) s = .next a.settleRestores
        (v.getLsbD 0 = false → wakes s) ∧
        (v.getLsbD 0 = true → (st = .run ∨ st = .railon ∨ st = .clkon ∨ st = .restore → wakes s1) ∧
          (st = .drain → wakes (s1.reachRun key 3)) ∧
          (st = .quiet ∨ st = .save ∨ st = .railoff → wakes (s1.modPound key (fun q => { q with waking := true }))) ∧
          (st = .clkoff → wakes (s1.modPound key (fun q => { q with state := .clkon, waking := true }))) ∧
          (st = .off → wakes (s1.modPound key (fun q => { q with state := .railon, waking := true }))))) ∧
      (p.state = .run → p.autotgt = 1 ∨ p.autotgt = 2 → s.poundTeams key = [] → p.blocks = [] →
        p.idleSince + p.autoidle.toNat * 1000 ≤ s.now →
        exec (.autoidleExpiry die pound) s = .next (s.modPound key (fun q => { q with state := .drain, waking := false }))) ∧
      (p.state = .run ∨ p.state = .off → step_ s) ∧
      (p.state = .drain → (p.lock = false → step_ (s.commitGating key)) ∧
        (p.lock = true → s.poundDrained key = true → step_ (s.beginQuiet key)) ∧
        (p.lock = true → s.poundDrained key = false → step_ s)) ∧
      (p.state = .quiet → (p.waking = true → step_ (s.reachRun key 3).settleRestores) ∧
        (p.waking = false → step_ (enter .save s))) ∧
      (p.state = .save → (p.waking = true → step_ (enter .restore (s.endSave key))) ∧
        (p.waking = false → step_ ((s.endSave key).beginClkoff key))) ∧
      (p.state = .clkoff → (p.aim = 2 → step_ (enter .railoff s)) ∧ (p.aim ≠ 2 → step_ s)) ∧
      (p.state = .railoff → (p.waking = true → step_ (enter .railon s)) ∧
        (p.waking = false → p.aim = 2 → step_ ((enter .off s).ackPound key 1)) ∧
        (p.waking = false → p.aim ≠ 2 → step_ (enter .off s))) ∧
      (p.state = .railon → step_ (enter .clkon s)) ∧
      (p.state = .clkon → step_ (enter .restore (s.modPound key (fun q => { q with droop := false })))) ∧
      (p.state = .restore → step_ (s.endRestore key).settleRestores) ∧
      (∀ dispatched, dispatched = ((∃ c ∈ s.clusters, s.dispatches key c.2 = true) ∨
          ∃ c ∈ s.checks, s.runDispatches key c.2 = true) →
        (¬dispatched → exec (.dispatchAtLock die pound) s = .next s) ∧
        (dispatched → (p.state = .run → exec (.dispatchAtLock die pound) s = .next s.settleRestores) ∧
          (p.state = .drain → p.lock = false → exec (.dispatchAtLock die pound) s = .next ((s.modPound key (fun q =>
            { q with state := .run, target := 0, idleSince := s.now })).ackPound key 2).settleRestores) ∧
          (p.state ≠ .run → (p.state = .drain → p.lock = true) →
            exec (.dispatchAtLock die pound) s = .next (s.wakePound key).settleRestores))) ∧
      (p.detects = true →
        exec (.droopFire die pound) s = .next (s.modPound key (fun q =>
          { q with droop := true
                   droopSince := s.now
                   droops := if q.droops = 0xFFFFFFFF#32 then q.droops else q.droops + 1 }))) ∧
      (p.droop = true → p.droopSince + p.hold.toNat * 1000 ≤ s.now →
        exec (.droopHoldExpiry die pound) s = .next (s.modPound key (fun q => { q with droop := false })))
end

