-- ==== Sys2Proof/Laws/Tab.lean ====
section
/-!
SUPPORT. The laws of tables: reading after writing, and the canonical form that every write keeps.
-/

namespace Sys2Proof.Laws

open Sys2Proof

variable {α : Type}

@[simp] theorem tab_find_nil (i : Nat) : Tab.find ([] : Tab α) i = none := rfl

/-- What was put at a key is found there. -/
@[simp] theorem tab_find_insert_self (t : Tab α) (i : Nat) (x : α) : Tab.find (Tab.insert t i x) i = some x := by
  induction t with
  | nil => simp [Tab.insert, Tab.find]
  | cons p t ih =>
    obtain ⟨k, v⟩ := p
    simp only [Tab.insert]
    split
    · simp [Tab.find]
    · split
      · simp [Tab.find]
      · next h1 h2 => simp [Tab.find, Ne.symm h2, ih]

/-- Other keys keep what they hold. -/
theorem tab_find_insert_ne {t : Tab α} {i j : Nat} {x : α} (h : j ≠ i) : Tab.find (Tab.insert t i x) j = Tab.find t j := by
  induction t with
  | nil => simp [Tab.insert, Tab.find, Ne.symm h]
  | cons p t ih =>
    obtain ⟨k, v⟩ := p
    simp only [Tab.insert]
    split
    · simp [Tab.find, Ne.symm h]
    · split
      · next h1 h2 => subst h2; simp [Tab.find, Ne.symm h]
      · simp [Tab.find, ih]

/-- Removing a key leaves the others. -/
theorem tab_find_remove_ne {t : Tab α} {i j : Nat} (h : j ≠ i) : Tab.find (Tab.remove t i) j = Tab.find t j := by
  induction t with
  | nil => rfl
  | cons p t ih =>
    obtain ⟨k, v⟩ := p
    simp only [Tab.remove]
    split
    · next h1 => subst h1; simp [Tab.find, Ne.symm h]
    · simp [Tab.find, ih]

/-- A table whose keys start above a key does not list it. -/
theorem tab_find_below {t : Tab α} {n i : Nat} (h : Tab.sortedFrom n t = true) (hi : i < n) : Tab.find t i = none := by
  induction t generalizing n with
  | nil => rfl
  | cons p t ih =>
    obtain ⟨k, v⟩ := p
    simp only [Tab.sortedFrom, Bool.and_eq_true, decide_eq_true_eq] at h
    have hk : ¬ k = i := by omega
    simp only [Tab.find, hk, if_false]
    exact ih h.2 (by omega)

/-- A removed key is not found in a table with rising keys. -/
theorem tab_find_remove_self {t : Tab α} {n i : Nat} (h : Tab.sortedFrom n t = true) : Tab.find (Tab.remove t i) i = none := by
  induction t generalizing n with
  | nil => rfl
  | cons p t ih =>
    obtain ⟨k, v⟩ := p
    simp only [Tab.sortedFrom, Bool.and_eq_true, decide_eq_true_eq] at h
    simp only [Tab.remove]
    split
    · next hk => subst hk; exact tab_find_below h.2 (by omega)
    · next hk => simp only [Tab.find, hk, if_false]; exact ih h.2

/-- Modifying keeps the other keys. -/
theorem tab_find_modify_ne {t : Tab α} {i j : Nat} {f : α → α} (h : j ≠ i) : Tab.find (Tab.modify t i f) j = Tab.find t j := by
  unfold Tab.modify
  split
  · exact tab_find_insert_ne h
  · rfl

/-- Modifying a listed key applies the function. -/
theorem tab_find_modify_self {t : Tab α} {i : Nat} {f : α → α} : Tab.find (Tab.modify t i f) i = (Tab.find t i).map f := by
  unfold Tab.modify
  split
  · next h => simp [h]
  · next h => simp [h]

/-- Modifying what was just put is putting the modified value. -/
theorem tab_modify_insert (t : Tab α) (i : Nat) (x : α) (f : α → α) :
    Tab.modify (Tab.insert t i x) i f = Tab.insert (Tab.insert t i x) i (f x) := by
  simp [Tab.modify]

/-- Putting twice at one key keeps the later value. -/
theorem tab_insert_insert (t : Tab α) (i : Nat) (x y : α) : Tab.insert (Tab.insert t i x) i y = Tab.insert t i y := by
  induction t with
  | nil => simp [Tab.insert]
  | cons p t ih =>
    obtain ⟨k, v⟩ := p
    by_cases h1 : i < k
    · simp [Tab.insert, h1]
    · by_cases h2 : i = k
      · subst h2; simp [Tab.insert]
      · simp [Tab.insert, h1, h2, ih]

/-- Keys of mapWith are those of the table. -/
theorem tab_find_mapWith (t : Tab α) (f : Nat → α → α) (i : Nat) : Tab.find (Tab.mapWith f t) i = (Tab.find t i).map (f i) := by
  induction t with
  | nil => rfl
  | cons p t ih =>
    obtain ⟨k, v⟩ := p
    simp only [Tab.mapWith, Tab.find]
    split
    · next h => subst h; rfl
    · exact ih

/-! ## Reading and writing with a default -/

variable [DecidableEq α]

/-- A write leaves what the other keys read as. -/
theorem tab_read_write_ne {d : α} {t : Tab α} {i j : Nat} {x : α} (h : j ≠ i) :
    Tab.read d (Tab.write d t i x) j = Tab.read d t j := by
  unfold Tab.read Tab.write
  split
  · rw [tab_find_remove_ne h]
  · rw [tab_find_insert_ne h]

/-- A key of a canonical table reads what was written to it. -/
theorem tab_read_write_self {d : α} {t : Tab α} {n i : Nat} {x : α} (h : Tab.sortedFrom n t = true) :
    Tab.read d (Tab.write d t i x) i = x := by
  unfold Tab.read Tab.write
  split
  · next hx => rw [tab_find_remove_self h]; simp [hx]
  · simp

/-! ## The canonical form -/

omit [DecidableEq α] in
theorem tab_sorted_weaken {t : Tab α} {n m : Nat} (h : Tab.sortedFrom n t = true) (hm : m ≤ n) : Tab.sortedFrom m t = true := by
  cases t with
  | nil => rfl
  | cons p t =>
    obtain ⟨k, v⟩ := p
    simp only [Tab.sortedFrom, Bool.and_eq_true, decide_eq_true_eq] at h ⊢
    exact ⟨by omega, h.2⟩

omit [DecidableEq α] in
/-- Putting keeps the keys rising. -/
theorem tab_sorted_insert {t : Tab α} {n i : Nat} {x : α} (h : Tab.sortedFrom n t = true) (hi : n ≤ i) :
    Tab.sortedFrom n (Tab.insert t i x) = true := by
  induction t generalizing n with
  | nil => simp [Tab.insert, Tab.sortedFrom, hi]
  | cons p t ih =>
    obtain ⟨k, v⟩ := p
    simp only [Tab.sortedFrom, Bool.and_eq_true, decide_eq_true_eq] at h
    simp only [Tab.insert]
    split
    · simp only [Tab.sortedFrom, Bool.and_eq_true, decide_eq_true_eq]
      exact ⟨hi, by omega, h.2⟩
    · split
      · next h2 => subst h2; simp only [Tab.sortedFrom, Bool.and_eq_true, decide_eq_true_eq]; exact ⟨hi, h.2⟩
      · simp only [Tab.sortedFrom, Bool.and_eq_true, decide_eq_true_eq]
        exact ⟨h.1, ih h.2 (by omega)⟩

omit [DecidableEq α] in
/-- Removing keeps the keys rising. -/
theorem tab_sorted_remove {t : Tab α} {n i : Nat} (h : Tab.sortedFrom n t = true) : Tab.sortedFrom n (Tab.remove t i) = true := by
  induction t generalizing n with
  | nil => rfl
  | cons p t ih =>
    obtain ⟨k, v⟩ := p
    simp only [Tab.sortedFrom, Bool.and_eq_true, decide_eq_true_eq] at h
    simp only [Tab.remove]
    split
    · exact tab_sorted_weaken h.2 (by omega)
    · simp only [Tab.sortedFrom, Bool.and_eq_true, decide_eq_true_eq]; exact ⟨h.1, ih h.2⟩

omit [DecidableEq α] in
/-- Dropping entries keeps the keys rising. -/
theorem tab_sorted_filter {t : Tab α} {n : Nat} {p : Nat × α → Bool} (h : Tab.sortedFrom n t = true) :
    Tab.sortedFrom n (t.filter p) = true := by
  induction t generalizing n with
  | nil => rfl
  | cons q t ih =>
    obtain ⟨k, v⟩ := q
    simp only [Tab.sortedFrom, Bool.and_eq_true, decide_eq_true_eq] at h
    simp only [List.filter]
    split
    · simp only [Tab.sortedFrom, Bool.and_eq_true, decide_eq_true_eq]; exact ⟨h.1, ih h.2⟩
    · exact tab_sorted_weaken (ih h.2) (by omega)

omit [DecidableEq α] in
theorem tab_mem_insert {t : Tab α} {i : Nat} {x : α} {p : Nat × α} (h : p ∈ Tab.insert t i x) : p = (i, x) ∨ p ∈ t := by
  induction t with
  | nil => simpa [Tab.insert] using h
  | cons q t ih =>
    obtain ⟨k, v⟩ := q
    simp only [Tab.insert] at h
    split at h
    · simpa using h
    · split at h
      · rcases List.mem_cons.1 h with h | h
        · exact .inl h
        · exact .inr (List.mem_cons_of_mem _ h)
      · rcases List.mem_cons.1 h with h | h
        · exact .inr (by simp [h])
        · rcases ih h with h | h
          · exact .inl h
          · exact .inr (List.mem_cons_of_mem _ h)

omit [DecidableEq α] in
theorem tab_mem_remove {t : Tab α} {i : Nat} {p : Nat × α} (h : p ∈ Tab.remove t i) : p ∈ t := by
  induction t with
  | nil => simp [Tab.remove] at h
  | cons q t ih =>
    obtain ⟨k, v⟩ := q
    simp only [Tab.remove] at h
    split at h
    · exact List.mem_cons_of_mem _ h
    · rcases List.mem_cons.1 h with h | h
      · simp [h]
      · exact List.mem_cons_of_mem _ (ih h)

/-- A write keeps the canonical form. -/
theorem tab_wf_write {d : α} {t : Tab α} {i : Nat} {x : α} (h : Tab.wf d t = true) : Tab.wf d (Tab.write d t i x) = true := by
  simp only [Tab.wf, Bool.and_eq_true, List.all_eq_true, decide_eq_true_eq] at h ⊢
  unfold Tab.write
  split
  · exact ⟨tab_sorted_remove h.1, fun p hp => h.2 p (tab_mem_remove hp)⟩
  · next hx =>
    refine ⟨tab_sorted_insert h.1 (Nat.zero_le _), fun p hp => ?_⟩
    rcases tab_mem_insert hp with rfl | hp
    · exact hx
    · exact h.2 p hp

/-- Dropping entries keeps the canonical form. -/
theorem tab_wf_filter {d : α} {t : Tab α} {p : Nat × α → Bool} (h : Tab.wf d t = true) : Tab.wf d (t.filter p) = true := by
  simp only [Tab.wf, Bool.and_eq_true, List.all_eq_true, decide_eq_true_eq] at h ⊢
  exact ⟨tab_sorted_filter h.1, fun q hq => h.2 q (List.mem_filter.1 hq).1⟩

/-- Writes one after another keep the canonical form. -/
theorem tab_wf_foldl_write {β : Type} {d : α} {t : Tab α} {ws : List β} {key : β → Nat} {val : β → α} (h : Tab.wf d t = true) :
    Tab.wf d (ws.foldl (fun m p => Tab.write d m (key p) (val p)) t) = true := by
  induction ws generalizing t with
  | nil => exact h
  | cons w ws ih => exact ih (tab_wf_write h)

end Sys2Proof.Laws
end

