-- ==== Sys2Proof/Laws/Group.lean ====
section
/-!
SUPPORT. What each register write of a group leaves, and what the written register reads.
-/

namespace Sys2Proof.Laws

open Sys2Proof Sys2Proof.Machine

variable (g : Group)

@[simp] theorem group_setS_core (i : Nat) (v : Word) : (g.setS i v).core = g.core := by unfold Group.setS; split <;> rfl
@[simp] theorem group_setS_team (i : Nat) (v : Word) : (g.setS i v).team = g.team := by unfold Group.setS; split <;> rfl
@[simp] theorem group_setS_ctx (i : Nat) (v : Word) : (g.setS i v).ctx = g.ctx := by unfold Group.setS; split <;> rfl
@[simp] theorem group_setS_gid (i : Nat) (v : Word) : (g.setS i v).gid = g.gid := by unfold Group.setS; split <;> rfl
@[simp] theorem group_setS_tindex (i : Nat) (v : Word) : (g.setS i v).tindex = g.tindex := by unfold Group.setS; split <;> rfl
@[simp] theorem group_setS_width (i : Nat) (v : Word) : (g.setS i v).width = g.width := by unfold Group.setS; split <;> rfl
@[simp] theorem group_setS_vregs (i : Nat) (v : Word) : (g.setS i v).vregs = g.vregs := by unfold Group.setS; split <;> rfl
@[simp] theorem group_setS_system (i : Nat) (v : Word) : (g.setS i v).system = g.system := by unfold Group.setS; split <;> rfl
@[simp] theorem group_setS_handler (i : Nat) (v : Word) : (g.setS i v).handler = g.handler := by unfold Group.setS; split <;> rfl
@[simp] theorem group_setS_pc (i : Nat) (v : Word) : (g.setS i v).pc = g.pc := by unfold Group.setS; split <;> rfl
@[simp] theorem group_setS_cregs (i : Nat) (v : Word) : (g.setS i v).cregs = g.cregs := by unfold Group.setS; split <;> rfl
@[simp] theorem group_setS_qregs (i : Nat) (v : Word) : (g.setS i v).qregs = g.qregs := by unfold Group.setS; split <;> rfl
@[simp] theorem group_setS_vecs (i : Nat) (v : Word) : (g.setS i v).vecs = g.vecs := by unfold Group.setS; split <;> rfl
@[simp] theorem group_setS_flags (i : Nat) (v : Word) : (g.setS i v).flags = g.flags := by unfold Group.setS; split <;> rfl
@[simp] theorem group_setS_marks (i : Nat) (v : Word) : (g.setS i v).marks = g.marks := by unfold Group.setS; split <;> rfl
@[simp] theorem group_setS_flights (i : Nat) (v : Word) : (g.setS i v).flights = g.flights := by unfold Group.setS; split <;> rfl
@[simp] theorem group_setS_nextOp (i : Nat) (v : Word) : (g.setS i v).nextOp = g.nextOp := by unfold Group.setS; split <;> rfl
@[simp] theorem group_setS_mxcnt (i : Nat) (v : Word) : (g.setS i v).mxcnt = g.mxcnt := by unfold Group.setS; split <;> rfl
@[simp] theorem group_setS_gacnt (i : Nat) (v : Word) : (g.setS i v).gacnt = g.gacnt := by unfold Group.setS; split <;> rfl
@[simp] theorem group_setS_cocnt (i : Nat) (v : Word) : (g.setS i v).cocnt = g.cocnt := by unfold Group.setS; split <;> rfl
@[simp] theorem group_setS_cbopen (i : Nat) (v : Word) : (g.setS i v).cbopen = g.cbopen := by unfold Group.setS; split <;> rfl
@[simp] theorem group_setS_cbdone (i : Nat) (v : Word) : (g.setS i v).cbdone = g.cbdone := by unfold Group.setS; split <;> rfl
@[simp] theorem group_setS_batches (i : Nat) (v : Word) : (g.setS i v).batches = g.batches := by unfold Group.setS; split <;> rfl
@[simp] theorem group_setS_batchUsed (i : Nat) (v : Word) : (g.setS i v).batchUsed = g.batchUsed := by unfold Group.setS; split <;> rfl
@[simp] theorem group_setS_fpstat (i : Nat) (v : Word) : (g.setS i v).fpstat = g.fpstat := by unfold Group.setS; split <;> rfl
@[simp] theorem group_setS_sig (i : Nat) (v : Word) : (g.setS i v).sig = g.sig := by unfold Group.setS; split <;> rfl
@[simp] theorem group_setS_gtBase (i : Nat) (v : Word) : (g.setS i v).gtBase = g.gtBase := by unfold Group.setS; split <;> rfl
@[simp] theorem group_setS_gtSince (i : Nat) (v : Word) : (g.setS i v).gtSince = g.gtSince := by unfold Group.setS; split <;> rfl
@[simp] theorem group_setS_gtimer (i : Nat) (v : Word) : (g.setS i v).gtimer = g.gtimer := by unfold Group.setS; split <;> rfl
@[simp] theorem group_setS_stoch (i : Nat) (v : Word) : (g.setS i v).stoch = g.stoch := by unfold Group.setS; split <;> rfl
@[simp] theorem group_setS_arrivals (i : Nat) (v : Word) : (g.setS i v).arrivals = g.arrivals := by unfold Group.setS; split <;> rfl
@[simp] theorem group_setS_latch (i : Nat) (v : Word) : (g.setS i v).latch = g.latch := by unfold Group.setS; split <;> rfl
@[simp] theorem group_setS_hidden (i : Nat) (v : Word) : (g.setS i v).hidden = g.hidden := by unfold Group.setS; split <;> rfl
@[simp] theorem group_setS_clause (i : Nat) (v : Word) : (g.setS i v).clause = g.clause := by unfold Group.setS; split <;> rfl
@[simp] theorem group_setS_replay (i : Nat) (v : Word) : (g.setS i v).replay = g.replay := by unfold Group.setS; split <;> rfl
@[simp] theorem group_setS_replayOps (i : Nat) (v : Word) : (g.setS i v).replayOps = g.replayOps := by unfold Group.setS; split <;> rfl
@[simp] theorem group_setS_wait (i : Nat) (v : Word) : (g.setS i v).wait = g.wait := by unfold Group.setS; split <;> rfl
@[simp] theorem group_setS_parked (i : Nat) (v : Word) : (g.setS i v).parked = g.parked := by unfold Group.setS; split <;> rfl
@[simp] theorem group_setS_watch (i : Nat) (v : Word) : (g.setS i v).watch = g.watch := by unfold Group.setS; split <;> rfl
@[simp] theorem group_setS_watchLost (i : Nat) (v : Word) : (g.setS i v).watchLost = g.watchLost := by unfold Group.setS; split <;> rfl
@[simp] theorem group_setS_owed (i : Nat) (v : Word) : (g.setS i v).owed = g.owed := by unfold Group.setS; split <;> rfl
@[simp] theorem group_setS_refused (i : Nat) (v : Word) : (g.setS i v).refused = g.refused := by unfold Group.setS; split <;> rfl
@[simp] theorem group_setS_engFaults (i : Nat) (v : Word) : (g.setS i v).engFaults = g.engFaults := by unfold Group.setS; split <;> rfl
@[simp] theorem group_setS_doomed (i : Nat) (v : Word) : (g.setS i v).doomed = g.doomed := by unfold Group.setS; split <;> rfl
@[simp] theorem group_setS_copied (i : Nat) (v : Word) : (g.setS i v).copied = g.copied := by unfold Group.setS; split <;> rfl
@[simp] theorem group_setS_age (i : Nat) (v : Word) : (g.setS i v).age = g.age := by unfold Group.setS; split <;> rfl
@[simp] theorem group_setS_losses (i : Nat) (v : Word) : (g.setS i v).losses = g.losses := by unfold Group.setS; split <;> rfl
@[simp] theorem group_setS_sticky (i : Nat) (v : Word) : (g.setS i v).sticky = g.sticky := by unfold Group.setS; split <;> rfl
@[simp] theorem group_setS_yielded (i : Nat) (v : Word) : (g.setS i v).yielded = g.yielded := by unfold Group.setS; split <;> rfl
@[simp] theorem group_setS_exiting (i : Nat) (v : Word) : (g.setS i v).exiting = g.exiting := by unfold Group.setS; split <;> rfl
@[simp] theorem group_setS_debugStop (i : Nat) (v : Word) : (g.setS i v).debugStop = g.debugStop := by unfold Group.setS; split <;> rfl
@[simp] theorem group_setS_walkFaults (i : Nat) (v : Word) : (g.setS i v).walkFaults = g.walkFaults := by unfold Group.setS; split <;> rfl
@[simp] theorem group_setS_holding (i : Nat) (v : Word) : (g.setS i v).holding = g.holding := by unfold Group.setS; split <;> rfl
@[simp] theorem group_setS_barTrap (i : Nat) (v : Word) : (g.setS i v).barTrap = g.barTrap := by unfold Group.setS; split <;> rfl
@[simp] theorem group_setS_fenced (i : Nat) (v : Word) : (g.setS i v).fenced = g.fenced := by unfold Group.setS; split <;> rfl
@[simp] theorem group_setS_arrayFaultTaken (i : Nat) (v : Word) : (g.setS i v).arrayFaultTaken = g.arrayFaultTaken := by unfold Group.setS; split <;> rfl
@[simp] theorem group_setS_logPos (i : Nat) (v : Word) : (g.setS i v).logPos = g.logPos := by unfold Group.setS; split <;> rfl
@[simp] theorem group_setS_copyPos (i : Nat) (v : Word) : (g.setS i v).copyPos = g.copyPos := by unfold Group.setS; split <;> rfl

@[simp] theorem group_setC_core (i : Nat) (v : Bool) : (g.setC i v).core = g.core := by unfold Group.setC; split <;> rfl
@[simp] theorem group_setC_team (i : Nat) (v : Bool) : (g.setC i v).team = g.team := by unfold Group.setC; split <;> rfl
@[simp] theorem group_setC_ctx (i : Nat) (v : Bool) : (g.setC i v).ctx = g.ctx := by unfold Group.setC; split <;> rfl
@[simp] theorem group_setC_gid (i : Nat) (v : Bool) : (g.setC i v).gid = g.gid := by unfold Group.setC; split <;> rfl
@[simp] theorem group_setC_tindex (i : Nat) (v : Bool) : (g.setC i v).tindex = g.tindex := by unfold Group.setC; split <;> rfl
@[simp] theorem group_setC_width (i : Nat) (v : Bool) : (g.setC i v).width = g.width := by unfold Group.setC; split <;> rfl
@[simp] theorem group_setC_vregs (i : Nat) (v : Bool) : (g.setC i v).vregs = g.vregs := by unfold Group.setC; split <;> rfl
@[simp] theorem group_setC_system (i : Nat) (v : Bool) : (g.setC i v).system = g.system := by unfold Group.setC; split <;> rfl
@[simp] theorem group_setC_handler (i : Nat) (v : Bool) : (g.setC i v).handler = g.handler := by unfold Group.setC; split <;> rfl
@[simp] theorem group_setC_pc (i : Nat) (v : Bool) : (g.setC i v).pc = g.pc := by unfold Group.setC; split <;> rfl
@[simp] theorem group_setC_sregs (i : Nat) (v : Bool) : (g.setC i v).sregs = g.sregs := by unfold Group.setC; split <;> rfl
@[simp] theorem group_setC_qregs (i : Nat) (v : Bool) : (g.setC i v).qregs = g.qregs := by unfold Group.setC; split <;> rfl
@[simp] theorem group_setC_vecs (i : Nat) (v : Bool) : (g.setC i v).vecs = g.vecs := by unfold Group.setC; split <;> rfl
@[simp] theorem group_setC_flags (i : Nat) (v : Bool) : (g.setC i v).flags = g.flags := by unfold Group.setC; split <;> rfl
@[simp] theorem group_setC_marks (i : Nat) (v : Bool) : (g.setC i v).marks = g.marks := by unfold Group.setC; split <;> rfl
@[simp] theorem group_setC_flights (i : Nat) (v : Bool) : (g.setC i v).flights = g.flights := by unfold Group.setC; split <;> rfl
@[simp] theorem group_setC_nextOp (i : Nat) (v : Bool) : (g.setC i v).nextOp = g.nextOp := by unfold Group.setC; split <;> rfl
@[simp] theorem group_setC_mxcnt (i : Nat) (v : Bool) : (g.setC i v).mxcnt = g.mxcnt := by unfold Group.setC; split <;> rfl
@[simp] theorem group_setC_gacnt (i : Nat) (v : Bool) : (g.setC i v).gacnt = g.gacnt := by unfold Group.setC; split <;> rfl
@[simp] theorem group_setC_cocnt (i : Nat) (v : Bool) : (g.setC i v).cocnt = g.cocnt := by unfold Group.setC; split <;> rfl
@[simp] theorem group_setC_cbopen (i : Nat) (v : Bool) : (g.setC i v).cbopen = g.cbopen := by unfold Group.setC; split <;> rfl
@[simp] theorem group_setC_cbdone (i : Nat) (v : Bool) : (g.setC i v).cbdone = g.cbdone := by unfold Group.setC; split <;> rfl
@[simp] theorem group_setC_batches (i : Nat) (v : Bool) : (g.setC i v).batches = g.batches := by unfold Group.setC; split <;> rfl
@[simp] theorem group_setC_batchUsed (i : Nat) (v : Bool) : (g.setC i v).batchUsed = g.batchUsed := by unfold Group.setC; split <;> rfl
@[simp] theorem group_setC_fpstat (i : Nat) (v : Bool) : (g.setC i v).fpstat = g.fpstat := by unfold Group.setC; split <;> rfl
@[simp] theorem group_setC_sig (i : Nat) (v : Bool) : (g.setC i v).sig = g.sig := by unfold Group.setC; split <;> rfl
@[simp] theorem group_setC_gtBase (i : Nat) (v : Bool) : (g.setC i v).gtBase = g.gtBase := by unfold Group.setC; split <;> rfl
@[simp] theorem group_setC_gtSince (i : Nat) (v : Bool) : (g.setC i v).gtSince = g.gtSince := by unfold Group.setC; split <;> rfl
@[simp] theorem group_setC_gtimer (i : Nat) (v : Bool) : (g.setC i v).gtimer = g.gtimer := by unfold Group.setC; split <;> rfl
@[simp] theorem group_setC_stoch (i : Nat) (v : Bool) : (g.setC i v).stoch = g.stoch := by unfold Group.setC; split <;> rfl
@[simp] theorem group_setC_arrivals (i : Nat) (v : Bool) : (g.setC i v).arrivals = g.arrivals := by unfold Group.setC; split <;> rfl
@[simp] theorem group_setC_latch (i : Nat) (v : Bool) : (g.setC i v).latch = g.latch := by unfold Group.setC; split <;> rfl
@[simp] theorem group_setC_hidden (i : Nat) (v : Bool) : (g.setC i v).hidden = g.hidden := by unfold Group.setC; split <;> rfl
@[simp] theorem group_setC_clause (i : Nat) (v : Bool) : (g.setC i v).clause = g.clause := by unfold Group.setC; split <;> rfl
@[simp] theorem group_setC_replay (i : Nat) (v : Bool) : (g.setC i v).replay = g.replay := by unfold Group.setC; split <;> rfl
@[simp] theorem group_setC_replayOps (i : Nat) (v : Bool) : (g.setC i v).replayOps = g.replayOps := by unfold Group.setC; split <;> rfl
@[simp] theorem group_setC_wait (i : Nat) (v : Bool) : (g.setC i v).wait = g.wait := by unfold Group.setC; split <;> rfl
@[simp] theorem group_setC_parked (i : Nat) (v : Bool) : (g.setC i v).parked = g.parked := by unfold Group.setC; split <;> rfl
@[simp] theorem group_setC_watch (i : Nat) (v : Bool) : (g.setC i v).watch = g.watch := by unfold Group.setC; split <;> rfl
@[simp] theorem group_setC_watchLost (i : Nat) (v : Bool) : (g.setC i v).watchLost = g.watchLost := by unfold Group.setC; split <;> rfl
@[simp] theorem group_setC_owed (i : Nat) (v : Bool) : (g.setC i v).owed = g.owed := by unfold Group.setC; split <;> rfl
@[simp] theorem group_setC_refused (i : Nat) (v : Bool) : (g.setC i v).refused = g.refused := by unfold Group.setC; split <;> rfl
@[simp] theorem group_setC_engFaults (i : Nat) (v : Bool) : (g.setC i v).engFaults = g.engFaults := by unfold Group.setC; split <;> rfl
@[simp] theorem group_setC_doomed (i : Nat) (v : Bool) : (g.setC i v).doomed = g.doomed := by unfold Group.setC; split <;> rfl
@[simp] theorem group_setC_copied (i : Nat) (v : Bool) : (g.setC i v).copied = g.copied := by unfold Group.setC; split <;> rfl
@[simp] theorem group_setC_age (i : Nat) (v : Bool) : (g.setC i v).age = g.age := by unfold Group.setC; split <;> rfl
@[simp] theorem group_setC_losses (i : Nat) (v : Bool) : (g.setC i v).losses = g.losses := by unfold Group.setC; split <;> rfl
@[simp] theorem group_setC_sticky (i : Nat) (v : Bool) : (g.setC i v).sticky = g.sticky := by unfold Group.setC; split <;> rfl
@[simp] theorem group_setC_yielded (i : Nat) (v : Bool) : (g.setC i v).yielded = g.yielded := by unfold Group.setC; split <;> rfl
@[simp] theorem group_setC_exiting (i : Nat) (v : Bool) : (g.setC i v).exiting = g.exiting := by unfold Group.setC; split <;> rfl
@[simp] theorem group_setC_debugStop (i : Nat) (v : Bool) : (g.setC i v).debugStop = g.debugStop := by unfold Group.setC; split <;> rfl
@[simp] theorem group_setC_walkFaults (i : Nat) (v : Bool) : (g.setC i v).walkFaults = g.walkFaults := by unfold Group.setC; split <;> rfl
@[simp] theorem group_setC_holding (i : Nat) (v : Bool) : (g.setC i v).holding = g.holding := by unfold Group.setC; split <;> rfl
@[simp] theorem group_setC_barTrap (i : Nat) (v : Bool) : (g.setC i v).barTrap = g.barTrap := by unfold Group.setC; split <;> rfl
@[simp] theorem group_setC_fenced (i : Nat) (v : Bool) : (g.setC i v).fenced = g.fenced := by unfold Group.setC; split <;> rfl
@[simp] theorem group_setC_arrayFaultTaken (i : Nat) (v : Bool) : (g.setC i v).arrayFaultTaken = g.arrayFaultTaken := by unfold Group.setC; split <;> rfl
@[simp] theorem group_setC_logPos (i : Nat) (v : Bool) : (g.setC i v).logPos = g.logPos := by unfold Group.setC; split <;> rfl
@[simp] theorem group_setC_copyPos (i : Nat) (v : Bool) : (g.setC i v).copyPos = g.copyPos := by unfold Group.setC; split <;> rfl

@[simp] theorem group_setQ_core (i : Nat) (v : BitVec 64) : (g.setQ i v).core = g.core := by unfold Group.setQ; split <;> rfl
@[simp] theorem group_setQ_team (i : Nat) (v : BitVec 64) : (g.setQ i v).team = g.team := by unfold Group.setQ; split <;> rfl
@[simp] theorem group_setQ_ctx (i : Nat) (v : BitVec 64) : (g.setQ i v).ctx = g.ctx := by unfold Group.setQ; split <;> rfl
@[simp] theorem group_setQ_gid (i : Nat) (v : BitVec 64) : (g.setQ i v).gid = g.gid := by unfold Group.setQ; split <;> rfl
@[simp] theorem group_setQ_tindex (i : Nat) (v : BitVec 64) : (g.setQ i v).tindex = g.tindex := by unfold Group.setQ; split <;> rfl
@[simp] theorem group_setQ_width (i : Nat) (v : BitVec 64) : (g.setQ i v).width = g.width := by unfold Group.setQ; split <;> rfl
@[simp] theorem group_setQ_vregs (i : Nat) (v : BitVec 64) : (g.setQ i v).vregs = g.vregs := by unfold Group.setQ; split <;> rfl
@[simp] theorem group_setQ_system (i : Nat) (v : BitVec 64) : (g.setQ i v).system = g.system := by unfold Group.setQ; split <;> rfl
@[simp] theorem group_setQ_handler (i : Nat) (v : BitVec 64) : (g.setQ i v).handler = g.handler := by unfold Group.setQ; split <;> rfl
@[simp] theorem group_setQ_pc (i : Nat) (v : BitVec 64) : (g.setQ i v).pc = g.pc := by unfold Group.setQ; split <;> rfl
@[simp] theorem group_setQ_sregs (i : Nat) (v : BitVec 64) : (g.setQ i v).sregs = g.sregs := by unfold Group.setQ; split <;> rfl
@[simp] theorem group_setQ_cregs (i : Nat) (v : BitVec 64) : (g.setQ i v).cregs = g.cregs := by unfold Group.setQ; split <;> rfl
@[simp] theorem group_setQ_vecs (i : Nat) (v : BitVec 64) : (g.setQ i v).vecs = g.vecs := by unfold Group.setQ; split <;> rfl
@[simp] theorem group_setQ_flags (i : Nat) (v : BitVec 64) : (g.setQ i v).flags = g.flags := by unfold Group.setQ; split <;> rfl
@[simp] theorem group_setQ_marks (i : Nat) (v : BitVec 64) : (g.setQ i v).marks = g.marks := by unfold Group.setQ; split <;> rfl
@[simp] theorem group_setQ_flights (i : Nat) (v : BitVec 64) : (g.setQ i v).flights = g.flights := by unfold Group.setQ; split <;> rfl
@[simp] theorem group_setQ_nextOp (i : Nat) (v : BitVec 64) : (g.setQ i v).nextOp = g.nextOp := by unfold Group.setQ; split <;> rfl
@[simp] theorem group_setQ_mxcnt (i : Nat) (v : BitVec 64) : (g.setQ i v).mxcnt = g.mxcnt := by unfold Group.setQ; split <;> rfl
@[simp] theorem group_setQ_gacnt (i : Nat) (v : BitVec 64) : (g.setQ i v).gacnt = g.gacnt := by unfold Group.setQ; split <;> rfl
@[simp] theorem group_setQ_cocnt (i : Nat) (v : BitVec 64) : (g.setQ i v).cocnt = g.cocnt := by unfold Group.setQ; split <;> rfl
@[simp] theorem group_setQ_cbopen (i : Nat) (v : BitVec 64) : (g.setQ i v).cbopen = g.cbopen := by unfold Group.setQ; split <;> rfl
@[simp] theorem group_setQ_cbdone (i : Nat) (v : BitVec 64) : (g.setQ i v).cbdone = g.cbdone := by unfold Group.setQ; split <;> rfl
@[simp] theorem group_setQ_batches (i : Nat) (v : BitVec 64) : (g.setQ i v).batches = g.batches := by unfold Group.setQ; split <;> rfl
@[simp] theorem group_setQ_batchUsed (i : Nat) (v : BitVec 64) : (g.setQ i v).batchUsed = g.batchUsed := by unfold Group.setQ; split <;> rfl
@[simp] theorem group_setQ_fpstat (i : Nat) (v : BitVec 64) : (g.setQ i v).fpstat = g.fpstat := by unfold Group.setQ; split <;> rfl
@[simp] theorem group_setQ_sig (i : Nat) (v : BitVec 64) : (g.setQ i v).sig = g.sig := by unfold Group.setQ; split <;> rfl
@[simp] theorem group_setQ_gtBase (i : Nat) (v : BitVec 64) : (g.setQ i v).gtBase = g.gtBase := by unfold Group.setQ; split <;> rfl
@[simp] theorem group_setQ_gtSince (i : Nat) (v : BitVec 64) : (g.setQ i v).gtSince = g.gtSince := by unfold Group.setQ; split <;> rfl
@[simp] theorem group_setQ_gtimer (i : Nat) (v : BitVec 64) : (g.setQ i v).gtimer = g.gtimer := by unfold Group.setQ; split <;> rfl
@[simp] theorem group_setQ_stoch (i : Nat) (v : BitVec 64) : (g.setQ i v).stoch = g.stoch := by unfold Group.setQ; split <;> rfl
@[simp] theorem group_setQ_arrivals (i : Nat) (v : BitVec 64) : (g.setQ i v).arrivals = g.arrivals := by unfold Group.setQ; split <;> rfl
@[simp] theorem group_setQ_latch (i : Nat) (v : BitVec 64) : (g.setQ i v).latch = g.latch := by unfold Group.setQ; split <;> rfl
@[simp] theorem group_setQ_hidden (i : Nat) (v : BitVec 64) : (g.setQ i v).hidden = g.hidden := by unfold Group.setQ; split <;> rfl
@[simp] theorem group_setQ_clause (i : Nat) (v : BitVec 64) : (g.setQ i v).clause = g.clause := by unfold Group.setQ; split <;> rfl
@[simp] theorem group_setQ_replay (i : Nat) (v : BitVec 64) : (g.setQ i v).replay = g.replay := by unfold Group.setQ; split <;> rfl
@[simp] theorem group_setQ_replayOps (i : Nat) (v : BitVec 64) : (g.setQ i v).replayOps = g.replayOps := by unfold Group.setQ; split <;> rfl
@[simp] theorem group_setQ_wait (i : Nat) (v : BitVec 64) : (g.setQ i v).wait = g.wait := by unfold Group.setQ; split <;> rfl
@[simp] theorem group_setQ_parked (i : Nat) (v : BitVec 64) : (g.setQ i v).parked = g.parked := by unfold Group.setQ; split <;> rfl
@[simp] theorem group_setQ_watch (i : Nat) (v : BitVec 64) : (g.setQ i v).watch = g.watch := by unfold Group.setQ; split <;> rfl
@[simp] theorem group_setQ_watchLost (i : Nat) (v : BitVec 64) : (g.setQ i v).watchLost = g.watchLost := by unfold Group.setQ; split <;> rfl
@[simp] theorem group_setQ_owed (i : Nat) (v : BitVec 64) : (g.setQ i v).owed = g.owed := by unfold Group.setQ; split <;> rfl
@[simp] theorem group_setQ_refused (i : Nat) (v : BitVec 64) : (g.setQ i v).refused = g.refused := by unfold Group.setQ; split <;> rfl
@[simp] theorem group_setQ_engFaults (i : Nat) (v : BitVec 64) : (g.setQ i v).engFaults = g.engFaults := by unfold Group.setQ; split <;> rfl
@[simp] theorem group_setQ_doomed (i : Nat) (v : BitVec 64) : (g.setQ i v).doomed = g.doomed := by unfold Group.setQ; split <;> rfl
@[simp] theorem group_setQ_copied (i : Nat) (v : BitVec 64) : (g.setQ i v).copied = g.copied := by unfold Group.setQ; split <;> rfl
@[simp] theorem group_setQ_age (i : Nat) (v : BitVec 64) : (g.setQ i v).age = g.age := by unfold Group.setQ; split <;> rfl
@[simp] theorem group_setQ_losses (i : Nat) (v : BitVec 64) : (g.setQ i v).losses = g.losses := by unfold Group.setQ; split <;> rfl
@[simp] theorem group_setQ_sticky (i : Nat) (v : BitVec 64) : (g.setQ i v).sticky = g.sticky := by unfold Group.setQ; split <;> rfl
@[simp] theorem group_setQ_yielded (i : Nat) (v : BitVec 64) : (g.setQ i v).yielded = g.yielded := by unfold Group.setQ; split <;> rfl
@[simp] theorem group_setQ_exiting (i : Nat) (v : BitVec 64) : (g.setQ i v).exiting = g.exiting := by unfold Group.setQ; split <;> rfl
@[simp] theorem group_setQ_debugStop (i : Nat) (v : BitVec 64) : (g.setQ i v).debugStop = g.debugStop := by unfold Group.setQ; split <;> rfl
@[simp] theorem group_setQ_walkFaults (i : Nat) (v : BitVec 64) : (g.setQ i v).walkFaults = g.walkFaults := by unfold Group.setQ; split <;> rfl
@[simp] theorem group_setQ_holding (i : Nat) (v : BitVec 64) : (g.setQ i v).holding = g.holding := by unfold Group.setQ; split <;> rfl
@[simp] theorem group_setQ_barTrap (i : Nat) (v : BitVec 64) : (g.setQ i v).barTrap = g.barTrap := by unfold Group.setQ; split <;> rfl
@[simp] theorem group_setQ_fenced (i : Nat) (v : BitVec 64) : (g.setQ i v).fenced = g.fenced := by unfold Group.setQ; split <;> rfl
@[simp] theorem group_setQ_arrayFaultTaken (i : Nat) (v : BitVec 64) : (g.setQ i v).arrayFaultTaken = g.arrayFaultTaken := by unfold Group.setQ; split <;> rfl
@[simp] theorem group_setQ_logPos (i : Nat) (v : BitVec 64) : (g.setQ i v).logPos = g.logPos := by unfold Group.setQ; split <;> rfl
@[simp] theorem group_setQ_copyPos (i : Nat) (v : BitVec 64) : (g.setQ i v).copyPos = g.copyPos := by unfold Group.setQ; split <;> rfl

@[simp] theorem group_setV_core (r l : Nat) (x : Lane) : (g.setV r l x).core = g.core := rfl
@[simp] theorem group_setV_team (r l : Nat) (x : Lane) : (g.setV r l x).team = g.team := rfl
@[simp] theorem group_setV_ctx (r l : Nat) (x : Lane) : (g.setV r l x).ctx = g.ctx := rfl
@[simp] theorem group_setV_gid (r l : Nat) (x : Lane) : (g.setV r l x).gid = g.gid := rfl
@[simp] theorem group_setV_tindex (r l : Nat) (x : Lane) : (g.setV r l x).tindex = g.tindex := rfl
@[simp] theorem group_setV_width (r l : Nat) (x : Lane) : (g.setV r l x).width = g.width := rfl
@[simp] theorem group_setV_vregs (r l : Nat) (x : Lane) : (g.setV r l x).vregs = g.vregs := rfl
@[simp] theorem group_setV_system (r l : Nat) (x : Lane) : (g.setV r l x).system = g.system := rfl
@[simp] theorem group_setV_handler (r l : Nat) (x : Lane) : (g.setV r l x).handler = g.handler := rfl
@[simp] theorem group_setV_pc (r l : Nat) (x : Lane) : (g.setV r l x).pc = g.pc := rfl
@[simp] theorem group_setV_sregs (r l : Nat) (x : Lane) : (g.setV r l x).sregs = g.sregs := rfl
@[simp] theorem group_setV_cregs (r l : Nat) (x : Lane) : (g.setV r l x).cregs = g.cregs := rfl
@[simp] theorem group_setV_qregs (r l : Nat) (x : Lane) : (g.setV r l x).qregs = g.qregs := rfl
@[simp] theorem group_setV_flags (r l : Nat) (x : Lane) : (g.setV r l x).flags = g.flags := rfl
@[simp] theorem group_setV_marks (r l : Nat) (x : Lane) : (g.setV r l x).marks = g.marks := rfl
@[simp] theorem group_setV_flights (r l : Nat) (x : Lane) : (g.setV r l x).flights = g.flights := rfl
@[simp] theorem group_setV_nextOp (r l : Nat) (x : Lane) : (g.setV r l x).nextOp = g.nextOp := rfl
@[simp] theorem group_setV_mxcnt (r l : Nat) (x : Lane) : (g.setV r l x).mxcnt = g.mxcnt := rfl
@[simp] theorem group_setV_gacnt (r l : Nat) (x : Lane) : (g.setV r l x).gacnt = g.gacnt := rfl
@[simp] theorem group_setV_cocnt (r l : Nat) (x : Lane) : (g.setV r l x).cocnt = g.cocnt := rfl
@[simp] theorem group_setV_cbopen (r l : Nat) (x : Lane) : (g.setV r l x).cbopen = g.cbopen := rfl
@[simp] theorem group_setV_cbdone (r l : Nat) (x : Lane) : (g.setV r l x).cbdone = g.cbdone := rfl
@[simp] theorem group_setV_batches (r l : Nat) (x : Lane) : (g.setV r l x).batches = g.batches := rfl
@[simp] theorem group_setV_batchUsed (r l : Nat) (x : Lane) : (g.setV r l x).batchUsed = g.batchUsed := rfl
@[simp] theorem group_setV_fpstat (r l : Nat) (x : Lane) : (g.setV r l x).fpstat = g.fpstat := rfl
@[simp] theorem group_setV_sig (r l : Nat) (x : Lane) : (g.setV r l x).sig = g.sig := rfl
@[simp] theorem group_setV_gtBase (r l : Nat) (x : Lane) : (g.setV r l x).gtBase = g.gtBase := rfl
@[simp] theorem group_setV_gtSince (r l : Nat) (x : Lane) : (g.setV r l x).gtSince = g.gtSince := rfl
@[simp] theorem group_setV_gtimer (r l : Nat) (x : Lane) : (g.setV r l x).gtimer = g.gtimer := rfl
@[simp] theorem group_setV_stoch (r l : Nat) (x : Lane) : (g.setV r l x).stoch = g.stoch := rfl
@[simp] theorem group_setV_arrivals (r l : Nat) (x : Lane) : (g.setV r l x).arrivals = g.arrivals := rfl
@[simp] theorem group_setV_latch (r l : Nat) (x : Lane) : (g.setV r l x).latch = g.latch := rfl
@[simp] theorem group_setV_hidden (r l : Nat) (x : Lane) : (g.setV r l x).hidden = g.hidden := rfl
@[simp] theorem group_setV_clause (r l : Nat) (x : Lane) : (g.setV r l x).clause = g.clause := rfl
@[simp] theorem group_setV_replay (r l : Nat) (x : Lane) : (g.setV r l x).replay = g.replay := rfl
@[simp] theorem group_setV_replayOps (r l : Nat) (x : Lane) : (g.setV r l x).replayOps = g.replayOps := rfl
@[simp] theorem group_setV_wait (r l : Nat) (x : Lane) : (g.setV r l x).wait = g.wait := rfl
@[simp] theorem group_setV_parked (r l : Nat) (x : Lane) : (g.setV r l x).parked = g.parked := rfl
@[simp] theorem group_setV_watch (r l : Nat) (x : Lane) : (g.setV r l x).watch = g.watch := rfl
@[simp] theorem group_setV_watchLost (r l : Nat) (x : Lane) : (g.setV r l x).watchLost = g.watchLost := rfl
@[simp] theorem group_setV_owed (r l : Nat) (x : Lane) : (g.setV r l x).owed = g.owed := rfl
@[simp] theorem group_setV_refused (r l : Nat) (x : Lane) : (g.setV r l x).refused = g.refused := rfl
@[simp] theorem group_setV_engFaults (r l : Nat) (x : Lane) : (g.setV r l x).engFaults = g.engFaults := rfl
@[simp] theorem group_setV_doomed (r l : Nat) (x : Lane) : (g.setV r l x).doomed = g.doomed := rfl
@[simp] theorem group_setV_copied (r l : Nat) (x : Lane) : (g.setV r l x).copied = g.copied := rfl
@[simp] theorem group_setV_age (r l : Nat) (x : Lane) : (g.setV r l x).age = g.age := rfl
@[simp] theorem group_setV_losses (r l : Nat) (x : Lane) : (g.setV r l x).losses = g.losses := rfl
@[simp] theorem group_setV_sticky (r l : Nat) (x : Lane) : (g.setV r l x).sticky = g.sticky := rfl
@[simp] theorem group_setV_yielded (r l : Nat) (x : Lane) : (g.setV r l x).yielded = g.yielded := rfl
@[simp] theorem group_setV_exiting (r l : Nat) (x : Lane) : (g.setV r l x).exiting = g.exiting := rfl
@[simp] theorem group_setV_debugStop (r l : Nat) (x : Lane) : (g.setV r l x).debugStop = g.debugStop := rfl
@[simp] theorem group_setV_walkFaults (r l : Nat) (x : Lane) : (g.setV r l x).walkFaults = g.walkFaults := rfl
@[simp] theorem group_setV_holding (r l : Nat) (x : Lane) : (g.setV r l x).holding = g.holding := rfl
@[simp] theorem group_setV_barTrap (r l : Nat) (x : Lane) : (g.setV r l x).barTrap = g.barTrap := rfl
@[simp] theorem group_setV_fenced (r l : Nat) (x : Lane) : (g.setV r l x).fenced = g.fenced := rfl
@[simp] theorem group_setV_arrayFaultTaken (r l : Nat) (x : Lane) : (g.setV r l x).arrayFaultTaken = g.arrayFaultTaken := rfl
@[simp] theorem group_setV_logPos (r l : Nat) (x : Lane) : (g.setV r l x).logPos = g.logPos := rfl
@[simp] theorem group_setV_copyPos (r l : Nat) (x : Lane) : (g.setV r l x).copyPos = g.copyPos := rfl

@[simp] theorem group_setFlag_core (f n : Nat) : (g.setFlag f n).core = g.core := rfl
@[simp] theorem group_setFlag_team (f n : Nat) : (g.setFlag f n).team = g.team := rfl
@[simp] theorem group_setFlag_ctx (f n : Nat) : (g.setFlag f n).ctx = g.ctx := rfl
@[simp] theorem group_setFlag_gid (f n : Nat) : (g.setFlag f n).gid = g.gid := rfl
@[simp] theorem group_setFlag_tindex (f n : Nat) : (g.setFlag f n).tindex = g.tindex := rfl
@[simp] theorem group_setFlag_width (f n : Nat) : (g.setFlag f n).width = g.width := rfl
@[simp] theorem group_setFlag_vregs (f n : Nat) : (g.setFlag f n).vregs = g.vregs := rfl
@[simp] theorem group_setFlag_system (f n : Nat) : (g.setFlag f n).system = g.system := rfl
@[simp] theorem group_setFlag_handler (f n : Nat) : (g.setFlag f n).handler = g.handler := rfl
@[simp] theorem group_setFlag_pc (f n : Nat) : (g.setFlag f n).pc = g.pc := rfl
@[simp] theorem group_setFlag_sregs (f n : Nat) : (g.setFlag f n).sregs = g.sregs := rfl
@[simp] theorem group_setFlag_cregs (f n : Nat) : (g.setFlag f n).cregs = g.cregs := rfl
@[simp] theorem group_setFlag_qregs (f n : Nat) : (g.setFlag f n).qregs = g.qregs := rfl
@[simp] theorem group_setFlag_vecs (f n : Nat) : (g.setFlag f n).vecs = g.vecs := rfl
@[simp] theorem group_setFlag_marks (f n : Nat) : (g.setFlag f n).marks = g.marks := rfl
@[simp] theorem group_setFlag_flights (f n : Nat) : (g.setFlag f n).flights = g.flights := rfl
@[simp] theorem group_setFlag_nextOp (f n : Nat) : (g.setFlag f n).nextOp = g.nextOp := rfl
@[simp] theorem group_setFlag_mxcnt (f n : Nat) : (g.setFlag f n).mxcnt = g.mxcnt := rfl
@[simp] theorem group_setFlag_gacnt (f n : Nat) : (g.setFlag f n).gacnt = g.gacnt := rfl
@[simp] theorem group_setFlag_cocnt (f n : Nat) : (g.setFlag f n).cocnt = g.cocnt := rfl
@[simp] theorem group_setFlag_cbopen (f n : Nat) : (g.setFlag f n).cbopen = g.cbopen := rfl
@[simp] theorem group_setFlag_cbdone (f n : Nat) : (g.setFlag f n).cbdone = g.cbdone := rfl
@[simp] theorem group_setFlag_batches (f n : Nat) : (g.setFlag f n).batches = g.batches := rfl
@[simp] theorem group_setFlag_batchUsed (f n : Nat) : (g.setFlag f n).batchUsed = g.batchUsed := rfl
@[simp] theorem group_setFlag_fpstat (f n : Nat) : (g.setFlag f n).fpstat = g.fpstat := rfl
@[simp] theorem group_setFlag_sig (f n : Nat) : (g.setFlag f n).sig = g.sig := rfl
@[simp] theorem group_setFlag_gtBase (f n : Nat) : (g.setFlag f n).gtBase = g.gtBase := rfl
@[simp] theorem group_setFlag_gtSince (f n : Nat) : (g.setFlag f n).gtSince = g.gtSince := rfl
@[simp] theorem group_setFlag_gtimer (f n : Nat) : (g.setFlag f n).gtimer = g.gtimer := rfl
@[simp] theorem group_setFlag_stoch (f n : Nat) : (g.setFlag f n).stoch = g.stoch := rfl
@[simp] theorem group_setFlag_arrivals (f n : Nat) : (g.setFlag f n).arrivals = g.arrivals := rfl
@[simp] theorem group_setFlag_latch (f n : Nat) : (g.setFlag f n).latch = g.latch := rfl
@[simp] theorem group_setFlag_hidden (f n : Nat) : (g.setFlag f n).hidden = g.hidden := rfl
@[simp] theorem group_setFlag_clause (f n : Nat) : (g.setFlag f n).clause = g.clause := rfl
@[simp] theorem group_setFlag_replay (f n : Nat) : (g.setFlag f n).replay = g.replay := rfl
@[simp] theorem group_setFlag_replayOps (f n : Nat) : (g.setFlag f n).replayOps = g.replayOps := rfl
@[simp] theorem group_setFlag_wait (f n : Nat) : (g.setFlag f n).wait = g.wait := rfl
@[simp] theorem group_setFlag_parked (f n : Nat) : (g.setFlag f n).parked = g.parked := rfl
@[simp] theorem group_setFlag_watch (f n : Nat) : (g.setFlag f n).watch = g.watch := rfl
@[simp] theorem group_setFlag_watchLost (f n : Nat) : (g.setFlag f n).watchLost = g.watchLost := rfl
@[simp] theorem group_setFlag_owed (f n : Nat) : (g.setFlag f n).owed = g.owed := rfl
@[simp] theorem group_setFlag_refused (f n : Nat) : (g.setFlag f n).refused = g.refused := rfl
@[simp] theorem group_setFlag_engFaults (f n : Nat) : (g.setFlag f n).engFaults = g.engFaults := rfl
@[simp] theorem group_setFlag_doomed (f n : Nat) : (g.setFlag f n).doomed = g.doomed := rfl
@[simp] theorem group_setFlag_copied (f n : Nat) : (g.setFlag f n).copied = g.copied := rfl
@[simp] theorem group_setFlag_age (f n : Nat) : (g.setFlag f n).age = g.age := rfl
@[simp] theorem group_setFlag_losses (f n : Nat) : (g.setFlag f n).losses = g.losses := rfl
@[simp] theorem group_setFlag_sticky (f n : Nat) : (g.setFlag f n).sticky = g.sticky := rfl
@[simp] theorem group_setFlag_yielded (f n : Nat) : (g.setFlag f n).yielded = g.yielded := rfl
@[simp] theorem group_setFlag_exiting (f n : Nat) : (g.setFlag f n).exiting = g.exiting := rfl
@[simp] theorem group_setFlag_debugStop (f n : Nat) : (g.setFlag f n).debugStop = g.debugStop := rfl
@[simp] theorem group_setFlag_walkFaults (f n : Nat) : (g.setFlag f n).walkFaults = g.walkFaults := rfl
@[simp] theorem group_setFlag_holding (f n : Nat) : (g.setFlag f n).holding = g.holding := rfl
@[simp] theorem group_setFlag_barTrap (f n : Nat) : (g.setFlag f n).barTrap = g.barTrap := rfl
@[simp] theorem group_setFlag_fenced (f n : Nat) : (g.setFlag f n).fenced = g.fenced := rfl
@[simp] theorem group_setFlag_arrayFaultTaken (f n : Nat) : (g.setFlag f n).arrayFaultTaken = g.arrayFaultTaken := rfl
@[simp] theorem group_setFlag_logPos (f n : Nat) : (g.setFlag f n).logPos = g.logPos := rfl
@[simp] theorem group_setFlag_copyPos (f n : Nat) : (g.setFlag f n).copyPos = g.copyPos := rfl

/-! ## Reading registers -/

@[simp] theorem group_s_zero : g.s 0 = 0 := rfl
@[simp] theorem group_q_zero : g.q 0 = g.q0 := rfl
@[simp] theorem group_c_seven : g.c 7 = true := rfl
@[simp] theorem group_setS_zero (v : Word) : g.setS 0 v = g := rfl
@[simp] theorem group_setQ_zero (v : BitVec 64) : g.setQ 0 v = g := rfl
@[simp] theorem group_setC_seven (v : Bool) : g.setC 7 v = g := rfl

theorem group_s_setS_ne {i j : Nat} {v : Word} (h : j ≠ i) : (g.setS i v).s j = g.s j := by
  by_cases hi : i = 0
  · simp [Group.setS, hi]
  · simp [Group.setS, Group.s, hi, tab_read_write_ne h]

theorem group_s_setS_self {i : Nat} {v : Word} (hi : i ≠ 0) (h : Tab.wf 0 g.sregs = true) : (g.setS i v).s i = v := by
  unfold Tab.wf at h
  unfold Group.setS Group.s
  simp only [hi, if_false]
  exact tab_read_write_self (Bool.and_eq_true _ _ ▸ h).1

theorem group_v_setV_ne {r r' l l' : Nat} {x : Lane} (h : r' * 64 + l' ≠ r * 64 + l) : (g.setV r l x).v r' l' = g.v r' l' :=
  tab_read_write_ne h

theorem group_flag_setFlag_ne {f f' n : Nat} (h : f' ≠ f) : (g.setFlag f n).flag f' = g.flag f' := tab_read_write_ne h

theorem group_q_setQ_ne {i j : Nat} {v : BitVec 64} (h : j ≠ i) : (g.setQ i v).q j = g.q j := by
  by_cases hi : i = 0
  · simp [Group.setQ, hi]
  · simp [Group.setQ, Group.q, Group.q0, hi, tab_read_write_ne h]

theorem group_q0_setQ (i : Nat) (v : BitVec 64) : (g.setQ i v).q0 = g.q0 := by
  simp [Group.q0]

end Sys2Proof.Laws
end

