-- ==== Sys2Proof/Laws/Issue.lean ====
section
/-!
SUPPORT. What issue comes to: the four outcomes of `issue`, and the one of an instruction that stands ready.
-/

namespace Sys2Proof.Laws

open Sys2Proof Sys2Proof.Machine

/-- An illegal encoding traps (R175, order 3). -/
theorem issue_illegal {f : Form} {ok : Group → Bool} {more : Group → List DestReg} {w : Slot} {s : State}
    {body : Nat → Group → Result} {g : Group} (hg : s.group s.cur = some g) (h : (legal f w g && ok g) = false) :
    issue f ok more w s body = .next (s.trapAt s.cur (trapAll g 0x01 0)) := by
  simp [issue, hg, h]

/-- A pending register traps (R175, order 4). -/
theorem issue_pending {f : Form} {ok : Group → Bool} {more : Group → List DestReg} {w : Slot} {s : State}
    {body : Nat → Group → Result} {g : Group} (hg : s.group s.cur = some g) (h : (legal f w g && ok g) = true)
    (hp : hazard g (formRegs f w ++ more g) = true) :
    issue f ok more w s body = .next (s.trapAt s.cur (trapAll g 0x03 0)) := by
  simp [issue, hg, h, hp]

/-- A false scalar guard only moves the group on (R165). -/
theorem issue_guarded {f : Form} {ok : Group → Bool} {more : Group → List DestReg} {w : Slot} {s : State}
    {body : Nat → Group → Result} {g : Group} (hg : s.group s.cur = some g) (h : (legal f w g && ok g) = true)
    (hp : hazard g (formRegs f w ++ more g) = false) (hn : g.guard w = false) :
    issue f ok more w s body = .next (s.advance s.cur w) := by
  simp [issue, hg, h, hp, hn]

/-- Else the body takes effect. -/
theorem issue_body {f : Form} {ok : Group → Bool} {more : Group → List DestReg} {w : Slot} {s : State}
    {body : Nat → Group → Result} {g : Group} (hg : s.group s.cur = some g) (h : (legal f w g && ok g) = true)
    (hp : hazard g (formRegs f w ++ more g) = false) (hn : g.guard w = true) :
    issue f ok more w s body = .next (finish s s.cur f w (body s.cur g)) := by
  simp [issue, hg, h, hp, hn]

/-- An instruction that stands ready has its body's effect. `e` is its entry in `encodingOf`. -/
theorem ready_issue {i : Instr} {s : State} {k : Nat} {g : Group} {e : Encoding} {body : Nat → Group → Result}
    (h : ReadyTo i s k g) (he : encodingOf s i = some e) (hx : exec i s = issue e.form e.ok e.more e.slot s body) :
    exec i s = .next (finish s k e.form e.slot (body k g)) := by
  obtain ⟨rfl, hg, hc, -⟩ := h
  simp only [State.clears, he, Encoding.legalIn, Encoding.pendingIn, Bool.and_eq_true, Bool.not_eq_true'] at hc
  rw [hx, issue_body hg (by simpa using hc.1.1) hc.1.2 hc.2]

/-- The trap of an instruction that is not of class L leaves nothing in flight. -/
theorem issueTrap_short {f : Form} {w : Slot} {s t : State} {k : Nat} {c : Cause} (h : f.long = false) :
    t.issueTrap s k f w c = t.trapAt k c := by
  simp [State.issueTrap, h]

/-- An event that `issue` does not carry has no encoding, and an instruction that stands ready has one. -/
theorem ready_encoding {i : Instr} {s : State} {k : Nat} {g : Group} (h : ReadyTo i s k g) :
    ∃ e, encodingOf s i = some e := by
  have hc := h.clear
  unfold State.clears at hc
  split at hc
  · exact ⟨_, ‹_›⟩
  · cases hc

end Sys2Proof.Laws
end

