-- ==== Sys2Proof/Laws/State.lean ====
section
/-!
SUPPORT. What each update of the state leaves: one lemma per field that the update does not change.
-/

namespace Sys2Proof.Laws

open Sys2Proof Sys2Proof.Machine

variable (s : State)

@[simp] theorem setGroup_now (k : Nat) (g : Group) : (s.setGroup k g).now = s.now := rfl
@[simp] theorem setGroup_freeIx (k : Nat) (g : Group) : (s.setGroup k g).freeIx = s.freeIx := rfl
@[simp] theorem setGroup_nextKey (k : Nat) (g : Group) : (s.setGroup k g).nextKey = s.nextKey := rfl
@[simp] theorem setGroup_cur (k : Nat) (g : Group) : (s.setGroup k g).cur = s.cur := rfl
@[simp] theorem setGroup_agenda (k : Nat) (g : Group) : (s.setGroup k g).agenda = s.agenda := rfl
@[simp] theorem setGroup_sent (k : Nat) (g : Group) : (s.setGroup k g).sent = s.sent := rfl
@[simp] theorem setGroup_teams (k : Nat) (g : Group) : (s.setGroup k g).teams = s.teams := rfl
@[simp] theorem setGroup_clusters (k : Nat) (g : Group) : (s.setGroup k g).clusters = s.clusters := rfl
@[simp] theorem setGroup_launches (k : Nat) (g : Group) : (s.setGroup k g).launches = s.launches := rfl
@[simp] theorem setGroup_cores (k : Nat) (g : Group) : (s.setGroup k g).cores = s.cores := rfl
@[simp] theorem setGroup_pounds (k : Nat) (g : Group) : (s.setGroup k g).pounds = s.pounds := rfl
@[simp] theorem setGroup_dies (k : Nat) (g : Group) : (s.setGroup k g).dies = s.dies := rfl
@[simp] theorem setGroup_ops (k : Nat) (g : Group) : (s.setGroup k g).ops = s.ops := rfl
@[simp] theorem setGroup_checks (k : Nat) (g : Group) : (s.setGroup k g).checks = s.checks := rfl
@[simp] theorem setGroup_parts (k : Nat) (g : Group) : (s.setGroup k g).parts = s.parts := rfl
@[simp] theorem setGroup_ptroots (k : Nat) (g : Group) : (s.setGroup k g).ptroots = s.ptroots := rfl
@[simp] theorem setGroup_mem (k : Nat) (g : Group) : (s.setGroup k g).mem = s.mem := rfl
@[simp] theorem setGroup_poison (k : Nat) (g : Group) : (s.setGroup k g).poison = s.poison := rfl
@[simp] theorem setGroup_appends (k : Nat) (g : Group) : (s.setGroup k g).appends = s.appends := rfl
@[simp] theorem setGroup_bound (k : Nat) (g : Group) : (s.setGroup k g).bound = s.bound := rfl
@[simp] theorem setGroup_tokens (k : Nat) (g : Group) : (s.setGroup k g).tokens = s.tokens := rfl
@[simp] theorem setGroup_hostHeld (k : Nat) (g : Group) : (s.setGroup k g).hostHeld = s.hostHeld := rfl
@[simp] theorem setGroup_agent (k : Nat) (g : Group) : (s.setGroup k g).agent = s.agent := rfl
@[simp] theorem setGroup_lateWords (k : Nat) (g : Group) : (s.setGroup k g).lateWords = s.lateWords := rfl
@[simp] theorem setGroup_snoops (k : Nat) (g : Group) : (s.setGroup k g).snoops = s.snoops := rfl
@[simp] theorem setGroup_replicas (k : Nat) (g : Group) : (s.setGroup k g).replicas = s.replicas := rfl
@[simp] theorem setGroup_purges (k : Nat) (g : Group) : (s.setGroup k g).purges = s.purges := rfl
@[simp] theorem setGroup_completions (k : Nat) (g : Group) : (s.setGroup k g).completions = s.completions := rfl
@[simp] theorem setGroup_requests (k : Nat) (g : Group) : (s.setGroup k g).requests = s.requests := rfl
@[simp] theorem setGroup_hub (k : Nat) (g : Group) : (s.setGroup k g).hub = s.hub := rfl

@[simp] theorem modGroup_now (k : Nat) (f : Group → Group) : (s.modGroup k f).now = s.now := rfl
@[simp] theorem modGroup_freeIx (k : Nat) (f : Group → Group) : (s.modGroup k f).freeIx = s.freeIx := rfl
@[simp] theorem modGroup_nextKey (k : Nat) (f : Group → Group) : (s.modGroup k f).nextKey = s.nextKey := rfl
@[simp] theorem modGroup_cur (k : Nat) (f : Group → Group) : (s.modGroup k f).cur = s.cur := rfl
@[simp] theorem modGroup_agenda (k : Nat) (f : Group → Group) : (s.modGroup k f).agenda = s.agenda := rfl
@[simp] theorem modGroup_sent (k : Nat) (f : Group → Group) : (s.modGroup k f).sent = s.sent := rfl
@[simp] theorem modGroup_teams (k : Nat) (f : Group → Group) : (s.modGroup k f).teams = s.teams := rfl
@[simp] theorem modGroup_clusters (k : Nat) (f : Group → Group) : (s.modGroup k f).clusters = s.clusters := rfl
@[simp] theorem modGroup_launches (k : Nat) (f : Group → Group) : (s.modGroup k f).launches = s.launches := rfl
@[simp] theorem modGroup_cores (k : Nat) (f : Group → Group) : (s.modGroup k f).cores = s.cores := rfl
@[simp] theorem modGroup_pounds (k : Nat) (f : Group → Group) : (s.modGroup k f).pounds = s.pounds := rfl
@[simp] theorem modGroup_dies (k : Nat) (f : Group → Group) : (s.modGroup k f).dies = s.dies := rfl
@[simp] theorem modGroup_ops (k : Nat) (f : Group → Group) : (s.modGroup k f).ops = s.ops := rfl
@[simp] theorem modGroup_checks (k : Nat) (f : Group → Group) : (s.modGroup k f).checks = s.checks := rfl
@[simp] theorem modGroup_parts (k : Nat) (f : Group → Group) : (s.modGroup k f).parts = s.parts := rfl
@[simp] theorem modGroup_ptroots (k : Nat) (f : Group → Group) : (s.modGroup k f).ptroots = s.ptroots := rfl
@[simp] theorem modGroup_mem (k : Nat) (f : Group → Group) : (s.modGroup k f).mem = s.mem := rfl
@[simp] theorem modGroup_poison (k : Nat) (f : Group → Group) : (s.modGroup k f).poison = s.poison := rfl
@[simp] theorem modGroup_appends (k : Nat) (f : Group → Group) : (s.modGroup k f).appends = s.appends := rfl
@[simp] theorem modGroup_bound (k : Nat) (f : Group → Group) : (s.modGroup k f).bound = s.bound := rfl
@[simp] theorem modGroup_tokens (k : Nat) (f : Group → Group) : (s.modGroup k f).tokens = s.tokens := rfl
@[simp] theorem modGroup_hostHeld (k : Nat) (f : Group → Group) : (s.modGroup k f).hostHeld = s.hostHeld := rfl
@[simp] theorem modGroup_agent (k : Nat) (f : Group → Group) : (s.modGroup k f).agent = s.agent := rfl
@[simp] theorem modGroup_lateWords (k : Nat) (f : Group → Group) : (s.modGroup k f).lateWords = s.lateWords := rfl
@[simp] theorem modGroup_snoops (k : Nat) (f : Group → Group) : (s.modGroup k f).snoops = s.snoops := rfl
@[simp] theorem modGroup_replicas (k : Nat) (f : Group → Group) : (s.modGroup k f).replicas = s.replicas := rfl
@[simp] theorem modGroup_purges (k : Nat) (f : Group → Group) : (s.modGroup k f).purges = s.purges := rfl
@[simp] theorem modGroup_completions (k : Nat) (f : Group → Group) : (s.modGroup k f).completions = s.completions := rfl
@[simp] theorem modGroup_requests (k : Nat) (f : Group → Group) : (s.modGroup k f).requests = s.requests := rfl
@[simp] theorem modGroup_hub (k : Nat) (f : Group → Group) : (s.modGroup k f).hub = s.hub := rfl

@[simp] theorem setTeam_now (k : Nat) (x : Team) : (s.setTeam k x).now = s.now := rfl
@[simp] theorem setTeam_freeIx (k : Nat) (x : Team) : (s.setTeam k x).freeIx = s.freeIx := rfl
@[simp] theorem setTeam_nextKey (k : Nat) (x : Team) : (s.setTeam k x).nextKey = s.nextKey := rfl
@[simp] theorem setTeam_cur (k : Nat) (x : Team) : (s.setTeam k x).cur = s.cur := rfl
@[simp] theorem setTeam_agenda (k : Nat) (x : Team) : (s.setTeam k x).agenda = s.agenda := rfl
@[simp] theorem setTeam_sent (k : Nat) (x : Team) : (s.setTeam k x).sent = s.sent := rfl
@[simp] theorem setTeam_groups (k : Nat) (x : Team) : (s.setTeam k x).groups = s.groups := rfl
@[simp] theorem setTeam_clusters (k : Nat) (x : Team) : (s.setTeam k x).clusters = s.clusters := rfl
@[simp] theorem setTeam_launches (k : Nat) (x : Team) : (s.setTeam k x).launches = s.launches := rfl
@[simp] theorem setTeam_cores (k : Nat) (x : Team) : (s.setTeam k x).cores = s.cores := rfl
@[simp] theorem setTeam_pounds (k : Nat) (x : Team) : (s.setTeam k x).pounds = s.pounds := rfl
@[simp] theorem setTeam_dies (k : Nat) (x : Team) : (s.setTeam k x).dies = s.dies := rfl
@[simp] theorem setTeam_ops (k : Nat) (x : Team) : (s.setTeam k x).ops = s.ops := rfl
@[simp] theorem setTeam_checks (k : Nat) (x : Team) : (s.setTeam k x).checks = s.checks := rfl
@[simp] theorem setTeam_parts (k : Nat) (x : Team) : (s.setTeam k x).parts = s.parts := rfl
@[simp] theorem setTeam_ptroots (k : Nat) (x : Team) : (s.setTeam k x).ptroots = s.ptroots := rfl
@[simp] theorem setTeam_mem (k : Nat) (x : Team) : (s.setTeam k x).mem = s.mem := rfl
@[simp] theorem setTeam_poison (k : Nat) (x : Team) : (s.setTeam k x).poison = s.poison := rfl
@[simp] theorem setTeam_appends (k : Nat) (x : Team) : (s.setTeam k x).appends = s.appends := rfl
@[simp] theorem setTeam_bound (k : Nat) (x : Team) : (s.setTeam k x).bound = s.bound := rfl
@[simp] theorem setTeam_tokens (k : Nat) (x : Team) : (s.setTeam k x).tokens = s.tokens := rfl
@[simp] theorem setTeam_hostHeld (k : Nat) (x : Team) : (s.setTeam k x).hostHeld = s.hostHeld := rfl
@[simp] theorem setTeam_agent (k : Nat) (x : Team) : (s.setTeam k x).agent = s.agent := rfl
@[simp] theorem setTeam_lateWords (k : Nat) (x : Team) : (s.setTeam k x).lateWords = s.lateWords := rfl
@[simp] theorem setTeam_snoops (k : Nat) (x : Team) : (s.setTeam k x).snoops = s.snoops := rfl
@[simp] theorem setTeam_replicas (k : Nat) (x : Team) : (s.setTeam k x).replicas = s.replicas := rfl
@[simp] theorem setTeam_purges (k : Nat) (x : Team) : (s.setTeam k x).purges = s.purges := rfl
@[simp] theorem setTeam_completions (k : Nat) (x : Team) : (s.setTeam k x).completions = s.completions := rfl
@[simp] theorem setTeam_requests (k : Nat) (x : Team) : (s.setTeam k x).requests = s.requests := rfl
@[simp] theorem setTeam_hub (k : Nat) (x : Team) : (s.setTeam k x).hub = s.hub := rfl

@[simp] theorem modTeam_now (k : Nat) (f : Team → Team) : (s.modTeam k f).now = s.now := rfl
@[simp] theorem modTeam_freeIx (k : Nat) (f : Team → Team) : (s.modTeam k f).freeIx = s.freeIx := rfl
@[simp] theorem modTeam_nextKey (k : Nat) (f : Team → Team) : (s.modTeam k f).nextKey = s.nextKey := rfl
@[simp] theorem modTeam_cur (k : Nat) (f : Team → Team) : (s.modTeam k f).cur = s.cur := rfl
@[simp] theorem modTeam_agenda (k : Nat) (f : Team → Team) : (s.modTeam k f).agenda = s.agenda := rfl
@[simp] theorem modTeam_sent (k : Nat) (f : Team → Team) : (s.modTeam k f).sent = s.sent := rfl
@[simp] theorem modTeam_groups (k : Nat) (f : Team → Team) : (s.modTeam k f).groups = s.groups := rfl
@[simp] theorem modTeam_clusters (k : Nat) (f : Team → Team) : (s.modTeam k f).clusters = s.clusters := rfl
@[simp] theorem modTeam_launches (k : Nat) (f : Team → Team) : (s.modTeam k f).launches = s.launches := rfl
@[simp] theorem modTeam_cores (k : Nat) (f : Team → Team) : (s.modTeam k f).cores = s.cores := rfl
@[simp] theorem modTeam_pounds (k : Nat) (f : Team → Team) : (s.modTeam k f).pounds = s.pounds := rfl
@[simp] theorem modTeam_dies (k : Nat) (f : Team → Team) : (s.modTeam k f).dies = s.dies := rfl
@[simp] theorem modTeam_ops (k : Nat) (f : Team → Team) : (s.modTeam k f).ops = s.ops := rfl
@[simp] theorem modTeam_checks (k : Nat) (f : Team → Team) : (s.modTeam k f).checks = s.checks := rfl
@[simp] theorem modTeam_parts (k : Nat) (f : Team → Team) : (s.modTeam k f).parts = s.parts := rfl
@[simp] theorem modTeam_ptroots (k : Nat) (f : Team → Team) : (s.modTeam k f).ptroots = s.ptroots := rfl
@[simp] theorem modTeam_mem (k : Nat) (f : Team → Team) : (s.modTeam k f).mem = s.mem := rfl
@[simp] theorem modTeam_poison (k : Nat) (f : Team → Team) : (s.modTeam k f).poison = s.poison := rfl
@[simp] theorem modTeam_appends (k : Nat) (f : Team → Team) : (s.modTeam k f).appends = s.appends := rfl
@[simp] theorem modTeam_bound (k : Nat) (f : Team → Team) : (s.modTeam k f).bound = s.bound := rfl
@[simp] theorem modTeam_tokens (k : Nat) (f : Team → Team) : (s.modTeam k f).tokens = s.tokens := rfl
@[simp] theorem modTeam_hostHeld (k : Nat) (f : Team → Team) : (s.modTeam k f).hostHeld = s.hostHeld := rfl
@[simp] theorem modTeam_agent (k : Nat) (f : Team → Team) : (s.modTeam k f).agent = s.agent := rfl
@[simp] theorem modTeam_lateWords (k : Nat) (f : Team → Team) : (s.modTeam k f).lateWords = s.lateWords := rfl
@[simp] theorem modTeam_snoops (k : Nat) (f : Team → Team) : (s.modTeam k f).snoops = s.snoops := rfl
@[simp] theorem modTeam_replicas (k : Nat) (f : Team → Team) : (s.modTeam k f).replicas = s.replicas := rfl
@[simp] theorem modTeam_purges (k : Nat) (f : Team → Team) : (s.modTeam k f).purges = s.purges := rfl
@[simp] theorem modTeam_completions (k : Nat) (f : Team → Team) : (s.modTeam k f).completions = s.completions := rfl
@[simp] theorem modTeam_requests (k : Nat) (f : Team → Team) : (s.modTeam k f).requests = s.requests := rfl
@[simp] theorem modTeam_hub (k : Nat) (f : Team → Team) : (s.modTeam k f).hub = s.hub := rfl

@[simp] theorem modCluster_now (k : Nat) (f : Cluster → Cluster) : (s.modCluster k f).now = s.now := rfl
@[simp] theorem modCluster_freeIx (k : Nat) (f : Cluster → Cluster) : (s.modCluster k f).freeIx = s.freeIx := rfl
@[simp] theorem modCluster_nextKey (k : Nat) (f : Cluster → Cluster) : (s.modCluster k f).nextKey = s.nextKey := rfl
@[simp] theorem modCluster_cur (k : Nat) (f : Cluster → Cluster) : (s.modCluster k f).cur = s.cur := rfl
@[simp] theorem modCluster_agenda (k : Nat) (f : Cluster → Cluster) : (s.modCluster k f).agenda = s.agenda := rfl
@[simp] theorem modCluster_sent (k : Nat) (f : Cluster → Cluster) : (s.modCluster k f).sent = s.sent := rfl
@[simp] theorem modCluster_groups (k : Nat) (f : Cluster → Cluster) : (s.modCluster k f).groups = s.groups := rfl
@[simp] theorem modCluster_teams (k : Nat) (f : Cluster → Cluster) : (s.modCluster k f).teams = s.teams := rfl
@[simp] theorem modCluster_launches (k : Nat) (f : Cluster → Cluster) : (s.modCluster k f).launches = s.launches := rfl
@[simp] theorem modCluster_cores (k : Nat) (f : Cluster → Cluster) : (s.modCluster k f).cores = s.cores := rfl
@[simp] theorem modCluster_pounds (k : Nat) (f : Cluster → Cluster) : (s.modCluster k f).pounds = s.pounds := rfl
@[simp] theorem modCluster_dies (k : Nat) (f : Cluster → Cluster) : (s.modCluster k f).dies = s.dies := rfl
@[simp] theorem modCluster_ops (k : Nat) (f : Cluster → Cluster) : (s.modCluster k f).ops = s.ops := rfl
@[simp] theorem modCluster_checks (k : Nat) (f : Cluster → Cluster) : (s.modCluster k f).checks = s.checks := rfl
@[simp] theorem modCluster_parts (k : Nat) (f : Cluster → Cluster) : (s.modCluster k f).parts = s.parts := rfl
@[simp] theorem modCluster_ptroots (k : Nat) (f : Cluster → Cluster) : (s.modCluster k f).ptroots = s.ptroots := rfl
@[simp] theorem modCluster_mem (k : Nat) (f : Cluster → Cluster) : (s.modCluster k f).mem = s.mem := rfl
@[simp] theorem modCluster_poison (k : Nat) (f : Cluster → Cluster) : (s.modCluster k f).poison = s.poison := rfl
@[simp] theorem modCluster_appends (k : Nat) (f : Cluster → Cluster) : (s.modCluster k f).appends = s.appends := rfl
@[simp] theorem modCluster_bound (k : Nat) (f : Cluster → Cluster) : (s.modCluster k f).bound = s.bound := rfl
@[simp] theorem modCluster_tokens (k : Nat) (f : Cluster → Cluster) : (s.modCluster k f).tokens = s.tokens := rfl
@[simp] theorem modCluster_hostHeld (k : Nat) (f : Cluster → Cluster) : (s.modCluster k f).hostHeld = s.hostHeld := rfl
@[simp] theorem modCluster_agent (k : Nat) (f : Cluster → Cluster) : (s.modCluster k f).agent = s.agent := rfl
@[simp] theorem modCluster_lateWords (k : Nat) (f : Cluster → Cluster) : (s.modCluster k f).lateWords = s.lateWords := rfl
@[simp] theorem modCluster_snoops (k : Nat) (f : Cluster → Cluster) : (s.modCluster k f).snoops = s.snoops := rfl
@[simp] theorem modCluster_replicas (k : Nat) (f : Cluster → Cluster) : (s.modCluster k f).replicas = s.replicas := rfl
@[simp] theorem modCluster_purges (k : Nat) (f : Cluster → Cluster) : (s.modCluster k f).purges = s.purges := rfl
@[simp] theorem modCluster_completions (k : Nat) (f : Cluster → Cluster) : (s.modCluster k f).completions = s.completions := rfl
@[simp] theorem modCluster_requests (k : Nat) (f : Cluster → Cluster) : (s.modCluster k f).requests = s.requests := rfl
@[simp] theorem modCluster_hub (k : Nat) (f : Cluster → Cluster) : (s.modCluster k f).hub = s.hub := rfl

@[simp] theorem modLaunch_now (k : Nat) (f : Launch → Launch) : (s.modLaunch k f).now = s.now := rfl
@[simp] theorem modLaunch_freeIx (k : Nat) (f : Launch → Launch) : (s.modLaunch k f).freeIx = s.freeIx := rfl
@[simp] theorem modLaunch_nextKey (k : Nat) (f : Launch → Launch) : (s.modLaunch k f).nextKey = s.nextKey := rfl
@[simp] theorem modLaunch_cur (k : Nat) (f : Launch → Launch) : (s.modLaunch k f).cur = s.cur := rfl
@[simp] theorem modLaunch_agenda (k : Nat) (f : Launch → Launch) : (s.modLaunch k f).agenda = s.agenda := rfl
@[simp] theorem modLaunch_sent (k : Nat) (f : Launch → Launch) : (s.modLaunch k f).sent = s.sent := rfl
@[simp] theorem modLaunch_groups (k : Nat) (f : Launch → Launch) : (s.modLaunch k f).groups = s.groups := rfl
@[simp] theorem modLaunch_teams (k : Nat) (f : Launch → Launch) : (s.modLaunch k f).teams = s.teams := rfl
@[simp] theorem modLaunch_clusters (k : Nat) (f : Launch → Launch) : (s.modLaunch k f).clusters = s.clusters := rfl
@[simp] theorem modLaunch_cores (k : Nat) (f : Launch → Launch) : (s.modLaunch k f).cores = s.cores := rfl
@[simp] theorem modLaunch_pounds (k : Nat) (f : Launch → Launch) : (s.modLaunch k f).pounds = s.pounds := rfl
@[simp] theorem modLaunch_dies (k : Nat) (f : Launch → Launch) : (s.modLaunch k f).dies = s.dies := rfl
@[simp] theorem modLaunch_ops (k : Nat) (f : Launch → Launch) : (s.modLaunch k f).ops = s.ops := rfl
@[simp] theorem modLaunch_checks (k : Nat) (f : Launch → Launch) : (s.modLaunch k f).checks = s.checks := rfl
@[simp] theorem modLaunch_parts (k : Nat) (f : Launch → Launch) : (s.modLaunch k f).parts = s.parts := rfl
@[simp] theorem modLaunch_ptroots (k : Nat) (f : Launch → Launch) : (s.modLaunch k f).ptroots = s.ptroots := rfl
@[simp] theorem modLaunch_mem (k : Nat) (f : Launch → Launch) : (s.modLaunch k f).mem = s.mem := rfl
@[simp] theorem modLaunch_poison (k : Nat) (f : Launch → Launch) : (s.modLaunch k f).poison = s.poison := rfl
@[simp] theorem modLaunch_appends (k : Nat) (f : Launch → Launch) : (s.modLaunch k f).appends = s.appends := rfl
@[simp] theorem modLaunch_bound (k : Nat) (f : Launch → Launch) : (s.modLaunch k f).bound = s.bound := rfl
@[simp] theorem modLaunch_tokens (k : Nat) (f : Launch → Launch) : (s.modLaunch k f).tokens = s.tokens := rfl
@[simp] theorem modLaunch_hostHeld (k : Nat) (f : Launch → Launch) : (s.modLaunch k f).hostHeld = s.hostHeld := rfl
@[simp] theorem modLaunch_agent (k : Nat) (f : Launch → Launch) : (s.modLaunch k f).agent = s.agent := rfl
@[simp] theorem modLaunch_lateWords (k : Nat) (f : Launch → Launch) : (s.modLaunch k f).lateWords = s.lateWords := rfl
@[simp] theorem modLaunch_snoops (k : Nat) (f : Launch → Launch) : (s.modLaunch k f).snoops = s.snoops := rfl
@[simp] theorem modLaunch_replicas (k : Nat) (f : Launch → Launch) : (s.modLaunch k f).replicas = s.replicas := rfl
@[simp] theorem modLaunch_purges (k : Nat) (f : Launch → Launch) : (s.modLaunch k f).purges = s.purges := rfl
@[simp] theorem modLaunch_completions (k : Nat) (f : Launch → Launch) : (s.modLaunch k f).completions = s.completions := rfl
@[simp] theorem modLaunch_requests (k : Nat) (f : Launch → Launch) : (s.modLaunch k f).requests = s.requests := rfl
@[simp] theorem modLaunch_hub (k : Nat) (f : Launch → Launch) : (s.modLaunch k f).hub = s.hub := rfl

@[simp] theorem modCore_now (k : Nat) (f : Core → Core) : (s.modCore k f).now = s.now := rfl
@[simp] theorem modCore_freeIx (k : Nat) (f : Core → Core) : (s.modCore k f).freeIx = s.freeIx := rfl
@[simp] theorem modCore_nextKey (k : Nat) (f : Core → Core) : (s.modCore k f).nextKey = s.nextKey := rfl
@[simp] theorem modCore_cur (k : Nat) (f : Core → Core) : (s.modCore k f).cur = s.cur := rfl
@[simp] theorem modCore_agenda (k : Nat) (f : Core → Core) : (s.modCore k f).agenda = s.agenda := rfl
@[simp] theorem modCore_sent (k : Nat) (f : Core → Core) : (s.modCore k f).sent = s.sent := rfl
@[simp] theorem modCore_groups (k : Nat) (f : Core → Core) : (s.modCore k f).groups = s.groups := rfl
@[simp] theorem modCore_teams (k : Nat) (f : Core → Core) : (s.modCore k f).teams = s.teams := rfl
@[simp] theorem modCore_clusters (k : Nat) (f : Core → Core) : (s.modCore k f).clusters = s.clusters := rfl
@[simp] theorem modCore_launches (k : Nat) (f : Core → Core) : (s.modCore k f).launches = s.launches := rfl
@[simp] theorem modCore_pounds (k : Nat) (f : Core → Core) : (s.modCore k f).pounds = s.pounds := rfl
@[simp] theorem modCore_dies (k : Nat) (f : Core → Core) : (s.modCore k f).dies = s.dies := rfl
@[simp] theorem modCore_ops (k : Nat) (f : Core → Core) : (s.modCore k f).ops = s.ops := rfl
@[simp] theorem modCore_checks (k : Nat) (f : Core → Core) : (s.modCore k f).checks = s.checks := rfl
@[simp] theorem modCore_parts (k : Nat) (f : Core → Core) : (s.modCore k f).parts = s.parts := rfl
@[simp] theorem modCore_ptroots (k : Nat) (f : Core → Core) : (s.modCore k f).ptroots = s.ptroots := rfl
@[simp] theorem modCore_mem (k : Nat) (f : Core → Core) : (s.modCore k f).mem = s.mem := rfl
@[simp] theorem modCore_poison (k : Nat) (f : Core → Core) : (s.modCore k f).poison = s.poison := rfl
@[simp] theorem modCore_appends (k : Nat) (f : Core → Core) : (s.modCore k f).appends = s.appends := rfl
@[simp] theorem modCore_bound (k : Nat) (f : Core → Core) : (s.modCore k f).bound = s.bound := rfl
@[simp] theorem modCore_tokens (k : Nat) (f : Core → Core) : (s.modCore k f).tokens = s.tokens := rfl
@[simp] theorem modCore_hostHeld (k : Nat) (f : Core → Core) : (s.modCore k f).hostHeld = s.hostHeld := rfl
@[simp] theorem modCore_agent (k : Nat) (f : Core → Core) : (s.modCore k f).agent = s.agent := rfl
@[simp] theorem modCore_lateWords (k : Nat) (f : Core → Core) : (s.modCore k f).lateWords = s.lateWords := rfl
@[simp] theorem modCore_snoops (k : Nat) (f : Core → Core) : (s.modCore k f).snoops = s.snoops := rfl
@[simp] theorem modCore_replicas (k : Nat) (f : Core → Core) : (s.modCore k f).replicas = s.replicas := rfl
@[simp] theorem modCore_purges (k : Nat) (f : Core → Core) : (s.modCore k f).purges = s.purges := rfl
@[simp] theorem modCore_completions (k : Nat) (f : Core → Core) : (s.modCore k f).completions = s.completions := rfl
@[simp] theorem modCore_requests (k : Nat) (f : Core → Core) : (s.modCore k f).requests = s.requests := rfl
@[simp] theorem modCore_hub (k : Nat) (f : Core → Core) : (s.modCore k f).hub = s.hub := rfl

@[simp] theorem modPound_now (k : Nat) (f : Pound → Pound) : (s.modPound k f).now = s.now := rfl
@[simp] theorem modPound_freeIx (k : Nat) (f : Pound → Pound) : (s.modPound k f).freeIx = s.freeIx := rfl
@[simp] theorem modPound_nextKey (k : Nat) (f : Pound → Pound) : (s.modPound k f).nextKey = s.nextKey := rfl
@[simp] theorem modPound_cur (k : Nat) (f : Pound → Pound) : (s.modPound k f).cur = s.cur := rfl
@[simp] theorem modPound_agenda (k : Nat) (f : Pound → Pound) : (s.modPound k f).agenda = s.agenda := rfl
@[simp] theorem modPound_sent (k : Nat) (f : Pound → Pound) : (s.modPound k f).sent = s.sent := rfl
@[simp] theorem modPound_groups (k : Nat) (f : Pound → Pound) : (s.modPound k f).groups = s.groups := rfl
@[simp] theorem modPound_teams (k : Nat) (f : Pound → Pound) : (s.modPound k f).teams = s.teams := rfl
@[simp] theorem modPound_clusters (k : Nat) (f : Pound → Pound) : (s.modPound k f).clusters = s.clusters := rfl
@[simp] theorem modPound_launches (k : Nat) (f : Pound → Pound) : (s.modPound k f).launches = s.launches := rfl
@[simp] theorem modPound_cores (k : Nat) (f : Pound → Pound) : (s.modPound k f).cores = s.cores := rfl
@[simp] theorem modPound_dies (k : Nat) (f : Pound → Pound) : (s.modPound k f).dies = s.dies := rfl
@[simp] theorem modPound_ops (k : Nat) (f : Pound → Pound) : (s.modPound k f).ops = s.ops := rfl
@[simp] theorem modPound_checks (k : Nat) (f : Pound → Pound) : (s.modPound k f).checks = s.checks := rfl
@[simp] theorem modPound_parts (k : Nat) (f : Pound → Pound) : (s.modPound k f).parts = s.parts := rfl
@[simp] theorem modPound_ptroots (k : Nat) (f : Pound → Pound) : (s.modPound k f).ptroots = s.ptroots := rfl
@[simp] theorem modPound_mem (k : Nat) (f : Pound → Pound) : (s.modPound k f).mem = s.mem := rfl
@[simp] theorem modPound_poison (k : Nat) (f : Pound → Pound) : (s.modPound k f).poison = s.poison := rfl
@[simp] theorem modPound_appends (k : Nat) (f : Pound → Pound) : (s.modPound k f).appends = s.appends := rfl
@[simp] theorem modPound_bound (k : Nat) (f : Pound → Pound) : (s.modPound k f).bound = s.bound := rfl
@[simp] theorem modPound_tokens (k : Nat) (f : Pound → Pound) : (s.modPound k f).tokens = s.tokens := rfl
@[simp] theorem modPound_hostHeld (k : Nat) (f : Pound → Pound) : (s.modPound k f).hostHeld = s.hostHeld := rfl
@[simp] theorem modPound_agent (k : Nat) (f : Pound → Pound) : (s.modPound k f).agent = s.agent := rfl
@[simp] theorem modPound_lateWords (k : Nat) (f : Pound → Pound) : (s.modPound k f).lateWords = s.lateWords := rfl
@[simp] theorem modPound_snoops (k : Nat) (f : Pound → Pound) : (s.modPound k f).snoops = s.snoops := rfl
@[simp] theorem modPound_replicas (k : Nat) (f : Pound → Pound) : (s.modPound k f).replicas = s.replicas := rfl
@[simp] theorem modPound_purges (k : Nat) (f : Pound → Pound) : (s.modPound k f).purges = s.purges := rfl
@[simp] theorem modPound_completions (k : Nat) (f : Pound → Pound) : (s.modPound k f).completions = s.completions := rfl
@[simp] theorem modPound_requests (k : Nat) (f : Pound → Pound) : (s.modPound k f).requests = s.requests := rfl
@[simp] theorem modPound_hub (k : Nat) (f : Pound → Pound) : (s.modPound k f).hub = s.hub := rfl

@[simp] theorem modDie_now (k : Nat) (f : Die → Die) : (s.modDie k f).now = s.now := rfl
@[simp] theorem modDie_freeIx (k : Nat) (f : Die → Die) : (s.modDie k f).freeIx = s.freeIx := rfl
@[simp] theorem modDie_nextKey (k : Nat) (f : Die → Die) : (s.modDie k f).nextKey = s.nextKey := rfl
@[simp] theorem modDie_cur (k : Nat) (f : Die → Die) : (s.modDie k f).cur = s.cur := rfl
@[simp] theorem modDie_agenda (k : Nat) (f : Die → Die) : (s.modDie k f).agenda = s.agenda := rfl
@[simp] theorem modDie_sent (k : Nat) (f : Die → Die) : (s.modDie k f).sent = s.sent := rfl
@[simp] theorem modDie_groups (k : Nat) (f : Die → Die) : (s.modDie k f).groups = s.groups := rfl
@[simp] theorem modDie_teams (k : Nat) (f : Die → Die) : (s.modDie k f).teams = s.teams := rfl
@[simp] theorem modDie_clusters (k : Nat) (f : Die → Die) : (s.modDie k f).clusters = s.clusters := rfl
@[simp] theorem modDie_launches (k : Nat) (f : Die → Die) : (s.modDie k f).launches = s.launches := rfl
@[simp] theorem modDie_cores (k : Nat) (f : Die → Die) : (s.modDie k f).cores = s.cores := rfl
@[simp] theorem modDie_pounds (k : Nat) (f : Die → Die) : (s.modDie k f).pounds = s.pounds := rfl
@[simp] theorem modDie_ops (k : Nat) (f : Die → Die) : (s.modDie k f).ops = s.ops := rfl
@[simp] theorem modDie_checks (k : Nat) (f : Die → Die) : (s.modDie k f).checks = s.checks := rfl
@[simp] theorem modDie_parts (k : Nat) (f : Die → Die) : (s.modDie k f).parts = s.parts := rfl
@[simp] theorem modDie_ptroots (k : Nat) (f : Die → Die) : (s.modDie k f).ptroots = s.ptroots := rfl
@[simp] theorem modDie_mem (k : Nat) (f : Die → Die) : (s.modDie k f).mem = s.mem := rfl
@[simp] theorem modDie_poison (k : Nat) (f : Die → Die) : (s.modDie k f).poison = s.poison := rfl
@[simp] theorem modDie_appends (k : Nat) (f : Die → Die) : (s.modDie k f).appends = s.appends := rfl
@[simp] theorem modDie_bound (k : Nat) (f : Die → Die) : (s.modDie k f).bound = s.bound := rfl
@[simp] theorem modDie_tokens (k : Nat) (f : Die → Die) : (s.modDie k f).tokens = s.tokens := rfl
@[simp] theorem modDie_hostHeld (k : Nat) (f : Die → Die) : (s.modDie k f).hostHeld = s.hostHeld := rfl
@[simp] theorem modDie_agent (k : Nat) (f : Die → Die) : (s.modDie k f).agent = s.agent := rfl
@[simp] theorem modDie_lateWords (k : Nat) (f : Die → Die) : (s.modDie k f).lateWords = s.lateWords := rfl
@[simp] theorem modDie_snoops (k : Nat) (f : Die → Die) : (s.modDie k f).snoops = s.snoops := rfl
@[simp] theorem modDie_replicas (k : Nat) (f : Die → Die) : (s.modDie k f).replicas = s.replicas := rfl
@[simp] theorem modDie_purges (k : Nat) (f : Die → Die) : (s.modDie k f).purges = s.purges := rfl
@[simp] theorem modDie_completions (k : Nat) (f : Die → Die) : (s.modDie k f).completions = s.completions := rfl
@[simp] theorem modDie_requests (k : Nat) (f : Die → Die) : (s.modDie k f).requests = s.requests := rfl
@[simp] theorem modDie_hub (k : Nat) (f : Die → Die) : (s.modDie k f).hub = s.hub := rfl

@[simp] theorem modPart_now (k : Nat) (f : Partition → Partition) : (s.modPart k f).now = s.now := rfl
@[simp] theorem modPart_freeIx (k : Nat) (f : Partition → Partition) : (s.modPart k f).freeIx = s.freeIx := rfl
@[simp] theorem modPart_nextKey (k : Nat) (f : Partition → Partition) : (s.modPart k f).nextKey = s.nextKey := rfl
@[simp] theorem modPart_cur (k : Nat) (f : Partition → Partition) : (s.modPart k f).cur = s.cur := rfl
@[simp] theorem modPart_agenda (k : Nat) (f : Partition → Partition) : (s.modPart k f).agenda = s.agenda := rfl
@[simp] theorem modPart_sent (k : Nat) (f : Partition → Partition) : (s.modPart k f).sent = s.sent := rfl
@[simp] theorem modPart_groups (k : Nat) (f : Partition → Partition) : (s.modPart k f).groups = s.groups := rfl
@[simp] theorem modPart_teams (k : Nat) (f : Partition → Partition) : (s.modPart k f).teams = s.teams := rfl
@[simp] theorem modPart_clusters (k : Nat) (f : Partition → Partition) : (s.modPart k f).clusters = s.clusters := rfl
@[simp] theorem modPart_launches (k : Nat) (f : Partition → Partition) : (s.modPart k f).launches = s.launches := rfl
@[simp] theorem modPart_cores (k : Nat) (f : Partition → Partition) : (s.modPart k f).cores = s.cores := rfl
@[simp] theorem modPart_pounds (k : Nat) (f : Partition → Partition) : (s.modPart k f).pounds = s.pounds := rfl
@[simp] theorem modPart_dies (k : Nat) (f : Partition → Partition) : (s.modPart k f).dies = s.dies := rfl
@[simp] theorem modPart_ops (k : Nat) (f : Partition → Partition) : (s.modPart k f).ops = s.ops := rfl
@[simp] theorem modPart_checks (k : Nat) (f : Partition → Partition) : (s.modPart k f).checks = s.checks := rfl
@[simp] theorem modPart_ptroots (k : Nat) (f : Partition → Partition) : (s.modPart k f).ptroots = s.ptroots := rfl
@[simp] theorem modPart_mem (k : Nat) (f : Partition → Partition) : (s.modPart k f).mem = s.mem := rfl
@[simp] theorem modPart_poison (k : Nat) (f : Partition → Partition) : (s.modPart k f).poison = s.poison := rfl
@[simp] theorem modPart_appends (k : Nat) (f : Partition → Partition) : (s.modPart k f).appends = s.appends := rfl
@[simp] theorem modPart_bound (k : Nat) (f : Partition → Partition) : (s.modPart k f).bound = s.bound := rfl
@[simp] theorem modPart_tokens (k : Nat) (f : Partition → Partition) : (s.modPart k f).tokens = s.tokens := rfl
@[simp] theorem modPart_hostHeld (k : Nat) (f : Partition → Partition) : (s.modPart k f).hostHeld = s.hostHeld := rfl
@[simp] theorem modPart_agent (k : Nat) (f : Partition → Partition) : (s.modPart k f).agent = s.agent := rfl
@[simp] theorem modPart_lateWords (k : Nat) (f : Partition → Partition) : (s.modPart k f).lateWords = s.lateWords := rfl
@[simp] theorem modPart_snoops (k : Nat) (f : Partition → Partition) : (s.modPart k f).snoops = s.snoops := rfl
@[simp] theorem modPart_replicas (k : Nat) (f : Partition → Partition) : (s.modPart k f).replicas = s.replicas := rfl
@[simp] theorem modPart_purges (k : Nat) (f : Partition → Partition) : (s.modPart k f).purges = s.purges := rfl
@[simp] theorem modPart_completions (k : Nat) (f : Partition → Partition) : (s.modPart k f).completions = s.completions := rfl
@[simp] theorem modPart_requests (k : Nat) (f : Partition → Partition) : (s.modPart k f).requests = s.requests := rfl
@[simp] theorem modPart_hub (k : Nat) (f : Partition → Partition) : (s.modPart k f).hub = s.hub := rfl

@[simp] theorem modCheck_now (k : Nat) (f : Check → Check) : (s.modCheck k f).now = s.now := rfl
@[simp] theorem modCheck_freeIx (k : Nat) (f : Check → Check) : (s.modCheck k f).freeIx = s.freeIx := rfl
@[simp] theorem modCheck_nextKey (k : Nat) (f : Check → Check) : (s.modCheck k f).nextKey = s.nextKey := rfl
@[simp] theorem modCheck_cur (k : Nat) (f : Check → Check) : (s.modCheck k f).cur = s.cur := rfl
@[simp] theorem modCheck_agenda (k : Nat) (f : Check → Check) : (s.modCheck k f).agenda = s.agenda := rfl
@[simp] theorem modCheck_sent (k : Nat) (f : Check → Check) : (s.modCheck k f).sent = s.sent := rfl
@[simp] theorem modCheck_groups (k : Nat) (f : Check → Check) : (s.modCheck k f).groups = s.groups := rfl
@[simp] theorem modCheck_teams (k : Nat) (f : Check → Check) : (s.modCheck k f).teams = s.teams := rfl
@[simp] theorem modCheck_clusters (k : Nat) (f : Check → Check) : (s.modCheck k f).clusters = s.clusters := rfl
@[simp] theorem modCheck_launches (k : Nat) (f : Check → Check) : (s.modCheck k f).launches = s.launches := rfl
@[simp] theorem modCheck_cores (k : Nat) (f : Check → Check) : (s.modCheck k f).cores = s.cores := rfl
@[simp] theorem modCheck_pounds (k : Nat) (f : Check → Check) : (s.modCheck k f).pounds = s.pounds := rfl
@[simp] theorem modCheck_dies (k : Nat) (f : Check → Check) : (s.modCheck k f).dies = s.dies := rfl
@[simp] theorem modCheck_ops (k : Nat) (f : Check → Check) : (s.modCheck k f).ops = s.ops := rfl
@[simp] theorem modCheck_parts (k : Nat) (f : Check → Check) : (s.modCheck k f).parts = s.parts := rfl
@[simp] theorem modCheck_ptroots (k : Nat) (f : Check → Check) : (s.modCheck k f).ptroots = s.ptroots := rfl
@[simp] theorem modCheck_mem (k : Nat) (f : Check → Check) : (s.modCheck k f).mem = s.mem := rfl
@[simp] theorem modCheck_poison (k : Nat) (f : Check → Check) : (s.modCheck k f).poison = s.poison := rfl
@[simp] theorem modCheck_appends (k : Nat) (f : Check → Check) : (s.modCheck k f).appends = s.appends := rfl
@[simp] theorem modCheck_bound (k : Nat) (f : Check → Check) : (s.modCheck k f).bound = s.bound := rfl
@[simp] theorem modCheck_tokens (k : Nat) (f : Check → Check) : (s.modCheck k f).tokens = s.tokens := rfl
@[simp] theorem modCheck_hostHeld (k : Nat) (f : Check → Check) : (s.modCheck k f).hostHeld = s.hostHeld := rfl
@[simp] theorem modCheck_agent (k : Nat) (f : Check → Check) : (s.modCheck k f).agent = s.agent := rfl
@[simp] theorem modCheck_lateWords (k : Nat) (f : Check → Check) : (s.modCheck k f).lateWords = s.lateWords := rfl
@[simp] theorem modCheck_snoops (k : Nat) (f : Check → Check) : (s.modCheck k f).snoops = s.snoops := rfl
@[simp] theorem modCheck_replicas (k : Nat) (f : Check → Check) : (s.modCheck k f).replicas = s.replicas := rfl
@[simp] theorem modCheck_purges (k : Nat) (f : Check → Check) : (s.modCheck k f).purges = s.purges := rfl
@[simp] theorem modCheck_completions (k : Nat) (f : Check → Check) : (s.modCheck k f).completions = s.completions := rfl
@[simp] theorem modCheck_requests (k : Nat) (f : Check → Check) : (s.modCheck k f).requests = s.requests := rfl
@[simp] theorem modCheck_hub (k : Nat) (f : Check → Check) : (s.modCheck k f).hub = s.hub := rfl

@[simp] theorem modOp_now (k : Nat) (f : EngineOp → EngineOp) : (s.modOp k f).now = s.now := rfl
@[simp] theorem modOp_freeIx (k : Nat) (f : EngineOp → EngineOp) : (s.modOp k f).freeIx = s.freeIx := rfl
@[simp] theorem modOp_nextKey (k : Nat) (f : EngineOp → EngineOp) : (s.modOp k f).nextKey = s.nextKey := rfl
@[simp] theorem modOp_cur (k : Nat) (f : EngineOp → EngineOp) : (s.modOp k f).cur = s.cur := rfl
@[simp] theorem modOp_agenda (k : Nat) (f : EngineOp → EngineOp) : (s.modOp k f).agenda = s.agenda := rfl
@[simp] theorem modOp_sent (k : Nat) (f : EngineOp → EngineOp) : (s.modOp k f).sent = s.sent := rfl
@[simp] theorem modOp_groups (k : Nat) (f : EngineOp → EngineOp) : (s.modOp k f).groups = s.groups := rfl
@[simp] theorem modOp_teams (k : Nat) (f : EngineOp → EngineOp) : (s.modOp k f).teams = s.teams := rfl
@[simp] theorem modOp_clusters (k : Nat) (f : EngineOp → EngineOp) : (s.modOp k f).clusters = s.clusters := rfl
@[simp] theorem modOp_launches (k : Nat) (f : EngineOp → EngineOp) : (s.modOp k f).launches = s.launches := rfl
@[simp] theorem modOp_cores (k : Nat) (f : EngineOp → EngineOp) : (s.modOp k f).cores = s.cores := rfl
@[simp] theorem modOp_pounds (k : Nat) (f : EngineOp → EngineOp) : (s.modOp k f).pounds = s.pounds := rfl
@[simp] theorem modOp_dies (k : Nat) (f : EngineOp → EngineOp) : (s.modOp k f).dies = s.dies := rfl
@[simp] theorem modOp_checks (k : Nat) (f : EngineOp → EngineOp) : (s.modOp k f).checks = s.checks := rfl
@[simp] theorem modOp_parts (k : Nat) (f : EngineOp → EngineOp) : (s.modOp k f).parts = s.parts := rfl
@[simp] theorem modOp_ptroots (k : Nat) (f : EngineOp → EngineOp) : (s.modOp k f).ptroots = s.ptroots := rfl
@[simp] theorem modOp_mem (k : Nat) (f : EngineOp → EngineOp) : (s.modOp k f).mem = s.mem := rfl
@[simp] theorem modOp_poison (k : Nat) (f : EngineOp → EngineOp) : (s.modOp k f).poison = s.poison := rfl
@[simp] theorem modOp_appends (k : Nat) (f : EngineOp → EngineOp) : (s.modOp k f).appends = s.appends := rfl
@[simp] theorem modOp_bound (k : Nat) (f : EngineOp → EngineOp) : (s.modOp k f).bound = s.bound := rfl
@[simp] theorem modOp_tokens (k : Nat) (f : EngineOp → EngineOp) : (s.modOp k f).tokens = s.tokens := rfl
@[simp] theorem modOp_hostHeld (k : Nat) (f : EngineOp → EngineOp) : (s.modOp k f).hostHeld = s.hostHeld := rfl
@[simp] theorem modOp_agent (k : Nat) (f : EngineOp → EngineOp) : (s.modOp k f).agent = s.agent := rfl
@[simp] theorem modOp_lateWords (k : Nat) (f : EngineOp → EngineOp) : (s.modOp k f).lateWords = s.lateWords := rfl
@[simp] theorem modOp_snoops (k : Nat) (f : EngineOp → EngineOp) : (s.modOp k f).snoops = s.snoops := rfl
@[simp] theorem modOp_replicas (k : Nat) (f : EngineOp → EngineOp) : (s.modOp k f).replicas = s.replicas := rfl
@[simp] theorem modOp_purges (k : Nat) (f : EngineOp → EngineOp) : (s.modOp k f).purges = s.purges := rfl
@[simp] theorem modOp_completions (k : Nat) (f : EngineOp → EngineOp) : (s.modOp k f).completions = s.completions := rfl
@[simp] theorem modOp_requests (k : Nat) (f : EngineOp → EngineOp) : (s.modOp k f).requests = s.requests := rfl
@[simp] theorem modOp_hub (k : Nat) (f : EngineOp → EngineOp) : (s.modOp k f).hub = s.hub := rfl

@[simp] theorem modHub_now (f : Hub → Hub) : (s.modHub f).now = s.now := rfl
@[simp] theorem modHub_freeIx (f : Hub → Hub) : (s.modHub f).freeIx = s.freeIx := rfl
@[simp] theorem modHub_nextKey (f : Hub → Hub) : (s.modHub f).nextKey = s.nextKey := rfl
@[simp] theorem modHub_cur (f : Hub → Hub) : (s.modHub f).cur = s.cur := rfl
@[simp] theorem modHub_agenda (f : Hub → Hub) : (s.modHub f).agenda = s.agenda := rfl
@[simp] theorem modHub_sent (f : Hub → Hub) : (s.modHub f).sent = s.sent := rfl
@[simp] theorem modHub_groups (f : Hub → Hub) : (s.modHub f).groups = s.groups := rfl
@[simp] theorem modHub_teams (f : Hub → Hub) : (s.modHub f).teams = s.teams := rfl
@[simp] theorem modHub_clusters (f : Hub → Hub) : (s.modHub f).clusters = s.clusters := rfl
@[simp] theorem modHub_launches (f : Hub → Hub) : (s.modHub f).launches = s.launches := rfl
@[simp] theorem modHub_cores (f : Hub → Hub) : (s.modHub f).cores = s.cores := rfl
@[simp] theorem modHub_pounds (f : Hub → Hub) : (s.modHub f).pounds = s.pounds := rfl
@[simp] theorem modHub_dies (f : Hub → Hub) : (s.modHub f).dies = s.dies := rfl
@[simp] theorem modHub_ops (f : Hub → Hub) : (s.modHub f).ops = s.ops := rfl
@[simp] theorem modHub_checks (f : Hub → Hub) : (s.modHub f).checks = s.checks := rfl
@[simp] theorem modHub_parts (f : Hub → Hub) : (s.modHub f).parts = s.parts := rfl
@[simp] theorem modHub_ptroots (f : Hub → Hub) : (s.modHub f).ptroots = s.ptroots := rfl
@[simp] theorem modHub_mem (f : Hub → Hub) : (s.modHub f).mem = s.mem := rfl
@[simp] theorem modHub_poison (f : Hub → Hub) : (s.modHub f).poison = s.poison := rfl
@[simp] theorem modHub_appends (f : Hub → Hub) : (s.modHub f).appends = s.appends := rfl
@[simp] theorem modHub_bound (f : Hub → Hub) : (s.modHub f).bound = s.bound := rfl
@[simp] theorem modHub_tokens (f : Hub → Hub) : (s.modHub f).tokens = s.tokens := rfl
@[simp] theorem modHub_hostHeld (f : Hub → Hub) : (s.modHub f).hostHeld = s.hostHeld := rfl
@[simp] theorem modHub_agent (f : Hub → Hub) : (s.modHub f).agent = s.agent := rfl
@[simp] theorem modHub_lateWords (f : Hub → Hub) : (s.modHub f).lateWords = s.lateWords := rfl
@[simp] theorem modHub_snoops (f : Hub → Hub) : (s.modHub f).snoops = s.snoops := rfl
@[simp] theorem modHub_replicas (f : Hub → Hub) : (s.modHub f).replicas = s.replicas := rfl
@[simp] theorem modHub_purges (f : Hub → Hub) : (s.modHub f).purges = s.purges := rfl
@[simp] theorem modHub_completions (f : Hub → Hub) : (s.modHub f).completions = s.completions := rfl
@[simp] theorem modHub_requests (f : Hub → Hub) : (s.modHub f).requests = s.requests := rfl

@[simp] theorem modQueue_now (k : Nat) (f : Queue → Queue) : (s.modQueue k f).now = s.now := rfl
@[simp] theorem modQueue_freeIx (k : Nat) (f : Queue → Queue) : (s.modQueue k f).freeIx = s.freeIx := rfl
@[simp] theorem modQueue_nextKey (k : Nat) (f : Queue → Queue) : (s.modQueue k f).nextKey = s.nextKey := rfl
@[simp] theorem modQueue_cur (k : Nat) (f : Queue → Queue) : (s.modQueue k f).cur = s.cur := rfl
@[simp] theorem modQueue_agenda (k : Nat) (f : Queue → Queue) : (s.modQueue k f).agenda = s.agenda := rfl
@[simp] theorem modQueue_sent (k : Nat) (f : Queue → Queue) : (s.modQueue k f).sent = s.sent := rfl
@[simp] theorem modQueue_groups (k : Nat) (f : Queue → Queue) : (s.modQueue k f).groups = s.groups := rfl
@[simp] theorem modQueue_teams (k : Nat) (f : Queue → Queue) : (s.modQueue k f).teams = s.teams := rfl
@[simp] theorem modQueue_clusters (k : Nat) (f : Queue → Queue) : (s.modQueue k f).clusters = s.clusters := rfl
@[simp] theorem modQueue_launches (k : Nat) (f : Queue → Queue) : (s.modQueue k f).launches = s.launches := rfl
@[simp] theorem modQueue_cores (k : Nat) (f : Queue → Queue) : (s.modQueue k f).cores = s.cores := rfl
@[simp] theorem modQueue_pounds (k : Nat) (f : Queue → Queue) : (s.modQueue k f).pounds = s.pounds := rfl
@[simp] theorem modQueue_dies (k : Nat) (f : Queue → Queue) : (s.modQueue k f).dies = s.dies := rfl
@[simp] theorem modQueue_ops (k : Nat) (f : Queue → Queue) : (s.modQueue k f).ops = s.ops := rfl
@[simp] theorem modQueue_checks (k : Nat) (f : Queue → Queue) : (s.modQueue k f).checks = s.checks := rfl
@[simp] theorem modQueue_parts (k : Nat) (f : Queue → Queue) : (s.modQueue k f).parts = s.parts := rfl
@[simp] theorem modQueue_ptroots (k : Nat) (f : Queue → Queue) : (s.modQueue k f).ptroots = s.ptroots := rfl
@[simp] theorem modQueue_mem (k : Nat) (f : Queue → Queue) : (s.modQueue k f).mem = s.mem := rfl
@[simp] theorem modQueue_poison (k : Nat) (f : Queue → Queue) : (s.modQueue k f).poison = s.poison := rfl
@[simp] theorem modQueue_appends (k : Nat) (f : Queue → Queue) : (s.modQueue k f).appends = s.appends := rfl
@[simp] theorem modQueue_bound (k : Nat) (f : Queue → Queue) : (s.modQueue k f).bound = s.bound := rfl
@[simp] theorem modQueue_tokens (k : Nat) (f : Queue → Queue) : (s.modQueue k f).tokens = s.tokens := rfl
@[simp] theorem modQueue_hostHeld (k : Nat) (f : Queue → Queue) : (s.modQueue k f).hostHeld = s.hostHeld := rfl
@[simp] theorem modQueue_agent (k : Nat) (f : Queue → Queue) : (s.modQueue k f).agent = s.agent := rfl
@[simp] theorem modQueue_lateWords (k : Nat) (f : Queue → Queue) : (s.modQueue k f).lateWords = s.lateWords := rfl
@[simp] theorem modQueue_snoops (k : Nat) (f : Queue → Queue) : (s.modQueue k f).snoops = s.snoops := rfl
@[simp] theorem modQueue_replicas (k : Nat) (f : Queue → Queue) : (s.modQueue k f).replicas = s.replicas := rfl
@[simp] theorem modQueue_purges (k : Nat) (f : Queue → Queue) : (s.modQueue k f).purges = s.purges := rfl
@[simp] theorem modQueue_completions (k : Nat) (f : Queue → Queue) : (s.modQueue k f).completions = s.completions := rfl
@[simp] theorem modQueue_requests (k : Nat) (f : Queue → Queue) : (s.modQueue k f).requests = s.requests := rfl

@[simp] theorem send_now (m : Msg) : (s.send m).now = s.now := rfl
@[simp] theorem send_freeIx (m : Msg) : (s.send m).freeIx = s.freeIx := rfl
@[simp] theorem send_nextKey (m : Msg) : (s.send m).nextKey = s.nextKey := rfl
@[simp] theorem send_cur (m : Msg) : (s.send m).cur = s.cur := rfl
@[simp] theorem send_agenda (m : Msg) : (s.send m).agenda = s.agenda := rfl
@[simp] theorem send_groups (m : Msg) : (s.send m).groups = s.groups := rfl
@[simp] theorem send_teams (m : Msg) : (s.send m).teams = s.teams := rfl
@[simp] theorem send_clusters (m : Msg) : (s.send m).clusters = s.clusters := rfl
@[simp] theorem send_launches (m : Msg) : (s.send m).launches = s.launches := rfl
@[simp] theorem send_cores (m : Msg) : (s.send m).cores = s.cores := rfl
@[simp] theorem send_pounds (m : Msg) : (s.send m).pounds = s.pounds := rfl
@[simp] theorem send_dies (m : Msg) : (s.send m).dies = s.dies := rfl
@[simp] theorem send_ops (m : Msg) : (s.send m).ops = s.ops := rfl
@[simp] theorem send_checks (m : Msg) : (s.send m).checks = s.checks := rfl
@[simp] theorem send_parts (m : Msg) : (s.send m).parts = s.parts := rfl
@[simp] theorem send_ptroots (m : Msg) : (s.send m).ptroots = s.ptroots := rfl
@[simp] theorem send_mem (m : Msg) : (s.send m).mem = s.mem := rfl
@[simp] theorem send_poison (m : Msg) : (s.send m).poison = s.poison := rfl
@[simp] theorem send_appends (m : Msg) : (s.send m).appends = s.appends := rfl
@[simp] theorem send_bound (m : Msg) : (s.send m).bound = s.bound := rfl
@[simp] theorem send_tokens (m : Msg) : (s.send m).tokens = s.tokens := rfl
@[simp] theorem send_hostHeld (m : Msg) : (s.send m).hostHeld = s.hostHeld := rfl
@[simp] theorem send_agent (m : Msg) : (s.send m).agent = s.agent := rfl
@[simp] theorem send_lateWords (m : Msg) : (s.send m).lateWords = s.lateWords := rfl
@[simp] theorem send_snoops (m : Msg) : (s.send m).snoops = s.snoops := rfl
@[simp] theorem send_replicas (m : Msg) : (s.send m).replicas = s.replicas := rfl
@[simp] theorem send_purges (m : Msg) : (s.send m).purges = s.purges := rfl
@[simp] theorem send_completions (m : Msg) : (s.send m).completions = s.completions := rfl
@[simp] theorem send_requests (m : Msg) : (s.send m).requests = s.requests := rfl
@[simp] theorem send_hub (m : Msg) : (s.send m).hub = s.hub := rfl

@[simp] theorem setTokens_now (k : Nat) (t : LineTokens) : (s.setTokens k t).now = s.now := rfl
@[simp] theorem setTokens_freeIx (k : Nat) (t : LineTokens) : (s.setTokens k t).freeIx = s.freeIx := rfl
@[simp] theorem setTokens_nextKey (k : Nat) (t : LineTokens) : (s.setTokens k t).nextKey = s.nextKey := rfl
@[simp] theorem setTokens_cur (k : Nat) (t : LineTokens) : (s.setTokens k t).cur = s.cur := rfl
@[simp] theorem setTokens_agenda (k : Nat) (t : LineTokens) : (s.setTokens k t).agenda = s.agenda := rfl
@[simp] theorem setTokens_sent (k : Nat) (t : LineTokens) : (s.setTokens k t).sent = s.sent := rfl
@[simp] theorem setTokens_groups (k : Nat) (t : LineTokens) : (s.setTokens k t).groups = s.groups := rfl
@[simp] theorem setTokens_teams (k : Nat) (t : LineTokens) : (s.setTokens k t).teams = s.teams := rfl
@[simp] theorem setTokens_clusters (k : Nat) (t : LineTokens) : (s.setTokens k t).clusters = s.clusters := rfl
@[simp] theorem setTokens_launches (k : Nat) (t : LineTokens) : (s.setTokens k t).launches = s.launches := rfl
@[simp] theorem setTokens_cores (k : Nat) (t : LineTokens) : (s.setTokens k t).cores = s.cores := rfl
@[simp] theorem setTokens_pounds (k : Nat) (t : LineTokens) : (s.setTokens k t).pounds = s.pounds := rfl
@[simp] theorem setTokens_dies (k : Nat) (t : LineTokens) : (s.setTokens k t).dies = s.dies := rfl
@[simp] theorem setTokens_ops (k : Nat) (t : LineTokens) : (s.setTokens k t).ops = s.ops := rfl
@[simp] theorem setTokens_checks (k : Nat) (t : LineTokens) : (s.setTokens k t).checks = s.checks := rfl
@[simp] theorem setTokens_parts (k : Nat) (t : LineTokens) : (s.setTokens k t).parts = s.parts := rfl
@[simp] theorem setTokens_ptroots (k : Nat) (t : LineTokens) : (s.setTokens k t).ptroots = s.ptroots := rfl
@[simp] theorem setTokens_mem (k : Nat) (t : LineTokens) : (s.setTokens k t).mem = s.mem := rfl
@[simp] theorem setTokens_poison (k : Nat) (t : LineTokens) : (s.setTokens k t).poison = s.poison := rfl
@[simp] theorem setTokens_appends (k : Nat) (t : LineTokens) : (s.setTokens k t).appends = s.appends := rfl
@[simp] theorem setTokens_bound (k : Nat) (t : LineTokens) : (s.setTokens k t).bound = s.bound := rfl
@[simp] theorem setTokens_hostHeld (k : Nat) (t : LineTokens) : (s.setTokens k t).hostHeld = s.hostHeld := rfl
@[simp] theorem setTokens_agent (k : Nat) (t : LineTokens) : (s.setTokens k t).agent = s.agent := rfl
@[simp] theorem setTokens_lateWords (k : Nat) (t : LineTokens) : (s.setTokens k t).lateWords = s.lateWords := rfl
@[simp] theorem setTokens_snoops (k : Nat) (t : LineTokens) : (s.setTokens k t).snoops = s.snoops := rfl
@[simp] theorem setTokens_replicas (k : Nat) (t : LineTokens) : (s.setTokens k t).replicas = s.replicas := rfl
@[simp] theorem setTokens_purges (k : Nat) (t : LineTokens) : (s.setTokens k t).purges = s.purges := rfl
@[simp] theorem setTokens_completions (k : Nat) (t : LineTokens) : (s.setTokens k t).completions = s.completions := rfl
@[simp] theorem setTokens_requests (k : Nat) (t : LineTokens) : (s.setTokens k t).requests = s.requests := rfl
@[simp] theorem setTokens_hub (k : Nat) (t : LineTokens) : (s.setTokens k t).hub = s.hub := rfl

@[simp] theorem setPoison_now (k : Nat) (p : Bool) : (s.setPoison k p).now = s.now := rfl
@[simp] theorem setPoison_freeIx (k : Nat) (p : Bool) : (s.setPoison k p).freeIx = s.freeIx := rfl
@[simp] theorem setPoison_nextKey (k : Nat) (p : Bool) : (s.setPoison k p).nextKey = s.nextKey := rfl
@[simp] theorem setPoison_cur (k : Nat) (p : Bool) : (s.setPoison k p).cur = s.cur := rfl
@[simp] theorem setPoison_agenda (k : Nat) (p : Bool) : (s.setPoison k p).agenda = s.agenda := rfl
@[simp] theorem setPoison_sent (k : Nat) (p : Bool) : (s.setPoison k p).sent = s.sent := rfl
@[simp] theorem setPoison_groups (k : Nat) (p : Bool) : (s.setPoison k p).groups = s.groups := rfl
@[simp] theorem setPoison_teams (k : Nat) (p : Bool) : (s.setPoison k p).teams = s.teams := rfl
@[simp] theorem setPoison_clusters (k : Nat) (p : Bool) : (s.setPoison k p).clusters = s.clusters := rfl
@[simp] theorem setPoison_launches (k : Nat) (p : Bool) : (s.setPoison k p).launches = s.launches := rfl
@[simp] theorem setPoison_cores (k : Nat) (p : Bool) : (s.setPoison k p).cores = s.cores := rfl
@[simp] theorem setPoison_pounds (k : Nat) (p : Bool) : (s.setPoison k p).pounds = s.pounds := rfl
@[simp] theorem setPoison_dies (k : Nat) (p : Bool) : (s.setPoison k p).dies = s.dies := rfl
@[simp] theorem setPoison_ops (k : Nat) (p : Bool) : (s.setPoison k p).ops = s.ops := rfl
@[simp] theorem setPoison_checks (k : Nat) (p : Bool) : (s.setPoison k p).checks = s.checks := rfl
@[simp] theorem setPoison_parts (k : Nat) (p : Bool) : (s.setPoison k p).parts = s.parts := rfl
@[simp] theorem setPoison_ptroots (k : Nat) (p : Bool) : (s.setPoison k p).ptroots = s.ptroots := rfl
@[simp] theorem setPoison_mem (k : Nat) (p : Bool) : (s.setPoison k p).mem = s.mem := rfl
@[simp] theorem setPoison_appends (k : Nat) (p : Bool) : (s.setPoison k p).appends = s.appends := rfl
@[simp] theorem setPoison_bound (k : Nat) (p : Bool) : (s.setPoison k p).bound = s.bound := rfl
@[simp] theorem setPoison_tokens (k : Nat) (p : Bool) : (s.setPoison k p).tokens = s.tokens := rfl
@[simp] theorem setPoison_hostHeld (k : Nat) (p : Bool) : (s.setPoison k p).hostHeld = s.hostHeld := rfl
@[simp] theorem setPoison_agent (k : Nat) (p : Bool) : (s.setPoison k p).agent = s.agent := rfl
@[simp] theorem setPoison_lateWords (k : Nat) (p : Bool) : (s.setPoison k p).lateWords = s.lateWords := rfl
@[simp] theorem setPoison_snoops (k : Nat) (p : Bool) : (s.setPoison k p).snoops = s.snoops := rfl
@[simp] theorem setPoison_replicas (k : Nat) (p : Bool) : (s.setPoison k p).replicas = s.replicas := rfl
@[simp] theorem setPoison_purges (k : Nat) (p : Bool) : (s.setPoison k p).purges = s.purges := rfl
@[simp] theorem setPoison_completions (k : Nat) (p : Bool) : (s.setPoison k p).completions = s.completions := rfl
@[simp] theorem setPoison_requests (k : Nat) (p : Bool) : (s.setPoison k p).requests = s.requests := rfl
@[simp] theorem setPoison_hub (k : Nat) (p : Bool) : (s.setPoison k p).hub = s.hub := rfl

@[simp] theorem setBytes_now (ws : List (Nat × Byte)) : (s.setBytes ws).now = s.now := rfl
@[simp] theorem setBytes_freeIx (ws : List (Nat × Byte)) : (s.setBytes ws).freeIx = s.freeIx := rfl
@[simp] theorem setBytes_nextKey (ws : List (Nat × Byte)) : (s.setBytes ws).nextKey = s.nextKey := rfl
@[simp] theorem setBytes_cur (ws : List (Nat × Byte)) : (s.setBytes ws).cur = s.cur := rfl
@[simp] theorem setBytes_agenda (ws : List (Nat × Byte)) : (s.setBytes ws).agenda = s.agenda := rfl
@[simp] theorem setBytes_sent (ws : List (Nat × Byte)) : (s.setBytes ws).sent = s.sent := rfl
@[simp] theorem setBytes_groups (ws : List (Nat × Byte)) : (s.setBytes ws).groups = s.groups := rfl
@[simp] theorem setBytes_teams (ws : List (Nat × Byte)) : (s.setBytes ws).teams = s.teams := rfl
@[simp] theorem setBytes_clusters (ws : List (Nat × Byte)) : (s.setBytes ws).clusters = s.clusters := rfl
@[simp] theorem setBytes_launches (ws : List (Nat × Byte)) : (s.setBytes ws).launches = s.launches := rfl
@[simp] theorem setBytes_cores (ws : List (Nat × Byte)) : (s.setBytes ws).cores = s.cores := rfl
@[simp] theorem setBytes_pounds (ws : List (Nat × Byte)) : (s.setBytes ws).pounds = s.pounds := rfl
@[simp] theorem setBytes_dies (ws : List (Nat × Byte)) : (s.setBytes ws).dies = s.dies := rfl
@[simp] theorem setBytes_ops (ws : List (Nat × Byte)) : (s.setBytes ws).ops = s.ops := rfl
@[simp] theorem setBytes_checks (ws : List (Nat × Byte)) : (s.setBytes ws).checks = s.checks := rfl
@[simp] theorem setBytes_parts (ws : List (Nat × Byte)) : (s.setBytes ws).parts = s.parts := rfl
@[simp] theorem setBytes_ptroots (ws : List (Nat × Byte)) : (s.setBytes ws).ptroots = s.ptroots := rfl
@[simp] theorem setBytes_poison (ws : List (Nat × Byte)) : (s.setBytes ws).poison = s.poison := rfl
@[simp] theorem setBytes_appends (ws : List (Nat × Byte)) : (s.setBytes ws).appends = s.appends := rfl
@[simp] theorem setBytes_bound (ws : List (Nat × Byte)) : (s.setBytes ws).bound = s.bound := rfl
@[simp] theorem setBytes_tokens (ws : List (Nat × Byte)) : (s.setBytes ws).tokens = s.tokens := rfl
@[simp] theorem setBytes_hostHeld (ws : List (Nat × Byte)) : (s.setBytes ws).hostHeld = s.hostHeld := rfl
@[simp] theorem setBytes_agent (ws : List (Nat × Byte)) : (s.setBytes ws).agent = s.agent := rfl
@[simp] theorem setBytes_snoops (ws : List (Nat × Byte)) : (s.setBytes ws).snoops = s.snoops := rfl
@[simp] theorem setBytes_replicas (ws : List (Nat × Byte)) : (s.setBytes ws).replicas = s.replicas := rfl
@[simp] theorem setBytes_purges (ws : List (Nat × Byte)) : (s.setBytes ws).purges = s.purges := rfl
@[simp] theorem setBytes_completions (ws : List (Nat × Byte)) : (s.setBytes ws).completions = s.completions := rfl
@[simp] theorem setBytes_requests (ws : List (Nat × Byte)) : (s.setBytes ws).requests = s.requests := rfl
@[simp] theorem setBytes_hub (ws : List (Nat × Byte)) : (s.setBytes ws).hub = s.hub := rfl

/-! ## What the changed table reads -/

@[simp] theorem setGroup_group (k : Nat) (g : Group) : (s.setGroup k g).group k = some g := tab_find_insert_self _ _ _
theorem setGroup_other {k j : Nat} {g : Group} (h : j ≠ k) : (s.setGroup k g).group j = s.group j := tab_find_insert_ne h
@[simp] theorem modGroup_group (k : Nat) (f : Group → Group) : (s.modGroup k f).group k = (s.group k).map f :=
  tab_find_modify_self
theorem modGroup_other {k j : Nat} {f : Group → Group} (h : j ≠ k) : (s.modGroup k f).group j = s.group j :=
  tab_find_modify_ne h
@[simp] theorem setTeam_team (k : Nat) (x : Team) : (s.setTeam k x).team k = some x := tab_find_insert_self _ _ _
theorem setTeam_other {k j : Nat} {x : Team} (h : j ≠ k) : (s.setTeam k x).team j = s.team j := tab_find_insert_ne h
@[simp] theorem modTeam_team (k : Nat) (f : Team → Team) : (s.modTeam k f).team k = (s.team k).map f := tab_find_modify_self
theorem modTeam_other {k j : Nat} {f : Team → Team} (h : j ≠ k) : (s.modTeam k f).team j = s.team j := tab_find_modify_ne h
@[simp] theorem modCheck_check (k : Nat) (f : Check → Check) : (s.modCheck k f).check k = (s.check k).map f :=
  tab_find_modify_self
theorem modCore_other {k j : Nat} {f : Core → Core} (h : j ≠ k) : (s.modCore k f).core j = s.core j :=
  tab_read_write_ne h
theorem modPound_other {k j : Nat} {f : Pound → Pound} (h : j ≠ k) : (s.modPound k f).pound j = s.pound j :=
  tab_read_write_ne h
/-- Bytes put into memory leave every other address. -/
theorem setBytes_other {ws : List (Nat × Byte)} {a : Nat} (h : ∀ p ∈ ws, p.1 ≠ a) : (s.setBytes ws).byte a = s.byte a := by
  unfold State.setBytes State.byte
  simp only
  generalize s.mem = m
  induction ws generalizing m with
  | nil => rfl
  | cons w ws ih =>
    simp only [List.foldl]
    rw [ih (fun p hp => h p (List.mem_cons_of_mem _ hp))]
    exact tab_read_write_ne (Ne.symm (h w List.mem_cons_self))

/-! ## Memory keeps its canonical form -/

theorem setBytes_wf {ws : List (Nat × Byte)} (h : Memory.wf s.mem = true) : Memory.wf (s.setBytes ws).mem = true :=
  tab_wf_foldl_write h
/-- Writes that are held for the host leave memory as it is. -/
@[simp] theorem snoopWrite_mem (half : Nat) (ws : List (Nat × Byte)) : (s.snoopWrite half ws).mem = s.mem := by
  unfold State.snoopWrite
  split <;> rfl

theorem zeroRange_wf {a n : Nat} (h : Memory.wf s.mem = true) : Memory.wf (s.zeroRange a n).mem = true := by
  have keep : ∀ (hs : List Nat) (f : Nat → List (Nat × Byte)) (x : State),
      (hs.foldl (fun b k => b.snoopWrite k (f k)) x).mem = x.mem := by
    intro hs f
    induction hs with
    | nil => intro x; rfl
    | cons k hs ih => intro x; simp [ih]
  unfold State.zeroRange
  simp only [keep]
  exact tab_wf_filter h

end Sys2Proof.Laws
end

