-- ==== Sys2Proof/Laws/Families.lean ====
section
/-!
SUPPORT. One lemma for each shared form of meaning: what an instruction of the form comes to when it stands ready.
-/

namespace Sys2Proof.Laws

open Sys2Proof Sys2Proof.Machine

variable {i : Instr} {s : State} {k : Nat} {g : Group} {e : Encoding} {body : Nat → Group → Result}

/-- A body that ends with the group's new record. -/
theorem ready_done {g' : Group} (h : ReadyTo i s k g) (he : encodingOf s i = some e)
    (hx : exec i s = issue e.form e.ok e.more e.slot s body) (hb : body k g = .done (s.setGroup k g')) :
    exec i s = .next (s.retire k e.slot g') := by
  rw [ready_issue h he hx, hb]; rfl

/-- A body that ends with a vector result. -/
theorem ready_vec {g' : Group} (h : ReadyTo i s k g) (he : encodingOf s i = some e)
    (hx : exec i s = issue e.form e.ok e.more e.slot s body) (hb : body k g = .done (s.putVec k e.slot g g')) :
    exec i s = .next (s.vecRetire k e.slot g g') := by
  rw [ready_issue h he hx, hb]; rfl

/-- A scalar ALU instruction. -/
theorem ready_scalarAlu {f : Form} {ok : Group → Bool} {w : Slot} {op : Int → Int → Int → Int} (h : ReadyTo i s k g)
    (he : encodingOf s i = some { slot := w, form := f, ok := ok }) (hx : exec i s = scalarAlu f ok w s op) :
    exec i s = .next (s.retire k w (g.setS w.d0.scalarIndex
      (scalarResult w.ty (op (s.scalarInt g w w.a) (s.scalarInt g w w.b) (s.scalarInt g w w.c))))) := by
  unfold scalarAlu at hx
  rw [ready_issue (e := { slot := w, form := f, ok := ok }) h he hx]
  rfl

/-- A vector integer instruction. -/
theorem ready_vecInt {f : Form} {ok : Group → Bool} {w : Slot} {sat : Bool} {op : Int → Int → Int → Int}
    (h : ReadyTo i s k g) (he : encodingOf s i = some { slot := w, form := f, ok := ok })
    (hx : exec i s = vecInt f ok w s sat op) :
    exec i s = .next (s.vecRetire k w g (s.elementwise g w (fun x y z => finishElem w.ty sat (op x y z)))) := by
  unfold vecInt at hx
  rw [ready_issue (e := { slot := w, form := f, ok := ok }) h he hx]
  simp only [finish, State.vecRetire, State.elementwise, State.elem]

/-- An instruction whose effect follows a release, where it is one: what `Releases` says, once its rest is shown in the state
that the release leaves. -/
theorem ready_releases {scope : Option Nat} {r : State → Result} {rest : State → Prop} (h : ReadyTo i s k g)
    (he : encodingOf s i = some e) (hx : exec i s = issue e.form e.ok e.more e.slot s body)
    (hb : body k g = match (generalizing := false) scope with
      | some x => s.releaseThen k g x r
      | none => r s)
    (hr : ∀ t, exec i s = .next (finish s k e.form e.slot (r t)) → rest t) : Releases i s k g scope rest := by
  have hi := ready_issue h he hx
  rw [hb] at hi
  cases scope with
  | none => exact hr s hi
  | some x =>
    simp only [State.releaseThen, State.releasing, State.takeRefused] at hi
    refine ⟨?_, ?_, ?_⟩
    · intro c hc ht
      rw [hi, hc]
      simp only [Option.map_some, Option.getD_some, finish, ht, State.trapFrom, he]
      rfl
    · intro hn h5 hs
      subst h5
      rw [hi, hn]
      simp only [Option.map_none, Option.getD_none, hs, decide_true, Bool.and_self, if_true, finish]
    · intro hn h5
      apply hr
      rw [hi, hn]
      have : (decide (x = 5) && (s.release (g.who k) x).snoopsOwed) = false := by
        rcases h5 with h5 | h5 <;> simp [h5]
      simp only [Option.map_none, Option.getD_none, this, Bool.false_eq_true, if_false]

/-- The loop of R232 depends only on the values of the elements. -/
theorem elementwise_congr {w : Slot} {v v' : Int → Int → Int → Nat × FpFlags} (h : ∀ x y z, v x y z = v' x y z) :
    s.elementwise g w v = s.elementwise g w v' := by
  have e : v = v' := by funext x y z; exact h x y z
  rw [e]

/-- An instruction whose form allocates no MOD bit has none set. -/
theorem ready_mod_zero (h : ReadyTo i s k g) (he : encodingOf s i = some e) (hm : e.form.mod = 0) : e.slot.mod = 0 := by
  have hc := h.clear
  simp only [State.clears, he, Encoding.legalIn, legal, Bool.and_eq_true, hm] at hc
  have hz : (e.slot.mod &&& ~~~0#28 == 0#28) = true := hc.1.1.1.1.1.1.1.1.1.1.1.1.1.1.2
  have he' : e.slot.mod &&& ~~~0#28 = e.slot.mod := by
    rw [show ~~~0#28 = BitVec.allOnes 28 by decide, BitVec.and_allOnes]
  rw [he'] at hz
  exact eq_of_beq hz

/-! ## Moving on -/

/-- A group that is not to end is left alone at its clause boundary. -/
theorem settle_live (hg : s.group k = some g) (hd : g.doomed = none) : s.settleDoom k = s := by
  simp [State.settleDoom, hg, hd]

/-- The retired group stands at its next slot; nothing else of the state has changed. -/
theorem retire_eq {w : Slot} {g' : Group} (hd : g'.doomed = none) : s.retire k w g' = s.setGroup k (g'.advance s.now w) := by
  have hd' : (g'.advance s.now w).doomed = none := by
    unfold Group.advance Group.endClause
    split <;> exact hd
  have he : (s.setGroup k g').modGroup k (fun g => g.advance s.now w) = s.setGroup k (g'.advance s.now w) := by
    simp [State.setGroup, State.modGroup, tab_modify_insert, tab_insert_insert]
  unfold State.retire State.advance
  simp only [setGroup_now, he]
  exact settle_live (setGroup_group _ _ _) hd'

/-- Moving on keeps the registers. -/
theorem advance_s (w : Slot) (now r : Nat) : (g.advance now w).s r = g.s r := by
  unfold Group.advance Group.endClause
  split <;> rfl

end Sys2Proof.Laws
end

