-- ==== Sys2Proof/Laws/Fold.lean ====
section
/-!
SUPPORT. A fold over a list keeps what each of its steps keeps.
-/

namespace Sys2Proof.Laws

open Sys2Proof Sys2Proof.Machine

/-- A fold keeps a value of the state that each of its steps keeps. -/
theorem foldl_keeps {σ α β : Type} (p : σ → β) (f : σ → α → σ) (h : ∀ a x, p (f a x) = p a) (l : List α) (s : σ) :
    p (l.foldl f s) = p s := by
  induction l generalizing s with
  | nil => rfl
  | cons x xs ih => rw [List.foldl_cons, ih, h]

/-- A fold keeps a property of the state that each of its steps keeps. -/
theorem foldl_holds {σ α : Type} (p : σ → Prop) (f : σ → α → σ) (h : ∀ a x, p a → p (f a x)) (l : List α) (s : σ)
    (hs : p s) : p (l.foldl f s) := by
  induction l generalizing s with
  | nil => exact hs
  | cons x xs ih => exact ih (f s x) (h s x hs)

end Sys2Proof.Laws
end

