-- ==== Sys2Proof/Laws/PerInstr.lean ====
section
/-!
SUPPORT. The family Encoding, constructor by constructor: the opcode that a well-formed instruction encodes with is its
own in the opcode map (R174).
-/

namespace Sys2Proof.Laws

open Sys2Proof

/-- The opcode map gives a well-formed instruction back for its own opcode and slot. -/
def Encoding.Statement (i : Instr) : Prop := i.wf = true → ∀ op w, i.opSlot = some (op, w) → instrOf op w = some i

/-- A constructor whose opcode the map lists for it. -/
theorem Encoding.of_slot {i : Instr} {op : BitVec 10} {w : Slot} (h : i.opSlot = some (op, w)) (hi : instrOf op w = some i) :
    Encoding.Statement i := by
  intro _ p x hx
  rw [h] at hx; cases hx; exact hi

/-- An event has no encoding. -/
theorem Encoding.of_event {i : Instr} (h : i.opSlot = none) : Encoding.Statement i := by
  intro _ p x hx; rw [h] at hx; cases hx

theorem Encoding.smov (w : Slot) : Encoding.Statement (.smov w) := Encoding.of_slot rfl rfl

theorem Encoding.smovi (w : Slot) : Encoding.Statement (.smovi w) := Encoding.of_slot rfl rfl

theorem Encoding.sadd (w : Slot) : Encoding.Statement (.sadd w) := Encoding.of_slot rfl rfl

theorem Encoding.ssub (w : Slot) : Encoding.Statement (.ssub w) := Encoding.of_slot rfl rfl

theorem Encoding.smul (w : Slot) : Encoding.Statement (.smul w) := Encoding.of_slot rfl rfl

theorem Encoding.smulh (w : Slot) : Encoding.Statement (.smulh w) := Encoding.of_slot rfl rfl

theorem Encoding.sdiv (w : Slot) : Encoding.Statement (.sdiv w) := Encoding.of_slot rfl rfl

theorem Encoding.srem (w : Slot) : Encoding.Statement (.srem w) := Encoding.of_slot rfl rfl

theorem Encoding.smin (w : Slot) : Encoding.Statement (.smin w) := Encoding.of_slot rfl rfl

theorem Encoding.smax (w : Slot) : Encoding.Statement (.smax w) := Encoding.of_slot rfl rfl

theorem Encoding.sand (w : Slot) : Encoding.Statement (.sand w) := Encoding.of_slot rfl rfl

theorem Encoding.sor (w : Slot) : Encoding.Statement (.sor w) := Encoding.of_slot rfl rfl

theorem Encoding.sxor (w : Slot) : Encoding.Statement (.sxor w) := Encoding.of_slot rfl rfl

theorem Encoding.sandn (w : Slot) : Encoding.Statement (.sandn w) := Encoding.of_slot rfl rfl

theorem Encoding.sshl (w : Slot) : Encoding.Statement (.sshl w) := Encoding.of_slot rfl rfl

theorem Encoding.sshr (w : Slot) : Encoding.Statement (.sshr w) := Encoding.of_slot rfl rfl

theorem Encoding.ssra (w : Slot) : Encoding.Statement (.ssra w) := Encoding.of_slot rfl rfl

theorem Encoding.sclz (w : Slot) : Encoding.Statement (.sclz w) := Encoding.of_slot rfl rfl

theorem Encoding.spopc (w : Slot) : Encoding.Statement (.spopc w) := Encoding.of_slot rfl rfl

theorem Encoding.sbfx (w : Slot) : Encoding.Statement (.sbfx w) := Encoding.of_slot rfl rfl

theorem Encoding.sbfi (w : Slot) : Encoding.Statement (.sbfi w) := Encoding.of_slot rfl rfl

theorem Encoding.scmp (w : Slot) : Encoding.Statement (.scmp w) := Encoding.of_slot rfl rfl

theorem Encoding.ssel (w : Slot) : Encoding.Statement (.ssel w) := Encoding.of_slot rfl rfl

theorem Encoding.slea (w : Slot) : Encoding.Statement (.slea w) := Encoding.of_slot rfl rfl

theorem Encoding.sld (w : Slot) : Encoding.Statement (.sld w) := Encoding.of_slot rfl rfl

theorem Encoding.sst (w : Slot) : Encoding.Statement (.sst w) := Encoding.of_slot rfl rfl

theorem Encoding.clog (w : Slot) : Encoding.Statement (.clog w) := Encoding.of_slot rfl rfl

theorem Encoding.nop (w : Slot) : Encoding.Statement (.nop w) := Encoding.of_slot rfl rfl

theorem Encoding.bra (w : Slot) : Encoding.Statement (.bra w) := Encoding.of_slot rfl rfl

theorem Encoding.brc (w : Slot) : Encoding.Statement (.brc w) := Encoding.of_slot rfl rfl

theorem Encoding.brv (w : Slot) : Encoding.Statement (.brv w) := Encoding.of_slot rfl rfl

theorem Encoding.bri (w : Slot) : Encoding.Statement (.bri w) := Encoding.of_slot rfl rfl

theorem Encoding.call (w : Slot) : Encoding.Statement (.call w) := Encoding.of_slot rfl rfl

theorem Encoding.ret (w : Slot) : Encoding.Statement (.ret w) := Encoding.of_slot rfl rfl

theorem Encoding.exit (w : Slot) : Encoding.Statement (.exit w) := Encoding.of_slot rfl rfl

theorem Encoding.yield (w : Slot) : Encoding.Statement (.yield w) := Encoding.of_slot rfl rfl

theorem Encoding.sleep (w : Slot) : Encoding.Statement (.sleep w) := Encoding.of_slot rfl rfl

theorem Encoding.bar (w : Slot) : Encoding.Statement (.bar w) := Encoding.of_slot rfl rfl

theorem Encoding.cbarArrive (w : Slot) : Encoding.Statement (.cbarArrive w) := by
  intro h op x hx
  simp only [Instr.wf, decide_eq_true_eq] at h
  cases hx; simp [instrOf, h]

theorem Encoding.cbarWait (w : Slot) : Encoding.Statement (.cbarWait w) := by
  intro h op x hx
  simp only [Instr.wf, decide_eq_true_eq] at h
  cases hx; simp [instrOf, h]

theorem Encoding.waitc (w : Slot) : Encoding.Statement (.waitc w) := Encoding.of_slot rfl rfl

theorem Encoding.waitb (w : Slot) : Encoding.Statement (.waitb w) := Encoding.of_slot rfl rfl

theorem Encoding.klaunch (w : Slot) : Encoding.Statement (.klaunch w) := Encoding.of_slot rfl rfl

theorem Encoding.sigf (w : Slot) : Encoding.Statement (.sigf w) := Encoding.of_slot rfl rfl

theorem Encoding.ifence (w : Slot) : Encoding.Statement (.ifence w) := Encoding.of_slot rfl rfl

theorem Encoding.vmov (w : Slot) : Encoding.Statement (.vmov w) := Encoding.of_slot rfl rfl

theorem Encoding.vmovi (w : Slot) : Encoding.Statement (.vmovi w) := Encoding.of_slot rfl rfl

theorem Encoding.vadd (w : Slot) : Encoding.Statement (.vadd w) := Encoding.of_slot rfl rfl

theorem Encoding.vsub (w : Slot) : Encoding.Statement (.vsub w) := Encoding.of_slot rfl rfl

theorem Encoding.vmul (w : Slot) : Encoding.Statement (.vmul w) := Encoding.of_slot rfl rfl

theorem Encoding.vmulh (w : Slot) : Encoding.Statement (.vmulh w) := Encoding.of_slot rfl rfl

theorem Encoding.vmad (w : Slot) : Encoding.Statement (.vmad w) := Encoding.of_slot rfl rfl

theorem Encoding.vmin (w : Slot) : Encoding.Statement (.vmin w) := Encoding.of_slot rfl rfl

theorem Encoding.vmax (w : Slot) : Encoding.Statement (.vmax w) := Encoding.of_slot rfl rfl

theorem Encoding.vabs (w : Slot) : Encoding.Statement (.vabs w) := Encoding.of_slot rfl rfl

theorem Encoding.vneg (w : Slot) : Encoding.Statement (.vneg w) := Encoding.of_slot rfl rfl

theorem Encoding.vand (w : Slot) : Encoding.Statement (.vand w) := Encoding.of_slot rfl rfl

theorem Encoding.vor (w : Slot) : Encoding.Statement (.vor w) := Encoding.of_slot rfl rfl

theorem Encoding.vxor (w : Slot) : Encoding.Statement (.vxor w) := Encoding.of_slot rfl rfl

theorem Encoding.vnot (w : Slot) : Encoding.Statement (.vnot w) := Encoding.of_slot rfl rfl

theorem Encoding.vshl (w : Slot) : Encoding.Statement (.vshl w) := Encoding.of_slot rfl rfl

theorem Encoding.vshr (w : Slot) : Encoding.Statement (.vshr w) := Encoding.of_slot rfl rfl

theorem Encoding.vsra (w : Slot) : Encoding.Statement (.vsra w) := Encoding.of_slot rfl rfl

theorem Encoding.vbfx (w : Slot) : Encoding.Statement (.vbfx w) := Encoding.of_slot rfl rfl

theorem Encoding.vbfi (w : Slot) : Encoding.Statement (.vbfi w) := Encoding.of_slot rfl rfl

theorem Encoding.vclz (w : Slot) : Encoding.Statement (.vclz w) := Encoding.of_slot rfl rfl

theorem Encoding.vpopc (w : Slot) : Encoding.Statement (.vpopc w) := Encoding.of_slot rfl rfl

theorem Encoding.vsel (w : Slot) : Encoding.Statement (.vsel w) := Encoding.of_slot rfl rfl

theorem Encoding.vcmp (w : Slot) : Encoding.Statement (.vcmp w) := Encoding.of_slot rfl rfl

theorem Encoding.vdot4 (w : Slot) : Encoding.Statement (.vdot4 w) := Encoding.of_slot rfl rfl

theorem Encoding.vidx (w : Slot) : Encoding.Statement (.vidx w) := Encoding.of_slot rfl rfl

theorem Encoding.fadd (w : Slot) : Encoding.Statement (.fadd w) := Encoding.of_slot rfl rfl

theorem Encoding.fsub (w : Slot) : Encoding.Statement (.fsub w) := Encoding.of_slot rfl rfl

theorem Encoding.fmul (w : Slot) : Encoding.Statement (.fmul w) := Encoding.of_slot rfl rfl

theorem Encoding.ffma (w : Slot) : Encoding.Statement (.ffma w) := Encoding.of_slot rfl rfl

theorem Encoding.fmin (w : Slot) : Encoding.Statement (.fmin w) := Encoding.of_slot rfl rfl

theorem Encoding.fmax (w : Slot) : Encoding.Statement (.fmax w) := Encoding.of_slot rfl rfl

theorem Encoding.fcmp (w : Slot) : Encoding.Statement (.fcmp w) := Encoding.of_slot rfl rfl

theorem Encoding.fcls (w : Slot) : Encoding.Statement (.fcls w) := Encoding.of_slot rfl rfl

theorem Encoding.frndi (w : Slot) : Encoding.Statement (.frndi w) := Encoding.of_slot rfl rfl

theorem Encoding.fdiv (w : Slot) : Encoding.Statement (.fdiv w) := Encoding.of_slot rfl rfl

theorem Encoding.fsqrt (w : Slot) : Encoding.Statement (.fsqrt w) := Encoding.of_slot rfl rfl

theorem Encoding.frcp (w : Slot) : Encoding.Statement (.frcp w) := Encoding.of_slot rfl rfl

theorem Encoding.frsq (w : Slot) : Encoding.Statement (.frsq w) := Encoding.of_slot rfl rfl

theorem Encoding.fex2 (w : Slot) : Encoding.Statement (.fex2 w) := Encoding.of_slot rfl rfl

theorem Encoding.flg2 (w : Slot) : Encoding.Statement (.flg2 w) := Encoding.of_slot rfl rfl

theorem Encoding.fsin (w : Slot) : Encoding.Statement (.fsin w) := Encoding.of_slot rfl rfl

theorem Encoding.fcos (w : Slot) : Encoding.Statement (.fcos w) := Encoding.of_slot rfl rfl

theorem Encoding.ftanh (w : Slot) : Encoding.Statement (.ftanh w) := Encoding.of_slot rfl rfl

theorem Encoding.pkfma (w : Slot) : Encoding.Statement (.pkfma w) := Encoding.of_slot rfl rfl

theorem Encoding.pkadd (w : Slot) : Encoding.Statement (.pkadd w) := Encoding.of_slot rfl rfl

theorem Encoding.pkmul (w : Slot) : Encoding.Statement (.pkmul w) := Encoding.of_slot rfl rfl

theorem Encoding.cvt (w : Slot) : Encoding.Statement (.cvt w) := Encoding.of_slot rfl rfl

theorem Encoding.cvtb (w : Slot) : Encoding.Statement (.cvtb w) := Encoding.of_slot rfl rfl

theorem Encoding.cvte (w : Slot) : Encoding.Statement (.cvte w) := Encoding.of_slot rfl rfl

theorem Encoding.shfl (w : Slot) : Encoding.Statement (.shfl w) := Encoding.of_slot rfl rfl

theorem Encoding.vrdl (w : Slot) : Encoding.Statement (.vrdl w) := Encoding.of_slot rfl rfl

theorem Encoding.vwrl (w : Slot) : Encoding.Statement (.vwrl w) := Encoding.of_slot rfl rfl

theorem Encoding.vred (w : Slot) : Encoding.Statement (.vred w) := Encoding.of_slot rfl rfl

theorem Encoding.vscan (w : Slot) : Encoding.Statement (.vscan w) := Encoding.of_slot rfl rfl

theorem Encoding.vote (w : Slot) : Encoding.Statement (.vote w) := Encoding.of_slot rfl rfl

theorem Encoding.qmov (w : Slot) : Encoding.Statement (.qmov w) := Encoding.of_slot rfl rfl

theorem Encoding.qlog (w : Slot) : Encoding.Statement (.qlog w) := Encoding.of_slot rfl rfl

theorem Encoding.qcnt (w : Slot) : Encoding.Statement (.qcnt w) := Encoding.of_slot rfl rfl

theorem Encoding.ld (w : Slot) : Encoding.Statement (.ld w) := Encoding.of_slot rfl rfl

theorem Encoding.st (w : Slot) : Encoding.Statement (.st w) := Encoding.of_slot rfl rfl

theorem Encoding.ldp (w : Slot) : Encoding.Statement (.ldp w) := Encoding.of_slot rfl rfl

theorem Encoding.stp (w : Slot) : Encoding.Statement (.stp w) := Encoding.of_slot rfl rfl

theorem Encoding.ldv (w : Slot) : Encoding.Statement (.ldv w) := Encoding.of_slot rfl rfl

theorem Encoding.stv (w : Slot) : Encoding.Statement (.stv w) := Encoding.of_slot rfl rfl

theorem Encoding.atom (w : Slot) : Encoding.Statement (.atom w) := Encoding.of_slot rfl rfl

theorem Encoding.satom (w : Slot) : Encoding.Statement (.satom w) := Encoding.of_slot rfl rfl

theorem Encoding.apnd (w : Slot) : Encoding.Statement (.apnd w) := Encoding.of_slot rfl rfl

theorem Encoding.apst (w : Slot) : Encoding.Statement (.apst w) := Encoding.of_slot rfl rfl

theorem Encoding.seal (w : Slot) : Encoding.Statement (.seal w) := Encoding.of_slot rfl rfl

theorem Encoding.fence (w : Slot) : Encoding.Statement (.fence w) := Encoding.of_slot rfl rfl

theorem Encoding.pref (w : Slot) : Encoding.Statement (.pref w) := Encoding.of_slot rfl rfl

theorem Encoding.cflush (w : Slot) : Encoding.Statement (.cflush w) := Encoding.of_slot rfl rfl

theorem Encoding.ldsx (w : Slot) : Encoding.Statement (.ldsx w) := Encoding.of_slot rfl rfl

theorem Encoding.monw (w : Slot) : Encoding.Statement (.monw w) := Encoding.of_slot rfl rfl

theorem Encoding.mwait (w : Slot) : Encoding.Statement (.mwait w) := Encoding.of_slot rfl rfl

theorem Encoding.trec (w : Slot) : Encoding.Statement (.trec w) := Encoding.of_slot rfl rfl

theorem Encoding.cpy (w : Slot) : Encoding.Statement (.cpy w) := Encoding.of_slot rfl rfl

theorem Encoding.cpyx (w : Slot) : Encoding.Statement (.cpyx w) := Encoding.of_slot rfl rfl

theorem Encoding.cpyr (w : Slot) : Encoding.Statement (.cpyr w) := Encoding.of_slot rfl rfl

theorem Encoding.cpyb (w : Slot) : Encoding.Statement (.cpyb w) := Encoding.of_slot rfl rfl

theorem Encoding.gath (w : Slot) : Encoding.Statement (.gath w) := Encoding.of_slot rfl rfl

theorem Encoding.coll (w : Slot) : Encoding.Statement (.coll w) := Encoding.of_slot rfl rfl

theorem Encoding.bcfg (w : Slot) : Encoding.Statement (.bcfg w) := Encoding.of_slot rfl rfl

theorem Encoding.bput (w : Slot) : Encoding.Statement (.bput w) := Encoding.of_slot rfl rfl

theorem Encoding.btake (w : Slot) : Encoding.Statement (.btake w) := Encoding.of_slot rfl rfl

theorem Encoding.tcfg (w : Slot) : Encoding.Statement (.tcfg w) := Encoding.of_slot rfl rfl

theorem Encoding.mma (w : Slot) : Encoding.Statement (.mma w) := Encoding.of_slot rfl rfl

theorem Encoding.mldb (w : Slot) : Encoding.Statement (.mldb w) := Encoding.of_slot rfl rfl

theorem Encoding.msto (w : Slot) : Encoding.Statement (.msto w) := Encoding.of_slot rfl rfl

theorem Encoding.mzero (w : Slot) : Encoding.Statement (.mzero w) := Encoding.of_slot rfl rfl

theorem Encoding.mq4 (w : Slot) : Encoding.Statement (.mq4 w) := Encoding.of_slot rfl rfl

theorem Encoding.srds (w : Slot) : Encoding.Statement (.srds w) := Encoding.of_slot rfl rfl

theorem Encoding.swrs (w : Slot) : Encoding.Statement (.swrs w) := Encoding.of_slot rfl rfl

theorem Encoding.trap (w : Slot) : Encoding.Statement (.trap w) := Encoding.of_slot rfl rfl

theorem Encoding.eret (w : Slot) : Encoding.Statement (.eret w) := Encoding.of_slot rfl rfl

theorem Encoding.pmap (w : Slot) : Encoding.Statement (.pmap w) := Encoding.of_slot rfl rfl

theorem Encoding.pfree (w : Slot) : Encoding.Statement (.pfree w) := Encoding.of_slot rfl rfl

theorem Encoding.tlbi (w : Slot) : Encoding.Statement (.tlbi w) := Encoding.of_slot rfl rfl

theorem Encoding.haltc (w : Slot) : Encoding.Statement (.haltc w) := Encoding.of_slot rfl rfl

theorem Encoding.dbrk (w : Slot) : Encoding.Statement (.dbrk w) := Encoding.of_slot rfl rfl

theorem Encoding.clauseIssue (x0 : Nat) : Encoding.Statement (.clauseIssue x0) := Encoding.of_event rfl

theorem Encoding.operationComplete (x0 : Nat) (x1 : Nat) : Encoding.Statement (.operationComplete x0 x1) := Encoding.of_event rfl

theorem Encoding.timerTrap (x0 : Nat) : Encoding.Statement (.timerTrap x0) := Encoding.of_event rfl

theorem Encoding.sleepExpiry (x0 : Nat) : Encoding.Statement (.sleepExpiry x0) := Encoding.of_event rfl

theorem Encoding.barrierComplete (x0 : Nat) (x1 : Nat) : Encoding.Statement (.barrierComplete x0 x1) := Encoding.of_event rfl

theorem Encoding.cbarPhaseComplete (x0 : Nat) : Encoding.Statement (.cbarPhaseComplete x0) := Encoding.of_event rfl

theorem Encoding.waitcComplete (x0 : Nat) : Encoding.Statement (.waitcComplete x0) := Encoding.of_event rfl

theorem Encoding.waitbComplete (x0 : Nat) : Encoding.Statement (.waitbComplete x0) := Encoding.of_event rfl

theorem Encoding.mwaitWake (x0 : Nat) (x1 : Bool) : Encoding.Statement (.mwaitWake x0 x1) := Encoding.of_event rfl

theorem Encoding.mwaitTimeout (x0 : Nat) : Encoding.Statement (.mwaitTimeout x0) := Encoding.of_event rfl

theorem Encoding.watchReread (x0 : Nat) : Encoding.Statement (.watchReread x0) := Encoding.of_event rfl

theorem Encoding.watchTableRecheck (x0 : Nat) : Encoding.Statement (.watchTableRecheck x0) := Encoding.of_event rfl

theorem Encoding.haltcWake (x0 : Nat) : Encoding.Statement (.haltcWake x0) := Encoding.of_event rfl

theorem Encoding.stickyPriority (x0 : Nat) : Encoding.Statement (.stickyPriority x0) := Encoding.of_event rfl

theorem Encoding.controlInterval (x0 : Nat) (x1 : Nat) : Encoding.Statement (.controlInterval x0 x1) := Encoding.of_event rfl

theorem Encoding.claim (x0 : Nat) (x1 : Bool) : Encoding.Statement (.claim x0 x1) := Encoding.of_event rfl

theorem Encoding.energyUpdate (x0 : Nat) : Encoding.Statement (.energyUpdate x0) := Encoding.of_event rfl

theorem Encoding.engineFire (x0 : Nat) : Encoding.Statement (.engineFire x0) := Encoding.of_event rfl

theorem Encoding.engineStep (x0 : Nat) : Encoding.Statement (.engineStep x0) := Encoding.of_event rfl

theorem Encoding.engineRetire (x0 : Nat) : Encoding.Statement (.engineRetire x0) := Encoding.of_event rfl

theorem Encoding.pairArrival (x0 : Nat) : Encoding.Statement (.pairArrival x0) := Encoding.of_event rfl

theorem Encoding.cpyxSettle (x0 : Nat) : Encoding.Statement (.cpyxSettle x0) := Encoding.of_event rfl

theorem Encoding.tokenRequest (x0 : Nat) (x1 : Nat) (x2 : Bool) : Encoding.Statement (.tokenRequest x0 x1 x2) := Encoding.of_event rfl

theorem Encoding.persistentRequest (x0 : Nat) (x1 : Nat) (x2 : Bool) : Encoding.Statement (.persistentRequest x0 x1 x2) := Encoding.of_event rfl

theorem Encoding.leaseExpiry (x0 : Nat) : Encoding.Statement (.leaseExpiry x0) := Encoding.of_event rfl

theorem Encoding.remoteWriteDrain (x0 : Nat) (x1 : Nat) : Encoding.Statement (.remoteWriteDrain x0 x1) := Encoding.of_event rfl

theorem Encoding.appendComplete (x0 : Nat) (x1 : Nat) : Encoding.Statement (.appendComplete x0 x1) := Encoding.of_event rfl

theorem Encoding.sealComplete (x0 : Nat) : Encoding.Statement (.sealComplete x0) := Encoding.of_event rfl

theorem Encoding.purgeAck (x0 : Nat) (x1 : Nat) : Encoding.Statement (.purgeAck x0 x1) := Encoding.of_event rfl

theorem Encoding.mtuWalkComplete (x0 : Nat) : Encoding.Statement (.mtuWalkComplete x0) := Encoding.of_event rfl

theorem Encoding.tier3SwapOut (x0 : Nat) : Encoding.Statement (.tier3SwapOut x0) := Encoding.of_event rfl

theorem Encoding.teamAdmit (x0 : Nat) (x1 : Nat) (x2 : Nat) : Encoding.Statement (.teamAdmit x0 x1 x2) := Encoding.of_event rfl

theorem Encoding.launchComplete (x0 : Nat) : Encoding.Statement (.launchComplete x0) := Encoding.of_event rfl

theorem Encoding.clusterSend (x0 : Nat) : Encoding.Statement (.clusterSend x0) := Encoding.of_event rfl

theorem Encoding.dependenceHolds (x0 : Nat) : Encoding.Statement (.dependenceHolds x0) := Encoding.of_event rfl

theorem Encoding.stealRequest (x0 : Nat) (x1 : Nat) (x2 : List (Nat × Nat)) : Encoding.Statement (.stealRequest x0 x1 x2) := Encoding.of_event rfl

theorem Encoding.partialEviction (x0 : Nat) (x1 : Nat) (x2 : Nat) : Encoding.Statement (.partialEviction x0 x1 x2) := Encoding.of_event rfl

theorem Encoding.fenceTakesEffect (x0 : Nat) (x1 : Nat) : Encoding.Statement (.fenceTakesEffect x0 x1) := Encoding.of_event rfl

theorem Encoding.demeritDecay : Encoding.Statement .demeritDecay := Encoding.of_event rfl

theorem Encoding.maceSegment (x0 : Nat) (x1 : Nat) (x2 : MaceOutcome) : Encoding.Statement (.maceSegment x0 x1 x2) := Encoding.of_event rfl

theorem Encoding.replicaPlace (x0 : Nat) (x1 : Nat) : Encoding.Statement (.replicaPlace x0 x1) := Encoding.of_event rfl

theorem Encoding.checkResolve (x0 : Nat) : Encoding.Statement (.checkResolve x0) := Encoding.of_event rfl

theorem Encoding.timeout (x0 : Nat) : Encoding.Statement (.timeout x0) := Encoding.of_event rfl

theorem Encoding.healthRecordSign : Encoding.Statement .healthRecordSign := Encoding.of_event rfl

theorem Encoding.launchByRecord (x0 : Nat) (x1 : Nat) (x2 : LaunchPacket) : Encoding.Statement (.launchByRecord x0 x1 x2) := Encoding.of_event rfl

theorem Encoding.launchByRegisteredEntry (x0 : Nat) (x1 : Nat) (x2 : LaunchPacket) : Encoding.Statement (.launchByRegisteredEntry x0 x1 x2) := Encoding.of_event rfl

theorem Encoding.register (x0 : Nat) (x1 : Nat) (x2 : LaunchPacket) : Encoding.Statement (.register x0 x1 x2) := Encoding.of_event rfl

theorem Encoding.emptyAnEntry (x0 : Nat) (x1 : Nat) (x2 : LaunchPacket) : Encoding.Statement (.emptyAnEntry x0 x1 x2) := Encoding.of_event rfl

theorem Encoding.launchWindowDrop (x0 : Nat) (x1 : WindowAccess) : Encoding.Statement (.launchWindowDrop x0 x1) := Encoding.of_event rfl

theorem Encoding.atsInvalidateRequest (x0 : Option Nat) (x1 : BitVec 64) (x2 : Nat) : Encoding.Statement (.atsInvalidateRequest x0 x1 x2) := Encoding.of_event rfl

theorem Encoding.pageRequestGroupResponse (x0 : Nat) (x1 : Nat) (x2 : Bool) : Encoding.Statement (.pageRequestGroupResponse x0 x1 x2) := Encoding.of_event rfl

theorem Encoding.hostSnoop (x0 : Nat) (x1 : Bool) (x2 : Option (List (BitVec 8))) : Encoding.Statement (.hostSnoop x0 x1 x2) := Encoding.of_event rfl

theorem Encoding.backInvalidateAnswer (x0 : Nat) (x1 : Option (List (BitVec 8))) : Encoding.Statement (.backInvalidateAnswer x0 x1) := Encoding.of_event rfl

theorem Encoding.hostMemoryAccess (x0 : Nat) (x1 : HostAccess) : Encoding.Statement (.hostMemoryAccess x0 x1) := Encoding.of_event rfl

theorem Encoding.ideKm (x0 : Nat) : Encoding.Statement (.ideKm x0) := Encoding.of_event rfl

theorem Encoding.ideMacFailure (x0 : Nat) : Encoding.Statement (.ideMacFailure x0) := Encoding.of_event rfl

theorem Encoding.lockInterfaceRequest : Encoding.Statement .lockInterfaceRequest := Encoding.of_event rfl

theorem Encoding.startInterfaceRequest : Encoding.Statement .startInterfaceRequest := Encoding.of_event rfl

theorem Encoding.stopInterfaceRequest : Encoding.Statement .stopInterfaceRequest := Encoding.of_event rfl

theorem Encoding.linkDown : Encoding.Statement .linkDown := Encoding.of_event rfl

theorem Encoding.keyLoad (x0 : Nat) (x1 : Nat) (x2 : BitVec 256) (x3 : BitVec 32) (x4 : BitVec 64) : Encoding.Statement (.keyLoad x0 x1 x2 x3 x4) := Encoding.of_event rfl

theorem Encoding.clearFence (x0 : Nat) (x1 : BitVec 144) : Encoding.Statement (.clearFence x0 x1) := Encoding.of_event rfl

theorem Encoding.getHealth (x0 : BitVec 64) (x1 : Nat) (x2 : Nat) : Encoding.Statement (.getHealth x0 x1 x2) := Encoding.of_event rfl

theorem Encoding.spdmRequest (x0 : SpdmRequest) : Encoding.Statement (.spdmRequest x0) := Encoding.of_event rfl

theorem Encoding.peerPortStateChange (x0 : Nat) (x1 : PortState) : Encoding.Statement (.peerPortStateChange x0 x1) := Encoding.of_event rfl

theorem Encoding.peerCopyArrival (x0 : Nat) (x1 : Nat) (x2 : PeerArrival) (x3 : Bool) : Encoding.Statement (.peerCopyArrival x0 x1 x2 x3) := Encoding.of_event rfl

theorem Encoding.hrLatch : Encoding.Statement .hrLatch := Encoding.of_event rfl

theorem Encoding.coldReset : Encoding.Statement .coldReset := Encoding.of_event rfl

theorem Encoding.rcvGo (x0 : RecoveryWrite) : Encoding.Statement (.rcvGo x0) := Encoding.of_event rfl

theorem Encoding.fwUpdCmd (x0 : BitVec 64) : Encoding.Statement (.fwUpdCmd x0) := Encoding.of_event rfl

theorem Encoding.hcGo (x0 : Nat) (x1 : BitVec 64) : Encoding.Statement (.hcGo x0 x1) := Encoding.of_event rfl

theorem Encoding.doorbell (x0 : Nat) (x1 : Nat) : Encoding.Statement (.doorbell x0 x1) := Encoding.of_event rfl

theorem Encoding.dbgResumeGroup : Encoding.Statement .dbgResumeGroup := Encoding.of_event rfl

theorem Encoding.dbgEndTeam : Encoding.Statement .dbgEndTeam := Encoding.of_event rfl

theorem Encoding.create (x0 : Nat) : Encoding.Statement (.create x0) := Encoding.of_event rfl

theorem Encoding.switchout (x0 : Nat) : Encoding.Statement (.switchout x0) := Encoding.of_event rfl

theorem Encoding.partitionImageSave (x0 : Nat) : Encoding.Statement (.partitionImageSave x0) := Encoding.of_event rfl

theorem Encoding.switchin (x0 : Nat) : Encoding.Statement (.switchin x0) := Encoding.of_event rfl

theorem Encoding.reset (x0 : Nat) : Encoding.Statement (.reset x0) := Encoding.of_event rfl

theorem Encoding.destroy (x0 : Nat) : Encoding.Statement (.destroy x0) := Encoding.of_event rfl

theorem Encoding.hangWatchdogExpiry (x0 : Nat) : Encoding.Statement (.hangWatchdogExpiry x0) := Encoding.of_event rfl

theorem Encoding.saveTimerExpiry (x0 : Nat) : Encoding.Statement (.saveTimerExpiry x0) := Encoding.of_event rfl

theorem Encoding.drCtl (x0 : Nat) (x1 : BitVec 64) : Encoding.Statement (.drCtl x0 x1) := Encoding.of_event rfl

theorem Encoding.drStepEnd (x0 : Nat) : Encoding.Statement (.drStepEnd x0) := Encoding.of_event rfl

theorem Encoding.railCtl (x0 : BitVec 64) : Encoding.Statement (.railCtl x0) := Encoding.of_event rfl

theorem Encoding.railVoltageReached : Encoding.Statement .railVoltageReached := Encoding.of_event rfl

theorem Encoding.pdCtl (x0 : Nat) (x1 : Nat) (x2 : BitVec 64) : Encoding.Statement (.pdCtl x0 x1 x2) := Encoding.of_event rfl

theorem Encoding.pdWake (x0 : Nat) (x1 : Nat) (x2 : BitVec 64) : Encoding.Statement (.pdWake x0 x1 x2) := Encoding.of_event rfl

theorem Encoding.autoidleExpiry (x0 : Nat) (x1 : Nat) : Encoding.Statement (.autoidleExpiry x0 x1) := Encoding.of_event rfl

theorem Encoding.poundStateComplete (x0 : Nat) (x1 : Nat) : Encoding.Statement (.poundStateComplete x0 x1) := Encoding.of_event rfl

theorem Encoding.dispatchAtLock (x0 : Nat) (x1 : Nat) : Encoding.Statement (.dispatchAtLock x0 x1) := Encoding.of_event rfl

theorem Encoding.droopFire (x0 : Nat) (x1 : Nat) : Encoding.Statement (.droopFire x0 x1) := Encoding.of_event rfl

theorem Encoding.droopHoldExpiry (x0 : Nat) (x1 : Nat) : Encoding.Statement (.droopHoldExpiry x0 x1) := Encoding.of_event rfl

theorem Encoding.ftp64 (x0 : Nat) (x1 : Nat) (x2 : BitVec 64) : Encoding.Statement (.ftp64 x0 x1 x2) := Encoding.of_event rfl

theorem Encoding.ftp2m (x0 : Nat) (x1 : Nat) (x2 : BitVec 64) : Encoding.Statement (.ftp2m x0 x1 x2) := Encoding.of_event rfl

theorem Encoding.qBind (x0 : Nat) (x1 : BitVec 64) : Encoding.Statement (.qBind x0 x1) := Encoding.of_event rfl

theorem Encoding.slInject (x0 : Nat) (x1 : BitVec 64) : Encoding.Statement (.slInject x0 x1) := Encoding.of_event rfl

theorem Encoding.mgmtRegisterWrite (x0 : Nat) (x1 : BitVec 64) : Encoding.Statement (.mgmtRegisterWrite x0 x1) := Encoding.of_event rfl

theorem Encoding.stationDelivery (x0 : Nat) : Encoding.Statement (.stationDelivery x0) := Encoding.of_event rfl

theorem Encoding.uncorrectableError (x0 : ErrorSite) : Encoding.Statement (.uncorrectableError x0) := Encoding.of_event rfl

theorem Encoding.frozenSettingsChange : Encoding.Statement .frozenSettingsChange := Encoding.of_event rfl

end Sys2Proof.Laws
end

