-- ==== Sys2Proof/Tests/Slice0.lean ====
section
/-!
SUPPORT. Tests of the model and witnesses for the hypotheses of the statements. Expected values are worked out by hand
from the rules that the tests name, or are the spec's own examples. Every `wit_` theorem shows a concrete state and
operands that meet the hypotheses of the statement whose name it carries.
-/

namespace Sys2Proof.Tests

set_option Elab.async false

open Sys2Proof Sys2Proof.Machine

/-! ## Helpers -/

/-- A slot with every field at its default, TY u32. -/
def sl : Slot :=
  { sf := .none, mod := 0, yld := false, reuse := 0, stall := 0, bnd := false, hint := 0, imm := 0, c := .vec 0
    b := .vec 0, a := .vec 0, d1 := .vec 0, d0 := .vec 0, lgNeg := false, lg := 0, sgNeg := false, sg := 7, ty := .u32 }

/-- Scalar form d ← a, b, c at a width. -/
def sc (ty : Ty) (d a b : BitVec 6) (c : Operand := .vec 0) (mod : BitVec 28 := 0) (imm : BitVec 32 := 0) : Slot :=
  { sl with ty := ty, d0 := .scalar d, a := .scalar a, b := .scalar b, c := c, mod := mod, imm := imm }

/-- Scalar form d ← a. -/
def su (ty : Ty) (d a : BitVec 6) : Slot := { sc ty d a 0 with b := .vec 0 }

/-- Vector form d ← a, b, c at a TY. -/
def vc (ty : Ty) (d : Operand) (a b c : Operand) (mod : BitVec 28 := 0) (imm : BitVec 32 := 0) : Slot :=
  { sl with ty := ty, d0 := d, a := a, b := b, c := c, mod := mod, imm := imm }

/-- A long-latency form: SF selects SETA (R158). -/
def lng (w : Slot) : Slot := { w with sf := .setA }

/-- A group in the middle of a clause, with small values in its registers. -/
def tGroup : Group :=
  { firmwareGroup with
    clause := some { entry := 0x100, header := 0, rest := [(0x100, 0), (0x114, 0)] }
    sregs := [(1, 7), (2, 3), (3, 0xFFFFFFFFFFFFFFFE#64), (4, 0x1000), (6, 0x0408), (8, 0xF0), (10, 2), (11, 0x2000),
      (12, 0x400000), (13, 0x300000), (14, 0x200000000000000), (15, 0x140), (16, 0x64), (17, 0xE060), (18, 0x10000)]
    qregs := [(1, 0x0005#64), (2, 0x000F#64), (4, 1)]
    vecs := [(64, 7#32), (65, 9#32), (128, 3#32), (129, 3#32), (192, 0xFFFFFFFE#32), (193, 1#32), (256, 0x3FC00000#32),
      (320, 0x40200000#32), (384, 0x80000000#32), (448, 0x01020304#32), (512, 0x11223344#32), (576, 0x0408#32)] }

/-- The machine after reset with that group, and an entry for the handler of the hub's groups. -/
def tState : State := { State.reset with groups := [(0, tGroup)], hub := { State.reset.hub with hentry := 0x8000 } }

/-- The instruction is ready to execute in the current group (`ReadyTo`). -/
def isReady (i : Instr) (s : State) : Bool :=
  match s.group s.cur with
  | some g => s.clears i g && g.doomed.isNone
  | none => false

theorem isReady_readyTo {i : Instr} {s : State} (h : isReady i s = true) : ∃ g, ReadyTo i s s.cur g := by
  unfold isReady at h
  split at h
  · rename_i g hg
    rw [Bool.and_eq_true, Option.isNone_iff_eq_none] at h
    exact ⟨g, rfl, hg, h.1, h.2⟩
  · cases h

/-- The state after an instruction that is ready. -/
def run (i : Instr) (s : State) : Option State :=
  if isReady i s then (match exec i s with
    | .next t => some t
    | _ => none) else none

/-- The group after it. -/
def after (i : Instr) (s : State := tState) : Option Group := (run i s).bind (fun t => t.group s.cur)

/-- Register s5, or lanes 0 and 1 of v10, or q3, after it. -/
def s5 (i : Instr) (s : State := tState) : Option Word := (after i s).map (fun g => g.s 5)
def v10 (i : Instr) (s : State := tState) : Option (Lane × Lane) := (after i s).map (fun g => (g.v 10 0, g.v 10 1))
def q3 (i : Instr) (s : State := tState) : Option (BitVec 64) := (after i s).map (fun g => g.q 3)

/-- The trap that the group took: its code, or, with no handler entry, the code of its fatal report. -/
def trapOf (i : Instr) (s : State := tState) : Option Nat :=
  (after i s).bind (fun g => g.hidden.map (fun h => h.cause.code))

/-- The machine does something else than stop. -/
def goes (o : Out) : Bool :=
  match o with
  | .next _ => true
  | _ => false
/-! ## Well-formed terms -/

/-- A term outside each check of `Instr.wf` is refused by it: the form bit of CBAR and the numbers of the parties. -/
theorem wf_instructions : [Instr.cbarArrive { sl with mod := 1 }, .cbarWait sl].all (fun i => !i.wf) = true := by decide

theorem wf_dies : [Instr.barrierComplete 0 4, .watchTableRecheck 4, .controlInterval 4 0, .remoteWriteDrain 5 0, .purgeAck 0 4,
    .fenceTakesEffect 4 0, .fenceTakesEffect 0 144, .clearFence 4 0, .drCtl 4 1, .drStepEnd 4, .pdCtl 4 0 0, .pdCtl 0 16 0,
    .pdWake 4 0 0, .pdWake 0 16 0, .autoidleExpiry 4 0, .autoidleExpiry 0 16, .poundStateComplete 4 0,
    .poundStateComplete 0 16, .dispatchAtLock 4 0, .dispatchAtLock 0 16, .droopFire 4 0, .droopFire 0 16,
    .droopHoldExpiry 4 0, .droopHoldExpiry 0 16, .ftp64 4 0 0, .ftp64 0 256 0, .ftp2m 4 0 0, .ftp2m 0 256 0, .slInject 4 0,
    .stationDelivery 4].all (fun i => !i.wf) = true := by decide

theorem wf_cores : [Instr.claim 576 false, .tokenRequest 580 0 false, .persistentRequest 580 0 true, .maceSegment 576 0 .passed,
    .maceSegment 0 13 .passed, .replicaPlace 0 576, .teamAdmit 0 12 0, .teamAdmit 0 0 12, .partialEviction 0 12 0,
    .partialEviction 0 0 12, .stealRequest 64 0 [], .stealRequest 0 64 [], .stealRequest 0 1 [(12, 0)],
    .stealRequest 0 1 [(0, 12)], .hcGo 4 0, .doorbell 4 0, .doorbell 0 16].all (fun i => !i.wf) = true := by decide

/-- A launch packet of a TYPE. -/
def packet (type : BitVec 8) : LaunchPacket :=
  { type := type, ctrl := 0, index := 0, zero := 0, record := 0, dep := 0, cw := 0, args := 0 }

theorem wf_queues : [Instr.launchByRecord 64 0 (packet 1), .launchByRecord 0 1048576 (packet 1), .launchByRecord 0 0 (packet 2),
    .launchByRecord 0 0 (packet 3), .launchByRecord 0 0 (packet 4), .launchByRegisteredEntry 64 0 (packet 2),
    .launchByRegisteredEntry 0 1048576 (packet 2), .launchByRegisteredEntry 0 0 (packet 1), .register 64 0 (packet 3),
    .register 0 1048576 (packet 3), .register 0 0 (packet 1), .emptyAnEntry 64 0 (packet 4),
    .emptyAnEntry 0 1048576 (packet 4), .emptyAnEntry 0 0 (packet 1), .launchWindowDrop 64 (.read 0 1),
    .qBind 64 0].all (fun i => !i.wf) = true := by decide

theorem wf_contexts : [Instr.energyUpdate 256, .atsInvalidateRequest (some 1048576) 0 0, .pageRequestGroupResponse 0 0 true,
    .pageRequestGroupResponse 256 0 true, .keyLoad 32 1 0 0 0, .keyLoad 0 256 0 0 0, .create 0, .switchout 0,
    .partitionImageSave 256, .switchin 0, .reset 0, .destroy 0, .hangWatchdogExpiry 0, .saveTimerExpiry 0].all
    (fun i => !i.wf) = true := by decide

theorem wf_links : [Instr.hostMemoryAccess 412316860416 .read, .ideKm 4, .ideMacFailure 4, .getHealth 0 0 65,
    .peerPortStateChange 9 .up, .peerCopyArrival 9 0 { bytes := [] } false].all (fun i => !i.wf) = true := by decide

/-! ## Words -/

/-- The words of R164 and R174 that are written out byte by byte: SADD.u64 s3, s1, s2 has OP 0x002, TY 10 (u64), SG 7,
D0 s3, A s1 and B s2. -/
theorem word_sadd : (decodeBytes [0x02, 0xE8, 0x81, 0x01, 0x02, 0x80, 0x00, 0x12, 0x20, 0, 0, 0, 0, 0, 0, 0, 0, 0, 0, 0]).toOption.map
    Prod.fst = some (.sadd { sl with ty := .u64, d0 := .scalar 3, a := .scalar 1, b := .scalar 2 }) := by decide +kernel
/-- The fields of a slot laid out as R164 numbers them, from bit 0: OP 10, TY 4, SG 3, its negation, LG 4, its negation,
D0, D1, A, B and C of 12 bits each, IMM 32, HINT 4, BND 1, STALL 4, REUSE 3, YLD 1, MOD 28, SF 2. -/
def word (op ty : Nat) (d0 d1 a b c : Nat) (imm mod sf : Nat) : BitVec 160 :=
  BitVec.ofNat 160 (op + ty * 2 ^ 10 + 7 * 2 ^ 14 + d0 * 2 ^ 23 + d1 * 2 ^ 35 + a * 2 ^ 47 + b * 2 ^ 59 + c * 2 ^ 71 +
    imm * 2 ^ 83 + mod * 2 ^ 128 + sf * 2 ^ 156)

/-- The slot of `word 0 _ 0x403 0x007 0x401 0x002 0x844 0x12345678 0x9 1`: s3, v7, s1, v2 and special register 0x44. -/
def fields : Slot :=
  { sl with ty := .u64, d0 := .scalar 3, d1 := .vec 7, a := .scalar 1, b := .vec 2, c := .special 0x44, imm := 0x12345678
            mod := 0x9, sf := .setA }

/-- A row of the opcode map of R174: its mnemonics take consecutive opcodes. -/
def rowDecodes (base : Nat) (row : List (Slot → Instr)) : Bool :=
  (List.range row.length).all (fun i =>
    decide ((decodeWord (word (base + i) 10 0x403 0x007 0x401 0x002 0x844 0x12345678 0x9 1)).toOption =
      (row[i]?).map (fun c => c fields)))

theorem word_scalar : rowDecodes 0x000 [.smov, .smovi, .sadd, .ssub, .smul, .smulh, .sdiv, .srem, .smin, .smax, .sand, .sor,
    .sxor, .sandn, .sshl, .sshr, .ssra, .sclz, .spopc, .sbfx, .sbfi, .scmp, .ssel, .slea] = true := by decide +kernel
theorem word_scalar_memory : rowDecodes 0x018 [.sld, .sst, .clog] = true := by decide +kernel
theorem word_control : rowDecodes 0x080 [.nop, .bra, .brc, .brv, .bri, .call, .ret, .exit, .yield, .sleep, .bar, .cbarWait,
    .waitc, .waitb, .klaunch, .sigf, .ifence] = true := by decide +kernel
theorem word_cbar_arrive : (decodeWord (word 0x08B 0 0x403 0 0 0 0 0 0 0)).toOption =
    some (.cbarArrive { sl with ty := .b32, d0 := .scalar 3 }) := by decide +kernel
theorem word_vector : rowDecodes 0x100 [.vmov, .vmovi, .vadd, .vsub, .vmul, .vmulh, .vmad, .vmin, .vmax, .vabs, .vneg, .vand,
    .vor, .vxor, .vnot, .vshl, .vshr, .vsra, .vbfx, .vbfi, .vclz, .vpopc, .vsel, .vcmp, .vdot4, .vidx] = true := by
  decide +kernel
theorem word_float : rowDecodes 0x180 [.fadd, .fsub, .fmul, .ffma, .fmin, .fmax, .fcmp, .fcls, .frndi, .fdiv, .fsqrt, .frcp,
    .frsq, .fex2, .flg2, .fsin, .fcos, .ftanh, .pkfma, .pkadd, .pkmul] = true := by decide +kernel
theorem word_cross_lane : rowDecodes 0x200 [.cvt, .cvtb, .cvte, .shfl, .vrdl, .vwrl, .vred, .vscan, .vote, .qmov, .qlog,
    .qcnt] = true := by decide +kernel
theorem word_memory : rowDecodes 0x280 [.ld, .st, .ldp, .stp, .ldv, .stv, .atom, .satom, .apnd, .apst, .seal, .fence, .pref,
    .cflush, .ldsx, .monw, .mwait] = true := by decide +kernel
theorem word_engine : rowDecodes 0x300 [.trec, .cpy, .cpyx, .cpyr, .cpyb, .gath, .coll, .bcfg, .bput, .btake, .tcfg, .mma, .mldb,
    .msto, .mzero, .mq4] = true := by decide +kernel
theorem word_system : rowDecodes 0x380 [.srds, .swrs, .trap, .eret, .pmap, .pfree, .tlbi, .haltc, .dbrk] = true := by
  decide +kernel

/-- Why a slot is refused. -/
def refusal (x : BitVec 160) : Option DecodeError :=
  match decodeWord x with
  | .error e => some e
  | .ok _ => none

/-- Opcodes that the map does not assign. -/
theorem word_unassigned : [0x01B, 0x07F, 0x091, 0x0FF, 0x11A, 0x17F, 0x195, 0x1FF, 0x20C, 0x27F, 0x291, 0x2FF, 0x310, 0x37F,
    0x389, 0x3FF].all (fun op => refusal (word op 10 0x403 0x007 0x401 0x002 0x844 0 0 0) = some .unassignedOp) = true := by
  decide +kernel

/-- R164, R166, R169: reserved fields of a slot: SF 3, the TY codes 13 to 15, and the unused bits of a register operand. -/
theorem word_reserved :
    refusal (word 2 10 0x403 0 0x401 0x402 0 0 0 3) = some .reservedFlagSelector ∧
    refusal (word 2 13 0x403 0 0x401 0x402 0 0 0 0) = some .reservedType ∧
    refusal (word 2 10 0x443 0 0x401 0x402 0 0 0 0) = some .operandBits := by decide +kernel
/-! ## Scalar instructions

s1 = 7, s2 = 3, s3 = -2, s6 = 0x0408 (a field of 4 bits at bit 8), s8 = 0xF0, s10 = 2. -/

/-- R187: a 32-bit width reads the low halves and extends the result by its sign or with zeros. -/
theorem test_smov : s5 (.smov (su .s32 5 3)) = some 0xFFFFFFFFFFFFFFFE#64 := by decide +kernel
theorem test_smov_u32 : s5 (.smov (su .u32 5 3)) = some 0xFFFFFFFE#64 := by decide +kernel
theorem test_smovi : s5 (.smovi { sl with ty := .b64, d0 := .scalar 5, mod := 1, imm := 0x80000000 }) =
    some 0xFFFFFFFF80000000#64 := by decide +kernel
theorem test_smovi_hi : (after (.smovi { sl with ty := .b64, d0 := .scalar 1, mod := 2, imm := 0xAB })).map (fun g => g.s 1) =
    some 0x000000AB00000007#64 := by decide +kernel
theorem test_sadd : s5 (.sadd (sc .u32 5 3 1)) = some 5 := by decide +kernel
theorem test_ssub : s5 (.ssub (sc .u64 5 2 1)) = some 0xFFFFFFFFFFFFFFFC#64 := by decide +kernel
theorem test_smul : s5 (.smul (sc .s64 5 3 1)) = some 0xFFFFFFFFFFFFFFF2#64 := by decide +kernel
theorem test_smulh : s5 (.smulh (sc .u64 5 3 1)) = some 6 := by decide +kernel
theorem test_smulh_s : s5 (.smulh (sc .s64 5 3 1)) = some 0xFFFFFFFFFFFFFFFF#64 := by decide +kernel
theorem test_sdiv : s5 (.sdiv (sc .s64 5 3 2)) = some 0 := by decide +kernel
theorem test_sdiv_zero : s5 (.sdiv (sc .u32 5 1 0)) = some 0xFFFFFFFF#64 := by decide +kernel
theorem test_srem : s5 (.srem (sc .s64 5 3 2)) = some 0xFFFFFFFFFFFFFFFE#64 := by decide +kernel
theorem test_srem_zero : s5 (.srem (sc .u32 5 1 0)) = some 7 := by decide +kernel
theorem test_smin : s5 (.smin (sc .s32 5 3 1)) = some 0xFFFFFFFFFFFFFFFE#64 := by decide +kernel
theorem test_smax : s5 (.smax (sc .u32 5 3 1)) = some 0xFFFFFFFE#64 := by decide +kernel
theorem test_sand : s5 (.sand (sc .b64 5 1 2)) = some 3 := by decide +kernel
theorem test_sor : s5 (.sor (sc .b64 5 8 1)) = some 0xF7 := by decide +kernel
theorem test_sxor : s5 (.sxor (sc .b64 5 1 2)) = some 4 := by decide +kernel
theorem test_sandn : s5 (.sandn (sc .b64 5 1 2)) = some 4 := by decide +kernel
theorem test_sshl : s5 (.sshl (sc .b64 5 1 2)) = some 56 := by decide +kernel
theorem test_sshl_over : s5 (.sshl (sc .b32 5 1 8)) = some 0 := by decide +kernel
theorem test_sshr : s5 (.sshr (sc .b64 5 3 2)) = some 0x1FFFFFFFFFFFFFFF#64 := by decide +kernel
theorem test_ssra : s5 (.ssra (sc .s64 5 3 8)) = some 0xFFFFFFFFFFFFFFFF#64 := by decide +kernel
theorem test_sclz : s5 (.sclz (su .b32 5 1)) = some 29 := by decide +kernel
theorem test_sclz_zero : s5 (.sclz (su .b64 5 0)) = some 64 := by decide +kernel
theorem test_spopc : s5 (.spopc (su .b64 5 3)) = some 63 := by decide +kernel
theorem test_sbfx : s5 (.sbfx (sc .u64 5 4 6)) = some 0 := by decide +kernel
theorem test_sbfx_signed : s5 (.sbfx (sc .s64 5 3 6)) = some 0xFFFFFFFFFFFFFFFF#64 := by decide +kernel
theorem test_sbfi : s5 (.sbfi (sc .b64 5 8 1 (.scalar 6))) = some 0x7F0 := by decide +kernel
theorem test_scmp : (after (.scmp { sc .s64 0 3 1 with d0 := .special 1, mod := 2 })).map (fun g => g.c 1) = some true := by
  decide +kernel
theorem test_scmp_unsigned : (after (.scmp { sc .u64 0 3 1 with d0 := .special 1, mod := 2 })).map (fun g => g.c 1) = some false := by
  decide +kernel
theorem test_ssel : s5 (.ssel (sc .u64 5 1 2 (.special 7))) = some 7 := by decide +kernel
theorem test_ssel_false : s5 (.ssel (sc .u64 5 1 2 (.special 0))) = some 3 := by decide +kernel
theorem test_slea : s5 (.slea (sc .u64 5 1 2 (.scalar 8) 3)) = some 271 := by decide +kernel
theorem test_clog : (after (.clog { sl with ty := .b32, d0 := .special 2, a := .special 7, b := .special 0, mod := 0x4 })).map
    (fun g => g.c 2) = some true := by decide +kernel

/-- R171: a write to s0 is discarded; q0 is the launch mask. -/
theorem test_s0 : (after (.sadd (sc .u32 0 1 2))).map (fun g => (g.s 0, g.q 0)) = some (0, 0xFFFF#64) := by decide +kernel

theorem wit_ScalarArithmetic : [Instr.smov (su .s32 5 3), .smovi { sl with ty := .b64, d0 := .scalar 5, mod := 1 },
    .sadd (sc .u32 5 3 1), .ssub (sc .u64 5 2 1), .smul (sc .s64 5 3 1), .smulh (sc .u64 5 3 1), .sdiv (sc .s64 5 3 2),
    .srem (sc .s64 5 3 2), .smin (sc .s32 5 3 1), .smax (sc .u32 5 3 1), .slea (sc .u64 5 1 2 (.scalar 8) 3),
    .ssel (sc .u64 5 1 2 (.special 7))].all (fun i => isReady i tState) = true := by decide +kernel
theorem wit_ScalarLogic : [Instr.sand (sc .b64 5 1 2), .sor (sc .b64 5 8 1), .sxor (sc .b64 5 1 2), .sandn (sc .b64 5 1 2),
    .sshl (sc .b64 5 1 2), .sshr (sc .b64 5 3 2), .ssra (sc .s64 5 3 8), .sclz (su .b32 5 1), .spopc (su .b64 5 3),
    .sbfx (sc .u64 5 4 6), .sbfi (sc .b64 5 8 1 (.scalar 6))].all (fun i => isReady i tState) = true := by decide +kernel
theorem wit_ConditionBits : isReady (.scmp { sc .s64 0 3 1 with d0 := .special 1, mod := 2 }) tState = true ∧
    isReady (.clog { sl with ty := .b32, d0 := .special 2, a := .special 7, b := .special 0, mod := 0x4 }) tState = true := by
  decide +kernel
theorem wit_SelectAndTruthTables : isReady (.ssel (sc .u64 5 1 2 (.special 7))) tState = true ∧
    isReady (.clog { sl with ty := .b32, d0 := .special 2, a := .special 7, b := .special 0, mod := 0xF }) tState = true := by
  decide +kernel
theorem wit_RegisterWrites : Tab.wf 0 tGroup.sregs = true ∧ Tab.wf 0 tGroup.qregs = true ∧ Tab.wf 0 tGroup.vecs = true ∧
    (63 : Nat) ≠ 0 ∧ (15 : Nat) ≠ 0 := by decide +kernel
theorem wit_RegisterFrames : isReady (.sadd (sc .u32 0 3 1)) tState = true ∧ goes (exec (.sadd (sc .u32 0 3 1)) tState) = true ∧
    isReady (.vadd (vc .u32 (.vec 63) (.vec 1) (.vec 2) (.vec 0))) tState = true ∧ tGroup.width ≤ 64 ∧
    Tab.wf 0 tGroup.vecs = true ∧ goes (exec (.vadd (vc .u32 (.vec 63) (.vec 1) (.vec 2) (.vec 0))) tState) = true := by
  decide +kernel
/-! ## Vector, floating-point and cross-lane instructions

Lanes 0 and 1 hold: v1 = 7, 9; v2 = 3, 3; v3 = -2, 1; v4 = 1.5, 0; v5 = 2.5, 0; v6 = -0.0, 0; v7 = 0x01020304, 0;
v8 = 0x11223344, 0; v9 = a field of 4 bits at bit 8, 0. q1 = lanes 0 and 2, q2 = lanes 0 to 3. -/

def v (n : BitVec 8) : Operand := .vec n
/-- A predicate register as an operand. -/
def pq (n : BitVec 10) : Operand := .special (0x10 + n)

theorem test_vadd : v10 (.vadd (vc .u32 (v 10) (v 1) (v 3) (v 0))) = some (5, 10) := by decide +kernel
/-- Only the lanes of q1 write. -/
theorem test_vadd_lanes : v10 (.vadd { vc .u32 (v 10) (v 1) (v 3) (v 0) with lg := 1 }) = some (5, 0) := by decide +kernel
theorem test_vsub : v10 (.vsub (vc .s32 (v 10) (v 2) (v 1) (v 0))) = some (0xFFFFFFFC#32, 0xFFFFFFFA#32) := by decide +kernel
theorem test_vadd_sat : v10 (.vadd (vc .u32 (v 10) (v 1) (v 3) (v 0) 1)) = some (0xFFFFFFFF#32, 10) := by decide +kernel
theorem test_vmul : v10 (.vmul (vc .s32 (v 10) (v 1) (v 3) (v 0))) = some (0xFFFFFFF2#32, 9) := by decide +kernel
theorem test_vmulh : v10 (.vmulh (vc .u32 (v 10) (v 1) (v 3) (v 0))) = some (6, 0) := by decide +kernel
theorem test_vmad : v10 (.vmad (vc .u32 (v 10) (v 1) (v 2) (v 3))) = some (19, 28) := by decide +kernel
theorem test_vmin : v10 (.vmin (vc .s32 (v 10) (v 1) (v 3) (v 0))) = some (0xFFFFFFFE#32, 1) := by decide +kernel
theorem test_vmax : v10 (.vmax (vc .u32 (v 10) (v 1) (v 3) (v 0))) = some (0xFFFFFFFE#32, 9) := by decide +kernel
theorem test_vabs : v10 (.vabs (vc .s32 (v 10) (v 3) (v 0) (v 0))) = some (2, 1) := by decide +kernel
theorem test_vneg : v10 (.vneg (vc .s32 (v 10) (v 1) (v 0) (v 0))) = some (0xFFFFFFF9#32, 0xFFFFFFF7#32) := by decide +kernel
theorem test_vand : v10 (.vand (vc .b32 (v 10) (v 1) (v 2) (v 0))) = some (3, 1) := by decide +kernel
theorem test_vor : v10 (.vor (vc .b32 (v 10) (v 1) (v 2) (v 0))) = some (7, 11) := by decide +kernel
theorem test_vxor : v10 (.vxor (vc .b32 (v 10) (v 1) (v 2) (v 0))) = some (4, 10) := by decide +kernel
theorem test_vnot : v10 (.vnot (vc .b32 (v 10) (v 1) (v 0) (v 0))) = some (0xFFFFFFF8#32, 0xFFFFFFF6#32) := by decide +kernel
theorem test_vshl : v10 (.vshl (vc .b32 (v 10) (v 1) (v 2) (v 0))) = some (56, 72) := by decide +kernel
theorem test_vshr : v10 (.vshr (vc .b32 (v 10) (v 3) (v 2) (v 0))) = some (0x1FFFFFFF#32, 0) := by decide +kernel
theorem test_vsra : v10 (.vsra (vc .b32 (v 10) (v 3) (v 2) (v 0))) = some (0xFFFFFFFF#32, 0) := by decide +kernel
theorem test_vbfx : v10 (.vbfx (vc .u32 (v 10) (v 8) (v 9) (v 0))) = some (3, 0) := by decide +kernel
theorem test_vbfi : v10 (.vbfi (vc .b32 (v 10) (v 8) (v 1) (v 9))) = some (0x11223744#32, 0) := by decide +kernel
theorem test_vclz : v10 (.vclz (vc .b32 (v 10) (v 1) (v 0) (v 0))) = some (29, 28) := by decide +kernel
theorem test_vpopc : v10 (.vpopc (vc .b32 (v 10) (v 3) (v 0) (v 0))) = some (31, 1) := by decide +kernel
theorem test_vmov : v10 (.vmov (vc .b32 (v 10) (v 3) (v 0) (v 0))) = some (0xFFFFFFFE#32, 1) := by decide +kernel
theorem test_vmovi : v10 (.vmovi (vc .b32 (v 10) (v 0) (v 0) (v 0) 0 0xABC)) = some (0xABC, 0xABC) := by decide +kernel
theorem test_vsel : v10 (.vsel (vc .b32 (v 10) (v 1) (v 2) (pq 1))) = some (7, 3) := by decide +kernel
theorem test_vcmp : q3 (.vcmp (vc .s32 (pq 3) (v 3) (v 2) (v 0) 2)) = some 3 := by decide +kernel
theorem test_vdot4 : v10 (.vdot4 (vc .u8x4 (v 10) (v 7) (v 8) (v 1))) = some (517, 9) := by decide +kernel
theorem test_vidx : v10 (.vidx (vc .u32 (v 10) (v 1) (v 2) (v 0))) = some (7, 12) := by decide +kernel

theorem test_fadd : v10 (.fadd (vc .f32 (v 10) (v 4) (v 5) (v 0))) = some (0x40800000#32, 0) := by decide +kernel
theorem test_fsub : v10 (.fsub (vc .f32 (v 10) (v 4) (v 5) (v 0))) = some (0xBF800000#32, 0) := by decide +kernel
theorem test_fmul : v10 (.fmul (vc .f32 (v 10) (v 4) (v 5) (v 0))) = some (0x40700000#32, 0) := by decide +kernel
theorem test_ffma : v10 (.ffma (vc .f32 (v 10) (v 4) (v 5) (v 4))) = some (0x40A80000#32, 0) := by decide +kernel
theorem test_fmin : v10 (.fmin (vc .f32 (v 10) (v 4) (v 5) (v 0))) = some (0x3FC00000#32, 0) := by decide +kernel
theorem test_fmax : v10 (.fmax (vc .f32 (v 10) (v 4) (v 5) (v 0))) = some (0x40200000#32, 0) := by decide +kernel
/-- .lt in MOD[11:9]: 1.5 is below 2.5, and 0 is not below 0. -/
theorem test_fcmp : q3 (.fcmp (vc .f32 (pq 3) (v 4) (v 5) (v 0) 0x400)) = some 1 := by decide +kernel
/-- Class bit 3 is -0. -/
theorem test_fcls : q3 (.fcls (vc .f32 (pq 3) (v 6) (.imm 8) (v 0))) = some 1 := by decide +kernel
/-- 2.5 to nearest even is 2. -/
theorem test_frndi : v10 (.frndi (vc .f32 (v 10) (v 5) (v 0) (v 0))) = some (0x40000000#32, 0) := by decide +kernel
theorem test_pkadd : v10 (.pkadd (vc .f16x2 (v 10) (v 0) (v 0) (v 0))) = some (0, 0) := by decide +kernel
/-- The high halves of 1.5 and 2.5 are those values in BF16: 3.75 is 0x4070. -/
theorem test_pkmul : v10 (.pkmul (vc .bf16x2 (v 10) (v 4) (v 5) (v 0))) = some (0x40700000#32, 0) := by decide +kernel
theorem test_pkfma : v10 (.pkfma (vc .bf16x2 (v 10) (v 4) (v 5) (v 4))) = some (0x40A80000#32, 0) := by decide +kernel

/-- What a long-latency instruction has in flight for lane 0. -/
def flies (i : Instr) (s : State := tState) : Option RegWrite :=
  (after i s).bind (fun g => (g.flights.getLast?).bind (fun f => f.writes.head?))

theorem test_fdiv : flies (.fdiv (lng (vc .f32 (v 10) (v 5) (v 4) (v 0)))) = some (.vec 10 0 0x3FD55555#32) := by decide +kernel
theorem test_fsqrt : flies (.fsqrt (lng (vc .f32 (v 10) (v 6) (v 0) (v 0)))) = some (.vec 10 0 0x80000000#32) := by decide +kernel
theorem test_frcp : flies (.frcp (lng (vc .f32 (v 10) (v 6) (v 0) (v 0)))) = some (.vec 10 0 0xFF800000#32) := by decide +kernel
theorem test_frsq : flies (.frsq (lng (vc .f32 (v 10) (v 6) (v 0) (v 0)))) = some (.vec 10 0 0xFF800000#32) := by decide +kernel
theorem test_flg2 : flies (.flg2 (lng (vc .f32 (v 10) (v 6) (v 0) (v 0)))) = some (.vec 10 0 0xFF800000#32) := by decide +kernel
theorem test_fsin : flies (.fsin (lng (vc .f32 (v 10) (v 6) (v 0) (v 0)))) = some (.vec 10 0 0x80000000#32) := by decide +kernel
/-- Its D0 is pending, its flag counts one and the register is as it was. -/
theorem test_fdiv_pending : (after (.fdiv (lng (vc .f32 (v 10) (v 5) (v 4) (v 0))))).map (fun g =>
    (g.marks.map (fun m => m.reg), g.flag 0, g.v 10 0)) = some ([.vec 10], 1, 0) := by decide +kernel

theorem test_cvt : v10 (.cvt (vc .f32 (v 10) (v 3) (v 0) (v 0) 0x2)) = some (0xC0000000#32, 0x3F800000#32) := by decide +kernel
theorem test_cvt_int : v10 (.cvt (vc .s32 (v 10) (v 5) (v 0) (v 0) 0x7)) = some (2, 0) := by decide +kernel
theorem test_shfl : v10 (.shfl (vc .b32 (v 10) (v 1) (.imm 1) (v 0) 1)) = some (7, 7) := by decide +kernel
theorem test_vrdl : s5 (.vrdl (vc .b32 (.scalar 5) (v 1) (.imm 1) (v 0))) = some 9 := by decide +kernel
theorem test_vrdl_range : trapOf (.vrdl (vc .b32 (.scalar 5) (v 1) (.imm 16) (v 0))) = some 0x07 := by decide +kernel
theorem test_vwrl : v10 (.vwrl (vc .b32 (v 10) (.scalar 1) (.imm 1) (v 0))) = some (0, 7) := by decide +kernel
theorem test_vred : s5 (.vred (vc .u32 (.scalar 5) (v 1) (v 0) (v 0))) = some 16 := by decide +kernel
theorem test_vred_lanes : s5 (.vred { vc .u32 (.scalar 5) (v 1) (v 0) (v 0) with lg := 1 }) = some 7 := by decide +kernel
theorem test_vscan : v10 (.vscan (vc .u32 (v 10) (v 1) (v 0) (v 0))) = some (7, 16) := by decide +kernel
theorem test_vscan_excl : v10 (.vscan (vc .u32 (v 10) (v 1) (v 0) (v 0) 0x10)) = some (0, 7) := by decide +kernel
theorem test_vote : s5 (.vote (vc .b32 (.scalar 5) (pq 1) (v 0) (v 0))) = some 5 := by decide +kernel
theorem test_qmov : q3 (.qmov (vc .b32 (pq 3) (v 1) (v 0) (v 0))) = some 3 := by decide +kernel
theorem test_qlog : q3 (.qlog (vc .b32 (pq 3) (pq 1) (pq 2) (v 0) 0x8)) = some 5 := by decide +kernel
theorem test_qcnt : s5 (.qcnt (vc .b32 (.scalar 5) (pq 1) (v 0) (v 0) 2)) = some 2 := by decide +kernel
theorem wit_LanesWritten : (3 : Nat) < elemCount .s8x4 ∧ (0x01020304 : Nat) < 2 ^ (elemCount .s8x4 * elemWidth .s8x4) ∧
    [1, 2, 3, 4].length = elemCount .s8x4 ∧ elemWidth .s8x4 = 8 ∧ (-128 : Int) ≤ 127 ∧ (127 : Int) < 128 ∧ (-129 : Int) < -128 ∧
    tGroup.width ≤ 64 ∧ Tab.wf 0 tGroup.vecs = true ∧ (63 : Nat) < 64 ∧ ¬ 63 < tGroup.width ∧
    (0 < tGroup.width ∧ (tGroup.lanes sl).getLsbD 0 = true) := by decide +kernel
theorem wit_VectorArithmetic : [Instr.vadd (vc .u32 (v 10) (v 1) (v 3) (v 0)), .vsub (vc .s32 (v 10) (v 2) (v 1) (v 0)),
    .vmul (vc .s32 (v 10) (v 1) (v 3) (v 0)), .vmulh (vc .u32 (v 10) (v 1) (v 3) (v 0)), .vmad (vc .u32 (v 10) (v 1) (v 2) (v 3)),
    .vmin (vc .s32 (v 10) (v 1) (v 3) (v 0)), .vmax (vc .u32 (v 10) (v 1) (v 3) (v 0)), .vabs (vc .s32 (v 10) (v 3) (v 0) (v 0)),
    .vneg (vc .s32 (v 10) (v 1) (v 0) (v 0)), .vdot4 (vc .u8x4 (v 10) (v 7) (v 8) (v 1)),
    .vidx (vc .u32 (v 10) (v 1) (v 2) (v 0))].all (fun i => isReady i tState) = true := by decide +kernel
theorem wit_VectorLogicAndMoves : [Instr.vand (vc .b32 (v 10) (v 1) (v 2) (v 0)), .vor (vc .b32 (v 10) (v 1) (v 2) (v 0)),
    .vxor (vc .b32 (v 10) (v 1) (v 2) (v 0)), .vnot (vc .b32 (v 10) (v 1) (v 0) (v 0)), .vshl (vc .b32 (v 10) (v 1) (v 2) (v 0)),
    .vshr (vc .b32 (v 10) (v 3) (v 2) (v 0)), .vsra (vc .b32 (v 10) (v 3) (v 2) (v 0)), .vbfx (vc .u32 (v 10) (v 8) (v 9) (v 0)),
    .vbfi (vc .b32 (v 10) (v 8) (v 1) (v 9)), .vclz (vc .b32 (v 10) (v 1) (v 0) (v 0)), .vpopc (vc .b32 (v 10) (v 3) (v 0) (v 0)),
    .vmov (vc .b32 (v 10) (v 3) (v 0) (v 0)), .vmovi (vc .b64 (v 10) (v 0) (v 0) (v 0) 1 5),
    .vsel (vc .b32 (v 10) (v 1) (v 2) (pq 1))].all (fun i => isReady i tState) = true := by decide +kernel
theorem wit_FloatArithmetic : (0xFFFFFFFF : Nat) < 2 ^ 32 ∧ [Instr.fadd (vc .f32 (v 10) (v 4) (v 5) (v 0)),
    .fsub (vc .f32 (v 10) (v 4) (v 5) (v 0)), .fmul (vc .f32 (v 10) (v 4) (v 5) (v 0)), .ffma (vc .f32 (v 10) (v 4) (v 5) (v 4)),
    .pkadd (vc .f16x2 (v 10) (v 0) (v 0) (v 0)), .pkmul (vc .bf16x2 (v 10) (v 4) (v 5) (v 0)),
    .pkfma (vc .bf16x2 (v 10) (v 4) (v 5) (v 4)), .fmin (vc .f32 (v 10) (v 4) (v 5) (v 0)),
    .fmax (vc .f32 (v 10) (v 4) (v 5) (v 0)), .frndi (vc .f32 (v 10) (v 5) (v 0) (v 0)),
    .vcmp (vc .s32 (pq 3) (v 3) (v 2) (v 0) 2), .fcmp (vc .f32 (pq 3) (v 4) (v 5) (v 0) 0x400),
    .fcls (vc .f32 (pq 3) (v 6) (.imm 8) (v 0)), .qmov (vc .b32 (pq 3) (v 1) (v 0) (v 0)),
    .qlog (vc .b32 (pq 3) (pq 1) (pq 2) (v 0) 0x8)].all (fun i => isReady i tState) = true ∧
    tGroup.width ≤ 64 ∧ Tab.wf 0 tGroup.qregs = true ∧ (15 : Nat) < 16 ∧ 15 < tGroup.width := by decide +kernel
theorem wit_RepresentableRoundsToItself : (0xFF800000 : Nat) < 2 ^ fp32.width ∧ (decodeFloat fp32 0xFF800000).isNan = false ∧
    (0x7BFF : Nat) < 2 ^ fp16.width ∧ (decodeFloat fp16 0x7BFF).isNan = false ∧
    (1 : Nat) < 2 ^ bf16.width ∧ (decodeFloat bf16 1).isNan = false := by decide +kernel
theorem wit_SpecialFunctions : [Instr.fdiv (lng (vc .f32 (v 10) (v 5) (v 4) (v 0))), .fsqrt (lng (vc .f32 (v 10) (v 5) (v 0) (v 0))),
    .frcp (lng (vc .f32 (v 10) (v 5) (v 0) (v 0))), .frsq (lng (vc .f32 (v 10) (v 5) (v 0) (v 0))),
    .fex2 (lng (vc .f32 (v 10) (v 5) (v 4) (v 4))), .flg2 (lng (vc .f32 (v 10) (v 5) (v 0) (v 0))),
    .fsin (lng (vc .f32 (v 10) (v 5) (v 0) (v 0))), .fcos (lng (vc .f32 (v 10) (v 5) (v 0) (v 0))),
    .ftanh (lng (vc .f32 (v 10) (v 5) (v 0) (v 0)))].all (fun i => isReady i tState) = true ∧
    (0x80000000 : Nat) < 0x80000001 ∧ (0xFF800000 : Nat) ≤ 0xFF800000 := by decide +kernel
/-- R93 at the ends of the range of negative values. -/
theorem test_special_inputs : frsq 0x80000001 = (fp32.nanCode, flagIV) ∧ flg2 0xFF800000 = (fp32.nanCode, flagIV) ∧
    fcos 0x7F800000 = (fp32.nanCode, flagIV) := by decide +kernel

/-- A flight of one write, and one with a fault. -/
def flight (c : Option Cause) : Flight :=
  { op := 0, flag := 3, slot := 0x100, writes := [.scalar 5 9], fp := 0, fault := c, task := .plain }
theorem wit_LongLatencyLife : Tab.wf 0 tGroup.flags = true ∧ tGroup.flights = [] ∧ tGroup.wf = true ∧
    (flight none).fault = none ∧ (flight none).flag < 12 ∧ (flight (some { code := 8 })).fault = some { code := 8 } ∧
    (flight none).writes = [.scalar 5 9] := by decide +kernel
theorem test_landing : (({ tGroup with flights := [flight none], flags := [(3, 1)] }).land (flight none)).s 5 = 9 ∧
    (({ tGroup with flights := [flight none], flags := [(3, 1)] }).land (flight none)).flag 3 = 0 := by decide +kernel
theorem wit_CrossLane : [Instr.shfl (vc .b32 (v 10) (v 1) (.imm 1) (v 0) 3), .vrdl (vc .b32 (.scalar 5) (v 1) (.imm 15) (v 0)),
    .vrdl (vc .b32 (.scalar 5) (v 1) (.imm 16) (v 0)), .vwrl (vc .b32 (v 10) (.scalar 1) (.imm 15) (v 0)),
    .vwrl (vc .b32 (v 10) (.scalar 1) (.imm 16) (v 0)), .vred (vc .u32 (.scalar 5) (v 1) (v 0) (v 0)),
    .vred (vc .f32 (v 10) (v 4) (v 0) (v 0)), .vscan (vc .u32 (v 10) (v 1) (v 0) (v 0)), .vscan (vc .f32 (v 10) (v 4) (v 0) (v 0)),
    .vote (vc .b32 (.scalar 5) (pq 1) (v 0) (v 0)), .vote (vc .b32 (.special 3) (pq 1) (v 0) (v 0) 3),
    .qcnt (vc .b32 (.scalar 5) (pq 1) (v 0) (v 0) 2)].all (fun i => isReady i tState) = true ∧
    (tState.scalarSource tGroup (vc .b32 (.scalar 5) (v 1) (.imm 15) (v 0)) (.imm 15)).toNat < tGroup.width ∧
    tGroup.width ≤ (tState.scalarSource tGroup (vc .b32 (.scalar 5) (v 1) (.imm 16) (v 0)) (.imm 16)).toNat := by decide +kernel
/-! ## A group of a compute core

Launch 1 has one cluster of one team of one group; the group, key 1, runs on site 0 of die 0 in context 1. Slots 0 to 3
are FP16, BX8 of E4M3, INT8, and MX32 of E2M1 with inline scales. The 2 MiB at virtual address 0 lie at physical address 0x200000. -/

def tRecord : LaunchRecord :=
  { entry := 0x1000, fmtver := 1, width := 0, vregs := 8, gpc := 1, clw := 1, clh := 1, gridx := 1, gridy := 1, gridz := 1
    scratch := 4096, slots := [0x8000000000000003#64, 0x8000000000000094#64, 0x8000000000000009#64, 0x8000000000000138#64, 0, 0, 0, 0], redund := 0
    energy := 1, current := 1, prio := 1, attr := 0, reservedZero := true, param := 0, trecs := [0, 0, 0, 0, 0, 0, 0, 0]
    holdmax := 100 }

def tLaunch : Launch :=
  { queue := 0, ctx := 1, record := tRecord, state := .running, cw := 0, irq := false, dep := .none, args := none, sent := 1
    closed := true }

/-- A record of 64 bytes of INT8 at an address (R280). -/
def tensorAt (base : Nat) : BitVec 512 :=
  BitVec.ofNat 512 (base + 9 * 2 ^ 64 + 1 * 2 ^ 72 + 64 * 2 ^ 96 + 64 * 2 ^ 416)

def tTeam : Team :=
  { core := 0, launch := some 1, cluster := some 1, ctx := 1, groups := [1], regBytes := 4096, groupCount := 1
    scratchSize := 4096, residency := .resident, energy := 1, current := 1, scratch := [(0, 0x78#8), (1, 0x56#8)]
    basins := [(0, { base := 0, esize := 64, count := 4, prod := 1 }), (1, { base := 1024, esize := 64, count := 4 })]
    records := [(0, tensorAt 0x10000), (1, tensorAt 0x12000)] }

def cGroup : Group :=
  { tGroup with core := 0, team := 1, ctx := 1, gid := 0, width := 16, vregs := 64, system := false, pc := 0x1000
                clause := some { entry := 0x1000, header := 0, rest := [(0x1000, 0), (0x1014, 0)] } }

def tCluster : Cluster := { launch := 1, index := 0, die := 0, state := .started, origin := some (0, 0), teams := [1] }

def tPart : Partition :=
  { dies := 0xF, debug := false, watch := false, slx := false, pasid := 5, hentry := some 0x2000, eqBase := 0, eqSize := 0x100000
    swapBase := 0, swapSize := 0, spillBase := 0, spillSize := 0, wdog := 1000, cores := [4, 0, 0, 0], ports := 1
    window := [], key := 0 }

def tEntry : TlbEntry :=
  { ctx := 1, va := 0, size := 2097152, pa := 0x200000, home := 0, dirty := true, sealed := false, conf := false, exec := true
    write := true, read := true, kind := 0 }

/-- The page of 64 KiB at 0x400000 is an AP page at 0x600000. -/
def tPage : TlbEntry := { tEntry with va := 0x400000, size := 65536, pa := 0x600000, kind := 3 }

def cState : State :=
  { State.reset with
    cur := 1, nextKey := 10, groups := [(0, firmwareGroup), (1, cGroup)], teams := [(0, firmwareTeam), (1, tTeam)]
    clusters := [(1, tCluster)], launches := [(1, tLaunch)], cores := [(0, { purse := 4000, tlb := [tEntry, tPage] })]
    parts := [(1, tPart)], ptroots := [(1, 0x400001)]
    mem := [(0x1000, 0x78), (0x1001, 0x56), (0x1002, 0x34), (0x1003, 0x92), (0x201000, 0x21), (0x201001, 0x43), (0x201010, 0x7F)] }

theorem wf_states : tState.wf = true ∧ cState.wf = true ∧ State.reset.wf = true := by decide +kernel

/-- An access is routed to where its bytes lie, misses, or faults. -/
def routes (r : Route) : Nat × Nat :=
  match r with
  | .ok _ => (0, 0)
  | .miss _ => (1, 0)
  | .fault c _ => (2, c)

/-- The same machine with another group 1. -/
def withG (f : Group → Group) (s : State := cState) : State := s.modGroup 1 f
/-- The same machine with another group 0 that issues. -/
def withH (f : Group → Group) : State := tState.modGroup 0 f

theorem test_cvte_enc : v10 (.cvte (vc .b32 (v 10) (v 4) (v 0) (v 0) 0)) cState = some (0x3E00, 0) := by decide +kernel
theorem test_cvte_dec : v10 (.cvte (vc .f32 (v 10) (v 9) (v 0) (v 0) 0xA)) cState = some (0x41000000#32, 0) := by decide +kernel
theorem wit_Conversions : [Instr.cvt (vc .f32 (v 10) (v 3) (v 0) (v 0) 0x2)].all (fun i => isReady i tState) = true ∧
    [Instr.cvte (vc .b32 (v 10) (v 4) (v 0) (v 0) 0), .cvte (vc .f32 (v 10) (v 9) (v 0) (v 0) 0xA),
      .cvtb (vc .f32 (v 10) (v 9) (v 9) (v 0) 0x9),
      .cvtb { vc .b32 (v 10) (v 4) (v 0) (v 0) 0x1 with d1 := v 11 }].all (fun i => isReady i cState) = true := by decide +kernel
/-! ## Memory

s4 = 0x1000, where the bytes 0x21 and 0x43 lie; s3 = -2 lies outside the canonical range, s13 on a page that no TLB holds,
s12 is the AP page; v11 is zero, so that every lane addresses s4. -/

/-- A lane memory form. -/
def lm (d0 b : Operand) (mod : BitVec 28) (base : BitVec 6 := 4) : Slot :=
  { sl with ty := .b32, d0 := d0, a := .scalar base, b := b, c := v 11, mod := mod }
/-- A scalar memory form. -/
def smw (d0 b : Operand) (mod : BitVec 28) (base : BitVec 6 := 4) : Slot :=
  { sl with ty := .b64, d0 := d0, a := .scalar base, b := b, mod := mod }
/-- The same for atomics. -/
def am (d0 b : Operand) (mod : BitVec 28) (base : BitVec 6 := 4) : Slot := { lm d0 b mod base with ty := .u32 }
def route (w : Slot) (kind : AccessKind) (need : PageNeed) (va n : Nat) (s : State := cState) : Nat × Nat :=
  match s.group 1 with
  | some g => routes (s.routeOne (g.who 1) g.walkFaults kind need va n)
  | none => (9, w.imm.toNat)
/-- A byte of memory after an instruction of group 1. -/
def byteAfter (i : Instr) (a : Nat) (s : State := cState) : Option Byte := (run i s).map (fun t => t.byte a)

theorem test_sld : flies (.sld (lng (smw (.scalar 5) (v 0) 2))) cState = some (.scalar 5 0x4321) := by decide +kernel
theorem test_sld_signed : flies (.sld (lng { smw (.scalar 5) (v 0) 4 with imm := 1 })) cState = some (.scalar 5 0x43) := by
  decide +kernel
theorem test_sst : byteAfter (.sst (smw (v 0) (.scalar 1) 1)) 0x201000 = some 7 := by decide +kernel
theorem test_sst_next : byteAfter (.sst (smw (v 0) (.scalar 1) 1)) 0x201001 = some 0 := by decide +kernel
theorem test_ld : flies (.ld (lng (lm (v 10) (v 0) 0))) cState = some (.vec 10 0 0x4321#32) := by decide +kernel
/-- SZ 1 is one unsigned byte. -/
theorem test_ld_byte : flies (.ld (lng (lm (v 10) (v 0) 0x20))) cState = some (.vec 10 0 0x21#32) := by decide +kernel
/-- Lane l of LDV reads the word 4 l bytes on: lane 0 the first. -/
theorem test_ldv : flies (.ldv (lng { lm (v 10) (v 0) 0 with c := .scalar 0 })) cState = some (.vec 10 0 0x4321#32) := by
  decide +kernel
/-- The lanes of q1 store 7 and 0 to one address; the later lane's bytes stay (R262). -/
theorem test_st : byteAfter (.st (lm (v 0) (.imm 5) 0)) 0x201000 = some 5 := by decide +kernel
theorem test_stv : byteAfter (.stv { lm (v 0) (v 1) 0 with c := .scalar 0 }) 0x201004 = some 9 := by decide +kernel
theorem test_ldp : flies (.ldp (lng (lm (v 10) (v 0) 0 0))) cState = some (.vec 10 0 0x5678#32) := by decide +kernel
theorem test_stp : (run (.stp (lm (v 0) (.imm 5) 0 0)) cState).map (fun t => (t.team 1).map (fun x => x.scratch)) =
    some (some [(0, 5)]) := by decide +kernel
/-- OPC 0 adds: lane 0 adds 7 to 0x4321 and lane 1 then 9, and both get what they found. -/
theorem test_atom : byteAfter (.atom (lng (am (v 10) (v 1) 0))) 0x201000 = some 0x31 ∧
    flies (.atom (lng (am (v 10) (v 1) 0))) cState = some (.vec 10 0 0x4321#32) := by decide +kernel
theorem test_satom : flies (.satom (lng (am (v 10) (v 1) 0 0))) cState = some (.vec 10 0 0x5678#32) := by decide +kernel
/-- APND of 4 bytes in each of 16 lanes gets offset 0 and puts lane 1's 9 at byte 4. -/
theorem test_apnd : flies (.apnd (lng { sl with ty := .b32, d0 := .scalar 0, d1 := .scalar 5, a := .scalar 12, b := v 1 })) cState =
      some (.scalar 5 0) ∧
    byteAfter (.apnd (lng { sl with ty := .b32, d0 := .scalar 0, d1 := .scalar 5, a := .scalar 12, b := v 1 })) 0x600004 =
      some 9 := by decide +kernel
theorem test_apst : flies (.apst (lng { sl with ty := .b32, d0 := .scalar 5, d1 := .scalar 7, a := .scalar 12 })) cState =
    some (.scalar 5 0) := by decide +kernel
theorem test_seal : (run (.seal (lng { sl with ty := .b32, d0 := .scalar 5, a := .scalar 12 })) cState).map (fun t =>
    (Tab.find t.appends 0x600000).map (fun d => (d.arrived, d.sealed))) = some (some (true, false)) := by decide +kernel
theorem test_cflush : flies (.cflush (lng { sl with ty := .b32, d0 := .scalar 5, a := .scalar 4, b := .imm 128 })) =
    some (.scalar 5 0) := by decide +kernel
/-- Lane 0 gets elements 0 and 1 of the chunk: the codes 1 and 2 of 0x21 at the scale 0x7F are 0.5 and 1. -/
theorem test_ldsx : flies (.ldsx (lng { lm (v 10) (v 0) 0x180000 with ty := .bf16x2, c := .scalar 0 })) cState =
    some (.vec 10 0 0x3F803F00#32) := by decide +kernel
theorem test_monw : (after (.monw { sl with ty := .b32, a := .scalar 4, b := .imm 5 }) cState).map (fun g =>
    g.watch.map (fun x => (x.pa, x.hit))) = some (some (0x201000, none)) := by decide +kernel
/-- With no watch MWAIT gives reason 3 and value 0. -/
theorem test_mwait : s5 (.mwait { sl with ty := .b32, d0 := .scalar 5, d1 := .scalar 7, a := .imm 0, bnd := true }) cState =
    some 3 := by decide +kernel
/-- Group 1 of a state. -/
def g1 (s : State) : Group := (s.group 1).getD cGroup
/-- The group owes a refusal (R386). -/
def refusedState : State := withG (fun g => { g with refused := some { code := 0x13 } })
/-- The team runs as the original of check 9. -/
def quiet (s : State) : Bool := s.trapWaits 1 = false && s.runOf ((g1 s).who 1) = none

theorem wit_ScalarLoadsAndStores : quiet cState = true ∧
    isReady (.sld (lng (smw (.scalar 5) (v 0) 2))) cState = true ∧ route sl .read .any 0x1000 4 = (0, 0) ∧
    isReady (.sld (lng (smw (.scalar 5) (v 0) 0x4B))) cState = true ∧
    ((cState.readLogged 1 cGroup 0x018 [{ lane := 0, accesses := [[]] }]).1.isSome = true) ∧
    isReady (.sld (lng (smw (.scalar 5) (v 0) 2 13))) cState = true ∧ route sl .read .any 0x300000 4 = (1, 0) ∧
    isReady (.sld (lng (smw (.scalar 5) (v 0) 2 14))) cState = true ∧ route sl .read .any 0x200000000000000 4 = (2, 0x10) ∧
    isReady (.sst (smw (v 0) (.scalar 1) 3)) cState = true ∧ route sl .write .ordinary 0x1000 8 = (0, 0) ∧
    isReady (.sst (smw (v 0) (.scalar 1) 3 13)) cState = true ∧ route sl .write .ordinary 0x300000 8 = (1, 0) ∧
    isReady (.sst (smw (v 0) (.scalar 1) 3 14)) cState = true ∧ route sl .write .ordinary 0x200000000000000 8 = (2, 0x10) ∧
    isReady (.sst (smw (v 0) (.scalar 1) 0xB)) refusedState = true ∧ (g1 refusedState).refused.isSome = true ∧
    cGroup.refused = none := by decide +kernel

/-- What the lanes of a memory form come to: missing translations, failed lanes, ready lanes. -/
def lanesCome (s : State) (kind : AccessKind) (need : PageNeed) (w : Slot) : Nat × Nat × Nat :=
  let g := g1 s
  let r := s.routeLanes g 1 kind need (lanesOf (g.lanes w) g.width) noEarly (fun l => [(g.laneAddress w l, accessSize w)])
  (r.needs.length, r.failed.length, r.ready.length)

theorem wit_LaneAccesses : quiet cState = true ∧
    [Instr.ld (lng (lm (v 10) (v 0) 0)), .ld (lng (lm (v 10) (v 0) 0x500)), .ldv (lng { lm (v 10) (v 0) 0 with c := .scalar 0 }),
      .ldsx (lng { lm (v 10) (v 0) 0x180000 with ty := .bf16x2, c := .scalar 0 }), .ld (lng (lm (v 10) (v 0) 0 13)),
      .ld (lng (lm (v 10) (v 0) 0 14)), .st (lm (v 0) (v 1) 0), .st (lm (v 0) (v 1) 0x1200), .st (lm (v 0) (v 1) 0 13),
      .st (lm (v 0) (v 1) 0 14), .stv { lm (v 0) (v 1) 0 with c := .scalar 0 }].all (fun i => isReady i cState) = true ∧
    lanesCome cState .read .any (lm (v 10) (v 0) 0) = (0, 0, 16) ∧ (lanesCome cState .read .any (lm (v 10) (v 0) 0 13)).1 ≠ 0 ∧
    lanesCome cState .read .any (lm (v 10) (v 0) 0 14) = (0, 16, 0) ∧
    lanesCome cState .write .ordinary (lm (v 0) (v 1) 0) = (0, 0, 16) ∧
    (lanesCome cState .write .ordinary (lm (v 0) (v 1) 0 13)).1 ≠ 0 ∧
    lanesCome cState .write .ordinary (lm (v 0) (v 1) 0 14) = (0, 16, 0) ∧
    isReady (.st (lm (v 0) (v 1) 0x1200)) refusedState = true ∧ memRel (lm (v 0) (v 1) 0x1200) = true ∧
    ((cState.readLogged 1 cGroup 0x280 [{ lane := 0, accesses := [[]] }]).1.isSome = true) := by decide +kernel
theorem wit_LaneChecks : (15 : Nat) ∈ lanesOf (cGroup.lanes sl) cGroup.width ∧ route sl .read .any 0x1FFFFC 4 = (0, 0) ∧
    route sl .read .any 0x1FFFFE 4 = (1, 0) ∧ route sl .read .any 0x200000000000000 4 = (2, 0x10) := by decide +kernel

theorem wit_MemoryBytes : (0 : Nat) < 4 ∧ (3 : Nat) < 4 ∧ cState.errorReply 0x201000 = false ∧
    cState.errorReply 0x8000000000 = true ∧ Memory.wf cState.mem = true ∧
    ([(0x201000, 1#8), (0x201001, 2#8)].map Prod.fst).Nodup ∧ Tab.read false cState.hostHeld (0x201000 / 64) = false ∧
    Tab.read false ({ cState with hostHeld := [(0x8040, true)] }).hostHeld (0x201000 / 64) = true := by decide +kernel

theorem wit_MemoryFrames : isReady (.sld (lng (smw (.scalar 5) (v 0) 2))) cState = true ∧ quiet cState = true ∧
    goes (exec (.sld (lng (smw (.scalar 5) (v 0) 2))) cState) = true ∧ route sl .read .any 0x1000 4 = (0, 0) ∧
    isReady (.ld (lng (lm (v 10) (v 0) 0))) cState = true ∧ lanesCome cState .read .any (lm (v 10) (v 0) 0) = (0, 0, 16) ∧
    isReady (.ldv (lng { lm (v 10) (v 0) 0 with c := .scalar 0 })) cState = true ∧
    isReady (.ldsx (lng { lm (v 10) (v 0) 0x180000 with ty := .bf16x2, c := .scalar 0 })) cState = true ∧
    isReady (.sst (smw (v 0) (.scalar 1) 3)) cState = true ∧ route sl .write .ordinary 0x1000 8 = (0, 0) ∧
    isReady (.st (lm (v 0) (v 1) 0)) cState = true ∧ lanesCome cState .write .ordinary (lm (v 0) (v 1) 0) = (0, 0, 16) ∧
    isReady (.stv { lm (v 0) (v 1) 0 with c := .scalar 0 }) cState = true ∧ cGroup.refused = none ∧
    region 0x201000 ≠ .management ∧ goes (exec (.st (lm (v 0) (v 1) 0)) cState) = true := by decide +kernel

/-- A form whose lanes address the scratchpad from s0 on, and one from s4 = 4,096, its end. -/
def padLanes (s : State) (w : Slot) (order : Bool) : Nat × Nat :=
  match s.routePad (g1 s) w 4 order with
  | .inl r => (r.ready.length, r.failed.length)
  | .inr _ => (99, 99)

theorem wit_ScratchpadAndOrder : memRmt (lm (v 10) (v 0) 0 0) = false ∧ padLanes cState (lm (v 10) (v 0) 0 0) false = (16, 0) ∧
    padLanes cState (lm (v 10) (v 0) 0 4) false = (0, 16) ∧
    padLanes cState { lm (v 10) (v 0) 2 0 with c := v 1, imm := 0xFE0 } false = (15, 1) ∧
    [Instr.ldp (lng (lm (v 10) (v 0) 0 0)), .ldp (lng { lm (v 10) (v 0) 2 0 with c := v 1, imm := 0xFE0 }),
      .stp (lm (v 0) (v 1) 0 0), .stp { lm (v 0) (v 1) 2 0 with c := v 1, imm := 0xFE0 },
      .fence { sl with ty := .b32, mod := 0x1300 }, .pref { sl with ty := .b32, a := .scalar 4, c := .vec 11 },
      .cflush (lng { sl with ty := .b32, d0 := .scalar 5, a := .scalar 4, b := .imm 128 }),
      .cflush (lng { sl with ty := .b32, d0 := .scalar 5, a := .scalar 14, b := .imm 0 })].all
      (fun i => isReady i cState) = true ∧ quiet cState = true ∧
    isReady (.fence { sl with ty := .b32, mod := 0x1300 }) refusedState = true ∧ cState.team 1 = some tTeam ∧
    memScope { sl with mod := 0x1300 } = 4 ∧ 0x1000 + 128 ≤ 2 ^ 57 ∧ 2 ^ 57 ≤ 0x200000000000000 := by decide +kernel

theorem wit_Atomics : isReady (.atom (lng (am (v 10) (v 1) 0))) cState = true ∧
    isReady (.atom (lng (am (v 10) (v 1) 0 13))) cState = true ∧ isReady (.satom (lng (am (v 10) (v 1) 0 0))) cState = true ∧
    isReady (.atom (am (v 0) (v 1) 0x41200)) cState = true ∧ quiet cState = true ∧ cGroup.refused = none ∧
    lanesCome cState .write .ordinary (lm (v 10) (v 1) 0) = (0, 0, 16) ∧
    (lanesCome cState .write .ordinary (lm (v 10) (v 1) 0 13)).1 ≠ 0 ∧ padLanes cState (lm (v 10) (v 1) 0 0) true = (16, 0) ∧
    region 0x201000 ≠ .management ∧ (cState.drainLine 0 (0x201000 / 128)).errorReply 0x201000 = false ∧
    (cState.drainLine 0 (0x201000 / 128)).poisoned (0x201000 / 128) = false ∧ (0xFFFFFFFF : Nat) < 2 ^ 32 := by decide +kernel
/-- R268: signed minimum, unsigned maximum, exchange under comparison. -/
theorem test_atomNew : atomNew .s32 1 0xFFFFFFFF 1 0 = 0xFFFFFFFF ∧ atomNew .u32 2 0xFFFFFFFF 1 0 = 0xFFFFFFFF ∧
    atomNew .b32 7 5 9 5 = 9 ∧ atomNew .b32 7 6 9 5 = 6 := by decide +kernel

/-- What an AP page address comes to. -/
def pageAt (s : State) (kind : AccessKind) (va : Nat) : Option Nat :=
  match s.routePage ((g1 s).who 1) (g1 s).walkFaults kind va with
  | .page e => some e.pa
  | _ => none
/-- The page of 65,536 bytes with its reserved tail 4 bytes from the end, sealed, or with one reservation written. -/
def withPage (d : AppendDesc) : State := { cState with appends := [(0x600000, d)] }
def apw : Slot := lng { sl with ty := .b32, d0 := .scalar 0, d1 := .scalar 5, a := .scalar 12, b := v 1 }
def openPage : AppendDesc :=
  { size := 65536, reserved := 128, published := 0, open_ := [{ offset := 0, len := 64, written := false, check := none },
      { offset := 64, len := 64, written := false, check := none }] }

theorem wit_AppendPages : quiet cState = true ∧ isReady (.apnd { apw with lg := 3 }) cState = true ∧
    lanesOf (cGroup.lanes { apw with lg := 3 }) cGroup.width = [] ∧ isReady (.apnd apw) cState = true ∧
    pageAt cState .write 0x400000 = some 0x600000 ∧ cState.errorReply 0x600000 = false ∧
    (cState.descriptor tPage).sealed = false ∧ (cState.descriptor tPage).arrived = false ∧
    (cState.descriptor tPage).reserved + 64 ≤ 65536 ∧ isReady (.apnd apw) (withPage { size := 65536, reserved := 65532 }) = true ∧
    65536 < 65532 + 64 ∧
    isReady (.apst (lng { sl with ty := .b32, d0 := .scalar 5, d1 := .scalar 7, a := .scalar 12 })) cState = true ∧
    pageAt cState .read 0x400000 = some 0x600000 ∧
    isReady (.seal (lng { sl with ty := .b32, d0 := .scalar 5, a := .scalar 12 })) cState = true ∧
    ((withPage { size := 65536, sealed := true }).descriptor tPage).sealed = true ∧
    Tab.find (withPage openPage).appends 0x600000 = some openPage ∧
    (openPage.open_.head?).map (fun r => (r.offset, r.check)) = some (0, none) ∧
    (openPage.open_.tail.all (fun q => q.offset != 0 && !q.written)) = true ∧
    (withPage { size := 65536, arrived := true }).pageHeld 0x600000 65536 = false ∧
    (0 : Nat) ∈ [0, 1] ∧ [0, 1].filter (· != 0) = [1] ∧ [0].filter (· != 0) = [] := by decide +kernel
/-- The page's purge is in flight in group 1. -/
def purging : State :=
  { withG (fun g => { g with flights := [{ op := 0, flag := 0, slot := 0x1000, writes := [], fp := 0, fault := none
                                           task := .purge 0x600000 65536 true }] }) with purges := [(0x600000, [0, 1])] }
theorem wit_AppendPages_purge : Tab.find purging.purges 0x600000 = some [0, 1] ∧ purging.purgeOf 0x600000 = some (65536, true) := by
  decide +kernel

def mon : Slot := { sl with ty := .b32, a := .scalar 4, b := .imm 5 }
def mwt : Slot := { sl with ty := .b32, d0 := .scalar 5, d1 := .scalar 7, a := .imm 0, bnd := true }
/-- A watch of the word at 0x201000 for the value 0x4321, in the group or at slice 3 of die 0. -/
def watchOf (home : Option Nat) (hit : Option Word) : Watch :=
  { pa := 0x201000, wide := false, cond := 0, ref := 0x4321, scope := 4, home := home, hit := hit }
/-- Group 1 waits at an MWAIT with a deadline that has come. -/
def waiting (w : Option Watch) (lost : Bool) : State :=
  withG (fun g => { g with clause := none, watch := w, watchLost := lost
                           wait := some { slot := 0x1000, word := 0, header := 0, kind := .mwait (some 0) (some 5) none } })
theorem wit_Watches : quiet cState = true ∧ isReady (.monw mon) cState = true ∧
    (match cState.translate (cGroup.who 1) cGroup.walkFaults 0x1000 .read with
      | .ok e => e.phys 0x1000 == 0x201000
      | _ => false) = true ∧
    isReady (.monw { mon with imm := 1 }) cState = true ∧ (0x1001 : Nat) % 4 ≠ 0 ∧ isReady (.mwait mwt) cState = true ∧
    [some (watchOf none none), some (watchOf none (some 5))].all (fun x =>
      isReady (.mwait mwt) (withG (fun g => { g with watch := x }))) = true ∧
    isReady (.mwait mwt) (withG (fun g => { g with watchLost := true })) = true ∧
    quiet (waiting none true) = true ∧ (g1 (waiting none true)).watchLost = true ∧
    (g1 (waiting (some (watchOf none (some 5))) false)).watch = some (watchOf none (some 5)) ∧
    cState.watchValue (watchOf none none) = some 0x4321 ∧ watchHolds 0 false 0x4321 0x4321 = true ∧
    ((waiting (some (watchOf (some 3) none)) false).groups.filter (fun p => match p.2.watch with
      | some { home := some j, .. } => j / 144 = 3 / 144
      | _ => false)).map Prod.fst = [1] ∧ (0 : Nat) ≤ cState.now := by decide +kernel
theorem test_mwait_wakes : ((match exec (.mwaitWake 1 false) (waiting (some (watchOf none (some 5))) false) with
    | .next t => some ((g1 t).s 5, (g1 t).wait.isNone)
    | _ => none)) = some (0, true) := by decide +kernel
/-! ## Control

In `jState` the line at 0x140 has C and marks its first slot a target; the line at 0x180 has not. -/

def jState : State := { tState with mem := [(0x17C, 0x90)] }
/-- A boundary form. -/
def bw (w : Slot) : Slot := { w with bnd := true }
/-- A branch form with its displacement. -/
def br (a b : Operand) (mod : BitVec 28) (imm : BitVec 32) (ty : Ty := .b32) : Slot :=
  bw { sl with ty := ty, a := a, b := b, mod := mod, imm := imm }
def pcOf (i : Instr) (s : State := jState) : Option Nat := (after i s).map (fun g => g.pc)

theorem test_bra : pcOf (.bra (br (v 0) (v 0) 0 0x40)) = some 0x140 := by decide +kernel
theorem test_bra_bad : trapOf (.bra (br (v 0) (v 0) 0 0x80)) jState = some 0x04 := by decide +kernel
theorem test_brc : pcOf (.brc (br (.scalar 2) (.scalar 1) 2 0x40 .u64)) = some 0x140 := by decide +kernel
theorem test_brc_falls : pcOf (.brc (br (.scalar 1) (.scalar 2) 2 0x40 .u64)) = some 0x140 := by decide +kernel
/-- q1 is not uniform: .any branches, .uni traps with 0x05. -/
theorem test_brv : pcOf (.brv (br (pq 1) (v 0) 0 0x40)) = some 0x140 := by decide +kernel
theorem test_brv_uni : trapOf (.brv (br (pq 1) (v 0) 2 0x40)) jState = some 0x05 := by decide +kernel
theorem test_bri : pcOf (.bri (br (.scalar 15) (v 0) 0 0)) = some 0x140 := by decide +kernel
theorem test_ret : pcOf (.ret (br (.scalar 15) (v 0) 0 0)) = some 0x140 := by decide +kernel
/-- CALL leaves the address of the next line in s62. -/
theorem test_call : (after (.call (br (v 0) (v 0) 0 0x40)) jState).map (fun g => (g.pc, g.s 62)) = some (0x140, 0x140) := by
  decide +kernel
theorem test_nop : pcOf (.nop { sl with ty := .b32 }) = some 0x114 := by decide +kernel
theorem test_nop_bnd : pcOf (.nop (bw { sl with ty := .b32 })) = some 0x140 := by decide +kernel
theorem test_yield : (after (.yield (bw { sl with ty := .b32 }))).map (fun g => g.yielded) = some true := by decide +kernel
theorem test_sleep : (after (.sleep (bw { sl with ty := .b32, a := .imm 9 }))).map (fun g => g.wait.map (fun x => x.kind)) =
    some (some (.sleep 9)) := by decide +kernel
theorem test_bar : (after (.bar (bw { sl with ty := .b32, mod := 2 }))).map (fun g => g.wait.map (fun x => x.kind)) =
    some (some (.bar 2)) := by decide +kernel
/-- The only group of the firmware team ends. -/
theorem test_exit : (run (.exit (bw { sl with ty := .b32 })) tState).map (fun t => (t.group 0).isNone) = some true := by
  decide +kernel
/-- A hub core's cluster barrier does not wait: the phase is complete at once. -/
theorem test_cbar_arrive : s5 (.cbarArrive (bw { sl with ty := .b32, d0 := .scalar 5 })) cState = some 0 ∧
    (after (.cbarArrive (bw { sl with ty := .b32, d0 := .scalar 5 })) cState).map (fun g => g.arrivals) = some 1 := by
  decide +kernel
/-- Phase 3 is ahead of the arrivals of the group: 0x06. -/
theorem test_cbar_wait : trapOf (.cbarWait (bw { sl with ty := .b32, a := .imm 3, mod := 1 })) cState = some 0x06 := by
  decide +kernel
theorem test_waitc : (after (.waitc (bw { sl with ty := .b32, a := .imm 0 })) cState).map (fun g => g.wait.isNone) = some true := by
  decide +kernel
theorem test_waitb : trapOf (.waitb (bw { sl with ty := .b32, a := .imm 1 })) cState = some 0x07 := by decide +kernel
theorem test_ifence : (run (.ifence (bw { sl with ty := .b32 })) { tState with cores := [(576, { icache := [(0, 0)] })] }).map
    (fun t => (t.core 576).icache) = some [] := by decide +kernel
theorem test_sigf : (after (.sigf { sl with ty := .b32, a := v 1, lg := 3 })).map (fun g => g.sig) = some 0 := by decide +kernel

def fetchOk (s : State) (va : Nat) : Bool :=
  match s.group s.cur with
  | some g => (match (s.fetchLine (g.who s.cur) g.walkFaults va).1 with
    | .line _ => true
    | _ => false)
  | none => false
/-- The lanes of q1 that BRV looks at: some, all, or none. -/
def setOf (n : Nat) (invert : Bool) : BitVec 64 := tGroup.q0 &&& (if invert then ~~~(tGroup.q n) else tGroup.q n)

theorem wit_ControlTransfer : [Instr.bra (br (v 0) (v 0) 0 0x40), .bra (br (v 0) (v 0) 0 0x80),
    .brc (br (.scalar 2) (.scalar 1) 2 0x40 .u64), .brc (br (.scalar 1) (.scalar 2) 2 0x40 .u64), .brv (br (pq 1) (v 0) 0 0x40),
    .brv (br (pq 3) (v 0) 0 0x40), .brv (br (pq 0) (v 0) 1 0x40), .brv (br (pq 1) (v 0) 1 0x40), .brv (br (pq 0) (v 0) 2 0x40),
    .brv (br (pq 0) (v 0) 6 0x40), .brv (br (pq 1) (v 0) 2 0x40), .bri (br (.scalar 15) (v 0) 0 0),
    .ret (br (.scalar 15) (v 0) 0 0), .call (br (v 0) (v 0) 0 0x40), .call (br (.scalar 15) (v 0) 1 0)].all
      (fun i => isReady i jState) = true ∧ fetchOk jState 0x140 = true ∧ fetchOk jState 0x180 = true ∧
    jState.trapWaits 0 = false ∧ setOf 1 false ≠ 0 ∧ setOf 1 false ≠ tGroup.q0 ∧ setOf 3 false = 0 ∧
    setOf 0 false = tGroup.q0 ∧ setOf 0 true = 0 ∧ tGroup.q0 ≠ 0 ∧ tGroup.doomed = none := by decide +kernel

/-- Group 1 waits for something. -/
def waits (kind : WaitKind) (f : Group → Group := id) : State :=
  withG (fun g => { f g with clause := none, wait := some { slot := 0x1000, word := 0, header := 0, kind := kind } })
def wb : Slot := bw { sl with ty := .b32 }
theorem wit_Waits : [Instr.nop { sl with ty := .b32 }, .yield wb, .sleep { wb with a := .imm 0 }, .sleep { wb with a := .imm 9 },
      .ifence wb, .bar { wb with mod := 3 }, .exit wb, .cbarArrive { wb with d0 := .scalar 5 },
      .cbarWait { wb with a := .imm 3, mod := 1 }, .waitc { wb with a := .imm 0 }, .waitc { wb with a := .imm 0, mod := 0x12 },
      .waitb { wb with a := .imm 1 }, .waitb { wb with a := .imm 0 }].all (fun i => isReady i cState) = true ∧
    isReady (.bar { wb with mod := 3 }) refusedState = true ∧ quiet cState = true ∧ cGroup.refused = none ∧
    cGroup.handler = false ∧ cGroup.flights = [] ∧ cGroup.engFaults = [] ∧ cGroup.owed = [] ∧ cGroup.batchUsed = false ∧
    cState.arrayFault cGroup = none ∧ cState.ops = [] ∧ cState.phaseOf cGroup = some 0 ∧ cGroup.arrivals < 0 + 2 ∧
    isReady (.cbarArrive { wb with d0 := .scalar 5 }) (withG (fun g => { g with arrivals := 2 })) = true ∧
    isReady (.cbarWait { wb with a := .imm 1, mod := 1 }) (withG (fun g => { g with arrivals := 2 })) = true ∧
    isReady (.cbarWait { wb with a := .imm 0, mod := 1 })
      { withG (fun g => { g with arrivals := 1 }) with clusters := [(1, { tCluster with phase := 1 })] } = true ∧
    { withG (fun g => { g with arrivals := 1 }) with clusters := [(1, { tCluster with phase := 1 })] }.phaseOf
      { cGroup with arrivals := 1 } = some 1 ∧
    isReady (.waitc { wb with a := .imm 0 }) (withG (fun g => { g with mxcnt := 1 })) = true ∧
    isReady (.waitb { wb with a := .imm 1 }) (withG (fun g => { g with cbopen := 1, cbdone := 1 })) = true ∧
    isReady (.waitb { wb with a := .imm 1 }) (withG (fun g => { g with cbopen := 1 })) = true := by decide +kernel
theorem wit_Waits_end : (g1 (waits (.sleep 0))).wait.isSome = true ∧ (waits (.bar 2)).team 1 = some tTeam ∧
    (waits (.bar 2)).barriers 1 = [some 2] ∧ (waits (.cbarWait 0) (fun g => { g with arrivals := 1 })).cluster 1 = some tCluster ∧
    (tCluster.teams.all (fun t => (waits (.cbarWait 0) (fun g => { g with arrivals := 1 })).teamArrived t 0)) = true ∧
    (waits (.waitc 0 0 4)).arrayFault (g1 (waits (.waitc 0 0 4))) = none ∧ cGroup.counter 0 ≤ 0 ∧ (0 : Nat) ≤ cGroup.cbdone ∧
    (g1 (waits (.haltc 3 (some 0) (some 5)) (fun g => { g with latch := 2 }))).latch &&& 3 ≠ 0#2 ∧
    cGroup.latch &&& 3 = 0#2 := by decide +kernel
theorem test_waits_end : ((match exec (.haltcWake 1) (waits (.haltc 3 (some 0) (some 5)) (fun g => { g with latch := 2 })) with
      | .next t => some ((g1 t).s 5, (g1 t).latch)
      | _ => none) = some (2, 0)) ∧
    ((match exec (.barrierComplete 1 2) (waits (.bar 2)) with
      | .next t => some (g1 t).wait.isNone
      | _ => none) = some true) ∧
    ((match exec (.sleepExpiry 1) (waits (.sleep 0)) with
      | .next t => some (g1 t).wait.isNone
      | _ => none) = some true) := by decide +kernel
/-! ## Traps, special registers and the system -/

def srd (d : Operand) (n : BitVec 10) (b : Operand := v 0) : Slot :=
  { sl with ty := .b64, d0 := d, a := .special n, b := b }
def swr (n : BitVec 10) (a : Operand) : Slot := { sl with ty := .b64, d0 := .special n, a := a }
def sysG (s : State := cState) : State := withG (fun g => { g with system := true }) s

/-- %width is 16; %ctx is 1; bit 0 of %harvest0 says that site 0 is usable or not, as the die has it. -/
theorem test_srds : s5 (.srds (srd (.scalar 5) 0x41)) cState = some 16 ∧ s5 (.srds (srd (.scalar 5) 0x49)) cState = some 1 := by
  decide +kernel
theorem test_srds_range : trapOf (.srds (srd (.scalar 5) 0x78 (.imm 16))) tState = some 0x07 := by decide +kernel
theorem test_swrs : (after (.swrs (swr 0x53 (.scalar 1)))).map (fun g => g.gtimer) = some 7 := by decide +kernel
theorem test_swrs_user : trapOf (.swrs (swr 0x80 (.scalar 1))) cState = some 0x12 := by decide +kernel
/-- TRAP 5 from user mode: s1 holds the cause word with code 0x0A, s3 the slot, and the group is at the entry. -/
theorem test_trap : (after (.trap (bw { sl with ty := .b32, imm := 5 })) cState).map (fun g =>
    (g.s 1 &&& 0xFF, g.s 3, g.pc, g.handler, g.q 15)) = some (0x0A, 0x1000, 0x2000, true, 0xFFFF#64) := by decide +kernel
theorem test_dbrk : trapOf (.dbrk (bw { sl with ty := .b32, imm := 5 })) cState = some 0x0B := by decide +kernel
/-- The handler returns to the slot, and s1 is what it was. -/
def trapped : State := (run (.trap (bw { sl with ty := .b32, imm := 5 })) cState).getD cState
def inHandler : State := withG (fun g => { g with clause := some { entry := 0x2000, header := 0, rest := [(0x2000, 0)] } }) trapped
theorem test_eret : (after (.eret (bw { sl with ty := .b32, mod := 1 })) inHandler).map (fun g =>
    (g.s 1, g.handler, g.pc, g.hidden.isNone)) = some (7, false, 0x1014, true) := by decide +kernel
theorem test_eret_user : trapOf (.eret (bw { sl with ty := .b32 })) cState = some 0x12 := by decide +kernel

/-- The page table of context 1 has, for address 0, an entry of the 2 MiB level with FT, and a frame is in the pool. -/
def mapState : State :=
  sysG { cState with
    mem := cState.mem ++ [(0x400000, 3), (0x400002, 0x80), (0x800001, 1)]
    dies := Tab.modify cState.dies 0 (fun d => { d with pool2m := [(1, [0xA00000])] }) }
def pmapW : Slot := lng { sl with ty := .b32, d0 := .scalar 5, d1 := .scalar 7, a := .scalar 0, b := .scalar 16 }
theorem test_pfree : (run (.pfree (lng { sl with ty := .b32, a := .scalar 18 })) (sysG)).map (fun t =>
    Tab.find t.purges 0x10000) = some (some [0, 1, 2, 3]) := by decide +kernel
theorem test_tlbi : (run (.tlbi { sl with ty := .b32, mod := 7 }) (sysG)).map (fun t => (t.core 0).tlb) = some [] := by decide +kernel
theorem test_haltc : trapOf (.haltc (bw { sl with ty := .b32, d0 := .scalar 5, a := .imm 3, b := .imm 0 })) cState = some 0x12 := by
  decide +kernel
theorem test_haltc_event : (after (.haltc (bw { sl with ty := .b32, d0 := .scalar 5, a := .imm 3, b := .imm 0 }))
    (sysG (withG (fun g => { g with latch := 1 })))).map (fun g => (g.s 5, g.latch)) = some (1, 0) := by decide +kernel

theorem wit_SpecialRegisters : [Instr.srds (srd (.scalar 5) 0x78 (.imm 15)), .srds (srd (.scalar 5) 0x78 (.imm 16)),
      .srds (srd (v 10) 0x40), .srds (srd (.scalar 5) 0x80), .swrs (swr 6 (.scalar 1)), .swrs (swr 0x11 (.scalar 1)),
      .swrs (swr 0x1F (.scalar 1)), .swrs (swr 0x53 (.scalar 1)), .swrs (swr 0x58 (.scalar 1)), .swrs (swr 0x80 (.scalar 1)),
      .sigf { sl with ty := .b32, a := v 1 }].all (fun i => isReady i cState && isReady i tState) = true ∧
    tGroup.system = true ∧ cGroup.system = false ∧ cState.trapWaits 1 = false ∧ specialWords 0x78 = 16 ∧ (15 : Nat) < 16 := by
  decide +kernel
/-- The pair's other site of core 0 is disabled. -/
def loneSite : State := { cState with dies := Tab.modify cState.dies 0 (fun d => { d with disabled := 2 }) }
theorem wit_SpecialRegisters_values : (cState.die 0).logicalId 0 = some 0 ∧ (cState.die 0).unpaired 0 = false ∧
    (cState.die 0).logicalId (partnerSite 0) = some 1 ∧ (loneSite.die 0).unpaired 0 = true ∧ cGroup.core = 0 ∧
    firmwareGroup.core = 576 ∧ coreDie 576 = 4 ∧ coreDie 0 = 0 ∧ cGroup.gtSince = some 0 ∧
    { cGroup with gtSince := none }.gtSince = none ∧ cState.part cGroup.ctx = some tPart ∧ cState.team cGroup.team = some tTeam ∧
    tTeam.launch = some 1 ∧ cState.launch 1 = some tLaunch := by decide +kernel
theorem wit_TakingATrap : cState.group 1 = some cGroup ∧ cGroup.doomed = none ∧ cState.handlerEntry cGroup = some 0x2000 ∧
    cGroup.handler = false ∧ cGroup.trapMustWait = false ∧ Tab.wf 0 cGroup.settleTrapRegs.sregs = true ∧
    Tab.wf 0 cGroup.settleTrapRegs.qregs = true ∧ inHandler.handlerEntry (g1 inHandler) ≠ none ∧
    (g1 inHandler).handler = true ∧ State.reset.handlerEntry firmwareGroup = none ∧
    isReady (.trap (bw { sl with ty := .b32, imm := 5 })) cState = true ∧
    isReady (.dbrk (bw { sl with ty := .b32, imm := 5 })) cState = true ∧ cState.debugEnabled cGroup = false ∧
    isReady (.dbrk (bw { sl with ty := .b32, imm := 5 })) { cState with parts := [(1, { tPart with debug := true })] } = true ∧
    { cState with parts := [(1, { tPart with debug := true })] }.debugEnabled cGroup = true := by decide +kernel
/-- A handler that was entered at a clause's entry. -/
def atEntry : State := withG (fun g => { g with hidden := g.hidden.map (fun h => { h with resume := .entrySlot 0x1000 }) }) inHandler
/-- A handler that was entered at an instruction that is to be issued again. -/
def atFault : State := withG (fun g => { g with hidden := g.hidden.map (fun h =>
  { h with resume := .instruction { entry := 0x1000, header := 0, rest := [(0x1000, 0), (0x1014, 0)] } false }) }) inHandler
def eretSkip : Slot := bw { sl with ty := .b32, mod := 1 }
def eretAgain : Slot := bw { sl with ty := .b32 }
theorem wit_ReturningFromATrap : isReady (.eret eretAgain) cState = true ∧ cState.trapWaits 1 = false ∧ cGroup.handler = false ∧
    isReady (.eret eretAgain) inHandler = true ∧ isReady (.eret eretSkip) inHandler = true ∧ (g1 inHandler).handler = true ∧
    (g1 inHandler).hidden.isSome = true ∧ isReady (.eret eretAgain) atEntry = true ∧
    ((g1 inHandler).hidden.map (fun h => decide (((g1 inHandler).returnFrom h 0 true).restPrice ≤ (inHandler.core 0).purse))) =
      some true ∧
    inHandler.drawable 0 0 = true ∧
    (let s := State.modGroup { inHandler with cores := [(0, { tlb := [tEntry, tPage] })] } 1 (fun g => { g with
        hidden := g.hidden.map (fun h => { h with resume := .instruction { entry := 0x1000, header := 0
                                                                           rest := [(0x1000, word 0x102 10 0x403 0 0x401 0x402 0 0 0 0)] } false }) })
     (g1 s).hidden.map (fun h => h.price 16) = some 4 ∧ s.drawable 0 4 = false ∧ isReady (.eret eretAgain) s = true) ∧
    Tab.wf 0 (g1 inHandler).sregs = true ∧ Tab.wf 0 (g1 inHandler).qregs = true ∧ (g1 inHandler).q 15 ≠ 0 ∧
    ((g1 inHandler).hidden.map (fun h => match h.resume with
      | .instruction c sk => (c.rest.length, sk)
      | .entrySlot _ => (9, false))) = some (2, true) ∧
    isReady (.eret eretAgain) atFault = true ∧ ((g1 atFault).hidden.map (fun h => match h.resume with
      | .instruction c sk => (c.rest.length, sk)
      | .entrySlot _ => (9, false))) = some (2, false) := by decide +kernel

def mapAt (s : State) (big : Bool) : Nat × Nat :=
  match s.mapWalk 1 0 big with
  | .entry a e => (a, e)
  | .absent => (1, 0)
  | .format => (2, 0)
  | .error a => (3, a)
/-- The same with another entry. -/
def mapEntryIs (bytes : Tab Byte) : State := { mapState with mem := cState.mem ++ [(0x400000, 3), (0x400002, 0x80)] ++ bytes }
/-- The tables of context 1 lie on die 1, which is in reset. -/
def deafState : State :=
  { mapState with ptroots := [(1, 0x2000400001)], dies := Tab.modify mapState.dies 1 (fun d => { d with resetStep := 4 }) }
theorem wit_PagesAndHalt_traps : isReady (.pmap { pmapW with a := .scalar 14 }) mapState = true ∧
    2 ^ 57 ≤ ((g1 mapState).s 14).toNat ∧ mapState.trapWaits 1 = false ∧ (g1 deafState).system = true ∧
    mapAt (mapEntryIs [(0x800000, 0xFF)]) true = (2, 0) ∧ isReady (.pmap pmapW) (mapEntryIs [(0x800000, 0xFF)]) = true ∧
    mapAt deafState true = (3, 0x2000400000) ∧ isReady (.pmap pmapW) deafState = true := by decide +kernel
theorem wit_PagesAndHalt : [Instr.pmap pmapW, .pfree (lng { sl with ty := .b32, a := .scalar 18 }),
      .tlbi { sl with ty := .b32, mod := 7 }, .tlbi (lng { sl with ty := .b32, mod := 0x19 }),
      .haltc (bw { sl with ty := .b32, d0 := .scalar 5, a := .imm 3, b := .imm 0 })].all
        (fun i => isReady i cState && isReady i mapState) = true ∧ quiet cState = true ∧
    (cGroup.handler || cGroup.system) = false ∧ (g1 mapState).system = true ∧ (0x64 : Nat) &&& 0xE2FC = 0x64 ∧
    attributeDie 0 0x64 = some 0 ∧ attributeDie 0 0xE060 = some 0 ∧ mapAt mapState true = (0x800000, 0x100) ∧
    mapAt cState true = (1, 0) ∧ pteV 0x100 = false ∧ pteFT 0x100 = true ∧ (mapState.die 0).pool 1 true = [0xA00000] ∧
    (cState.die 0).pool 1 true = [] ∧ mapAt (mapEntryIs []) true = (0x800000, 0) ∧ pteFT 0 = false ∧
    mapAt (mapEntryIs [(0x800000, 0x65)]) true = (0x800000, 0x65) ∧ pteV 0x65 = true ∧ inHbm 0x10000 65536 = true ∧
    (0x10000 : Nat) % 65536 = 0 ∧ (3 : Nat) ≤ 3 := by decide +kernel
/-! ## Engines

Basin 0 holds one element of 64 bytes of 4, basin 1 none; records 0 and 1 are 64 bytes each; tile 0 is 16 × 16, tile 1
8 × 32; q4 has lane 0 only, and slot 2 is INT8. -/

/-- A record of slot 3 lies at 0x1040. -/
def tArray : MatrixArray :=
  { config := [(0, (16, 16)), (1, (8, 32)), (2, (32, 16))], view := [(0, (16, 16)), (1, (8, 32)), (2, (32, 16))], panels := [(0, tPanel)], viewPanels := [(0, tPanel)] }
where tPanel : Panel :=
  { offset := 0, cols := 16, steps := 1, slot := 0x8000000000000009#64, sparse := false, data := [], side := [] }

def eTeam : Team :=
  { tTeam with basins := tTeam.basins ++ [(3, { base := 2048, esize := 256, count := 3, prod := 3 }), (4, { base := 3072, esize := 64, count := 16 }),
    (5, { base := 0, esize := 16, count := 4, prod := 1 })] }
/-- A record of rank 2: 64 columns of 64 rows, of which the tile is one row; rows 64 bytes apart. -/
def rowsAt (base : Nat) : BitVec 512 :=
  BitVec.ofNat 512 (base + 9 * 2 ^ 64 + 2 * 2 ^ 72 + 8 * 2 ^ 80 + (64 + 64 * 2 ^ 32) * 2 ^ 96 + 64 * 2 ^ 256 + (64 + 2 ^ 16) * 2 ^ 416)
def eState : State :=
  { cState with
    teams := [(0, firmwareTeam), (1, { eTeam with records := eTeam.records ++ [(2, rowsAt 0x14000)] })]
    cores := [(0, { purse := 4000, enginePurse := 4000, tlb := [tEntry, tPage], owner := some 1, array := tArray })]
    dies := Tab.modify cState.dies 0 (fun d => { d with tlb := [tEntry] })
    mem := cState.mem ++ [(0x201042, 1), (0x201048, 9), (0x201049, 1), (0x20104C, 64), (0x201074, 64)] }
def eQueue (i : Instr) (s : State := eState) : Option EngineKind :=
  (run i s).bind (fun t => (t.ops.getLast?).map (fun p => p.2.kind))
/-- An elected form: one lane. -/
def el (mod : BitVec 28) (a b c : Operand) : Slot := { sl with ty := .b32, mod := mod, a := a, b := b, c := c, lg := 4 }
def eb (mod : BitVec 28) (d a b c : Operand) : Slot := { sl with ty := .b32, mod := mod, d0 := d, a := a, b := b, c := c }

theorem test_bcfg : (run (.bcfg (eb 2 (v 0) (.imm 128) (.imm 16) (.imm 4))) eState).map (fun t => (t.team 1).map (fun x =>
    x.basin 2)) = some (some { base := 128, esize := 16, count := 4 }) := by decide +kernel
theorem test_bcfg_range : trapOf (.bcfg (eb 2 (v 0) (.imm 128) (.imm 8) (.imm 4))) eState = some 0x07 := by decide +kernel
/-- BPUT of 3 elements to basin 0, which holds one of four, gives the old PROD 1; a fourth does not fit. -/
theorem test_bput : s5 (.bput (eb 0 (.scalar 5) (.imm 3) (v 0) (v 0))) eState = some 1 := by decide +kernel
theorem test_bput_full : s5 (.bput (eb 0 (.scalar 5) (.imm 4) (v 0) (v 0))) eState = some 0xFFFFFFFFFFFFFFFF#64 := by
  decide +kernel
theorem test_btake : s5 (.btake (eb 0 (.scalar 5) (.imm 1) (v 0) (v 0))) eState = some 0 := by decide +kernel
theorem test_btake_empty : s5 (.btake (eb 1 (.scalar 5) (.imm 1) (v 0) (v 0))) eState = some 0xFFFFFFFFFFFFFFFF#64 := by
  decide +kernel
theorem test_trec : (after (.trec (lng { sl with ty := .b32, a := .scalar 4, imm := 0x40, mod := 3 })) eState).map (fun g =>
    g.flights.map (fun f => f.task)) = some [.record 3 (tensorAt 0x10000)] := by decide +kernel
theorem test_cpy : eQueue (.cpy (eb 0x40 (v 0) (v 0) (v 0) (v 0))) =
    some (.cpy (.tensor (tensorAt 0x10000)) (.tensor (tensorAt 0x12000)) [0, 0, 0, 0, 0]) := by decide +kernel
theorem test_cpyb : s5 (.cpyb (eb 0 (.scalar 5) (v 0) (v 0) (v 0))) eState = some 1 := by decide +kernel
theorem test_cpyx : eQueue (.cpyx (eb 0x40 (v 0) (.scalar 4) (v 0) (v 0))) =
    some (.cpyx false (tensorAt 0x10000) (tensorAt 0x12000) [0, 0, 0, 0, 0] 0 0x1000) := by decide +kernel
theorem test_cpyr : eQueue (.cpyr { eb 0x40 (v 0) (.scalar 4) (v 0) (v 0) with imm := 9 }) =
    some (.cpyr none (tensorAt 0x10000) (tensorAt 0x12000) [0, 0, 0, 0, 0] (some 0x1000) 9) := by decide +kernel
/-- GATH of 4 rows by the indices of basin 5 into basin 1: MOD names record 2, basin 5 and basin 1. -/
theorem test_gath : eQueue (.gath (eb 0xAA (v 0) (.imm 4) (v 0) (v 0))) = some (.gath (rowsAt 0x14000) 4 0) := by decide +kernel
theorem test_coll : eQueue (.coll { eb 0x80 (v 0) (.imm 0) (v 0) (v 0) with ty := .u32 }) =
    some (.coll 0 false .u32 0 0 64 none) := by decide +kernel
theorem test_tcfg : eQueue (.tcfg (el 0 (.imm 0x101) (.imm 0) (v 0))) = some (.tcfg [(0, (16, 16))]) := by decide +kernel
theorem test_mzero : eQueue (.mzero (el 1 (v 0) (v 0) (v 0))) = some (.mzero 1) := by decide +kernel
/-- Panel 1 takes bytes of panel 0, which is invalid from there on (R308). -/
theorem test_mldb : (run (.mldb (el 0x4203 (.imm 0) (.imm 16) (.imm 1))) eState).map (fun t =>
    Tab.keys (t.core 0).array.viewPanels) = some [1] := by decide +kernel
theorem test_mma : eQueue (.mma (el 0x20018 (v 0) (v 0) (v 0))) = some (.mma 0 0 0x8000000000000009#64 false) := by decide +kernel
theorem test_msto : eQueue (.msto (el 0x20 (v 0) (v 0) (v 0))) = some (.msto 0 false false false 0 0) := by decide +kernel
theorem test_mq4 : (eQueue (.mq4 (eb 0x241 (v 0) (v 0) (v 0) (.imm 0)))).isSome = true := by decide +kernel
/-- Two lanes elect no one: 0x07. -/
theorem test_elected : trapOf (.mzero { el 1 (v 0) (v 0) (v 0) with lg := 1 }) eState = some 0x07 := by decide +kernel
theorem wit_Basins : [Instr.bcfg (eb 2 (v 0) (.imm 128) (.imm 16) (.imm 4)), .bcfg (eb 2 (v 0) (.imm 128) (.imm 8) (.imm 4)),
      .bcfg (eb 2 (v 0) (.imm 128) (.scalar 4) (.imm 4)), .bput (eb 0 (.scalar 5) (.imm 3) (v 0) (v 0)),
      .bput (eb 0 (.scalar 5) (.imm 4) (v 0) (v 0)), .bput (eb 0 (.scalar 5) (.imm 5) (v 0) (v 0)),
      .bput (eb 7 (.scalar 5) (.imm 0) (v 0) (v 0)), .btake (eb 0 (.scalar 5) (.imm 1) (v 0) (v 0)),
      .btake (eb 0 (.scalar 5) (.imm 2) (v 0) (v 0)), .btake (eb 7 (.scalar 5) (.imm 0) (v 0) (v 0))].all
        (fun i => isReady i eState) = true ∧ quiet eState = true ∧ (g1 eState).refused = none ∧ eState.basinBusy 1 2 = false ∧
    128 + 16 * 4 ≤ 4096 ∧ 4096 < 128 + 4096 * 4 ∧ (eTeam.basin 0).count = 4 ∧ (eTeam.basin 0).room = 3 ∧ (eTeam.basin 0).held = 1 ∧
    (eTeam.basin 7).count = 0 := by decide +kernel
/-- What a side of a copy is: a record, a basin or nothing. -/
def sideIs (x : CopySide) : Nat :=
  match x with
  | .tensor _ _ => 1
  | .basin _ _ => 2
  | .empty => 0
def tRec : TRec := (parseRecord tRecord.slots (tensorAt 0x10000)).getD
  { base := 0, rank := 0, order := [], size := [], stride := [], box := [], bits := 0, epu := 1, ub := 1, key := (0, 0, false) }
def tRows : TRec := (parseRecord tRecord.slots (rowsAt 0x14000)).getD tRec
theorem wit_Copies : [Instr.trec (lng { sl with ty := .b32, a := .scalar 4, imm := 0x40, mod := 3 }),
      .trec (lng { sl with ty := .b32, a := .scalar 4, imm := 1, mod := 3 }), .cpy (eb 0x40 (v 0) (v 0) (v 0) (v 0)),
      .cpy (eb 0x42 (v 0) (v 0) (v 0) (v 0)), .cpy (eb 0x01 (v 0) (v 0) (v 0) (v 0)), .cpy (eb 0x80 (v 0) (v 0) (v 0) (v 0)),
      .cpyb (eb 0 (.scalar 5) (v 0) (v 0) (v 0)), .cpyx (eb 0x40 (v 0) (.scalar 4) (v 0) (v 0)),
      .cpyr (eb 0x40 (v 0) (.scalar 4) (v 0) (v 0)), .gath (eb 0xAA (v 0) (.imm 4) (v 0) (v 0)),
      .coll { eb 0x80 (v 0) (.imm 0) (v 0) (v 0) with ty := .u32 }].all (fun i => isReady i eState) = true ∧
    quiet eState = true ∧ (0x1040 : Nat) % 64 = 0 ∧ (0x1001 : Nat) % 64 ≠ 0 ∧ route sl .read .any 0x1040 64 eState = (0, 0) ∧
    (eState.tensor eTeam (tensorAt 0x10000)).isSome = true ∧ [0, 1].map (fun i => sideIs (eState.copySide eTeam false i)) = [1, 1] ∧
    sideIs (eState.copySide eTeam true 1) = 2 ∧ tilesMatch tRec tRec = true ∧ tilesMatch tRec tRows = false ∧
    tRec.originOk [0, 0, 0, 0, 0] = true ∧ (eTeam.basin 1).elements tRec.tile = some 1 ∧
    (eTeam.basin 0).elements tRec.tile = some 1 ∧ isBytes (tensorAt 0x10000) tRec = true ∧ tRec.rank ≤ 4 ∧ tRows.rank = 2 ∧
    tRows.extent 0 * tRows.ub = 64 ∧ (eTeam.basin 5).elements (4 * 4) = some 1 ∧ (eTeam.basin 1).elements (4 * 64) = some 4 ∧
    (eTeam.basin 1).esize = 64 ∧ tRows.originOk [0] = true ∧ (eTeam.basin 0).elements 64 = some 1 ∧
    receives false 0 eTeam.member = true ∧ 0 < eTeam.members ∧ eState.matching (g1 eState) 0 = [] ∧
    (eState.unretired 1 .coll).length < 63 := by decide +kernel
def mxI : List Instr := [.tcfg (el 0 (.imm 0x101) (.imm 0) (v 0)), .mzero (el 1 (v 0) (v 0) (v 0)),
  .mldb (el 0x4203 (.imm 0) (.imm 16) (.imm 1)), .mma (el 0x20018 (v 0) (v 0) (v 0)), .msto (el 0x20 (v 0) (v 0) (v 0))]
theorem wit_MatrixIssue : mxI.all (fun i => isReady i eState) = true ∧ isReady (.mq4 (eb 0x241 (v 0) (v 0) (v 0) (.imm 0))) eState = true ∧
    isReady (.mzero { el 1 (v 0) (v 0) (v 0) with lg := 1 }) eState = true ∧
    isReady (.mzero { el 1 (v 0) (v 0) (v 0) with lg := 3 }) eState = true ∧
    (lanesOf (cGroup.lanes { sl with lg := 4 }) 16).length = 1 ∧ (lanesOf (cGroup.lanes { sl with lg := 3 }) 16).length = 0 ∧
    1 < (lanesOf (cGroup.lanes { sl with lg := 1 }) 16).length ∧ quiet eState = true ∧ eState.arrayFault (g1 eState) = none ∧
    (eState.unretired 1 .matrix).length < 63 ∧ (eState.takeArray 0 1).isSome = true ∧
    (List.range 8).all (fun j => (tileField 0x101 0 j).isSome) = true ∧ Tab.find tArray.view 0 = some (16, 16) ∧
    (0 + 16 * 1 * 64 ≤ 262144) ∧ (eTeam.operand 0x8000000000000009#64 false 16 1 3 0).isSome = true ∧
    ((Tab.find tArray.viewPanels 0).map (fun p => (p.cols, slotsAlike 0x8000000000000009#64 p.slot))) = some (16, true) ∧
    storeRowBytes false 0 16 = some 64 ∧ (eTeam.basin 4).elements (16 * 64) = some 16 ∧ Tab.find tArray.view 1 = some (8, 32) ∧
    0 + (fusion 0).2.2.1 ≤ 8 ∧ 0 + (fusion 0).2.2.2 ≤ 32 ∧ [Exact.zero false].length = [Exact.zero false].length ∧
    [Exact.zero false] ≠ [] := by decide +kernel

/-- An operation of group 1 in flight with key 5. -/
def opOf (cls : EngineClass) (kind : EngineKind) (ins outs : List (Nat × Nat)) (f : EngineOp → EngineOp := id) : EngineOp :=
  f { cls := cls, team := 1, group := 1, slot := 0x1000, kind := kind, ins := ins, outs := outs }
def withOp (o : EngineOp) (s : State := eState) : State := { s with ops := [(5, o)] }
def copyOp : EngineOp := opOf .copy (.cpy (.basin 0) (.tensor (tensorAt 0x10000)) [0, 0, 0, 0, 0]) [(0, 1)] []
def gathOp : EngineOp := opOf .gather (.gath (rowsAt 0x14000) 4 0) [(5, 1)] [(1, 4)]
def gathRun : EngineOp := { gathOp with fired := some ([0], [0]) }
def zeroOp : EngineOp := opOf .matrix (.mzero 1) [] []
/-- Two blocks of a tile of 32 × 16: 192 tokens a step. -/
def mmaBig : EngineOp := opOf .matrix (.mma 2 0 0x8000000000000009#64 false) [(3, 3)] [] (fun o => { o with fired := some ([0], []) })
def mmaOp : EngineOp := opOf .matrix (.mma 0 0 0x8000000000000009#64 true) [(3, 3)] [] (fun o => { o with fired := some ([0], []) })
def cpyxOp : EngineOp :=
  opOf .copy (.cpyx false (tensorAt 0x10000) (tensorAt 0x12000) [0, 0, 0, 0, 0] 0 0x1000) [] [] (fun o => { o with arrived := some 0 })
/-- The pair's other site, with a tile and a panel that fit. -/
def pairState : State :=
  { withOp mmaOp with
    teams := eState.teams ++ [(2, { eTeam with core := 1, groups := [2] })]
    cores := eState.cores ++ [(1, { owner := some 2, array := tArray })] }
/-- The pair of the two sites, bound to its follower. -/
def boundOp : EngineOp := { mmaOp with follower := some 2, arrived := some 0 }
theorem wit_EngineEvents : (withOp gathOp).mayFire 5 gathOp eTeam = true ∧ (withOp copyOp).mayFire 5 copyOp eTeam = true ∧
    ((withOp zeroOp).readyOp 5 zeroOp eTeam).isSome = true ∧ (withOp zeroOp).pairArray zeroOp = none ∧
    ((withOp gathRun).readyOp 5 gathRun eTeam).isSome = true ∧ (withOp gathRun).pairArray gathRun = none ∧
    (withOp gathRun).stepPrice gathRun eTeam = 1 ∧ ((withOp gathRun).drawEngine 1 [(0, 1)]).isSome = true ∧
    ((withOp mmaBig).readyOp 5 mmaBig eTeam).isSome = true ∧ 0 + 96 < (withOp mmaBig).stepNeed mmaBig eTeam ∧
    (withOp mmaBig).stepDraws mmaBig eTeam 96 = [(0, 96)] ∧
    ((withOp mmaBig).drawEngine 1 [(0, 96)]).isSome = true ∧
    (({ withOp mmaBig with cores := Tab.modify eState.cores 0 (fun c => { c with enginePurse := 95 }) }).drawEngine 1 [(0, 96)]).isNone = true ∧
    (withOp zeroOp).stepNeed zeroOp eTeam ≤ 0 ∧ (withOp zeroOp).engineRuns eTeam = true ∧
    (withOp { copyOp with done := true }).mayRetire 5 { copyOp with done := true } eTeam = true ∧
    (withOp { zeroOp with done := true }).mayRetire 5 { zeroOp with done := true } eTeam = true ∧
    mmaOp.fired ≠ none ∧ (withOp mmaOp).oldest 5 mmaOp = true ∧ (withOp mmaOp).pairHeld eTeam = false ∧
    (withOp mmaOp).pairBlocks 5 1 = false ∧ ((withOp mmaOp).takeArray 0 1).isSome = true ∧
    (((withOp mmaOp).takeArray 0 1).map (fun s1 => (s1.followerOf eTeam).isNone)) = some true ∧
    ((pairState.takeArray 0 1).map (fun s1 => (s1.followerOf eTeam).map (fun f => (f.1, s1.pairFits eTeam f.1 f.2 (s1.pairBound f.1) 0 0)))) =
      some (some (2, true)) ∧
    pairState.pairArray boundOp = some 1 ∧
    (withOp cpyxOp).keyQueued cpyxOp 0 = false ∧ cpyxOp.parked = none ∧ (eState.tensor eTeam (tensorAt 0x10000)) = some tRec ∧
    (eState.tensor eTeam (tensorAt 0x12000)).isSome = true ∧
    ((match (withOp cpyxOp).settleCpyx 5 cpyxOp eTeam false tRec { tRec with base := 0x12000 } [0, 0, 0, 0, 0] 0 0x1000 with
      | .inl _ => true
      | .inr _ => false) = true) := by decide +kernel
theorem test_engine_fire : (match exec (.engineFire 5) (withOp gathOp) with
    | .next t => (t.op 5).map (fun o => o.fired)
    | _ => none) = some (some ([0], [0])) := by decide +kernel
theorem test_engine_retire : (match exec (.engineRetire 5) (withOp { zeroOp with done := true } (eState.modGroup 1 (fun g => { g with mxcnt := 1 }))) with
    | .next t => some ((t.ops).length, (g1 t).mxcnt)
    | _ => none) = some (0, 0) := by decide +kernel
/-! ## Steps, checks at issue, and clauses -/

/-- The next slot of group 1 is a NOP; or no instruction. -/
def slotState (x : BitVec 160) : State :=
  withG (fun g => { g with clause := some { entry := 0x1000, header := 0, rest := [(0x1000, x)] } })
theorem wit_StepRunsDecoded : (slotState (word 0x080 0 0 0 0 0 0 0 0 0)).agenda = [] ∧
    (slotState (word 0x080 0 0 0 0 0 0 0 0 0)).running = some 1 ∧ (g1 (slotState 0)).clause.isSome = true ∧
    (decodeWord (word 0x080 0 0 0 0 0 0 0 0 0)).toOption = some (.nop { sl with ty := .b32 }) ∧
    refusal (word 0x3FF 0 0 0 0 0 0 0 0 0) = some .unassignedOp ∧ Instr.isEvent .hrLatch = true ∧
    (withG (fun g => { g with clause := none })).running = none := by decide +kernel
/-- A step of the whole machine runs it: the group moves past the slot. -/
theorem test_step : (match step (slotState (word 0x080 0 0 0 0 0 0 0 0 0)) with
    | .next t => some ((g1 t).pc)
    | _ => none) = some 0x1014 := by decide +kernel
/-- The first step after reset with a SADD s3, s1, s2 placed: s3 is 0 + 0 and the group is past it. -/
theorem test_first_step : (match step (State.reset.withFetchWord 160
      (word 0x002 10 0x403 0 0x401 0x402 0 0 0 0).toNat) with
    | .next t => some ((t.group 0).map (fun g => g.s 3))
    | _ => none) = some (some 0) := by decide +kernel

def form (i : Instr) (s : State) : Bool × Bool × Bool :=
  match encodingOf s i, s.group s.cur with
  | some e, some g => (e.legalIn g, e.pendingIn g, g.guard e.slot)
  | _, _ => (false, false, false)
theorem wit_ChecksAtIssue : form (.sadd { sc .u32 5 1 2 with ty := .f32 }) cState = (false, false, true) ∧
    form (.sadd (sc .u32 5 1 2)) (withG (fun g => { g with marks := [{ reg := .scalar 1, flag := 0, slot := 0 }] })) = (true, true, true) ∧
    form (.sadd { sc .u32 5 1 2 with sg := 0 }) cState = (true, false, false) ∧ cState.group 1 = some cGroup := by decide +kernel
/-- The code of the trap that group 1 takes. -/
def trapOf' (i : Instr) (s : State) : Option Nat :=
  match exec i s with
  | .next t => (g1 t).hidden.map (fun h => h.cause.code)
  | _ => none
theorem test_illegal : trapOf' (.sadd { sc .u32 5 1 2 with ty := .f32 }) cState = some 0x01 ∧
    trapOf' (.sadd (sc .u32 5 1 2)) (withG (fun g => { g with marks := [{ reg := .scalar 1, flag := 0, slot := 0 }] })) = some 0x03 := by
  decide +kernel
/-! ## Clauses, completions and walks -/

theorem wit_DecodeAndEncodeAgree : (Instr.sadd (sc .u32 5 1 2)).wf = true ∧ (encode (.sadd (sc .u32 5 1 2))).isSome = true ∧
    (decodeWord (word 0x002 10 0x403 0 0x401 0x402 0 0 0 0)).toOption.isSome = true ∧ (encode .hrLatch).isSome = false := by
  decide +kernel
theorem wit_StepsKeepMemoryCanonical : Memory.wf cState.mem = true ∧
    goes (step (slotState (word 0x080 0 0 0 0 0 0 0 0 0))) = true := by decide +kernel

/-- Group 1 is about to enter a line at 0x3000 whose first slot is an EXIT with BND; bit 7 of the line word's first byte
is C and its bit 1 the parity of bits 240 to 479 and 482 to 511 (R152); SETA and SETB name no flag. -/
def lineState (f : Group → Group := id) : State :=
  withG (fun g => f { g with clause := none, pc := 0x3000 }) { cState with
    mem := cState.mem ++ [(0x203000, 0x87), (0x203001, 0xC0), (0x203002, 1), (0x20300E, 0x80), (0x203014, 0x80),
      (0x203015, 0xC0), (0x203016, 1), (0x203028, 0x80), (0x203029, 0xC0), (0x20302A, 1), (0x20303C, 0x82), (0x20303E, 0xF0), (0x20303F, 0x0F)] }
/-- What predecode finds at a group's pc: the slots and the price, or a fault and its code. -/
def finds (s : State) (k : Nat) (g : Group) : Nat × Nat :=
  match (s.predecode (g.who k) g.walkFaults g.pc g.width).1 with
  | .clause c price => (c.rest.length, price)
  | .miss _ => (100, 0)
  | .fault c _ => (200, c)
def timed : Group := { cGroup with clause := none, pc := 0x3000, gtimer := 1, gtSince := some 0 }
theorem wit_ClausesIssue : (lineState.eligible (g1 lineState) && !lineState.timerDue (g1 lineState)) = true ∧
    lineState.waitsFlags 1 timed = false ∧
    (g1 lineState).engFaults = [] ∧ finds (lineState) 1 (g1 lineState) = (1, 0) ∧
    (g1 lineState).flagsClear 0 = true ∧ (g1 lineState).owedFor 0 = none ∧ lineState.chosen 1 (g1 lineState) 0 = true ∧
    (let s := { lineState (fun _ => timed) with now := 1000 }
     s.eligible timed = true ∧ s.timerDue timed = true ∧ s.trapWaits 1 = false) ∧
    64 ≤ (g1 (lineState (fun g => { g with losses := 64 }))).losses := by decide +kernel
theorem test_clause_issue : (match exec (.clauseIssue 1) (lineState) with
    | .next t => (g1 t).clause.map (fun c => (c.entry, c.header, c.rest.map Prod.fst))
    | _ => none) = some (0x3000, 0x0FF00082, [0x3000]) := by decide +kernel
/-- Without the C bit at the entry line the fetch-format trap is raised (R156). -/
theorem test_no_entry : finds { lineState with mem := lineState.mem.take (lineState.mem.length - 3) } 1 (g1 lineState) = (200, 2) := by
  decide +kernel

/-- Group 1 with one operation in flight. -/
def flying (task : Task) (ws : List RegWrite := []) : State :=
  withG (fun g => { g with flags := [(0, 1)]
                           flights := [{ op := 4, flag := 0, slot := 0x1000, writes := ws, fp := 0, fault := none, task := task }] })
def tPacket : LaunchPacket :=
  { type := 0, ctrl := 0, index := 0, zero := 0, record := 0x1000, dep := 0, cw := 0, args := 0 }
/-- Group 1 waits for the walk of a read of virtual address 0, whose page entry's low bytes are as given. -/
def walking (entry : Tab Byte) (request : Option Nat) : State :=
  withG (fun g => { g with parked := some { needs := [(0, .read)], request := request, since := 0 } }) { cState with
    mem := cState.mem ++ [(0x400000, 3), (0x400002, 0x80)] ++ entry
    now := 50000 }
/-- What the walks of a parked group come to: how many faults, and the entry and address that the host is asked for. -/
def walked (s : State) : Nat × Option (Nat × Nat) :=
  let r := s.walkAll ((g1 s).who 1) [(0, .read)] []
  (r.1.length, r.2.1)
theorem wit_OperationsLand : (g1 (flying .plain)).flights.map (fun f => f.op) = [4] ∧
    ({ flying (.seal 0x600000 none) with appends := [(0x600000, { size := 65536, sealed := true, final := 9 })] }).sealedLength
      0x600000 = some 9 ∧
    (flying (.append 0x600000 0)).appendAccepted 0x600000 0 = true ∧
    Tab.read [] (flying (.purge 0x600000 65536 true)).purges 0x600000 = [] ∧
    (g1 (flying (.invalidate none 0 65536 0 0))).earlierInvalidate 4 = false ∧
    ((flying (.klaunch 0 tPacket 1 (some 5))).queue 0).fifo.length < 256 ∧ cState.groupResident cGroup = true ∧
    cState.groupStopped cGroup = false ∧ cState.contextRuns cGroup.ctx = true ∧
    walked (walking [(0x800000, 0x65), (0x800002, 0xA0)] none) = (0, none) ∧
    walked (walking [(0x800001, 1)] none) = (1, none) ∧ walked (walking [] none) = (0, some (0x800000, 0)) ∧
    ((walking [] none).askHost 1 0x800000 0).isSome = true ∧
    (let s := { walking [] (some 0x800000) with requests := [{ ctx := 1, entry := 0x800000, page := 0 }] }
     s.ops = [] ∧ (g1 s).parked.map (fun p => p.request) = some (some 0x800000) ∧ (s.cluster 1).map (fun c => c.state) = some .started ∧
     (s.team 1).bind (fun t => t.cluster) = some 1 ∧ (0 : Nat) + 50000 ≤ s.now) := by decide +kernel
theorem test_operation_complete : (match exec (.operationComplete 1 4) (flying .plain [.scalar 5 9]) with
    | .next t => some ((g1 t).s 5, (g1 t).flag 0, (g1 t).flights.isEmpty)
    | _ => none) = some (9, 0, true) := by decide +kernel
theorem test_host_walk : (match exec (.mtuWalkComplete 1) (walking [] none) with
    | .next t => some ((g1 t).parked.map (fun p => p.request), t.requests.map (fun r => r.entry))
    | _ => none) = some (some (some 0x800000), [0x800000]) := by decide +kernel
/-! ## Energy, tokens and the host -/

/-- The first clause at 0x3000 is a VADD.u32 of 16 lanes, for 2 tokens, and an EXIT; core 0 has no tokens. -/
def poorState : State :=
  withG (fun g => { g with clause := none, pc := 0x3000, age := 0 }) { cState with
    now := 1000000
    cores := [(0, { tlb := [tEntry, tPage] })]
    mem := cState.mem ++ [(0x203000, 0x02), (0x203001, 0xC5), (0x203002, 1), (0x203003, 2), (0x203005, 0x80), (0x203007, 0x10),
      (0x203014, 0x87), (0x203015, 0xC0), (0x203016, 1), (0x203022, 0x80), (0x203028, 0x80), (0x203029, 0xC0), (0x20302A, 1),
      (0x20303C, 0x80), (0x20303E, 0xF0), (0x20303F, 0x0F)] }
/-- The same die with other fields. -/
def withDie (f : Die → Die) (s : State := cState) : State := { s with dies := Tab.modify s.dies 0 f }
/-- Pounds 0 to 15 of die 0 are off. -/
def darkState : State :=
  { withDie (fun d => { d with ring := (List.range 16).map (fun i => 10 * i), mint := 4001, mintLeft := 2 }) with
    pounds := (List.range 16).map (fun p => (p, { state := .railoff })) }

theorem wit_Mints : (Tab.find poorState.dies 0).map (fun d => (d.interval, d.resetStep)) = some (0, 0) ∧
    0 < poorState.now / 1000 ∧ (Tab.find (withDie (fun d => { d with resetStep := 3 }) poorState).dies 0).isSome = true ∧
    poorState.hub.railBusy = false := by decide +kernel
theorem test_mints : (match exec (.controlInterval 0 799999999) poorState with
    | .next t => some ((t.die 0).mint, (t.die 0).interval)
    | _ => none) = some (6250000, 1000) := by decide +kernel
theorem wit_ClaimsAndRing : (poorState.core 0).claim = none ∧
    (poorState.oldestClause 0).map (fun p => (p.1.age, p.2)) = some (0, 2) ∧ (poorState.core 0).purse < 2 ∧
    0 + 16 ≤ poorState.now ∧ (eState.core 0).engineClaim = none ∧
    (({ withOp { mmaBig with hungry := some 0 } with
        now := 16, cores := Tab.modify eState.cores 0 (fun c => { c with enginePurse := 95 }) }).starved 0) = some 96 ∧
    (poorState.part 1).map (fun p => p.energyAt) = some 0 ∧ 0 < poorState.now / 1000000 ∧
    (Tab.find darkState.dies 0).map (fun d => d.ring.length) = some 16 ∧
    (List.range 16).all (fun p => (darkState.takers 0 p).isEmpty) = true ∧
    0 + (some 5 : Option Nat).getD 0 ≤ 4096 := by decide +kernel
theorem test_claim : (match exec (.claim 0 false) poorState with
    | .next t => some ((t.core 0).claim)
    | _ => none) = some (some 2) := by decide +kernel
theorem test_ring : (match exec (.stationDelivery 0) darkState with
    | .next t => some (((t.die 0).ring).take 3, (t.die 0).mintLeft)
    | _ => none) = some ([152, 0, 10], 0) := by decide +kernel

/-- Line 0x8000 (address 0x400000 of die 0), recalled at 0, held in part by core 1 and with clean bytes. -/
def tokState (t : LineTokens) : State :=
  { withDie (fun d => { d with rwb := [{ line := 0x8000, bytes := [(0, 7)], since := 0, groups := [(1, 0x400000)] }] }) with
    tokens := [(0x8000, t)], now := 5000 }
theorem wit_TokensMove : homeDie (0x8000 * 128) = some (coreDie 0) ∧ (tokState {}).errorReply (0x8000 * 128) = false ∧
    ((tokState {}).lineTokens 0x8000).persistent = [] ∧ ((tokState {}).lineTokens 0x8000).holds 0 true = false ∧
    ((tokState {}).lineTokens 0x8000).holds 0 false = false ∧ (tokState {}).gatedCore 0 = false ∧
    Tab.read 0 ((tokState {}).lineTokens 0x8000).tries 0 < 5 ∧
    5 ≤ Tab.read 0 ((tokState { tries := [(0, 5)] }).lineTokens 0x8000).tries 0 ∧
    ((tokState { persistent := [(1, false)] }).lineTokens 0x8000).persistent = [(1, false)] ∧ (0, true) ∉ [((1 : Nat), false)] ∧
    ((tokState { persistent := [(0, true), (1, false)] }).lineTokens 0x8000).persistent = [(0, true), (1, false)] ∧
    (((tokState {}).rwb 0).find? (fun x => x.line = 0x8000)).isSome = true ∧
    ((tokState { recalled := some 0 }).lineTokens 0x8000).recalled = some 0 ∧ 0 + 5000 ≤ (tokState {}).now := by decide +kernel
theorem wit_TokenCounts : Tab.wf 0 ({ held := [(0, 1), (1, 255)] } : LineTokens).held = true ∧
    (([(0, 1), (1, 255)] : Tab Nat).map Prod.snd).sum ≤ 256 ∧ (1 : Nat) ≠ 0 := by decide +kernel
theorem test_writer : (({ held := [(0, 1), (1, 255)] } : LineTokens).forWrite 2).held = [(2, 256)] := by decide +kernel
theorem test_drain : (match exec (.remoteWriteDrain 0 0x8000) (tokState {}) with
    | .next t => some (t.byte 0x400000, (t.rwb 0).length)
    | _ => none) = some (7, 0) := by decide +kernel

/-- The host holds half 0x8040 of device memory, and half 0x10000 is being taken back from it. -/
def hostState : State :=
  { cState with hostHeld := [(0x8040, true), (0x10000, true)], snoops := [{ half := 0x10000, since := 0, writes := [] }]
                agent := [(0x100000000000, .modified)], now := 20000 }
/-- The AP page at 0x600000 is sealed, and the host has unmapped its page of context 1. -/
def sealedState : State := { cState with appends := [(0x600000, { size := 65536, sealed := true, final := 9, maps := [(1, 0x400000)] })] }
theorem wit_HostAccesses : cState.errorReply (hdmAddress 0x201000) = false ∧
    cState.errorReply (hdmAddress 0x201000 / 64 * 64) = false ∧ Tab.find cState.bound (hdmAddress 0x201000 / 65536) = none ∧
    (List.replicate 64 (1 : Byte)).length ≤ 64 - hdmAddress 0x201000 % 64 ∧ cState.snoops = [] ∧
    Tab.read false hostState.hostHeld (hdmAddress 0x201000 / 64) = true ∧
    (hostState.snoops.find? (fun y => y.half = 0x10000)).map (fun x => (x.since, x.asked)) = some (0, true) ∧
    cState.hostBarred (hdmAddress 0x201000) = false ∧ sealedState.hostBarred 0x600000 = true ∧
    sealedState.errorReply 0x600000 = false ∧ hostState.hostBarred (0x10000 * 64) = false ∧
    ({ cState with bound := [(8, 1)] }).hostBarred (0x2000 * 64) = true ∧ cState.hub.ide = [] ∧
    cState.unmappedPages [1] 0x400000 65536 = [] ∧ sealedState.unmappedPages [1] 0x400000 65536 = [(0x600000, 65536)] ∧
    cState.teams.all (fun p => !cState.holdsImage 0x8000 p.2) = true ∧ hostState.now ≤ 0 + 20000 ∧
    (List.replicate 64 (1 : Byte)).length = 64 ∧ Tab.find hostState.bound (0x10000 * 64 / 65536) = none ∧
    region (0x100000000000 * 64) = .host ∧ Tab.read CxlState.invalid hostState.agent 0x100000000000 ≠ .invalid ∧
    (cState.team 1).map (fun t => (t.core, t.scratchSize)) = some (0, 4096) ∧ 31 * 128 < 4096 ∧ cGroup.core = 0 ∧
    63 < cGroup.vregs ∧ 15 < cGroup.width := by decide +kernel
theorem test_host_read : (match exec (.hostMemoryAccess 0x201000 .read) cState with
    | .next t => (match t.sent with
      | [.hostData bs poison] => some (bs.take 2, bs.length, poison)
      | _ => none)
    | _ => none) = some ([0x21, 0x43], 64, false) := by decide +kernel
theorem test_ecc_poison : (match exec (.uncorrectableError (.coreStore 0 0x8000)) cState with
    | .next t => some (t.poisoned 0x8000, ((t.die 0).health 0).demerits)
    | _ => none) = some (true, 1) := by decide +kernel
/-! ## Launches -/

/-- The record of the tests without HOLDMAX, which level 0 does not take (R40). -/
def frRecord : LaunchRecord := { tRecord with holdmax := 0 }
/-- Queue 0 is bound to context 1, registered entry 3 holds a record of it, and virtual address 0 maps to 0xA00000. -/
def frState : State :=
  { State.reset with
    parts := [(1, tPart)], ptroots := [(1, 0x400001)], mem := [(0x400000, 3), (0x400002, 0x80), (0x800000, 0x65), (0x800002, 0xA0)]
    hub := { State.reset.hub with queues := [(0, { ctx := some 1 })], entries := [(3, { record := frRecord, ctx := 1 })] } }
/-- A packet that launches registered entry 3, or the record at an address. -/
def byEntry : LaunchPacket := { tPacket with type := 2, index := 3, record := 0 }
def byRecord : LaunchPacket := { tPacket with type := 1, record := 0x1000 }
def kl (a b c : BitVec 6) (mod : BitVec 28) : Slot :=
  lng { sl with ty := .b32, d0 := .scalar 5, a := .scalar a, b := .scalar b, c := .scalar c, mod := mod }
/-- What a KLAUNCH's record of 256 bytes comes to. -/
def klRoute (a : Nat) : Nat × Nat :=
  routes (cState.routeOne (cGroup.who 1) cGroup.walkFaults .read .any a 256)
/-- What an accepted packet comes to: how many launches wait in queue 0, and the message sent. -/
def accepted (p : LaunchPacket) (s : State) : Nat × Nat :=
  let r := s.accept 0 1 p
  ((r.2.queue 0).fifo.length, r.2.launches.length)
def readOf (p : LaunchPacket) (s : State) : Option Nat × Bool × Bool :=
  let x := (s.readPacket 1 p).1
  ((s.packetCode p x 1 true).1, x.record.isSome, x.entry.isSome)
def lostState : State :=
  { frState with bound := [(5, 1)], hub := { frState.hub with tdisp := .error } }

theorem wit_LaunchAcceptance : quiet cState = true ∧
    [kl 4 0 0 0, kl 2 0 0 1, kl 1 0 0 0, kl 13 0 0 0, kl 14 0 0 0].all (fun w => isReady (.klaunch w) cState) = true ∧
    klRoute 0x1000 = (0, 0) ∧ klRoute 0x300000 = (1, 0) ∧ klRoute 0x200000000000000 = (2, 0x10) ∧ cGroup.refused = none ∧
    (frState.queue 0).ctx = some 1 ∧ (frState.part 1).map (fun c => c.pasid) = some 5 ∧ (frState.queue 1).ctx = none ∧ frState.hub.ide = [] ∧
    byEntry.launches = true ∧ byRecord.launches = true ∧
    lostState.contextLostNow 1 = true ∧ frState.contextLostNow 1 = false ∧
    256 ≤ (({ frState with hub := { frState.hub with queues := [(0, { ctx := some 1, fifo := List.range 256 })] } }).queue 0).fifo.length ∧
    readOf byEntry frState = (none, true, true) ∧ readOf { byEntry with index := 4 } frState = (none, false, false) ∧
    readOf { byRecord with cw := 1 } frState = (some 0x12, true, false) ∧ readOf byRecord frState = (none, true, false) ∧
    frState.launchCode 1 byRecord (readRecord []) = some 0x01 ∧ frState.launchCode 1 byEntry frRecord = none ∧
    firstFailing frRecord.checks = none ∧ frState.placeable 1 frRecord = true ∧
    firstFailing { frRecord with vregs := 3 }.checks = some 0x02 ∧ (0x02, false) ∈ { frRecord with vregs := 3 }.checks ∧
    ({ frState with parts := [(1, { tPart with dies := 0 })] }).placeable 1 frRecord = false := by decide +kernel
theorem test_accept : accepted byEntry frState = (1, 1) ∧ accepted byRecord frState = (0, 0) := by decide +kernel
theorem test_klaunch : (run (.klaunch (kl 4 0 0 0)) cState).map (fun t => (g1 t).flights.map (fun f => f.task)) =
    some [.klaunch 0 { type := 1, ctrl := 0, index := 0, zero := 0, record := 0x1000, dep := 0, cw := 0, args := 0 } 1 (some 5)] := by
  decide +kernel
theorem test_drop : (match exec (.launchByRecord 0 4 byRecord) frState with
    | .next t => some (t.queue 0).drop
    | _ => none) = some 1 := by decide +kernel

/-- The launch of entry 3, sequence number 1, after its acceptance; it has 2 clusters. -/
def readyState : State :=
  ({ frState with hub := { frState.hub with entries := [(3, { record := { frRecord with gridx := 2 }, ctx := 1 })] } }.accept 0 1
    byEntry).2
def withLaunch (f : Launch → Launch) (s : State := readyState) : State := s.modLaunch 1 f
def tWatch : Watch := { pa := 0x400000, wide := false, cond := 0, ref := 1, scope := 4, home := none, hit := none }
theorem wit_LaunchesMove : (readyState.launch 1).map (fun l => (l.state, l.sent)) = some (.ready, 0) ∧
    (match (withLaunch (fun l => { l with state := .waiting })).launch 1 with
      | some l => l.state = .waiting && (readyState.dependenceMet l).1
      | none => false) = true ∧
    (match readyState.launch 1 with
      | some l => readyState.servesNow 1 l && ((readyState.chooseDie l.record (readyState.sendDies 1)).map Prod.fst == some 0)
      | none => false) = true ∧
    ((withLaunch (fun l => { l with state := .resolving })).launch 1).map (fun l => l.state) = some .resolving ∧
    readyState.clusters.isEmpty = true ∧ readyState.checks.isEmpty = true ∧
    ((((readyState.drainAll 0).drainAll 1).drainAll 2).drainAll 3 |>.drainAll 4).snoopsOwed = false ∧
    ({ readyState with snoops := [{ half := 5, since := 0, writes := [(320, 1)] }] }).snoopsOwed = true ∧
    ((withLaunch (fun l => { l with state := .waiting, watch := some { tWatch with hit := some 1 } })).launch 1).bind
      (fun l => l.watch.map (fun w => w.hit)) = some (some 1) ∧ [0, 1, 2, 3].Pairwise (· < ·) := by decide +kernel
theorem test_cluster_send : (match exec (.clusterSend 1) readyState with
    | .next t => some (t.clusters.map (fun p => (p.2.index, p.2.die)), (t.launch 1).map (fun l => (l.state, l.sent)))
    | _ => none) = some ([(0, 0)], some (.placing, 1)) := by decide +kernel
theorem test_launch_complete : (match exec (.launchComplete 1) (withLaunch (fun l => { l with state := .resolving, traps := 2, cw := 0x40 })) with
    | .next t => some (t.bytes 0xA00040 8)
    | _ => none) = some [1, 0, 0, 0, 0, 2, 0, 1] := by decide +kernel
/-! ## Placement, checks and health -/

/-- The state after an event. -/
def act (i : Instr) (s : State) : State :=
  match exec i s with
  | .next t => t
  | _ => s
/-- A launch of one-core clusters at a priority, accepted with number seq. -/
def withEntry (r : LaunchRecord) (s : State) : State :=
  (s.modHub (fun h => { h with entries := [(3, { record := r, ctx := 1 })] })).accept 0 1 byEntry |>.2
/-- Context 1 may use one core of die 0; its first cluster stands at the distributor with key 1. -/
def sentState : State :=
  act (.clusterSend 1) (withEntry { frRecord with scratch := 786432 } { frState with parts := [(1, { tPart with dies := 1, cores := [1, 0, 0, 0] })] })
/-- It has started on core 0, the only one of die 0 in use; a cluster of priority 3 has waited for 2 µs at the distributor. -/
def startedState : State := act (.teamAdmit 1 0 0) sentState
def crowded : State :=
  { act (.clusterSend 2) (withEntry { frRecord with prio := 3 } startedState) with
    now := 2000, dies := Tab.modify startedState.dies 0 (fun d => { d with disabled := ~~~1 }) }
/-- The key of the cluster of launch 2. -/
def secondKey : Nat := ((crowded.clusters.find? (fun p => p.2.launch = 2)).map Prod.fst).getD 0

/-- What offering a cluster an origin comes to: whether the rectangle is legal, and whether it may start there. -/
def offerOf (s : State) (ck x y : Nat) : Option (Bool × Bool) :=
  match s.cluster ck with
  | some c => (match s.launch c.launch with
    | some l => (match (s.die c.die).placement l.record x y with
      | some ms => some (true, s.admits c l ms [] && !s.runAhead c.launch l (ms.map (fun i => c.die * 144 + i)))
      | none => some (false, false))
    | none => none)
  | none => none
def withCluster (f : Cluster → Cluster) (s : State := startedState) : State := s.modCluster 1 f
theorem wit_ClustersPlaced : offerOf sentState 1 0 0 = some (true, true) ∧
    (sentState.cluster 1).map (fun c => (c.state, c.origin)) = some (.distributor, none) ∧
    offerOf crowded secondKey 0 0 = some (true, false) ∧ memberGroups 1 0 1 ≤ 64 ∧
    (crowded.cluster secondKey).map (fun c => c.origin) = some none ∧
    (let s := withCluster (fun c => { c with state := .pound 0, origin := some (0, 0) }) sentState
     offerOf s 1 0 0 = some (true, true) ∧ (s.cluster 1).map (fun c => (c.state, c.origin)) = some (.pound 0, some (0, 0))) ∧ (crowded.pound (originPound 0 0 0)).lock = false ∧
    (startedState.cluster 1).map (fun c => (c.state, c.origin)) = some (.started, some (0, 0)) ∧
    (match (withCluster (fun c => { c with state := .evicted })).cluster 1 with
      | some c => c.origin = some (0, 0) && c.state = .evicted
      | none => false) = true ∧
    ((withCluster (fun c => { c with stopped := some .swap })).cluster 1).map (fun c => (c.state, c.stopped)) =
      some (.started, some .swap) ∧
    (match (withCluster (fun c => { c with stopped := some .swap })).cluster 1 with
      | some c => !startedState.unanswered c
      | none => false) = true := by decide +kernel
theorem wit_ClustersPlaced_evict : (match crowded.cluster secondKey, crowded.launch 2 with
      | some c, some l => c.state.unstarted && (c.state != .frontEnd) && (l.record.prio = 3) && decide (c.since + 2000 ≤ crowded.now) &&
          ((crowded.die c.die).placement l.record 0 0 == some [0]) && (crowded.stoppedFor secondKey).isEmpty &&
          origins.all (fun o => match (crowded.die c.die).placement l.record o.1 o.2 with
            | some m => !crowded.siteTakes [] (l.record.asks c.die m)
            | none => true) &&
          (crowded.evictionFor c l [0] == some [1])
      | _, _ => false) = true := by decide +kernel
/-- A saved cluster, its team not resident, can be admitted again. -/
def savedState : State :=
  { withCluster (fun c => { c with state := .evicted }) with
    teams := Tab.mapWith (fun k t => if k = 0 then t else { t with residency := .evicted, energy := 0, current := 0 }) startedState.teams }
theorem wit_ClustersPlaced_resume : (match savedState.cluster 1, savedState.launch 1 with
      | some c, some l => savedState.takes c.die l.ctx []
          ((c.teams.filterMap (fun t => (savedState.team t).map (fun z => (t, z)))).map (fun p => savedState.askAgain l.record p.2))
      | _, _ => false) = true ∧
    (0 : Nat) / 16 = 1 / 16 ∧ sentState.lockOpen 0 = true ∧ sentState.lockOpen 1 = true ∧ sentState.dieAccepts 0 = true ∧
    sentState.hasAdmissible 0 = false ∧ sentState.shipment 0 0 1 [] = [] := by decide +kernel
theorem test_team_admit : startedState.teams.map (fun p => (p.2.core, p.2.groups.length)) = [(576, 1), (0, 1)] ∧
    (startedState.groups.map (fun p => (p.2.pc, p.2.width))).getLast? = some (0x1000, 16) := by decide +kernel

def tRun (team : Option Nat) (sig : Word) (exited : Bool) : Run := { core := 0, team := team, storeSig := sig, exited := exited }
def tCheck (state : CheckState) (rs : List Run) : Check :=
  { die := 0, id := 1, launch := 1, teamId := 0, clusterId := 0, member := 0, members := 1, ctx := 1, state := state, runs := rs }
/-- Launch 1 checks its teams at level 5 under policy 2 with HOLDMAX 1 µs; check 1 is open. -/
def checkState (c : Check) : State :=
  (act (.clusterSend 1) (withEntry { frRecord with redund := 0x15, holdmax := 1 } frState)) |> fun s =>
    { s with checks := [(1, c)], now := 5000 }
def replaying (sig : Word) : Check := tCheck .replay [tRun none 5 true, { tRun none sig true with core := 1 }]
def voting (a b t : Word) : Check :=
  tCheck .vote [tRun none a true, { tRun none b true with core := 1 }, { tRun none t true with core := 2 }]
theorem wit_ChecksResolve : (checkState (replaying 5)).check 1 = some (replaying 5) ∧ (replaying 5).perturbed = false ∧
    (replaying 5).pair = none ∧ (tRun none 5 true).exited = true ∧ (tRun none 5 true).storeSig ≠ (tRun none 6 true).storeSig ∧
    (voting 5 6 5).state = .vote ∧ (checkState (voting 5 6 7)).check 1 = some (voting 5 6 7) ∧
    (checkState (replaying 5)).policyOf 1 = 2 ∧
    ((checkState { replaying 5 with exitedAt := some 4000 }).launch 1).map (fun l => l.record.holdmax) = some 1 ∧
    4000 + 1000 * 1 ≤ (checkState (replaying 5)).now := by decide +kernel
theorem test_resolve_vote : (((act (.checkResolve 1) (checkState (voting 5 6 5))).die 0).health 1).demerits = 1 ∧
    (act (.checkResolve 1) (checkState (voting 5 6 5))).checks = [] := by decide +kernel
theorem wit_ClustersPlaced_replica : (let s := checkState (tCheck .queued [tRun none 5 true])
    (s.stoppedRun (tCheck .queued [tRun none 5 true]) 100).isNone && ((tCheck .queued [tRun none 5 true]).wantsRun == some 1) &&
    (match s.launch 1 with
      | some l => s.laterAllowed (tCheck .queued [tRun none 5 true]) l 1 100
      | none => false)) = true := by decide +kernel
/-! ## Health, links and the platform -/

/-- The machine after reset with fields of the hub set. -/
def hubIs (f : Hub → Hub) : State := { State.reset with hub := f State.reset.hub }
def atDie (f : Die → Die) (s : State := State.reset) : State := { s with dies := Tab.modify s.dies 0 f }
def tInject : Inject := { arm := true, runs := 0, pipe := 0, site := 0, lane := 1, bit := 3, count := 1 }
def testCore (mace : Option Nat) : State := { State.reset with cores := [(5, { mace := mace })] }
theorem wit_HealthEvents : (atDie (fun d => { d with fencePending := 1 })).coreBound 0 = false ∧
    ((atDie (fun d => { d with fencePending := 1 })).die 0).fencePending.getLsbD 0 = true ∧
    (let s := { State.reset with now := 604800000000000 }
     (s.hub.decays + 1) * 604800 ≤ s.poweredSeconds ∧ (Tab.find s.dies 0).map (fun d => Tab.wf ({} : SiteHealth) d.sites) = some true) ∧
    ((testCore none).core 5).mace = none ∧ (testCore none).maceIdle 5 = true ∧ (testCore none).maceNext 5 = true ∧
    ((testCore (some 3)).core 5).mace = some 3 ∧
    (hubIs (fun h => { h with snapshots := [{ lastSeq := 4, bytes := [1, 2, 3] }] })).hub.snapshots.length = 1 ∧
    ((atDie (fun d => { d with injen := true })).die 0).injen = true ∧
    (let w := vc .u32 (v 10) (v 1) (v 2) (v 0)
     let s := atDie (fun d => { d with injen := true, inject := tInject }) cState
     s.injectionFor cGroup w = some tInject ∧ (Tab.find s.dies (coreDie cGroup.core)).isSome = true ∧
     cState.injectionFor cGroup w = none ∧ w.sf = .none) := by decide +kernel
theorem test_injection : v10 (.vadd (vc .u32 (v 10) (v 1) (v 2) (v 0))) (atDie (fun d => { d with injen := true, inject := tInject }) cState)
    = some (10, 9 + 3 ^^^ 8) := by decide +kernel
theorem test_demerit_decay : (((act .demeritDecay { atDie (fun d => { d with sites := [(4, { demerits := 2 })] }) with
    now := 604800000000000 }).die 0).health 4).demerits = 1 := by decide +kernel
theorem test_mace_failed : (let t := act (.maceSegment 5 0 .failed) (testCore (some 3))
    ((t.die 0).health 5).maceFail = 8 ∧ ((t.die 0).health 5).demerits = 3) := by decide +kernel
theorem wit_SignedRecord : State.reset.hub.events.length ≤ 29 := by decide +kernel

/-- Port 2 belongs to context 1 and is up; offset 0 of its peer window is virtual address 0. -/
def linkState (x : PortState) : State :=
  { frState with parts := [(1, { tPart with ports := 4, window := [0x8000000000000000#64] })], hub := { frState.hub with ports := [(2, x)] } }
theorem wit_LinksAndInterface : State.reset.hub.tdisp = .unlocked ∧ (hubIs (fun h => { h with tdisp := .locked })).hub.tdisp = .locked ∧
    (hubIs (fun h => { h with tdisp := .run })).hub.tdisp = .run ∧ (hubIs (fun h => { h with tdisp := .error })).hub.tdisp = .error ∧
    Tab.read PortState.down State.reset.hub.ports 2 ≠ .up ∧ Tab.read PortState.down (linkState .up).hub.ports 2 = .up ∧
    ((linkState .up).portOwner 2).map (fun p => p.1) = some 1 ∧
    (hubIs (fun h => { h with session := .established })).hub.session = .established ∧
    State.reset.hub.session ≠ .established ∧ (linkState .up).hub.peerFailed = [] ∧
    ((linkState .up).drainAll 4).snoopsOwed = false ∧ (((linkState .up).drainAll 4).portOwner 2).map (fun p => p.1) = some 1 ∧
    (hubIs (fun h => { h with peerFailed := [(2, 0)] })).hub.peerFailed.contains (2, 0) = true ∧
    (({ linkState .up with snoops := [{ half := 5, since := 0, writes := [(320, 1)] }] }).drainAll 4).snoopsOwed = true ∧
    (((linkState .up).portOwner 2).bind (fun p => p.2.windowAddress 0)) = some 0 := by decide +kernel
/-- Whichever stream a TLP comes on, it can be one in the error state. -/
theorem wit_LinksAndInterface_stream (s : State) :
    (Tab.read {} [(0, { err := true }), (1, { err := true }), (2, { err := true }), (3, { err := true }), (4, { err := true })]
      (s.freeNat.1 % 5) : IdeStream).err = true := by
  have h : s.freeNat.1 % 5 < 5 := Nat.mod_lt _ (by decide)
  generalize s.freeNat.1 % 5 = n at h
  revert n
  decide
theorem test_peer_arrival : ((act (.peerCopyArrival 2 0 { bytes := [7, 8] } false) (linkState .up)).byte 0xA00001) = 8 := by decide +kernel
theorem test_lock : (act .lockInterfaceRequest State.reset).hub.tdisp = .locked := by decide +kernel

/-- The firmware update interface names an image of 256 bytes in HBM. -/
def fwState : State := { hubIs (fun h => { h with fwAddr := 0x10000, fwLen := 256 }) with mem := [(0x10011, 1)] }
theorem wit_ResetsAndFirmware : State.reset.hub.staged = none ∧
    (hubIs (fun h => { h with staged := some firmwareImage })).hub.staged = some firmwareImage ∧
    (hubIs (fun h => { h with boot := .recovery })).hub.boot = .recovery ∧
    (fwState.imageAt fwState.hub.fwAddr.toNat fwState.hub.fwLen.toNat).1.isSome = true ∧
    (State.reset.dies.all (fun p => p.2.resetStep == 0)) = true ∧
    (hubIs (fun h => { h with boot := .recovery })).hub.rcvImage = none ∧
    (hubIs (fun h => { h with boot := .recovery, rcvImage := some firmwareImage })).hub.rcvImage = some firmwareImage ∧
    State.reset.hub.boot = .running ∧ (State.reset.imageAt 0 0).1.isNone = true ∧ (2 : BitVec 64) ≠ 1 ∧
    (((atDie (fun d => { d with resetStep := 2 })).dies).any (fun p => p.2.resetStep != 0)) = true ∧
    ({ atDie (fun d => { d with resetStep := 3 }) with snoops := [{ half := 0x2000, since := 0, writes := [] }] }).writebackDone 0 =
      false ∧
    [1, 2, 3, 4, 5, 6].all (fun n => ((atDie (fun d => { d with resetStep := n })).die 0).resetStep == n) = true ∧
    (atDie (fun d => { d with resetStep := 3 })).writebackDone 0 = true := by decide +kernel
theorem test_die_reset : ((act (.drStepEnd 0) (act (.drCtl 0 1) State.reset)).die 0).resetStep = 2 := by decide +kernel

/-- A hub group stands stopped at its DBRK. -/
def stoppedState : State :=
  { (slotState (word 0x388 0 0 0 0 0 0 5 0 0)) with hub := { cState.hub with stopped := [(1, 0x1000)] } }
theorem wit_ManagementWrites : Tab.read 0 State.reset.hub.hcCtx 1 = 0 ∧
    (List.range 16).find? (fun i => !((State.reset.hubGroups 1).map (fun p => p.2.gid)).contains i) = some 0 ∧
    stoppedState.hub.stopped = [(1, 0x1000)] ∧ ({ g1 stoppedState with debugStop := false }.hereSlot).isSome = true ∧
    (Tab.find State.reset.dies 0).map (fun d => (Tab.read [] d.pool64 1).length) = some 0 ∧ region 0x200000 = .hbm 0 ∧
    0x200000 % 65536 = 0 ∧ 0x200000 % 2097152 = 0 ∧ (State.reset.queue 0).fifo = [] ∧ region 0xF800000000008 = .management ∧
    (0xF800000000008 : Nat) % 8 = 0 := by decide +kernel
theorem test_hc_go : ((act (.hcGo 1 0x2000) State.reset).groups.map (fun p => (p.2.core, p.2.pc))) =
    [(576, 0x100), (577, 0x2000)] := by decide +kernel
theorem wit_QueueBinding : (frState.queue 0).ctx = some 1 ∧ (readyState.queue 0).fifo = [1] ∧ (State.reset.queue 0).fifo = [] ∧
    Tab.wf {} State.reset.hub.queues = true ∧ (State.reset.queue 63).ctx = none := by decide +kernel
theorem test_q_bind : (act (.qBind 7 0x8000000000000002#64) State.reset).readHubReg (0x600 + 8 * 7) = 0x8000000000000002#64 := by
  decide +kernel

/-- A descriptor at 0x10000: context 2 on die 0, no handler, its vault map at 0x20000 and its peer window at 0x30000. -/
def descState : State :=
  { State.reset with
    hub := { State.reset.hub with ptArg := 0x10000 }
    mem := [(0x10000, 2), (0x10001, 1), (0x10002, 8), (0x10052, 2), (0x1005A, 3)] }
theorem leNat_zeros (bs : List Byte) (h : ∀ b ∈ bs, b = 0) : leNat bs = 0 := by
  induction bs with
  | nil => rfl
  | cons b bs ih =>
    rw [leNat, ih (fun x hx => h x (List.mem_cons_of_mem _ hx)), h b List.mem_cons_self]
    rfl
theorem zero_map (pa n : Nat) (hpa : 0x10100 ≤ pa) : ∀ bs, (descState.recordAt pa n).1 = some bs → ∀ off k, field bs off k = 0 := by
  intro bs hb off k
  refine leNat_zeros _ (fun b hx => ?_)
  have hm := List.mem_of_mem_drop (List.mem_of_mem_take hx)
  unfold State.recordAt at hb
  split at hb
  · simp at hb
  · split at hb
    · simp at hb
    · split at hb
      · simp at hb
      · simp only [Option.some.injEq] at hb
        subst hb
        simp only [List.mem_map] at hm
        obtain ⟨i, -, rfl⟩ := hm
        have h : descState.snoopedByte (pa + i) = none := rfl
        have hl : descState.lateWords.find (pa + i) = none := rfl
        rw [State.homeByte, h, hl, Option.none_or, Option.getD_none]
        have far : ∀ a, a < 0x10100 → a ≠ pa + i := fun a ha => by omega
        simp [State.byte, Tab.read, Tab.find, descState, far, emptyByte]
/-- The vault map and the peer window of the descriptor hold zeros, and so bind nothing. -/
theorem wit_PartitionCommands_map : ∀ bs, (descState.recordAt 0x20000 4096).1 = some bs →
    let ms := (List.range 2048).map (fun i => field bs (2 * i) 2)
    (∀ e ∈ ms, granuleOk e = true) ∧ ∀ i, i < 4 → descState.mapFits 1 ms i = true ∧ 2 * 0 ≤ shadowCount ms i := by
  intro bs hb ms
  have hz : ms = List.replicate 2048 0 := by
    simp only [ms]
    rw [List.eq_replicate_iff]
    refine ⟨by simp, fun e he => ?_⟩
    simp only [List.mem_map] at he
    obtain ⟨i, -, rfl⟩ := he
    exact zero_map _ _ (by decide) _ hb _ _
  have hn : ∀ i, nth 0 ms i = 0 := by
    have go : ∀ n i, nth 0 (List.replicate n 0) i = 0 := by
      intro n
      induction n with
      | zero => exact fun _ => rfl
      | succ n ih => exact fun i => by cases i <;> simp [List.replicate_succ, nth, ih]
    exact hz ▸ go 2048
  have hb : ∀ d, boundEntries ms d = [] := by
    intro d
    simp [boundEntries, hn, bit]
  refine ⟨fun e he => ?_, fun i hi => ⟨?_, by omega⟩⟩
  · rw [hz] at he
    rw [List.eq_of_mem_replicate he]
    decide
  · have hg : descState.boundGranules i = [] := by
      rcases i with _ | _ | _ | _ | i <;> first | decide +kernel | omega
    simp [State.mapFits, hb, hg, noRepeat]
/-- Partition 1 of the tests at a state. -/
def partIs (x : PartState) (since : Option Nat) (now : Nat) : State :=
  { frState with parts := [(1, { tPart with state := x, haltedAt := since })], now := now }
theorem wit_PartitionCommands : (hubIs (fun h => { h with ptBusy := true })).hub.ptBusy = true ∧ State.reset.hub.ptBusy = false ∧
    State.reset.part 2 = none ∧ inHbm descState.hub.ptArg.toNat 256 = true ∧
    (match (descState.recordAt descState.hub.ptArg.toNat 256).1 with
      | some bs =>
        let d := readDesc bs
        (d.ok && d.ctx == 2 && d.vmap == 0x20000 && d.peerwin == 0x30000 && d.part.ports == 0 && d.part.dies == 1)
      | none => false) = true ∧
    (descState.recordAt 0x20000 4096).1.isSome = true ∧ (descState.recordAt 0x30000 128).1.isSome = true ∧ granuleOk 0 = true ∧
    windowOk 0 = true ∧
    ((partIs .halting none 0).part 1).map (fun p => p.state) = some .halting ∧ (partIs .halting none 0).partitionHalted 1 = true ∧
    ((partIs .switchedOut none 0).part 1).map (fun p => p.state) = some .switchedOut ∧
    (partIs .switchedOut none 0).savedTeams 1 = [] ∧
    ((partIs .saving (some 5) 20004).part 1).map (fun p => (p.state, p.haltedAt)) = some (.saving, some 5) ∧
    (partIs .saving (some 5) 20004).now < 5 + 20000 ∧ 5 + 20000 ≤ (partIs .saving (some 5) 20005).now ∧
    ((partIs .switchedIn none 0).part 1).map (fun p => p.watchdog + p.wdog * 1000) = some 1000000 ∧
    (partIs .switchedIn none 0).launches.isEmpty = true ∧
    ({ partIs .switchedIn none 0 with hub := State.reset.hub }).hub.queues.isEmpty = true := by decide +kernel
theorem test_partition : (act (.destroy 2) descState).hub.ptResult = 3 ∧
    ((act (.switchout 1) (partIs .switchedIn none 0)).part 1).map (fun p => p.state) = some .halting := by decide +kernel

/-- Pound 0 of die 0. -/
def poundIs (p : Pound) : State := { State.reset with pounds := [(0, p)], now := 1000000 }
theorem wit_PowerAndRails : State.reset.hub.railBusy = false ∧
    (hubIs (fun h => { h with railVecPending := true })).hub.railMatPending = false ∧
    (hubIs (fun h => { h with railMatPending := true })).hub.railVecPending = false ∧ (hubIs (fun h => { h with railBusy := true })).hub.railBusy = true ∧
    [1, 2].all (fun n => ((poundIs { target := n }).pound 0).state == .run) = true ∧
    (1#64).extractLsb' 0 2 = (1#2) ∧ (1#64).getLsbD 0 = true ∧ (poundIs { hold := 3 }).poundTeams 0 = [] ∧ ((poundIs { hold := 3 }).pound 0).blocks = [] ∧
    ((poundIs { hold := 3 }).pound 0).idleSince + ((poundIs { hold := 3 }).pound 0).autoidle.toNat * 1000 ≤ (poundIs { hold := 3 }).now ∧
    ((poundIs { hold := 3 }).pound 0).autotgt = 1 ∧ (poundIs { state := .drain, lock := true }).poundDrained 0 = true ∧
    (poundIs { state := .drain, lock := true }).ops = [] ∧ ({ cState with pounds := [(0, { state := .drain, lock := true })] }).poundDrained 0 = false ∧
    ((poundIs { state := .clkoff, target := 1 }).pound 0).aim = 1 ∧
    (poundIs { hold := 3 }).clusters.isEmpty = true ∧ (poundIs { hold := 3 }).checks.isEmpty = true ∧
    [PoundState.run, .drain, .quiet, .save, .clkoff, .railoff, .off, .railon, .clkon, .restore].all (fun x => ((poundIs { state := x }).pound 0).state == x) = true ∧
    ((poundIs { state := .clkoff, target := 2 }).pound 0).aim = 2 ∧
    (sentState.clusters.any (fun c => sentState.dispatches 0 c.2)) = true ∧ ((poundIs { hold := 3 }).pound 0).detects = true ∧
    ((poundIs { droop := true }).pound 0).droopSince + ((poundIs { droop := true }).pound 0).hold.toNat * 1000 ≤
      (poundIs { droop := true }).now := by decide +kernel
theorem test_gating : ((act (.pdCtl 0 0 1) (poundIs { hold := 3 })).pound 0).state = .drain ∧
    ((act (.droopFire 0 0) (poundIs { droops := 0xFFFFFFFF })).pound 0).droops = 0xFFFFFFFF := by decide +kernel
/-! ## Waits for tokens and snoops, checks, swap-outs -/

/-- The page of address 0 may be held by cores, and another core's persistent request is admitted on the line of 0x1000. -/
def contested : State :=
  { cState with cores := [(0, { purse := 4000, tlb := [{ tEntry with kind := 1 }, tPage] })]
                tokens := [(0x4020, { persistent := [(1, true)] })] }
/-- The waits of an access of the lanes of a form, for reading and for writing. -/
def contestedBy (w : Slot) : Bool × Bool :=
  let g := g1 contested
  let r := fun kind need => contested.routeLanes g 1 kind need (lanesOf (g.lanes w) g.width) noEarly
    (fun l => [(g.laneAddress w l, accessSize w)])
  ((r .read .any).waits contested (g.who 1) false, (r .write .ordinary).waits contested (g.who 1) true)
/-- The same of one access of the group. -/
def contestedOne (kind : AccessKind) (need : PageNeed) (va n : Nat) (write : Bool) : Bool :=
  match contested.routeOne ((g1 contested).who 1) (g1 contested).walkFaults kind need va n with
  | .ok ps => (oneReady ps).waits contested ((g1 contested).who 1) write
  | _ => false
theorem wit_accesses_wait : quiet contested = true ∧ isReady (.sld (lng (smw (.scalar 5) (v 0) 2))) contested = true ∧
    contestedOne .read .any 0x1000 4 false = true ∧ isReady (.sst (smw (v 0) (.scalar 1) 3)) contested = true ∧
    contestedOne .write .ordinary 0x1000 8 true = true ∧ isReady (.ld (lng (lm (v 10) (v 0) 0))) contested = true ∧
    isReady (.st (lm (v 0) (v 1) 0)) contested = true ∧ contestedBy (lm (v 10) (v 0) 0) = (true, true) := by decide +kernel

/-- The host is to answer a snoop that a store of the device waits for. -/
def owing (f : Group → Group := id) : State := withG f { cState with snoops := [{ half := 0x8040, since := 0, writes := [(0x201000, 1)] }] }
def sysFence : Slot := { sl with ty := .b32, mod := 0x1700 }
theorem wit_releases_wait : isReady (.fence sysFence) owing = true ∧ memScope sysFence = 5 ∧ memRel sysFence = true ∧
    (owing.release ((g1 owing).who 1) 5).snoopsOwed = true ∧ quiet owing = true ∧
    isReady (.sst (smw (v 0) (.scalar 1) 0x5B)) owing = true ∧
    isReady (.fence { sysFence with mod := 0x1100 }) cState = true ∧ memRel { sysFence with mod := 0x1100 } = false ∧
    isReady (.sst (smw (v 0) (.scalar 1) 3)) (owing (fun g => { g with fenced := some 5 })) = true ∧
    (owing (fun g => { g with fenced := some 5 })).group 1 = some { cGroup with fenced := some 5 } ∧
    { cGroup with fenced := some 5 }.releaseScope false 0 = some 5 := by decide +kernel
/-- A FENCE.rel.sys stays at issue until the answer has come. -/
theorem test_fence_waits : (match exec (.fence sysFence) owing, exec (.fence sysFence) cState with
    | .next t, .next u => some ((g1 t).pc, (g1 u).pc)
    | _, _ => none) = some (0x1000, 0x1014) := by decide +kernel

/-- The host holds the half that the atomic writes. -/
def heldByHost : State := { cState with hostHeld := [(0x8040, true)] }
theorem wit_Atomics_snoop :
    (let g := g1 heldByHost
     let w := am (v 10) (v 1) 0
     let r := heldByHost.routeLanes g 1 .write .ordinary (lanesOf (g.lanes w) g.width) noEarly (fun l => [(g.laneAddress w l, 4)])
     isReady (.atom (lng w)) heldByHost && r.needs.isEmpty && heldByHost.hostHalves (g.who 1) r = [0x8040]) = true := by
  decide +kernel

/-- Core 0 holds a stale copy, or its die a replica, of a half whose home is another die. -/
def copied (own : Bool) : State :=
  let bs := List.replicate 64 (7 : Byte)
  if own then { cState with cores := [(0, { purse := 4000, tlb := [tEntry, tPage], copies := [(0x4000000, bs)] })] }
  else { cState with replicas := [(0x8000000, bs ++ bs)] }
theorem wit_LoadedBytes_copies : (Tab.find ((copied true).core 0).copies 0x4000000).isSome = true ∧
    ((copied false).replicaHalf 0 0x4000000).isSome = true ∧ (copied true).errorReply 0x100000000 = false := by decide +kernel

/-- The group's team is run r of check 9, whose log has an entry for a BPUT or a BTAKE of 3 elements. -/
def checked (r : Nat) (op : BitVec 10) (value : Word) : State :=
  let s : State :=
    { eState with checks := [(9, { die := 0, id := 1, launch := 1, teamId := 0, clusterId := 0, member := 0, members := 1, ctx := 1
                                   runs := [{ core := 0, team := some 1 }, { core := 1, team := some 1 }]
                                   log := [{ gid := 0, op := op, lanes := 0, operands := [3], values := [value] }] })] }
  s.modTeam 1 (fun t => { t with run := some (9, r) })
/-- What the log says to it. -/
def logSays (s : State) (op : Nat) : Option (List Word) :=
  ((s.readLog 9 1 1 (g1 s) op 0 [3]).1).map (fun e => e.values)
theorem wit_Basins_checked :
    isReady (.bput (eb 0 (.scalar 5) (.imm 3) (v 0) (v 0))) (checked 0 0x308 0) = true ∧
    (checked 0 0x308 0).runOf ((g1 (checked 0 0x308 0)).who 1) = some (9, 0) ∧
    (checked 1 0x308 0).runOf ((g1 (checked 1 0x308 0)).who 1) = some (9, 1) ∧ logSays (checked 1 0x308 1) 0x308 = some [1] ∧
    logSays (checked 1 0x309 1) 0x309 = some [1] ∧ ((checked 1 0x309 1).teamOf (g1 (checked 1 0x309 1))).basin 0 = eTeam.basin 0 ∧
    (eTeam.basin 0).held < 3 ∧ 3 ≤ (eTeam.basin 0).room ∧
    isReady (.btake (eb 0 (.scalar 5) (.imm 3) (v 0) (v 0))) (checked 1 0x309 1) = true := by decide +kernel
/-- A later run's BTAKE that the log lets take waits for its own basin (R296). -/
theorem test_btake_waits : (match exec (.btake (eb 0 (.scalar 5) (.imm 3) (v 0) (v 0))) (checked 1 0x309 1) with
    | .next t => some ((g1 t).pc, (g1 t).logPos)
    | _ => none) = some (0x1000, 0) := by decide +kernel

/-- The special functions, a flush, a purge that pools and a flight that waits for an earlier one. -/
def twoSpecial : State :=
  (flying .special).modGroup 1 (fun g => { g with flags := [(0, 2)]
                                                  flights := g.flights.map (fun f => { f with op := 3 }) ++ g.flights })
theorem wit_OperationsLand_more : (g1 (flying .special)).earlierSpecial 4 = false ∧ (g1 twoSpecial).earlierSpecial 4 = true ∧
    (g1 (flying .mapping)).flights.map (fun f => f.task) = [.mapping] ∧
    ((flying (.klaunch 0 tPacket 1 (some 5))).accept 0 1 tPacket).2.partOf (cGroup.who 1) = .plain := by decide +kernel
theorem test_special_order : (match exec (.operationComplete 1 4) twoSpecial with
    | .next t => some (g1 t).flights.length
    | _ => none) = some 2 := by decide +kernel

/-- A run's team, outside every cluster, with a parked engine operation 50 µs old. -/
def parkedRun : State :=
  { withOp { copyOp with parked := some { needs := [], request := some 0x800000, since := 0 } } with
    teams := [(1, { eTeam with cluster := none, run := some (9, 1) })], now := 50000 }
theorem wit_WalksAndPages_more : (parkedRun.team 1).map (fun t => (t.cluster, t.core, t.residency)) = some (none, 0, .resident) ∧
    (parkedRun.ops.map (fun o => (o.2.team, o.2.parked.map (fun q => q.since)))) = [(1, some 0)] ∧
    (parkedRun.hub.ide.all (fun q => !q.2.err)) = true := by decide +kernel
theorem wit_WaitsEnd_more : (waits (.bar 2)).owesBarTrap tTeam = false ∧
    ((waits (.mwait none none none)).launches.all (fun q => q.2.watch.isNone)) = true ∧
    (waits (.mwait none none none)).runOf (cGroup.who 1) = none := by decide +kernel
/-! ## Remote scratchpads, the ends of ranges, front ends and what waits for the host -/

/-- A remote form whose lanes address offset 0 by s4 (0x1000, the end), s3 (bits [55:32] not zero), s14 (member 2), s0 or s20. -/
def rmt (base : BitVec 6) : Slot := lm (v 10) (v 0) 0x2000 base
def rmtS (base : BitVec 6) : Slot := lm (v 0) (v 1) 0x2000 base
def rmtMixed (d0 b : Operand) : Slot := { lm d0 b 0x2002 0 with c := v 1, imm := 0xFE0 }
/-- Group 1 with a value in s20. -/
def with20 (x : Word) (s : State := cState) : State := withG (fun g => g.setS 20 x) s
/-- The cluster has a second member, on core 1, that s20 names. -/
def twoMembers : State :=
  with20 0x0100000000000000 { cState with
    teams := [(0, firmwareTeam), (1, { tTeam with members := 2 }), (2, { tTeam with members := 2, member := 1, core := 1, groups := [] })]
    clusters := [(1, { tCluster with teams := [1, 2] })] }
theorem wit_ScratchpadAndOrder_remote :
    [Instr.ldp (lng (rmt 0)), .ldp (lng (rmt 3)), .ldp (lng (rmt 4)), .ldp (lng (rmt 14)), .ldp (lng (rmtMixed (v 10) (v 0))),
      .stp (rmtS 0), .stp (rmtS 3), .stp (rmtS 14), .stp (rmtMixed (v 0) (v 1))].all (fun i => isReady i cState) = true ∧
    quiet cState = true ∧ memRmt (rmt 0) = true ∧ (lanesOf (cGroup.lanes (rmt 0)) cGroup.width).length = 16 ∧
    (cGroup.s 3).extractLsb' 32 24 ≠ 0 ∧ (cGroup.s 14).extractLsb' 32 24 = 0 ∧ ((cGroup.s 14).extractLsb' 56 8).toNat = 2 ∧
    tTeam.members = 1 ∧ padLanes cState (rmt 0) false = (16, 0) ∧ padLanes cState (rmt 4) false = (0, 16) ∧
    padLanes cState (rmtMixed (v 10) (v 0)) false = (15, 1) ∧ isReady (.stp (rmtS 20)) twoMembers = true ∧ quiet twoMembers = true ∧
    twoMembers.memberTeam (g1 twoMembers) 1 = 2 ∧ padLanes twoMembers (rmt 20) false = (16, 0) ∧
    isReady (.cflush (lng { sl with ty := .b32, d0 := .scalar 5, a := .scalar 20, b := .imm 128 })) (with20 0x1FFFFFFFFFFFFC0) = true ∧
    0x1FFFFFFFFFFFFC0 < 2 ^ 57 ∧ 2 ^ 57 < 0x1FFFFFFFFFFFFC0 + 128 := by decide +kernel
/-- R53: STP.rmt writes the scratchpad of the member that bits [63:56] name. -/
theorem test_stp_rmt : (run (.stp (lm (v 0) (.imm 5) 0x2000 20)) twoMembers).map (fun t =>
    t.teams.map (fun p => Tab.read 0 p.2.scratch 0)) = some [0, 0x78, 5] := by decide +kernel

/-- A store of the device waits for the host's answer. -/
def owingAlso (s : State) : State := { s with snoops := [{ half := 0x8040, since := 0, writes := [(0x201000, 1)] }] }
/-- What a front end's write comes to. -/
def frontOf (s : State) (va : Nat) : Nat × Option Nat :=
  match (s.frontWrite 1 va [7]).1 with
  | .done _ => (0, none)
  | .refused => (1, none)
  | .host e => (2, some e)
/-- A write of a front end to a page that no one has mapped, and the state that has asked the host. -/
def unmappedFront : State := { walking [] none with groups := [] }
theorem wit_OperationsLand_host : (g1 (flying .flush)).flights.map (fun f => f.task) = [.flush] ∧
    (flying .flush).snoopsOwed = false ∧ (owingAlso (flying .flush)).snoopsOwed = true ∧
    (let s := flying (.invalidate none 0 65536 0 0)
     (s.invalidate none 0 65536 0 0).snoopsOwed = false ∧ ((owingAlso s).invalidate none 0 65536 0 0).snoopsOwed = true) ∧
    frontOf unmappedFront 0 = (2, some 0x800000) ∧ frontOf (walking [(0x800001, 1)] none) 0 = (1, none) ∧
    frontOf (walking [(0x800000, 0x65), (0x800002, 0xA0)] none) 0 = (0, none) ∧
    (unmappedFront.askHost 1 0x800000 0).isSome = true ∧ unmappedFront.hub.owedWrites = [] ∧
    (unmappedFront.frontStore 1 0 [7] none).hub.owedWrites.map (fun w => w.request) = [some 0x800000] ∧
    cState.clusterHere tCluster = true := by decide +kernel

def collOp : EngineOp := opOf .coll (.coll 0 false .u32 0 0 64 none) [(0, 1)] []
def collFull : State := { eState with ops := (List.range 63).map (fun i => (i, collOp)) }
theorem wit_Copies_coll : isReady (.coll { eb 0x80 (v 0) (.imm 0) (v 0) (v 0) with ty := .u32 }) collFull = true ∧
    quiet collFull = true ∧ 63 ≤ (collFull.unretired 1 .coll).length ∧ (eTeam.basin 0).esize = 64 := by decide +kernel

/-- A launch's cluster queues at a pound whose origin has no rectangle left; a cluster stands stopped for an evictor that is gone. -/
theorem wit_ClustersPlaced_more :
    (let s := withCluster (fun c => { c with state := .pound 0, origin := some (99, 0) }) sentState
     offerOf s 1 0 0 = some (true, true) ∧ offerOf s 1 99 0 = some (false, false)) ∧
    ((withCluster (fun c => { c with stopped := some (.evict 77) })).cluster 1).map (fun c => (c.state, c.stopped)) =
      some (.started, some (.evict 77)) ∧ (startedState.cluster 77).isNone = true := by decide +kernel

/-- The recovery layout with an image of 256 bytes in its buffer, and verifying it. -/
def rcvState (len : Byte) : State := hubIs (fun h => { h with boot := .recovery, rcvBuffer := [(17, len)] })
def verifying (i : Option FirmwareImage) : State := hubIs (fun h => { h with boot := .recovery, rcvStat := 1, rcvImage := i })
theorem wit_ResetsAndFirmware_recovery : (rcvState 1).hub.boot = .recovery ∧ (rcvState 1).hub.rcvStat ≠ 1 ∧
    Tab.wf 0 (rcvState 1).hub.rcvBuffer = true ∧ ((rcvState 1).hub.bufferImage 256).map (fun i => i.length) = some 256 ∧
    ((rcvState 1).hub.bufferImage 255).isNone = true ∧ ((rcvState 2).hub.bufferImage 256).isNone = true ∧
    (verifying none).hub.rcvStat = 1 ∧ (verifying (some firmwareImage)).hub.rcvImage = some firmwareImage := by decide +kernel
/-- A hub core belongs to context 1. -/
def hubCtx (x : PartState) : State := { partIs x none 0 with hub := { State.reset.hub with hcCtx := [(1, 1)] } }
theorem wit_ManagementWrites_more : (Tab.read 0 (hubCtx .switchedIn).hub.hcCtx 1).toNat = 1 ∧
    ((hubCtx .switchedIn).part 1).map (fun p => p.state) = some .switchedIn ∧
    ((hubCtx .halting).part 1).map (fun p => p.state) = some .halting ∧ region 0xF800050000000 = .management ∧
    State.reset.errorReply 0xF800050000000 = true ∧ State.reset.errorReply 0xF800040000600 = false := by decide +kernel
theorem wit_Mints_past : (hubIs (fun h => { h with railEnd := some 0 })).hub.railEnd = some (State.reset.now / 1000) ∧
    State.reset.hub.railEnd ≠ some (State.reset.now / 1000) ∧
    [false, true].all (fun b => (hubIs (fun h => { h with railBusy := b })).hub.railBusy == b) = true := by decide +kernel

/-- A completion of an ATS invalidation is owed, for a page whose purge is in flight or done. -/
def completing (left : List Nat) : State :=
  { cState with purges := [(0x600000, left)], completions := [{ pasid := some 5, frames := [(0x600000, 65536)] }] }
theorem wit_HostAccesses_more : (owingAlso (completing [])).snoopsOwed = true ∧ (completing []).snoopsOwed = false ∧
    (completing []).completions.length = 1 ∧ Tab.read [] (completing [2]).purges 0x600000 ≠ [] ∧
    Tab.read [] (completing []).purges 0x600000 = [] ∧ Tab.read false hostState.hostHeld 0x10000 = true ∧
    (hostState.place (atAddr (0x10000 * 64) (List.replicate 64 1))).snoops.map (fun x => x.half) = [0x10000] ∧
    hostState.errorReply (0x10000 * 64) = false ∧ (∀ x ∈ hostState.snoops, x.half ≠ 0x8040) := by decide +kernel
theorem wit_PartitionCommands_read (pa n : Nat) (bs : List Byte) (h : (descState.recordAt pa n).1 = some bs) :
    descState.recordAt pa n = (some bs, descState) := by
  unfold State.recordAt at h ⊢
  split
  · simp_all
  · split
    · simp_all
    · split <;> simp_all
/-! ## Dies under reset, disabled cores, and ports that leave UP -/

/-- Die 0 is in step 4 of its warm reset. -/
def silentDie (s : State := State.reset) : State := atDie (fun d => { d with resetStep := 4 }) s
theorem wit_dieDown : (silentDie).dieDown 0 = true ∧ State.reset.dieDown 0 = false ∧
    (atDie (fun d => { d with injen := true })).dieDown 0 = false ∧
    (silentDie cState).errorReply (hdmAddress 0x201000) = true ∧
    (silentDie cState).errorReply (hdmAddress 0x201000 / 64 * 64) = true ∧ cState.completions.length < 32 ∧
    32 ≤ ({ cState with completions := List.replicate 32 { pasid := none, frames := [] } }).completions.length := by decide +kernel
theorem test_silent_register : ((act (.pdCtl 0 0 1) silentDie).die 0).resetErrors = 1 ∧
    ((act (.pdCtl 0 0 1) silentDie).pound 0).state = .run := by decide +kernel

/-- Site 130 of die 0 is disabled, site 0 is not. -/
theorem wit_disabled : (tokState {}).tokenReach 0 0x8000 = true ∧ ((tokState {}).die (coreDie 0)).siteUp (coreSite 0) = true ∧
    ((tokState {}).die (coreDie 130)).siteUp (coreSite 130) = false ∧ (cState.die (130 / 144)).disabled.getLsbD (130 % 144) = true ∧
    (cState.die (0 / 144)).disabled.getLsbD (0 % 144) = false ∧
    ({ held := [(1, 255)] } : LineTokens).owner = none ∧ 0 < ({ held := [(1, 255)] } : LineTokens).atHome := by decide +kernel
/-- R112: the last token at home is the owner token. -/
theorem test_last_token : (({ held := [(1, 255)] } : LineTokens).forRead 2).owner = some 2 := by decide +kernel

theorem wit_Watches_error : (silentDie cState).errorReply 0x201000 = true ∧ isReady (.monw mon) (silentDie cState) = true ∧
    (match (silentDie cState).translate (cGroup.who 1) cGroup.walkFaults 0x1000 .read with
      | .ok e => e.phys 0x1000 == 0x201000
      | _ => false) = true ∧ cState.errorReply 0x201000 = false ∧ (cState.part 1).map (fun p => p.watch) = some false ∧
    (silentDie (waiting (some (watchOf none none)) false)).errorReply 0x201000 = true ∧
    quiet (silentDie (waiting (some (watchOf none none)) false)) = true := by decide +kernel
/-- R432: only a partition whose WATCH flag is set has watches in tables. -/
theorem test_watch_flag : (cState.watchHome 1 1 0x201000).isNone = true ∧
    ({ cState with parts := [(1, { tPart with watch := true })] }.watchHome 1 1 0x201000).isSome = true := by decide +kernel

/-- R414: bytes came, the port dropped and rose again, and the flag word is not written. -/
theorem test_peer_drop :
    let data := act (.peerCopyArrival 2 1 { bytes := [7] } false) (linkState .up)
    let dropped := act (.peerPortStateChange 2 .up) (act (.peerPortStateChange 2 .down) data)
    (act (.peerCopyArrival 2 0 { bytes := [9] } true) data).byte 0xA00000 = 9 ∧
    (act (.peerCopyArrival 2 0 { bytes := [9] } true) dropped).byte 0xA00000 = 0 := by decide +kernel

theorem wit_PagesAndHalt_range : isReady (.pmap { pmapW with b := .imm 1 }) mapState = true ∧ (1 : Nat) &&& 0xE2FC ≠ 1 ∧
    isReady (.pmap { pmapW with b := .imm 0x8000 }) mapState = true ∧ attributeDie 0 0x8000 = none ∧
    isReady (.pfree (lng { sl with ty := .b32, a := .scalar 4 })) mapState = true ∧ ((g1 mapState).s 4).toNat % 65536 ≠ 0 ∧
    isReady (.haltc (bw { sl with ty := .b32, d0 := .scalar 5, a := .imm 4, b := .imm 0 })) mapState = true ∧
    mapState.trapWaits 1 = false := by decide +kernel

end Sys2Proof.Tests
end

section
/-!
PROOFS. The family of loads' bytes and written bytes: lists of bytes, memory after `setBytes`, the parts of `load`, and
the way of written bytes through `enter` and `commit`.
-/

namespace Sys2Proof.Proofs

open Sys2Proof Sys2Proof.Machine Sys2Proof.Laws

/-! ## Lists of bytes -/

/-- The model's list access is the library's access with a default. -/
theorem nth_eq_getD {α : Type} (d : α) (l : List α) (i : Nat) : nth d l i = l.getD i d := by
  induction l generalizing i with
  | nil => rfl
  | cons x xs ih =>
    cases i with
    | zero => rfl
    | succ i => simpa [nth] using ih i

theorem nth_map_range {α : Type} {d : α} {f : Nat → α} {n i : Nat} (h : i < n) :
    nth d ((List.range n).map f) i = f i := by
  simp [nth_eq_getD, h]

theorem nth_replicate {α : Type} {d x : α} {n i : Nat} (h : i < n) : nth d (List.replicate n x) i = x := by
  simp [nth_eq_getD, h]

@[simp] theorem length_leBytes (n x : Nat) : (leBytes n x).length = n := by
  induction n generalizing x with
  | zero => rfl
  | succ n ih => simp [leBytes, ih]

/-- R3: byte `i` of a little-endian number. -/
theorem nth_leBytes {n x i : Nat} (h : i < n) : nth 0 (leBytes n x) i = BitVec.ofNat 8 (x / 256 ^ i) := by
  induction n generalizing x i with
  | zero => omega
  | succ n ih =>
    cases i with
    | zero => simp [leBytes, nth]
    | succ i =>
      calc nth 0 (leBytes n (x / 256)) i
          = BitVec.ofNat 8 (x / 256 / 256 ^ i) := ih (by omega)
        _ = BitVec.ofNat 8 (x / 256 ^ (i + 1)) := by rw [Nat.div_div_eq_div_mul, Nat.pow_succ']

/-- R3: the bytes of a number give it back. -/
theorem leNat_leBytes (n x : Nat) : leNat (leBytes n x) = x % 256 ^ n := by
  induction n generalizing x with
  | zero => simp [leBytes, leNat, Nat.mod_one]
  | succ n ih => simp [leBytes, leNat, ih, Nat.pow_succ', Nat.mod_mul]

theorem bytesWord_wordBytes (x : Word) : bytesWord (wordBytes 8 x) = x := by
  apply BitVec.eq_of_toNat_eq
  simp [bytesWord, wordBytes, leNat_leBytes, Nat.mod_eq_of_lt x.isLt]

theorem nth_wordBytes {i : Nat} (h : i < 8) (x : Word) : nth 0 (wordBytes 8 x) i = x.extractLsb' (8 * i) 8 := by
  rw [wordBytes, nth_leBytes h]
  apply BitVec.eq_of_toNat_eq
  simp [Nat.shiftRight_eq_div_pow, Nat.pow_mul]

theorem mem_atAddr {pa : Nat} {bs : List Byte} {p : Nat × Byte} :
    p ∈ atAddr pa bs ↔ ∃ i, i < bs.length ∧ p = (pa + i, nth 0 bs i) := by
  simp [atAddr, eq_comm]

/-- Bytes in a row have different addresses. -/
theorem atAddr_nodup (pa : Nat) (bs : List Byte) : ((atAddr pa bs).map Prod.fst).Nodup := by
  have h : (atAddr pa bs).map Prod.fst = (List.range bs.length).map (pa + ·) := by simp [atAddr]
  rw [h]
  exact List.Pairwise.map (pa + ·) (fun _ _ hne he => hne (Nat.add_left_cancel he)) List.nodup_range

/-! ## Memory after bytes were put into it -/

/-- Two states with the same memory read alike. -/
theorem byte_congr {s t : State} (h : t.mem = s.mem) (a : Nat) : t.byte a = s.byte a := by
  simp [State.byte, h]

theorem setBytes_cons (s : State) (w : Nat × Byte) (ws : List (Nat × Byte)) :
    s.setBytes (w :: ws) = (s.setBytes [w]).setBytes ws := rfl

/-- Every byte of a write without repeated addresses is read back. -/
theorem setBytes_byte {s : State} {ws : List (Nat × Byte)} {a : Nat} {b : Byte} (hn : (ws.map Prod.fst).Nodup)
    (hw : Memory.wf s.mem = true) (h : (a, b) ∈ ws) : (s.setBytes ws).byte a = b := by
  induction ws generalizing s with
  | nil => cases h
  | cons w ws ih =>
    obtain ⟨hnot, hn⟩ := List.nodup_cons.1 hn
    rw [setBytes_cons]
    rcases List.mem_cons.1 h with rfl | h
    · have later : ∀ p ∈ ws, p.1 ≠ a := fun p hp he => hnot (List.mem_map.2 ⟨p, hp, he⟩)
      rw [setBytes_other _ later]
      exact tab_read_write_self (Bool.and_eq_true _ _ ▸ hw).1
    · exact ih hn (setBytes_wf _ hw) h

/-- R4: bytes put in a row stand there one after another. -/
theorem setBytes_atAddr {s : State} {a i : Nat} {bs : List Byte} (hw : Memory.wf s.mem = true) (hi : i < bs.length) :
    (s.setBytes (atAddr a bs)).byte (a + i) = nth 0 bs i :=
  setBytes_byte (atAddr_nodup a bs) hw (mem_atAddr.2 ⟨i, hi, rfl⟩)

theorem setBytes_atAddr_other (s : State) {a b : Nat} {bs : List Byte} (h : b < a ∨ a + bs.length ≤ b) :
    (s.setBytes (atAddr a bs)).byte b = s.byte b := by
  refine setBytes_other _ fun p hp => ?_
  obtain ⟨i, hi, rfl⟩ := mem_atAddr.1 hp
  show a + i ≠ b
  omega

@[simp] theorem length_wordBytes (n : Nat) (x : Word) : (wordBytes n x).length = n := length_leBytes n _

/-- R4, R103: a word is read back from the address that it was put at. -/
theorem setBytes_word {s : State} (a : Nat) (x : Word) (hw : Memory.wf s.mem = true) :
    (s.setBytes (atAddr a (wordBytes 8 x))).word a = x := by
  have h : (s.setBytes (atAddr a (wordBytes 8 x))).bytes a 8 = wordBytes 8 x := by
    refine List.ext_getElem (by simp [State.bytes]) fun i h1 h2 => ?_
    simp only [State.bytes, List.getElem_map, List.getElem_range]
    rw [setBytes_atAddr hw h2, nth_eq_getD, ← List.getElem_eq_getD]
  rw [State.word, h, bytesWord_wordBytes]

/-! ## What the parts of a load leave -/

section LoadParts

variable (s : State) (who : Who)

@[simp] theorem countError_mem (pa : Nat) : (s.countError pa).mem = s.mem := by
  unfold State.countError State.countReply
  split
  · split <;> rfl
  · rfl

@[simp] theorem tokenRead_mem (core pa : Nat) : (s.tokenRead core pa).mem = s.mem := by
  unfold State.tokenRead
  split
  · split <;> rfl
  · rfl

@[simp] theorem keepCopy_mem (half : Nat) : (s.keepCopy who half).mem = s.mem := rfl

@[simp] theorem keepReplica_mem (line : Nat) : (s.keepReplica who line).mem = s.mem := by
  unfold State.keepReplica
  split
  · split <;> rfl
  · rfl

@[simp] theorem cacheLine_mem (stale : Tab (List Byte)) (halves : List Nat) (line : Nat) :
    (s.cacheLine who stale halves line).mem = s.mem := by
  unfold State.cacheLine
  split
  · rw [keepReplica_mem]
    refine foldl_keeps State.mem _ (fun a h => ?_) _ s
    split <;> rfl
  · exact tokenRead_mem ..

@[simp] theorem agentRead_mem (stale : Tab (List Byte)) (pa n : Nat) : (s.agentRead stale pa n).mem = s.mem := by
  unfold State.agentRead
  split
  · refine foldl_keeps State.mem _ (fun a h => ?_) _ s
    split <;> rfl
  · rfl

@[simp] theorem enterFilter_mem (lines : List Nat) : (s.enterFilter who lines).mem = s.mem := by
  unfold State.enterFilter
  split <;> rfl

/-! ## The copies that a load reads -/

/-- Choosing the copies takes free values and changes nothing else. -/
theorem staleHalves_state (hs : List Nat) : ∃ n, (s.staleHalves who hs).2 = { s with freeIx := n } := by
  induction hs generalizing s with
  | nil => exact ⟨s.freeIx, rfl⟩
  | cons h hs ih =>
    unfold State.staleHalves
    split
    · exact ih s.freeBool.2
    · exact ih s

/-- R114, R137: a copy that a load reads is of a half it may read so: an untracked copy of the core, or a replica of the
core's die. -/
theorem staleHalves_find {hs : List Nat} {h : Nat} {bs : List Byte}
    (hf : Tab.find (s.staleHalves who hs).1 h = some bs) :
    h ∈ hs ∧ (Tab.find (s.core who.core).copies h = some bs ∨ s.replicaHalf (coreDie who.core) h = some bs) := by
  induction hs generalizing s with
  | nil => cases hf
  | cons k hs ih =>
    unfold State.staleHalves at hf
    have tail {t : State} (ht : Tab.find (t.staleHalves who hs).1 h = some bs) (hc : t.core = s.core)
        (hr : t.replicaHalf = s.replicaHalf) : h ∈ k :: hs ∧
          (Tab.find (s.core who.core).copies h = some bs ∨ s.replicaHalf (coreDie who.core) h = some bs) := by
      obtain ⟨hm, hv⟩ := ih t ht
      exact ⟨List.mem_cons_of_mem _ hm, by rwa [hc, hr] at hv⟩
    split at hf
    · next cs hcs =>
      dsimp only at hf
      split at hf
      · by_cases hk : h = k
        · subst hk
          rw [tab_find_insert_self] at hf
          obtain rfl : cs = bs := Option.some.inj hf
          rcases Option.or_eq_some_iff.1 hcs with hc | ⟨-, hr⟩
          · exact ⟨List.mem_cons_self, .inl hc⟩
          · exact ⟨List.mem_cons_self, .inr hr⟩
        · rw [tab_find_insert_ne hk] at hf
          exact tail hf rfl rfl
      · exact tail hf rfl rfl
    · exact tail hf rfl rfl

/-- A loaded byte is the one seen at the home, or that of a chosen copy of its half. -/
theorem loadedByte_cases (stale : Tab (List Byte)) (pa : Nat) :
    s.loadedByte who stale pa = s.seenByte who pa ∨
      ∃ bs, Tab.find stale (pa / 64) = some bs ∧ s.loadedByte who stale pa = nth 0 bs (pa % 64) := by
  unfold State.loadedByte halfOf
  split
  · next bs hb =>
    split
    · exact .inr ⟨bs, hb, rfl⟩
    · exact .inl rfl
  · exact .inl rfl

/-! ## The reply of a load -/

/-- R26: a location that answers with the error reply gives zeros. -/
theorem load_error {cached : Bool} {pa n : Nat} (h : s.errorReply pa = true) : s.load who cached pa n =
    { bytes := List.replicate n 0, poison := false, error := true, state := s.countError pa } := by
  simp [State.load, h]

/-- Any other location gives its bytes at the home, or those of copies of the halves homed elsewhere that the load may
read from a core store. -/
theorem load_reply {cached : Bool} {pa n : Nat} (h : s.errorReply pa = false) :
    (s.load who cached pa n).error = false ∧
    (s.load who cached pa n).poison = (linesOf pa n).any (s.poisonedFor who) ∧
    ∃ hs : List Nat, (∀ k ∈ hs, cached = true ∧ remote who.core (k * 64) = true) ∧
      (s.load who cached pa n).bytes =
        (List.range n).map (fun i => s.loadedByte who (s.staleHalves who hs).1 (pa + i)) := by
  let held := if cached then (linesOf pa n).filter s.storable else []
  let hs := ((halvesOf pa n).filter (fun k => held.contains (k / 2))).filter (fun k => remote who.core (k * 64))
  obtain ⟨m, hm⟩ := staleHalves_state s who hs
  have hl : ∀ k ∈ hs, cached = true ∧ remote who.core (k * 64) = true := by
    intro k hk
    obtain ⟨hk, hr⟩ := List.mem_filter.1 hk
    obtain ⟨-, hh⟩ := List.mem_filter.1 hk
    cases cached with
    | true => exact ⟨rfl, hr⟩
    | false => simp [held] at hh
  unfold State.load
  rw [if_neg (by simp [h])]
  change _ ∧ List.any _ ((s.staleHalves who hs).2.poisonedFor who) = _ ∧ ∃ ks : List Nat, _ ∧
    List.map (fun i => (s.staleHalves who hs).2.loadedByte who (s.staleHalves who hs).1 (pa + i)) _ = _
  rw [hm]
  exact ⟨rfl, rfl, hs, hl, rfl⟩

/-- A load leaves memory as it was. -/
@[simp] theorem load_mem (cached : Bool) (pa n : Nat) : (s.load who cached pa n).state.mem = s.mem := by
  unfold State.load
  split
  · exact countError_mem s pa
  · dsimp only
    rw [enterFilter_mem, agentRead_mem, foldl_keeps State.mem _ (fun a l => cacheLine_mem a who ..)]
    obtain ⟨m, hm⟩ := staleHalves_state s who _
    rw [hm]

theorem load_length (cached : Bool) (pa n : Nat) : (s.load who cached pa n).bytes.length = n := by
  cases h : s.errorReply pa with
  | true => simp [load_error s who h]
  | false =>
    obtain ⟨-, -, hs, -, hb⟩ := load_reply s who (cached := cached) (n := n) h
    simp [hb]

/-- R4: the lines of a range are those of its addresses. -/
theorem mem_linesOf {pa n l : Nat} (hn : 0 < n) : l ∈ linesOf pa n ↔ ∃ a, pa ≤ a ∧ a < pa + n ∧ a / 128 = l := by
  simp only [linesOf, lineNo, List.mem_map, List.mem_range]
  constructor
  · rintro ⟨i, hi, rfl⟩
    exact ⟨max pa ((pa / 128 + i) * 128), by omega⟩
  · rintro ⟨a, h1, h2, rfl⟩
    exact ⟨a / 128 - pa / 128, by omega⟩

/-- R120: the reply carries poison exactly when a line of the range is poisoned for the party. -/
theorem load_poison {cached : Bool} {pa n : Nat} (hn : 0 < n) (h : s.errorReply pa = false) :
    (s.load who cached pa n).poison = true ↔ ∃ a, pa ≤ a ∧ a < pa + n ∧ s.poisonedFor who (a / 128) = true := by
  obtain ⟨-, hp, -⟩ := load_reply s who (cached := cached) (n := n) h
  rw [hp, List.any_eq_true]
  constructor
  · rintro ⟨l, hl, hpl⟩
    obtain ⟨a, h1, h2, rfl⟩ := (mem_linesOf hn).1 hl
    exact ⟨a, h1, h2, hpl⟩
  · rintro ⟨a, h1, h2, hpl⟩
    exact ⟨a / 128, (mem_linesOf hn).2 ⟨a, h1, h2, rfl⟩, hpl⟩

/-- Poison for a party that no check runs is the poison at the home. -/
theorem poisonedFor_of_runOf_none (h : s.runOf who = none) (l : Nat) : s.poisonedFor who l = s.poisoned l := by
  simp [State.poisonedFor, h]

/-- R114, R116: each byte of a reply is the one seen at the home, or that of a copy of a half homed elsewhere. -/
theorem load_byte {cached : Bool} {pa n i : Nat} (hi : i < n) (h : s.errorReply pa = false) :
    nth 1 (s.load who cached pa n).bytes i = s.seenByte who (pa + i) ∨
      ∃ bs, cached = true ∧ remote who.core ((pa + i) / 64 * 64) = true ∧
        nth 1 (s.load who cached pa n).bytes i = nth 0 bs ((pa + i) % 64) ∧
        (Tab.find (s.core who.core).copies ((pa + i) / 64) = some bs ∨
          s.replicaHalf (coreDie who.core) ((pa + i) / 64) = some bs) := by
  obtain ⟨-, -, hs, hl, hb⟩ := load_reply s who (cached := cached) (n := n) h
  rw [hb, nth_map_range hi]
  rcases loadedByte_cases s who (s.staleHalves who hs).1 (pa + i) with hseen | ⟨bs, hf, hcopy⟩
  · exact .inl hseen
  · obtain ⟨hm, hv⟩ := staleHalves_find s who hf
    obtain ⟨hc, hr⟩ := hl _ hm
    exact .inr ⟨bs, hc, hr, hcopy, hv⟩

end LoadParts

/-! ## Writes that wait for the host -/

section Waiting

variable (s : State)

/-- The bytes that wait for the answer to the snoop of a half. -/
def pendingWrites (half : Nat) : Tab Byte :=
  ((s.snoops.find? (fun x => x.half = half)).map Snoop.writes).getD []

/-- A byte that waits is one of the bytes that wait for its half. -/
theorem snoopedByte_eq (a : Nat) : s.snoopedByte a = Tab.find (pendingWrites s (halfOf a)) a := by
  unfold State.snoopedByte pendingWrites
  cases s.snoops.find? (fun x => x.half = halfOf a) <;> rfl

/-- A change of snoops that keeps their halves is found where the snoop was. -/
theorem find_half_map {l : List Snoop} {f : Snoop → Snoop} (hf : ∀ x, (f x).half = x.half) (half : Nat) :
    (l.map f).find? (fun x => x.half = half) = (l.find? (fun x => x.half = half)).map f := by
  rw [List.find?_map]
  congr 1
  exact congrArg (fun p => l.find? p) (funext fun x => by simp [hf])

/-- R118: written bytes join those that wait for their half. -/
theorem pendingWrites_snoopWrite_self (half : Nat) (ws : List (Nat × Byte)) :
    pendingWrites (s.snoopWrite half ws) half =
      ws.foldl (fun t p => Tab.insert t p.1 p.2) (pendingWrites s half) := by
  unfold State.snoopWrite pendingWrites
  split
  · next x hx =>
    have hh : x.half = half := by simpa using List.find?_some hx
    dsimp only
    rw [find_half_map (fun y => by split <;> rfl), hx]
    simp [hh]
  · next hx => simp [List.find?_append, hx]

/-- What waits for another half is as before. -/
theorem pendingWrites_snoopWrite_ne {half other : Nat} (h : other ≠ half) (ws : List (Nat × Byte)) :
    pendingWrites (s.snoopWrite half ws) other = pendingWrites s other := by
  unfold State.snoopWrite pendingWrites
  split
  · dsimp only
    rw [find_half_map (fun y => by split <;> rfl)]
    cases hx : s.snoops.find? (fun x => x.half = other) with
    | none => rfl
    | some x =>
      have hh : x.half = other := by simpa using List.find?_some hx
      simp [hh, h]
  · simp [List.find?_append, Ne.symm h]

/-- A byte that a snoop write holds waits at its address. -/
theorem snoopWrite_snoopedByte_self (a : Nat) (b : Byte) :
    (s.snoopWrite (halfOf a) [(a, b)]).snoopedByte a = some b := by
  rw [snoopedByte_eq, pendingWrites_snoopWrite_self]
  exact tab_find_insert_self _ _ _

/-- A snoop write of one byte leaves what waits at other addresses. -/
theorem snoopWrite_snoopedByte_ne {a : Nat} {p : Nat × Byte} (h : a ≠ p.1) :
    (s.snoopWrite (halfOf p.1) [p]).snoopedByte a = s.snoopedByte a := by
  rw [snoopedByte_eq, snoopedByte_eq]
  by_cases hh : halfOf a = halfOf p.1
  · rw [hh, pendingWrites_snoopWrite_self]
    exact tab_find_insert_ne h
  · rw [pendingWrites_snoopWrite_ne s hh]

/-- Bytes held at other addresses leave what waits at an address. -/
theorem snoopWrites_snoopedByte_other {ws : List (Nat × Byte)} {a : Nat} (h : ∀ p ∈ ws, p.1 ≠ a) :
    (ws.foldl (fun t p => t.snoopWrite (halfOf p.1) [p]) s).snoopedByte a = s.snoopedByte a := by
  induction ws generalizing s with
  | nil => rfl
  | cons w ws ih =>
    obtain ⟨hw, h⟩ := List.forall_mem_cons.1 h
    rw [List.foldl_cons, ih _ h, snoopWrite_snoopedByte_ne s (Ne.symm hw)]

/-- Held bytes without repeated addresses all wait. -/
theorem snoopWrites_snoopedByte {ws : List (Nat × Byte)} {a : Nat} {b : Byte} (hn : (ws.map Prod.fst).Nodup)
    (h : (a, b) ∈ ws) : (ws.foldl (fun t p => t.snoopWrite (halfOf p.1) [p]) s).snoopedByte a = some b := by
  induction ws generalizing s with
  | nil => cases h
  | cons w ws ih =>
    obtain ⟨hnot, hn⟩ := List.nodup_cons.1 hn
    rcases List.mem_cons.1 h with rfl | h
    · rw [List.foldl_cons, snoopWrites_snoopedByte_other _ (fun p hp he => hnot (List.mem_map.2 ⟨p, hp, he⟩))]
      exact snoopWrite_snoopedByte_self s a b
    · exact ih _ hn h

end Waiting

/-! ## Written bytes reach their homes -/

section Commit

variable (s : State)

@[simp] theorem announce_mem (origin : Option Nat) (ws : List (Nat × Byte)) : (s.announce origin ws).mem = s.mem := rfl

@[simp] theorem announce_snoopedByte (origin : Option Nat) (ws : List (Nat × Byte)) (a : Nat) :
    (s.announce origin ws).snoopedByte a = s.snoopedByte a := rfl

@[simp] theorem clearCovered_mem (ws : List (Nat × Byte)) : (s.clearCovered ws).mem = s.mem := by
  refine foldl_keeps State.mem _ (fun a l => ?_) _ s
  split <;> rfl

@[simp] theorem settle_mem (ws : List (Nat × Byte)) : (s.settle ws).mem = (s.setBytes ws).mem := by
  refine foldl_keeps State.mem _ (fun a p => ?_) _ _
  split <;> rfl

/-- The host holds the half of a written byte. -/
def hostHolds (p : Nat × Byte) : Bool := Tab.read false s.hostHeld (halfOf p.1)

/-- R115, R118: memory takes the written bytes of the halves that the host does not hold. -/
theorem enter_mem (ws : List (Nat × Byte)) :
    (s.enter ws).mem = (s.setBytes (ws.filter (fun p => !hostHolds s p))).mem := by
  unfold State.enter
  dsimp only
  rw [foldl_keeps State.mem _ (fun a p => snoopWrite_mem a _ _), clearCovered_mem]
  change (if (ws.filter (fun p => !hostHolds s p)).isEmpty then s else _).mem = _
  split
  · next h => rw [List.isEmpty_iff.1 h]; rfl
  · exact settle_mem s _

/-- R118: the written bytes of the halves that the host holds wait for its answer. -/
theorem enter_snoopedByte {ws : List (Nat × Byte)} {a : Nat} {b : Byte} (hn : (ws.map Prod.fst).Nodup)
    (h : (a, b) ∈ ws) (hh : Tab.read false s.hostHeld (halfOf a) = true) : (s.enter ws).snoopedByte a = some b :=
  snoopWrites_snoopedByte _ (hn.sublist (List.filter_sublist.map _)) (List.mem_filter.2 ⟨h, hh⟩)

/-- A commit puts into memory what enters it. -/
theorem commit_mem (origin : Option Nat) (ws : List (Nat × Byte)) :
    (s.commit origin ws).mem = (s.setBytes (ws.filter (fun p => !hostHolds s p))).mem := by
  unfold State.commit
  split
  · next h => rw [List.isEmpty_iff.1 h]; rfl
  · rw [announce_mem, enter_mem]

theorem commit_of_mem {origin : Option Nat} {ws : List (Nat × Byte)} {p : Nat × Byte} (h : p ∈ ws) :
    s.commit origin ws = (s.enter ws).announce origin ws := by
  have hne : ws.isEmpty = false := by simpa using List.ne_nil_of_mem h
  simp [State.commit, hne]

/-- A commit changes no byte of memory but those that it writes in halves that the host does not hold. -/
theorem commit_byte_other {origin : Option Nat} {ws : List (Nat × Byte)} {a : Nat}
    (h : ∀ p ∈ ws, p.1 = a → hostHolds s p = true) : (s.commit origin ws).byte a = s.byte a := by
  rw [byte_congr (commit_mem s origin ws)]
  refine setBytes_other s fun p hp he => ?_
  obtain ⟨hp, hh⟩ := List.mem_filter.1 hp
  simp [h p hp he] at hh

/-- R115: a byte of a half that the host does not hold goes into memory. -/
theorem commit_byte {origin : Option Nat} {ws : List (Nat × Byte)} {a : Nat} {b : Byte}
    (hn : (ws.map Prod.fst).Nodup) (hw : Memory.wf s.mem = true) (h : (a, b) ∈ ws)
    (hh : Tab.read false s.hostHeld (halfOf a) = false) : (s.commit origin ws).byte a = b := by
  rw [byte_congr (commit_mem s origin ws)]
  exact setBytes_byte (hn.sublist (List.filter_sublist.map _)) hw (List.mem_filter.2 ⟨h, by simp [hostHolds, hh]⟩)

/-- R118: a byte of a half that the host holds does not enter memory and waits. -/
theorem commit_byte_held {origin : Option Nat} {ws : List (Nat × Byte)} {a : Nat} {b : Byte}
    (hn : (ws.map Prod.fst).Nodup) (h : (a, b) ∈ ws) (hh : Tab.read false s.hostHeld (halfOf a) = true) :
    (s.commit origin ws).byte a = s.byte a ∧ (s.commit origin ws).snoopedByte a = some b := by
  constructor
  · exact commit_byte_other s fun p _ he => by simpa [hostHolds, he] using hh
  · rw [commit_of_mem s h, announce_snoopedByte]
    exact enter_snoopedByte s hn h hh

end Commit

/-! ## The statement -/

/-- Settles O25: a load's reply and its error reply, the way of committed bytes, and a word put into memory. -/
theorem memoryBytes : Obligations.MemoryBytes := by
  unfold Obligations.MemoryBytes
  refine ⟨fun s who cached pa n i hn hi => ?_, fun s origin ws => ?_, fun s a x hw => ?_⟩
  · refine ⟨load_length s who cached pa n, byte_congr (load_mem s who cached pa n), fun he => ?_, fun he => ?_⟩
    · rw [load_error s who he]
      exact ⟨rfl, rfl, nth_replicate hi⟩
    · obtain ⟨herror, -, -⟩ := load_reply s who (cached := cached) (n := n) he
      exact ⟨herror, load_poison s who hn he, poisonedFor_of_runOf_none s who, load_byte s who hi he⟩
  · refine ⟨fun a ha => commit_byte_other s fun p hp he => absurd he (ha p hp), fun hn hw a b hab => ?_⟩
    exact ⟨commit_byte s hn hw hab, commit_byte_held s hn hab⟩
  · refine ⟨setBytes_word a x hw, fun i hi => ?_, fun b hb => ?_, setBytes_wf s hw⟩
    · rw [setBytes_atAddr hw (by simpa using hi), nth_wordBytes hi]
    · exact setBytes_atAddr_other s (by simpa using hb)

end Sys2Proof.Proofs
end

section
/-!
PROOFS. The elements of a lane's value, and what a write over lanes does.
-/

namespace Sys2Proof.Proofs.Formats

open Sys2Proof Sys2Proof.Machine Sys2Proof.Laws

/-! ## Elements -/

/-- R71: the elements of a TY fill its lane. -/
theorem elemCount_mul_elemWidth (ty : Ty) : elemCount ty * elemWidth ty = if ty.wide then 64 else 32 := by
  cases ty <;> rfl

/-- R71: element `i` is cut out of the value. -/
theorem nth_splitElems {ty : Ty} {i : Nat} (x : Nat) (hi : i < elemCount ty) :
    nth 0 (splitElems ty x) i = x / 2 ^ (i * elemWidth ty) % 2 ^ elemWidth ty := nth_map_range hi

/-- Elements of one width, cut out of a value from its lowest bit on, make up its lowest bits again. -/
theorem joinElems_bits (width n x : Nat) :
    joinElems width ((List.range n).map (fun k => bits x (k * width) width)) = x % 2 ^ (n * width) := by
  induction n generalizing x with
  | zero => simp [joinElems, Nat.mod_one]
  | succ n ih =>
    have hrest (k : Nat) : bits x ((k + 1) * width) width = bits (x / 2 ^ width) (k * width) width := by
      rw [bits, bits, Nat.div_div_eq_div_mul, ← Nat.pow_add, Nat.succ_mul, Nat.add_comm width]
    rw [List.range_succ_eq_map, List.map_cons, List.map_map, joinElems, Nat.zero_mul]
    change bits x 0 width % 2 ^ width +
      2 ^ width * joinElems width ((List.range n).map (fun k => bits x ((k + 1) * width) width)) = _
    simp only [hrest, ih]
    rw [bits, Nat.pow_zero, Nat.div_one, Nat.mod_mod, Nat.succ_mul, Nat.add_comm _ width, Nat.pow_add, Nat.mod_mul]

/-- R71: a joined value holds its elements in their places. -/
theorem joinElems_elem (width : Nat) {xs : List Nat} {i : Nat} (hi : i < xs.length) :
    joinElems width xs / 2 ^ (i * width) % 2 ^ width = nth 0 xs i % 2 ^ width := by
  induction xs generalizing i with
  | nil => cases hi
  | cons x xs ih =>
    cases i with
    | zero => simp [joinElems, nth]
    | succ i =>
      have hrest : joinElems width (x :: xs) / 2 ^ width = joinElems width xs := by
        rw [joinElems, Nat.add_mul_div_left _ _ (Nat.two_pow_pos _), Nat.div_eq_of_lt (Nat.mod_lt _ (Nat.two_pow_pos _)),
          Nat.zero_add]
      rw [Nat.succ_mul, Nat.add_comm _ width, Nat.pow_add, ← Nat.div_div_eq_div_mul, hrest]
      exact ih (Nat.lt_of_succ_lt_succ hi)

/-! ## The result of one element -/

/-- R232: without .sat a result is wrapped. -/
theorem finishElem_wraps (ty : Ty) (x : Int) : finishElem ty false x = (wrapInt x (elemWidth ty), 0) := rfl

/-- R95: a result that the TY represents is not changed by .sat. -/
theorem finishElem_inside {ty : Ty} {x : Int} (hlo : elemMin ty (elemWidth ty) ≤ x) (hhi : x ≤ elemMax ty (elemWidth ty)) :
    finishElem ty true x = (wrapInt x (elemWidth ty), 0) := by
  simp [finishElem, satInt, Int.not_lt.2 hlo, Int.not_lt.2 hhi]

/-- R95: a result below the TY's least value is clamped to it. -/
theorem finishElem_below {ty : Ty} {x : Int} (h : x < elemMin ty (elemWidth ty)) :
    finishElem ty true x = (wrapInt (elemMin ty (elemWidth ty)) (elemWidth ty), flagSAT) := by
  simp [finishElem, satInt, h]

theorem elemMin_le_elemMax (ty : Ty) : elemMin ty (elemWidth ty) ≤ elemMax ty (elemWidth ty) := by
  cases ty <;> decide

/-- R95: a result above the TY's greatest value is clamped to it. -/
theorem finishElem_above {ty : Ty} {x : Int} (h : elemMax ty (elemWidth ty) < x) :
    finishElem ty true x = (wrapInt (elemMax ty (elemWidth ty)) (elemWidth ty), flagSAT) := by
  have hlo : ¬ x < elemMin ty (elemWidth ty) := by have := elemMin_le_elemMax ty; omega
  simp [finishElem, satInt, h, hlo]

/-! ## A write over lanes -/

theorem mem_lanesOf {m : BitVec 64} {n l : Nat} : l ∈ lanesOf m n ↔ l < n ∧ m.getLsbD l = true := by
  simp [lanesOf]

/-- The lane `l` of the destination `d` holds a value at the width of the TY. -/
def LaneHolds (g : Group) (ty : Ty) (d l x : Nat) : Prop :=
  if ty.wide then g.v64 d l = BitVec.ofNat 64 x else g.v d l = BitVec.ofNat 32 x

/-- A place of the register file is the lane of the destination. -/
def InDest (ty : Ty) (d r : Nat) : Prop := r = d ∨ (ty.wide = true ∧ r = d + 1)

section Lanes

variable {g : Group} {ty : Ty} {d l x : Nat}

theorem group_v_setV_self {r : Nat} {y : Lane} (h : Tab.wf 0 g.vecs = true) : (g.setV r l y).v r l = y :=
  tab_read_write_self (Bool.and_eq_true _ _ ▸ h).1

theorem setLane_vecs_wf (h : Tab.wf 0 g.vecs = true) : Tab.wf 0 (g.setLane ty d l x).vecs = true := by
  unfold Group.setLane
  split
  · exact tab_wf_write (tab_wf_write h)
  · exact tab_wf_write h

/-- R226: a write to one lane leaves the other lanes and the other registers. -/
theorem setLane_v_other {r k : Nat} (hl : l < 64) (hk : k < 64) (h : ¬(k = l ∧ InDest ty d r)) :
    (g.setLane ty d l x).v r k = g.v r k := by
  have hlow : r * 64 + k ≠ d * 64 + l := by
    intro he
    have : r = d := by omega
    exact h ⟨by omega, .inl this⟩
  unfold Group.setLane
  split
  · next hw =>
    have hhigh : r * 64 + k ≠ (d + 1) * 64 + l := by
      intro he
      have : r = d + 1 := by omega
      exact h ⟨by omega, .inr ⟨hw, this⟩⟩
    rw [Group.setV64, group_v_setV_ne _ hhigh, group_v_setV_ne _ hlow]
  · exact group_v_setV_ne _ hlow

/-- The two halves of a word make it up. -/
theorem halves_append (y : Word) : y.extractLsb' 32 32 ++ y.extractLsb' 0 32 = y := by
  apply BitVec.eq_of_getLsbD_eq
  intro i hi
  rw [BitVec.getLsbD_append]
  split
  · next h => simp [h]
  · next h => simp [show i - 32 < 32 by omega, show 32 + (i - 32) = i by omega]

/-- R166: the pair of a lane reads what was written to it. -/
theorem setV64_v64 {y : Word} (h : Tab.wf 0 g.vecs = true) : (g.setV64 d l y).v64 d l = y := by
  have hne : d * 64 + l ≠ (d + 1) * 64 + l := by omega
  have hhigh : (g.setV64 d l y).v (d + 1) l = y.extractLsb' 32 32 := group_v_setV_self (tab_wf_write h)
  have hlow : (g.setV64 d l y).v d l = y.extractLsb' 0 32 := (group_v_setV_ne _ hne).trans (group_v_setV_self h)
  rw [Group.v64, hhigh, hlow]
  exact halves_append y

theorem setLane_holds (h : Tab.wf 0 g.vecs = true) : LaneHolds (g.setLane ty d l x) ty d l x := by
  unfold LaneHolds Group.setLane
  split
  · exact setV64_v64 h
  · exact group_v_setV_self h

variable {value : Nat → Nat × FpFlags} {ls : List Nat}

/-- The loop of R226: the value of each lane of the list is written, and its flags are raised. -/
def writeLanes (g : Group) (ty : Ty) (d : Nat) (value : Nat → Nat × FpFlags) (ls : List Nat) : Group :=
  ls.foldl (fun a l => (a.setLane ty d l (value l).1).raise (value l).2) g

theorem eachLane_eq_writeLanes (g : Group) (w : Slot) (value : Nat → Nat × FpFlags) :
    g.eachLane w value = writeLanes g w.ty w.d0.vecIndex value (lanesOf (g.lanes w) g.width) := rfl

/-- A group without its vector registers and its floating-point flags. -/
def withoutLanes (g : Group) : Group := { g with vecs := [], fpstat := 0 }

theorem setLane_withoutLanes : withoutLanes (g.setLane ty d l x) = withoutLanes g := by
  unfold Group.setLane
  split <;> rfl

theorem raise_withoutLanes (f : FpFlags) : withoutLanes (g.raise f) = withoutLanes g := rfl

/-- R226, R86: a write over lanes changes the vector registers and the flags of %fpstat only. -/
theorem writeLanes_frame : writeLanes g ty d value ls =
    { g with vecs := (writeLanes g ty d value ls).vecs, fpstat := (writeLanes g ty d value ls).fpstat } := by
  have h : withoutLanes (writeLanes g ty d value ls) = withoutLanes g :=
    foldl_keeps withoutLanes _ (fun _ _ => (raise_withoutLanes _).trans setLane_withoutLanes) ls g
  exact congrArg (fun k : Group =>
    { k with vecs := (writeLanes g ty d value ls).vecs, fpstat := (writeLanes g ty d value ls).fpstat }) h

/-- R226: places that no lane of the list writes keep what they hold. -/
theorem writeLanes_v_other {r k : Nat} (hls : ∀ l ∈ ls, l < 64) (hk : k < 64) (h : ¬(k ∈ ls ∧ InDest ty d r)) :
    (writeLanes g ty d value ls).v r k = g.v r k := by
  induction ls generalizing g with
  | nil => rfl
  | cons a ls ih =>
    obtain ⟨ha, hls⟩ := List.forall_mem_cons.1 hls
    have hhead : ¬(k = a ∧ InDest ty d r) := fun ⟨he, hr⟩ => h ⟨he ▸ List.mem_cons_self, hr⟩
    have htail : ¬(k ∈ ls ∧ InDest ty d r) := fun ⟨hm, hr⟩ => h ⟨List.mem_cons_of_mem _ hm, hr⟩
    exact (ih hls htail).trans (setLane_v_other ha hk hhead)

/-- R226: each lane of the list holds its value. -/
theorem writeLanes_holds (hls : ∀ l ∈ ls, l < 64) (hw : Tab.wf 0 g.vecs = true) (hl : l ∈ ls) :
    LaneHolds (writeLanes g ty d value ls) ty d l (value l).1 := by
  induction ls generalizing g with
  | nil => cases hl
  | cons a ls ih =>
    obtain ⟨ha, htl⟩ := List.forall_mem_cons.1 hls
    by_cases hm : l ∈ ls
    · exact ih htl (setLane_vecs_wf hw) hm
    · obtain rfl : l = a := (List.mem_cons.1 hl).resolve_right hm
      have hkeep (r : Nat) : (writeLanes g ty d value (l :: ls)).v r l = (g.setLane ty d l (value l).1).v r l :=
        writeLanes_v_other htl ha fun ⟨hin, _⟩ => hm hin
      have hnow : LaneHolds (g.setLane ty d l (value l).1) ty d l (value l).1 := setLane_holds hw
      simpa only [LaneHolds, Group.v64, hkeep] using hnow

theorem setLane_fpstat : (g.setLane ty d l x).fpstat = g.fpstat := by
  unfold Group.setLane
  split <;> rfl

/-- R86: the flags of every written lane are raised, and no flag is cleared. -/
theorem writeLanes_fpstat (b : Nat) : (writeLanes g ty d value ls).fpstat.getLsbD b = true ↔
    g.fpstat.getLsbD b = true ∨ ∃ l ∈ ls, (value l).2.getLsbD b = true := by
  induction ls generalizing g with
  | nil => simp [writeLanes]
  | cons a ls ih =>
    change (writeLanes ((g.setLane ty d a (value a).1).raise (value a).2) ty d value ls).fpstat.getLsbD b = true ↔ _
    rw [ih]
    simp [Group.raise, setLane_fpstat, or_assoc]

end Lanes

/-! ## The statement -/

/-- Settles O12: the elements of a value, the result of one element, and the lanes that a write reaches. -/
theorem lanesWritten : Obligations.LanesWritten := by
  unfold Obligations.LanesWritten
  refine ⟨fun ty x i hi => ⟨elemCount_mul_elemWidth ty, nth_splitElems x hi, fun hx => ?_, fun xs hxs => ?_⟩,
    fun ty x => ⟨finishElem_wraps ty x, fun hlo hhi => finishElem_inside hlo hhi, finishElem_below, finishElem_above⟩,
    fun g w value hwidth hw => ?_⟩
  · exact (joinElems_bits ..).trans (Nat.mod_eq_of_lt hx)
  · exact joinElems_elem _ (hxs ▸ hi)
  · have hmem (l : Nat) : l ∈ lanesOf (g.lanes w) g.width ↔ l < g.width ∧ (g.lanes w).getLsbD l = true := mem_lanesOf
    have hls : ∀ l ∈ lanesOf (g.lanes w) g.width, l < 64 := fun l hl => by have := (hmem l).1 hl; omega
    simp only [eachLane_eq_writeLanes, ← hmem]
    exact ⟨fun l hl => writeLanes_holds hls hw hl, fun r l hl hr => writeLanes_v_other hls hl hr, writeLanes_fpstat,
      writeLanes_frame⟩

end Sys2Proof.Proofs.Formats
end

section
/-!
PROOFS. The rounding of representable values.
-/

namespace Sys2Proof.Proofs.Formats

open Sys2Proof Sys2Proof.Machine Sys2Proof.Laws

/-! ## A representable value rounds to its own code -/

/-- The binade of a positive whole number times a power of two. -/
theorem floorLog2_whole {n : Nat} (hn : n ≠ 0) (e : Int) : floorLog2 n 1 e = (n.log2 : Int) + e := by
  have h : 2 ^ n.log2 ≤ n := Nat.log2_self_le hn
  have h0 : Nat.log2 1 = 0 := by decide
  simp [floorLog2, shiftUp, h0, h]

/-- A whole number of steps leaves no remainder. -/
theorem inSteps_whole (n : Nat) (e : Int) : inSteps n 1 e e = (n, 0, 1) := by
  simp [inSteps, shiftUp, Nat.mod_one]

/-- Without a remainder no mode rounds away from zero. -/
theorem roundsUp_whole (m : Mode) (neg : Bool) (k : Nat) : roundsUp m neg k 0 1 = false := by
  cases m <;> simp [roundsUp]

/-- A subnormal magnitude is its own grid point. -/
theorem gridFloor_subnormal {f : Fmt} {m : Nat} (h0 : m ≠ 0) (hm : m < 2 ^ f.mbits) :
    gridFloor f m 1 (1 - (f.bias : Int) - f.mbits) = (m, 0, 1) := by
  have hlog : m.log2 < f.mbits := (Nat.log2_lt h0).2 hm
  have htop : max (m.log2 + (1 - (f.bias : Int) - f.mbits)) (1 - f.bias) = 1 - f.bias := by omega
  simp [gridFloor, floorLog2_whole h0, htop, inSteps_whole]

/-- A normal magnitude is its own grid point. -/
theorem gridFloor_normal {f : Fmt} {e m : Nat} (he : e ≠ 0) (hm : m < 2 ^ f.mbits) :
    gridFloor f (2 ^ f.mbits + m) 1 ((e : Int) - f.bias - f.mbits) = (e * 2 ^ f.mbits + m, 0, 1) := by
  have h0 : 2 ^ f.mbits + m ≠ 0 := by have := Nat.two_pow_pos f.mbits; omega
  have hlog : (2 ^ f.mbits + m).log2 = f.mbits :=
    (Nat.log2_eq_iff h0).2 ⟨Nat.le_add_right _ _, by rw [Nat.pow_succ]; omega⟩
  have htop : max (f.mbits + ((e : Int) - f.bias - f.mbits)) (1 - f.bias) = e - f.bias := by omega
  have hexp : ((e : Int) - f.bias - (1 - f.bias)).toNat = e - 1 := by omega
  have hcode : 2 ^ f.mbits + m + (e - 1) * 2 ^ f.mbits = e * 2 ^ f.mbits + m := by
    obtain ⟨p, rfl⟩ := Nat.exists_eq_succ_of_ne_zero he
    rw [Nat.succ_sub_one, Nat.succ_mul]
    omega
  simp only [gridFloor, floorLog2_whole h0, hlog, htop, inSteps_whole, hexp, hcode]

/-- R82: a finite value that stands on the grid rounds to its grid point, and raises no flag. -/
theorem round_of_gridFloor {f : Fmt} {m : Mode} {s : Bool} {n k : Nat} {e : Int} (hn : n ≠ 0)
    (hg : gridFloor f n 1 e = (k, 0, 1)) (hk : k ≤ f.maxCode) :
    round f m (.fin s n 1 e) = { code := signed f s k, flags := 0 } := by
  simp [Machine.round, hn, hg, roundsUp_whole, Nat.not_lt.2 hk]

/-- A code is its sign and its magnitude. -/
theorem signed_bit_mod {f : Fmt} {code : Nat} (hw : 0 < f.width) (hc : code < 2 ^ f.width) :
    signed f (bit code (f.width - 1)) (code % 2 ^ (f.width - 1)) = code := by
  have hq : code / 2 ^ (f.width - 1) < 2 := by
    rw [Nat.div_lt_iff_lt_mul (Nat.two_pow_pos _), ← Nat.pow_succ', Nat.succ_eq_add_one, Nat.sub_add_cancel hw]
    exact hc
  have hsplit := Nat.mod_add_div code (2 ^ (f.width - 1))
  rcases Nat.le_one_iff_eq_zero_or_eq_one.1 (Nat.le_of_lt_succ hq) with h | h
  · simpa [signed, bit, h] using hsplit
  · simpa [signed, bit, h] using hsplit

/-- R82: a code of any format that is no NaN is what its value rounds to, in every mode. -/
theorem round_decodeFloat {f : Fmt} {code : Nat} (m : Mode) (hw : 0 < f.width) (hc : code < 2 ^ f.width)
    (hnan : (decodeFloat f code).isNan = false) : round f m (decodeFloat f code) = { code := code, flags := 0 } := by
  have hcode := signed_bit_mod hw hc
  unfold decodeFloat at hnan ⊢
  dsimp only at hnan ⊢
  generalize bit code (f.width - 1) = neg at *
  generalize code % 2 ^ (f.width - 1) = mag at *
  have hsplit : mag / 2 ^ f.mbits * 2 ^ f.mbits + mag % 2 ^ f.mbits = mag := Nat.div_add_mod' ..
  have hm : mag % 2 ^ f.mbits < 2 ^ f.mbits := Nat.mod_lt _ (Nat.two_pow_pos _)
  split at hnan
  next hmax =>
    split at hnan
    next hinf => simp [hmax, hinf, Machine.round, hcode]
    next => cases hnan
  next hmax =>
    rw [if_neg hmax]
    have hk : mag ≤ f.maxCode := Nat.not_lt.1 hmax
    by_cases he : mag / 2 ^ f.mbits = 0
    · rw [he, Nat.zero_mul, Nat.zero_add] at hsplit
      rw [if_pos he, hsplit]
      by_cases h0 : mag = 0
      · subst h0
        simp [Machine.round, hcode]
      · rw [round_of_gridFloor h0 (gridFloor_subnormal h0 (hsplit ▸ hm)) hk, hcode]
    · have h0 : 2 ^ f.mbits + mag % 2 ^ f.mbits ≠ 0 := by have := Nat.two_pow_pos f.mbits; omega
      rw [if_neg he, round_of_gridFloor h0 (gridFloor_normal he hm) (by rwa [hsplit]), hsplit, hcode]

/-- Settles O17: every format of the statement has a sign bit. -/
theorem representableRoundsToItself : Obligations.RepresentableRoundsToItself := by
  unfold Obligations.RepresentableRoundsToItself
  intro f m code hf hc hnan
  refine round_decodeFloat m ?_ hc hnan
  rcases hf with rfl | rfl | rfl <;> decide

end Sys2Proof.Proofs.Formats
end

section
/-!
PROOFS. The life of a long-latency operation: what its writes change, what landing does, and what departing does.
-/

namespace Sys2Proof.Proofs.Formats

open Sys2Proof Sys2Proof.Machine Sys2Proof.Laws

/-! ## The writes of an operation -/

section Writes

variable {g h : Group} {ws : List RegWrite}

/-- A group without its scalar and vector registers. -/
def withoutRegs (g : Group) : Group := { g with sregs := [], vecs := [] }

theorem apply_withoutRegs (x : RegWrite) : withoutRegs (g.apply x) = withoutRegs g := by
  cases x with
  | vec r l y => rfl
  | scalar r y =>
    unfold Group.apply Group.setS
    dsimp only
    split <;> rfl

/-- R171: the writes of an operation change scalar and vector registers only. -/
theorem applyAll_withoutRegs (ws : List RegWrite) (g : Group) :
    withoutRegs (ws.foldl Group.apply g) = withoutRegs g :=
  foldl_keeps withoutRegs Group.apply (fun _ x => apply_withoutRegs x) ws g

theorem applyAll_flags : (ws.foldl Group.apply g).flags = g.flags := by
  have h := congrArg Group.flags (applyAll_withoutRegs ws g)
  exact h

theorem applyAll_flights : (ws.foldl Group.apply g).flights = g.flights := by
  have h := congrArg Group.flights (applyAll_withoutRegs ws g)
  exact h

theorem applyAll_owed : (ws.foldl Group.apply g).owed = g.owed := by
  have h := congrArg Group.owed (applyAll_withoutRegs ws g)
  exact h

theorem apply_regs (hs : g.sregs = h.sregs) (hv : g.vecs = h.vecs) (x : RegWrite) :
    (g.apply x).sregs = (h.apply x).sregs ∧ (g.apply x).vecs = (h.apply x).vecs := by
  cases x with
  | vec r l y => simp [Group.apply, Group.setV, hs, hv]
  | scalar r y => by_cases hr : r = 0 <;> simp [Group.apply, Group.setS, hr, hs, hv]

/-- What the writes leave in the registers depends on the registers alone. -/
theorem applyAll_regs (hs : g.sregs = h.sregs) (hv : g.vecs = h.vecs) :
    (ws.foldl Group.apply g).sregs = (ws.foldl Group.apply h).sregs ∧
    (ws.foldl Group.apply g).vecs = (ws.foldl Group.apply h).vecs := by
  induction ws generalizing g h with
  | nil => exact ⟨hs, hv⟩
  | cons x ws ih =>
    obtain ⟨hs, hv⟩ := apply_regs hs hv x
    exact ih hs hv

theorem s_congr (hs : g.sregs = h.sregs) (r : Nat) : g.s r = h.s r := by simp [Group.s, hs]

theorem v_congr (hv : g.vecs = h.vecs) (r l : Nat) : g.v r l = h.v r l := by simp [Group.v, hv]

theorem flag_congr (hf : g.flags = h.flags) (f : Nat) : g.flag f = h.flag f := by simp [Group.flag, hf]

theorem group_flag_setFlag_self {f n : Nat} (hw : Tab.wf 0 g.flags = true) : (g.setFlag f n).flag f = n :=
  tab_read_write_self (Bool.and_eq_true _ _ ▸ hw).1

end Writes

/-! ## Landing -/

section Landing

variable {g : Group} {f : Flight}

/-- What landing does to registers, flags of %fpstat and owed faults, before the flag's count falls. -/
def landed (g : Group) (f : Flight) : Group :=
  match f.fault with
  | some c => { g with owed := g.owed ++ [{ flag := f.flag, slot := f.slot, cause := c }] }
  | none => { f.writes.foldl Group.apply g with fpstat := g.fpstat ||| f.fp }

theorem land_eq : g.land f =
    { (landed g f).setFlag f.flag ((landed g f).flag f.flag - 1) with
      flights := (landed g f).flights.filter (fun x => x.op != f.op) } := rfl

/-- R264: a flight with a deferred fault writes nothing, and the fault is owed. -/
theorem landed_of_fault {c : Cause} (h : f.fault = some c) :
    landed g f = { g with owed := g.owed ++ [{ flag := f.flag, slot := f.slot, cause := c }] } := by
  simp [landed, h]

/-- R86, R158: the writes and the flags of a flight without a fault take effect. -/
theorem landed_of_none (h : f.fault = none) :
    landed g f = { f.writes.foldl Group.apply g with fpstat := g.fpstat ||| f.fp } := by
  simp [landed, h]

theorem landed_flags : (landed g f).flags = g.flags := by
  cases h : f.fault with
  | none => rw [landed_of_none h]; exact applyAll_flags
  | some c => rw [landed_of_fault h]

theorem landed_flights : (landed g f).flights = g.flights := by
  cases h : f.fault with
  | none => rw [landed_of_none h]; exact applyAll_flights
  | some c => rw [landed_of_fault h]

/-- The flight that has landed is no longer in flight. -/
theorem land_flights : (g.land f).flights = g.flights.filter (fun x => x.op != f.op) := by
  rw [land_eq, landed_flights]

/-- R158: the count of the flight's flag falls by one. -/
theorem land_flag (hw : Tab.wf 0 g.flags = true) : (g.land f).flag f.flag = g.flag f.flag - 1 := by
  have hw' : Tab.wf 0 (landed g f).flags = true := by rwa [landed_flags]
  rw [land_eq, flag_congr landed_flags]
  exact group_flag_setFlag_self hw'

theorem land_fpstat (h : f.fault = none) : (g.land f).fpstat = g.fpstat ||| f.fp := by
  rw [land_eq, landed_of_none h]; rfl

theorem land_sregs (h : f.fault = none) : (g.land f).sregs = (f.writes.foldl Group.apply g).sregs := by
  rw [land_eq, landed_of_none h]; rfl

theorem land_vecs (h : f.fault = none) : (g.land f).vecs = (f.writes.foldl Group.apply g).vecs := by
  rw [land_eq, landed_of_none h]; rfl

theorem land_owed (h : f.fault = none) : (g.land f).owed = g.owed := by
  rw [land_eq, landed_of_none h]; exact applyAll_owed

/-- R264: what a fault leaves. -/
theorem land_of_fault {c : Cause} (h : f.fault = some c) :
    (g.land f).owed = g.owed ++ [{ flag := f.flag, slot := f.slot, cause := c }] ∧
    (g.land f).fpstat = g.fpstat ∧ (g.land f).sregs = g.sregs := by
  rw [land_eq, landed_of_fault h]
  exact ⟨rfl, rfl, rfl⟩

end Landing

/-! ## Departing -/

section Departing

variable {g : Group} {w : Slot} {dests : List DestReg} {writes : List RegWrite} {fp : BitVec 7} {fault : Option Cause}
  {task : Task}

/-- The flight that a departing instruction adds. -/
def departing (g : Group) (w : Slot) (dests : List DestReg) (writes : List RegWrite) (fp : BitVec 7)
    (fault : Option Cause) (task : Task) : Flight :=
  { op := g.nextOp, flag := g.flagOf w, slot := g.pc, writes := writes, fp := fp, fault := fault, task := task
    dests := dests }

theorem depart_flights : (g.depart w dests writes fp fault task).flights =
    g.flights ++ [departing g w dests writes fp fault task] := rfl

theorem depart_flags : (g.depart w dests writes fp fault task).flags =
    (g.setFlag (g.flagOf w) (g.flag (g.flagOf w) + 1)).flags := rfl

theorem depart_flag_self (hw : Tab.wf 0 g.flags = true) :
    (g.depart w dests writes fp fault task).flag (g.flagOf w) = g.flag (g.flagOf w) + 1 :=
  (flag_congr depart_flags _).trans (group_flag_setFlag_self hw)

theorem depart_flag_ne {j : Nat} (h : j ≠ g.flagOf w) : (g.depart w dests writes fp fault task).flag j = g.flag j :=
  (flag_congr depart_flags _).trans (group_flag_setFlag_ne g h)

theorem depart_flags_wf (hw : Tab.wf 0 g.flags = true) :
    Tab.wf 0 (g.depart w dests writes fp fault task).flags = true := by
  have h : Tab.wf 0 (Tab.write 0 g.flags (g.flagOf w) (g.flag (g.flagOf w) + 1)) = true := tab_wf_write hw
  exact h

/-- R159: each destination but s0 is pending. -/
theorem depart_marks {r : DestReg} (hr : r ∈ dests) (h0 : r ≠ .scalar 0) :
    ∃ m, m ∈ (g.depart w dests writes fp fault task).marks ∧ m.reg = r ∧ m.flag = g.flagOf w ∧ m.slot = g.pc := by
  refine ⟨{ reg := r, flag := g.flagOf w, slot := g.pc, op := g.nextOp }, ?_, rfl, rfl, rfl⟩
  refine List.mem_append_right _ (List.mem_map.2 ⟨r, List.mem_filter.2 ⟨hr, ?_⟩, rfl⟩)
  simpa using h0

/-- R158: landing what has just departed leaves the flights as they were. -/
theorem land_depart_flights (hops : ∀ x, x ∈ g.flights → x.op < g.nextOp) :
    ((g.depart w dests writes fp fault task).land (departing g w dests writes fp fault task)).flights = g.flights := by
  have hkeep : g.flights.filter (fun x => x.op != g.nextOp) = g.flights := by
    rw [List.filter_eq_self]
    intro x hx
    simpa using Nat.ne_of_lt (hops x hx)
  rw [land_flights, depart_flights, List.filter_append, departing]
  simp [hkeep]

/-- R158: the count of the flag is as before the departure. -/
theorem land_depart_flag (hw : Tab.wf 0 g.flags = true) :
    ((g.depart w dests writes fp fault task).land (departing g w dests writes fp fault task)).flag (g.flagOf w) =
      g.flag (g.flagOf w) := by
  have h := land_flag (g := g.depart w dests writes fp fault task) (f := departing g w dests writes fp fault task)
    (depart_flags_wf hw)
  rw [departing, depart_flag_self hw, Nat.add_sub_cancel] at h
  exact h

end Departing

/-! ## The statement -/

/-- Settles O19: departure and its landing, and landing in general. -/
theorem longLatencyLife : Obligations.LongLatencyLife := by
  unfold Obligations.LongLatencyLife
  refine ⟨fun g w dests writes fp task hw hops => ?_, fun g f => ⟨fun h hws => ?_, fun c hc => ?_, fun d v h hws j => ?_,
    fun x hx => ?_, fun hw _ _ => ?_⟩⟩
  · obtain ⟨hs, hv⟩ := applyAll_regs (g := g.depart w dests writes fp none task) (h := g) (ws := writes) rfl rfl
    refine ⟨depart_flag_self hw, fun j hj => depart_flag_ne hj, rfl, rfl, rfl, rfl, rfl, rfl,
      fun r hr h0 => depart_marks hr h0, departing g w dests writes fp none task, depart_flights, rfl, rfl, rfl, rfl, rfl,
      rfl, land_depart_flag hw, land_depart_flights hops, land_fpstat rfl, fun r => ?_, fun r l => ?_⟩
    · exact s_congr ((land_sregs rfl).trans hs) r
    · exact v_congr ((land_vecs rfl).trans hv) r l
  · exact ⟨land_fpstat h, land_owed h⟩
  · obtain ⟨howed, hfp, hs⟩ := land_of_fault (g := g) hc
    exact ⟨howed, hfp, s_congr hs⟩
  · refine s_congr ?_ j
    rw [land_sregs h, hws]
    rfl
  · rw [land_flights] at hx
    obtain ⟨hin, hop⟩ := List.mem_filter.1 hx
    exact ⟨by simpa using hop, hin⟩
  · simp only [Group.wf, Bool.and_eq_true] at hw
    obtain ⟨⟨⟨-, hflags⟩, -⟩, -⟩ := hw
    exact land_flag hflags

end Sys2Proof.Proofs.Formats
end

section
/-!
PROOFS. The special-function instructions: what they put in flight, and their results on special inputs.
-/

namespace Sys2Proof.Proofs.Formats

open Sys2Proof Sys2Proof.Machine Sys2Proof.Laws

/-! ## Departure -/

/-- What a special function puts in flight for lane `l` (R239, R244). -/
def specialLane (s : State) (g : Group) (w : Slot) (op : Nat → Nat → Nat → Nat × FpFlags) (l : Nat) :
    RegWrite × FpFlags :=
  let r := op (readFp fp32 w 3 (s.laneSource g w w.a l).toNat) (readFp fp32 w 5 (s.laneSource g w w.b l).toNat)
    (readFp fp32 w 7 (s.laneSource g w w.c l).toNat)
  let x := flushResult fp32 (fpFtz w) { code := r.1, flags := r.2 }
  (RegWrite.vec w.d0.vecIndex l (BitVec.ofNat 32 x.code), x.flags)

/-- The group after a special function has departed (R244). -/
def specialDeparts (s : State) (g : Group) (w : Slot) (op : Nat → Nat → Nat → Nat × FpFlags) : Group :=
  let rs := (lanesOf (g.lanes w) g.width).map (specialLane s g w op)
  g.depart w [.vec w.d0.vecIndex] (rs.map Prod.fst) (rs.foldl (fun a r => a ||| r.2) 0) none .special

/-- R244: a special-function instruction that stands ready departs. -/
theorem ready_specialFn {i : Instr} {s : State} {k : Nat} {g : Group} {w : Slot} {n : Nat} {mode : Bool}
    {op : Nat → Nat → Nat → Nat × FpFlags} (h : ReadyTo i s k g) (he : encodingOf s i = some (encSfu w n mode))
    (hx : exec i s = specialFn n mode w s op) : exec i s = .next (s.vecRetire k w g (specialDeparts s g w op)) :=
  ready_vec (e := encSfu w n mode) h he hx rfl

/-! ## Special inputs -/

/-- A code above that of −0 and up to that of −∞ is a value below zero. -/
theorem decodeFloat_negative {x : Nat} (hlo : 0x80000000 < x) (hhi : x ≤ 0xFF800000) :
    decodeFloat fp32 x = .inf true ∨ ∃ n d e, n ≠ 0 ∧ decodeFloat fp32 x = .fin true n d e := by
  have hsign : bit x 31 = true := by
    have h : x / 2 ^ 31 % 2 = 1 := by omega
    simpa [bit] using h
  unfold decodeFloat
  simp only [fp32, Nat.reduceSub, hsign]
  split
  · next hmax =>
    have hinf : x % 2 ^ 31 = 0x7F800000 := by omega
    exact .inl (if_pos (by rw [hinf]))
  · split
    · next he =>
      refine .inr ⟨_, _, _, ?_, rfl⟩
      omega
    · refine .inr ⟨_, _, _, ?_, rfl⟩
      omega

/-- R93: square roots and logarithms of values below zero are invalid. -/
theorem negative_invalid {x : Nat} (hlo : 0x80000000 < x) (hhi : x ≤ 0xFF800000) :
    (∀ m, fsqrtCode m x = (fp32.nanCode, flagIV)) ∧ frsq x = (fp32.nanCode, flagIV) ∧
    flg2 x = (fp32.nanCode, flagIV) := by
  rcases decodeFloat_negative hlo hhi with h | ⟨n, d, e, hn, h⟩
  · simp [fsqrtCode, frsq, flg2, h]
  · simp [fsqrtCode, frsq, flg2, h, hn]

theorem decodeFloat_zero (neg : Bool) : decodeFloat fp32 (signed fp32 neg 0) = .fin neg 0 1 (-149) := by
  cases neg <;> rfl

theorem decodeFloat_infinity (neg : Bool) : decodeFloat fp32 (signed fp32 neg 0x7F800000) = .inf neg := by
  cases neg <;> rfl

/-- R93: the functions at a zero of either sign. -/
theorem special_zero (neg : Bool) :
    frcp (signed fp32 neg 0) = (signed fp32 neg 0x7F800000, flagDZ) ∧
    frsq (signed fp32 neg 0) = (signed fp32 neg 0x7F800000, flagDZ) ∧
    flg2 (signed fp32 neg 0) = (0xFF800000, flagDZ) ∧ fsin (signed fp32 neg 0) = (signed fp32 neg 0, 0) ∧
    ∀ m, fsqrtCode m (signed fp32 neg 0) = (signed fp32 neg 0, 0) := by
  simp [frcp, frsq, flg2, fsin, fsqrtCode, decodeFloat_zero]

/-- R93: the functions at an infinity of either sign. -/
theorem special_infinity (neg : Bool) :
    frcp (signed fp32 neg 0x7F800000) = (signed fp32 neg 0, 0) ∧
    ftanh (signed fp32 neg 0x7F800000) = (signed fp32 neg 0x3F800000, 0) ∧
    fsin (signed fp32 neg 0x7F800000) = (fp32.nanCode, flagIV) ∧
    fcos (signed fp32 neg 0x7F800000) = (fp32.nanCode, flagIV) := by
  simp [frcp, ftanh, fsin, fcos, decodeFloat_infinity]

/-- R93: the functions that are defined at +∞ only. -/
theorem special_positive_infinity : frsq 0x7F800000 = (0, 0) ∧ flg2 0x7F800000 = (0x7F800000, 0) := by
  have h : decodeFloat fp32 0x7F800000 = .inf false := decodeFloat_infinity false
  simp [frsq, flg2, h]

/-! ## The statement -/

/-- Settles O18: the departure of the nine instructions, and the table of special inputs. -/
theorem specialFunctions : Obligations.SpecialFunctions := by
  unfold Obligations.SpecialFunctions
  refine ⟨fun s k g w => ?_, ?_⟩
  · intro departs
    have go {i : Instr} {n : Nat} {mode : Bool} {op : Nat → Nat → Nat → Nat × FpFlags} (h : ReadyTo i s k g)
        (he : encodingOf s i = some (encSfu w n mode)) (hx : exec i s = specialFn n mode w s op) :
        exec i s = departs op := ready_specialFn h he hx
    clear_value departs
    exact ⟨fun h => go h rfl rfl, fun h => go h rfl rfl, fun h => go h rfl rfl, fun h => go h rfl rfl,
      fun h => go h rfl rfl, fun h => go h rfl rfl, fun h => go h rfl rfl, fun h => go h rfl rfl, fun h => go h rfl rfl⟩
  · obtain ⟨frcp_pos, frsq_pos, flg2_pos, fsin_pos, -⟩ := special_zero false
    obtain ⟨frcp_neg, frsq_neg, flg2_neg, fsin_neg, fsqrt_neg⟩ := special_zero true
    obtain ⟨frcp_inf, ftanh_inf, fsin_inf, fcos_inf⟩ := special_infinity false
    obtain ⟨frcp_minf, ftanh_minf, fsin_minf, fcos_minf⟩ := special_infinity true
    obtain ⟨frsq_inf, flg2_inf⟩ := special_positive_infinity
    refine ⟨frcp_pos, frcp_neg, frcp_inf, frcp_minf, frsq_pos, frsq_neg, frsq_inf, flg2_pos, flg2_neg, flg2_inf, fsin_pos,
      fsin_neg, ftanh_inf, ftanh_minf, fsqrt_neg, fun x hx => ?_, fun x hlo hhi => negative_invalid hlo hhi⟩
    rcases hx with rfl | rfl
    · exact ⟨fsin_inf, fcos_inf⟩
    · exact ⟨fsin_minf, fcos_minf⟩

end Sys2Proof.Proofs.Formats
end

section
/-!
PROOFS. The conversions CVT, CVTE and CVTB of an instruction that stands ready.
-/

namespace Sys2Proof.Proofs.Formats

open Sys2Proof Sys2Proof.Machine Sys2Proof.Laws

section Ready

variable {s : State} {k : Nat} {g : Group} {w : Slot}

/-- An instruction that stands ready keeps its own encoding rules (R175). -/
theorem ready_ok {i : Instr} {e : Encoding} (h : ReadyTo i s k g) (he : encodingOf s i = some e) : e.ok g = true := by
  have hc := h.clear
  simp only [State.clears, he, Encoding.legalIn, Bool.and_eq_true] at hc
  obtain ⟨⟨⟨-, hok⟩, -⟩, -⟩ := hc
  exact hok

/-- R248: CVT that stands ready names a source type. -/
theorem cvtSource_of_cvtOk (h : cvtOk w = true) : ∃ src, cvtSource w = some src := by
  unfold cvtOk at h
  split at h
  · cases h
  · exact ⟨_, ‹_›⟩

/-- R248: CVT converts lane by lane from the type that it names. -/
theorem ready_cvt (h : ReadyTo (.cvt w) s k g) : ∃ src, cvtSource w = some src ∧
    exec (.cvt w) s = .next (s.retire k w (g.eachLane w (s.cvtLane g w src))) := by
  obtain ⟨src, hsrc⟩ := cvtSource_of_cvtOk (ready_ok h rfl)
  refine ⟨src, hsrc, ready_done h rfl (execCvt.eq_def w s) ?_⟩
  rw [hsrc]
  rfl

/-- R250: CVTE.dec. -/
theorem ready_cvte_dec (h : ReadyTo (.cvte w) s k g) (hd : cvtDec w = true) :
    exec (.cvte w) s = .next (s.retire k w (g.eachLane w (fun l => roundResult fp32 .rne (w.mod.getLsbD 6)
      (decodeElem (s.slotDesc g (cvtSlot w)) (s.laneSource g w w.a l).toNat, 0)))) := by
  refine ready_done h rfl (execCvte.eq_def w s) ?_
  rw [hd]
  rfl

/-- R250: CVTE.enc. -/
theorem ready_cvte_enc (h : ReadyTo (.cvte w) s k g) (hd : cvtDec w = false) :
    let d := s.slotDesc g (cvtSlot w)
    exec (.cvte w) s = .next (s.retire k w ((g.eachLane w (fun l =>
      encodeElem d (s.slotMode g d g.stoch l) (w.mod.getLsbD 6)
        (s.laneFp32 g w (w.mod.getLsbD 6) w.a l))).countStochastic d (!(lanesOf (g.lanes w) g.width).isEmpty))) := by
  refine ready_done h rfl (execCvte.eq_def w s) ?_
  rw [hd]
  rfl

/-- R251: CVTB.dec. -/
theorem ready_cvtb_dec (h : ReadyTo (.cvtb w) s k g) (hd : cvtDec w = true) :
    exec (.cvtb w) s = .next (s.retire k w (g.eachLane w (s.decodeLane w g (s.slotDesc g (cvtSlot w))))) := by
  refine ready_done h rfl (execCvtb.eq_def w s) ?_
  rw [hd]
  rfl

/-- R251: CVTB.enc. -/
theorem ready_cvtb_enc (h : ReadyTo (.cvtb w) s k g) (hd : cvtDec w = false) :
    let d := s.slotDesc g (cvtSlot w)
    exec (.cvtb w) s = .next (s.retire k w
      (((List.range (g.width / blockSize (slotGeom d))).foldl (s.encodeBlock w g d (g.lanes w)) g).countStochastic d
        (decide (g.lanes w ≠ 0)))) := by
  refine ready_done h rfl (execCvtb.eq_def w s) ?_
  rw [hd]
  rfl

end Ready

/-- Settles O20: CVT, and the two directions of CVTE and CVTB. -/
theorem conversions : Obligations.Conversions := by
  unfold Obligations.Conversions
  intro s k g w
  exact ⟨ready_cvt, ready_cvte_dec, ready_cvte_enc, ready_cvtb_dec, ready_cvtb_enc⟩

end Sys2Proof.Proofs.Formats
end

section
/-!
PROOFS. The matrix instructions: what `matrixIssue` comes to, each instruction that acts, and one accumulation step.
-/

namespace Sys2Proof.Proofs.Formats

open Sys2Proof Sys2Proof.Machine Sys2Proof.Laws

/-! ## Issue to the array -/

section Issue

variable {i : Instr} {s s1 : State} {k : Nat} {g : Group} {w : Slot} {elected : Bool}
  {body : State → MatrixArray → Result}

/-- The number of lanes that an instruction acts on. -/
def laneCount (g : Group) (w : Slot) : Nat := (lanesOf (g.lanes w) g.width).length

/-- R298, R316: the array is not stopped by a fault that the group has to take, the queue has room, and the array is in
the team's hands in state `s1`. -/
def ArrayFree (s : State) (g : Group) (s1 : State) : Prop :=
  s.arrayFault g = none ∧ (s.unretired g.team .matrix).length < 63 ∧ s.takeArray g.core g.team = some s1

/-- R302: an elected instruction without a lane does nothing. -/
theorem matrixIssue_idle (h : laneCount g w = 0) : s.matrixIssue k g w true body = .done s := by
  unfold laneCount at h
  simp [State.matrixIssue, h]

/-- R302: an elected instruction with several lanes traps. -/
theorem matrixIssue_many (h : 1 < laneCount g w) : s.matrixIssue k g w true body = rangeTrap s g := by
  unfold laneCount at h
  have h0 : ¬ (lanesOf (g.lanes w) g.width).length = 0 := by omega
  have h1 : ¬ (lanesOf (g.lanes w) g.width).length = 1 := by omega
  simp [State.matrixIssue, h0, h1]

/-- R298: an instruction that acts, at a free array, comes to its own checks. -/
theorem matrixIssue_free (hl : elected = true → laneCount g w = 1) (hf : ArrayFree s g s1) :
    s.matrixIssue k g w elected body = body s1 (s1.core g.core).array := by
  obtain ⟨hfault, hroom, htake⟩ := hf
  have hroom' : ¬ 63 ≤ (s.unretired g.team .matrix).length := by omega
  unfold laneCount at hl
  cases elected with
  | false => simp [State.matrixIssue, hfault, hroom', htake]
  | true => simp [State.matrixIssue, hl rfl, hfault, hroom', htake]

/-- R302: what an elected instruction comes to with no lane, and with more than one. -/
theorem ready_elected {f : Form} {ok : Group → Bool} {body : Group → State → MatrixArray → Result}
    (hf : f.long = false) (h : ReadyTo i s k g) (he : encodingOf s i = some { slot := w, form := f, ok := ok })
    (hx : exec i s = issue f ok noMore w s (fun k g => s.matrixIssue k g w true (body g))) :
    (laneCount g w = 0 → exec i s = .next (s.advance k w)) ∧
    (1 < laneCount g w → s.trapWaits k = false → exec i s = .next (s.trapAt k (trapAll g 0x07 0))) := by
  have hi := ready_issue (e := { slot := w, form := f, ok := ok }) h he hx
  constructor
  · intro h0
    rw [hi, matrixIssue_idle h0]
    rfl
  · intro h1 ht
    rw [hi, matrixIssue_many h1]
    simp only [rangeTrap, finish, ht, Bool.false_eq_true, if_false, issueTrap_short hf]

/-- R298: a matrix instruction that acts and passes its own checks takes effect in state `t`. -/
theorem ready_matrix {f : Form} {ok : Group → Bool} {body : Nat → Group → State → MatrixArray → Result} {t : State}
    (h : ReadyTo i s k g) (he : encodingOf s i = some { slot := w, form := f, ok := ok })
    (hx : exec i s = issue f ok noMore w s (fun k g => s.matrixIssue k g w elected (body k g)))
    (hl : elected = true → laneCount g w = 1) (hf : ArrayFree s g s1)
    (hb : body k g s1 (s1.core g.core).array = .done t) : exec i s = .next (t.advance k w) := by
  rw [ready_issue (e := { slot := w, form := f, ok := ok }) h he hx]
  dsimp only
  rw [matrixIssue_free hl hf, hb]
  rfl

end Issue

/-! ## The instructions -/

section Instructions

variable {s s1 : State} {k : Nat} {g : Group} {w : Slot}

/-- The tiles that TCFG defines (R304). -/
def tilesOf (x y : Word) : Tab (Nat × Nat) :=
  (List.range 8).filterMap (fun j => match tileField x y j with
    | some (r, c) => if r = 0 then none else some (j, (r, c))
    | none => none)

/-- R304: TCFG. -/
theorem ready_tcfg (h : ReadyTo (.tcfg w) s k g) (hl : laneCount g w = 1) (hf : ArrayFree s g s1)
    (hfields : ∀ j, j < 8 → tileField (s1.scalarSource g w w.a) (s1.scalarSource g w w.b) j ≠ none) :
    let tiles := tilesOf (s1.scalarSource g w w.a) (s1.scalarSource g w w.b)
    (tiles.map (fun p => p.2.1 * p.2.2)).foldl (· + ·) 0 ≤ 65536 →
    exec (.tcfg w) s = .next (((s1.modArray g.core (fun z => { z with view := tiles })).submit k g
      (g.matrixOp k (.tcfg tiles) [] [])).advance k w) := by
  intro tiles hsize
  refine ready_matrix h rfl (execTcfg.eq_def w s) (fun _ => hl) hf ?_
  have hall : ((List.range 8).map (tileField (s1.scalarSource g w w.a) (s1.scalarSource g w w.b))).any Option.isNone =
      false := by
    simpa using hfields
  have hfits : ¬ (false || decide (65536 < (tiles.map (fun p => p.2.1 * p.2.2)).foldl (· + ·) 0)) = true := by
    simpa using hsize
  exact if_neg (by rw [hall]; exact hfits)

/-- R305: MZERO of tiles that are defined. -/
theorem ready_mzero (h : ReadyTo (.mzero w) s k g) (hl : laneCount g w = 1) (hf : ArrayFree s g s1)
    (htiles : ∀ j, j < 8 → w.mod.getLsbD j = true → Tab.find (s1.core g.core).array.view j ≠ none) :
    exec (.mzero w) s =
      .next ((s1.submit k g (g.matrixOp k (.mzero (w.mod.extractLsb' 0 8)) [] [])).advance k w) := by
  refine ready_matrix h rfl (execMzero.eq_def w s) (fun _ => hl) hf (if_neg ?_)
  simp only [List.any_eq_true, List.mem_range, Bool.and_eq_true, Option.isNone_iff_eq_none, not_exists, not_and]
  intro j hj hbit
  refine htiles j hj ?_
  simpa [hj] using hbit

/-- The panel that MLDB describes (R308). -/
def panelOf (s : State) (g : Group) (w : Slot) (d : BitVec 64) : Panel :=
  { offset := (s.scalarSource g w w.a).toNat, cols := (s.scalarSource g w w.b).toNat
    steps := (s.scalarSource g w w.c).toNat, slot := d, sparse := w.mod.getLsbD 16, data := [], side := [] }

/-- R308: a panel lies in the weight buffer, at a line, with whole column blocks. -/
def PanelFits (p : Panel) : Prop :=
  p.offset % 128 = 0 ∧ p.cols % 16 = 0 ∧ 16 ≤ p.cols ∧ p.cols ≤ 4080 ∧ 1 ≤ p.steps ∧ p.steps ≤ 4096 ∧
    p.offset + p.occupancy ≤ 262144

/-- R308, R309: MLDB of a panel that fits. -/
theorem ready_mldb (h : ReadyTo (.mldb w) s k g) (hl : laneCount g w = 1) (hf : ArrayFree s g s1) :
    let d := s.slotDesc g (modField w 13 3)
    let p := panelOf s1 g w d
    ∀ ins, PanelFits p →
    (s1.teamOf g).operand d p.sparse p.cols p.steps (modField w 0 4) (modField w 4 4) = some ins →
    exec (.mldb w) s = .next
      (((s1.modArray g.core (fun z => { z with viewPanels := putPanel z.viewPanels (modField w 9 4) p })).submit k g
        (g.matrixOp k (.mldb (modField w 9 4) p) ins [])).advance k w) := by
  intro d p ins hp hins
  obtain ⟨hoff, hcols, hmin, hmax, hstep, hsteps, hend⟩ := hp
  refine ready_matrix h rfl (execMldb.eq_def w s) (fun _ => hl) hf ?_
  have hfits : ¬ (p.offset % 128 != 0 || p.cols % 16 != 0 || decide (p.cols < 16) || decide (4080 < p.cols) ||
      decide (p.steps < 1) || decide (4096 < p.steps) || decide (262144 < p.offset + p.occupancy)) = true := by
    simp only [Bool.or_eq_true, bne_iff_ne, decide_eq_true_eq]
    omega
  refine (if_neg hfits).trans ?_
  simp only [p, d, panelOf] at hins ⊢
  simp only [hins]

/-- R310, R311: MMA of a tile and a panel that fit together. -/
theorem ready_mma (h : ReadyTo (.mma w) s k g) (hl : laneCount g w = 1) (hf : ArrayFree s g s1) :
    let d := s.slotDesc g (modField w 16 3)
    let t := s1.teamOf g
    let a := (s1.core g.core).array
    ∀ rows cols p ins, Tab.find a.view (modField w 0 3) = some (rows, cols) →
    Tab.find a.viewPanels (modField w 12 4) = some p → p.cols = cols → slotsAlike d p.slot = true →
    t.operand d false rows p.steps (modField w 3 4) (modField w 7 4) = some ins → exec (.mma w) s = .next
      (((if w.mod.getLsbD 19 then s1.evenFirst t else s1).submit k g
        (g.matrixOp k (.mma (modField w 0 3) (modField w 12 4) d (w.mod.getLsbD 19)) ins [])).advance k w) := by
  intro d t a rows cols p ins htile hpanel hcols halike hins
  refine ready_matrix h rfl (execMma.eq_def w s) (fun _ => hl) hf ?_
  simp only [a, t, d] at htile hpanel halike hins
  simp [htile, hpanel, hcols, halike, hins, t, d]

/-- R312: MSTO of a tile into a basin that takes it. -/
theorem ready_msto (h : ReadyTo (.msto w) s k g) (hl : laneCount g w = 1) (hf : ArrayFree s g s1) :
    let cv := w.mod.getLsbD 7
    let d := if cv then s.slotDesc g (modField w 8 3) else 0
    ∀ rows cols rb n, Tab.find (s1.core g.core).array.view (modField w 0 3) = some (rows, cols) →
    storeRowBytes cv d cols = some rb → ((s1.teamOf g).basin (modField w 3 4)).elements (rows * rb) = some n →
    exec (.msto w) s = .next
      (((s1.submit k g (g.matrixOp k (.msto (modField w 0 3) cv (w.mod.getLsbD 12) (w.mod.getLsbD 11) d g.stoch) []
        [(modField w 3 4, n)])).modGroup k (fun x => x.countStochastic d cv)).advance k w) := by
  intro cv d rows cols rb n htile hrow hroom
  refine ready_matrix h rfl (execMsto.eq_def w s) (fun _ => hl) hf ?_
  simp only [cv, d] at hrow ⊢
  simp only [htile, hrow, hroom]

/-- R313: MQ4 of a block that lies in its tile. -/
theorem ready_mq4 (h : ReadyTo (.mq4 w) s k g) (hf : ArrayFree s g s1) :
    let z := fusion (modField w 3 2)
    let c := (s1.scalarSource g w w.c).toNat
    ∀ r n, Tab.find (s1.core g.core).array.view (modField w 0 3) = some (r, n) →
    c % 65536 % 8 = 0 → c / 65536 % 65536 % 8 = 0 → c % 65536 + z.2.2.1 ≤ r → c / 65536 % 65536 + z.2.2.2 ≤ n →
    exec (.mq4 w) s = .next ((s1.submit k g
      (g.matrixOp k (.mq4 (modField w 0 3) (modField w 3 2) (s.slotDesc g (modField w 5 3)) (s.slotDesc g (modField w 8 3))
        (g.image w.a.vecIndex (imageRegs z.1 g.width)) (g.image w.b.vecIndex (imageRegs z.2.1 g.width))
        (c % 65536) (c / 65536 % 65536)) [] [])).advance k w) := by
  intro z c r n htile hrow hcol hrows hcols
  have hwidth : s.curWidth = g.width := by simp [State.curWidth, h.current, h.group]
  rw [← hwidth]
  refine ready_matrix (elected := false) h rfl (execMq4.eq_def w s) (fun h => nomatch h) hf ?_
  have hfits : ¬ (c % 65536 % 8 != 0 || c / 65536 % 65536 % 8 != 0 || decide (r < c % 65536 + z.2.2.1) ||
      decide (n < c / 65536 % 65536 + z.2.2.2)) = true := by
    simp only [Bool.or_eq_true, bne_iff_ne, decide_eq_true_eq]
    omega
  simp only [htile]
  exact if_neg hfits

end Instructions

/-! ## One accumulation step -/

/-- R90: the products of elements that are all there. -/
theorem zipWith_stepProduct (xs ys : List Exact) :
    List.zipWith stepProduct (xs.map some) (ys.map some) = List.zipWith (fun x y => (x.mul y).1) xs ys := by
  rw [List.zipWith_map]
  rfl

/-- R91: the word of an integer slot grows by the sum modulo 2^32. -/
theorem accumulate_int (c : BitVec 32) (xs ys : List (Option Exact)) :
    accumulate true c xs ys = c + BitVec.ofInt 32 (stepSum xs ys).toInt := by
  rw [accumulate, if_pos rfl, BitVec.ofInt_add]
  simp

/-- R90: the word of a floating-point slot takes the exact sum and is rounded once. -/
theorem accumulate_float (c : BitVec 32) (xs ys : List (Option Exact)) :
    accumulate false c xs ys =
      BitVec.ofNat 32 (round fp32 .rne ((decodeFloat fp32 c.toNat).add false (stepSum xs ys)).1).code := rfl

/-! ## The statement -/

/-- Settles O39: the elected instructions without a lane and with several, each instruction that acts, and the two kinds
of accumulation. -/
theorem matrixIssue : Obligations.MatrixIssue := by
  unfold Obligations.MatrixIssue
  refine ⟨fun s s1 k g w => ⟨?_, ?_, ?_, ?_, ?_, ?_, ?_⟩, fun c xs ys _ _ => ?_⟩
  · intro i hi h
    simp only [List.mem_cons, List.not_mem_nil, or_false] at hi
    rcases hi with rfl | rfl | rfl | rfl | rfl
    · exact ready_elected rfl h rfl (execTcfg.eq_def w s)
    · exact ready_elected rfl h rfl (execMzero.eq_def w s)
    · exact ready_elected rfl h rfl (execMldb.eq_def w s)
    · exact ready_elected rfl h rfl (execMma.eq_def w s)
    · exact ready_elected rfl h rfl (execMsto.eq_def w s)
  · exact fun h hl hf => ready_tcfg h hl hf
  · exact fun h hl hf htiles => ready_mzero h hl hf htiles
  · exact fun h hl hf ins hoff hcols hmin hmax hstep hsteps hend hins =>
      ready_mldb h hl hf ins ⟨hoff, hcols, hmin, hmax, hstep, hsteps, by rwa [Panel.occupancy]⟩ hins
  · exact fun h hl hf => ready_mma h hl hf
  · exact fun h hl hf => ready_msto h hl hf
  · exact fun h hf => ready_mq4 h hf
  · rw [accumulate_int, accumulate_float, stepSum, zipWith_stepProduct]
    exact ⟨rfl, rfl⟩

end Sys2Proof.Proofs.Formats
end

section
/-!
PROOFS. What an instruction that stands ready keeps of its encoding rules, and where its group stands after it has issued.
-/

namespace Sys2Proof.Proofs.Registers

open Sys2Proof Sys2Proof.Machine Sys2Proof.Laws Sys2Proof.Proofs.Formats

/-! ## Encoding rules -/

section Legal

variable {i : Instr} {s : State} {k : Nat} {g : Group} {e : Encoding} {f : Form} {w : Slot}

/-- The encoding rules of R158 and R166 to R171 that the results of an instruction rest on. -/
structure FieldsOk (f : Form) (w : Slot) (g : Group) : Prop where
  flag : flagOk f w g = true
  ty : (if f.tys.isEmpty then decide (w.ty = .b32) else f.tys.contains w.ty) = true
  mod : w.mod &&& ~~~f.mod = 0
  d0 : f.d0.accepts w.d0 = true
  a : f.a.accepts w.a = true
  b : f.b.accepts w.b = true
  c : f.c.accepts w.c = true

theorem fieldsOk_of_legal (h : legal f w g = true) : FieldsOk f w g := by
  simp only [legal, Bool.and_eq_true, beq_iff_eq, and_assoc] at h
  obtain ⟨flag, -, -, -, ty, -, mod, -, -, d0, -, a, b, c, -⟩ := h
  exact { flag, ty, mod, d0, a, b, c }

/-- R175: an instruction that stands ready has passed check 3. -/
theorem ready_fieldsOk (h : ReadyTo i s k g) (he : encodingOf s i = some e) : FieldsOk e.form e.slot g := by
  have hc := h.clear
  simp only [State.clears, he, Encoding.legalIn, Bool.and_eq_true] at hc
  obtain ⟨⟨⟨hlegal, -⟩, -⟩, -⟩ := hc
  exact fieldsOk_of_legal hlegal

/-- R158: only an instruction of class L names a flag. -/
theorem FieldsOk.sf_none (h : FieldsOk f w g) (hf : f.long = false) : w.sf = .none := by
  have hflag := h.flag
  unfold flagOk at hflag
  split at hflag
  · assumption
  · simp [hf] at hflag

end Legal

/-! ## The next slot -/

section Advance

variable (g : Group) (w : Slot)

/-- R155: where a group stands after the instruction at a slot. -/
def pcAfter (w : Slot) (pc : Nat) : Nat :=
  if w.bnd then pc / 64 * 64 + 64 else if pc % 64 = 40 then pc / 64 * 64 + 64 else pc + 20

/-- R155, R157: moving on changes the program counter and the clause in progress, and no register. -/
theorem advance_eq (now : Nat) : ∃ clause age yielded, g.advance now w =
    { g with pc := pcAfter w g.pc, clause := clause, replay := none, replayOps := [], walkFaults := [], holding := false
             age := age, yielded := yielded } := by
  unfold Group.advance pcAfter
  cases w.bnd with
  | true => exact ⟨_, _, _, rfl⟩
  | false => exact ⟨_, _, _, rfl⟩

end Advance

end Sys2Proof.Proofs.Registers
end

section
/-!
PROOFS. The scalar instructions: what sources read and results write, arithmetic, logic, bit fields, and select.
-/

namespace Sys2Proof.Proofs.Registers

open Sys2Proof Sys2Proof.Machine Sys2Proof.Laws Sys2Proof.Proofs.Formats

/-! ## Numbers and their patterns -/

/-- The two's complement value of a bit vector's pattern. -/
theorem signedOf_toNat {n : Nat} (x : BitVec n) : signedOf x.toNat n = x.toInt := by
  rw [signedOf, BitVec.toInt_eq_toNat_cond, Nat.mod_eq_of_lt x.isLt]
  cases n with
  | zero => simp [BitVec.of_length_zero]
  | succ n =>
    rw [Nat.add_sub_cancel, Nat.pow_succ']
    simp only [Nat.mul_lt_mul_left, Nat.zero_lt_two]

/-- The value of a pattern rests on its low bits. -/
theorem signedOf_mod (x n : Nat) : signedOf (x % 2 ^ n) n = signedOf x n := by
  rw [signedOf, signedOf, Nat.mod_mod]

theorem wrapInt_lt (x : Int) (n : Nat) : wrapInt x n < 2 ^ n := by
  have h0 : (0 : Int) < 2 ^ n := Int.pow_pos (by decide)
  have hlt := Int.emod_lt_of_pos x h0
  have hnonneg := Int.emod_nonneg x (Int.ne_of_gt h0)
  have hcast : ((2 ^ n : Nat) : Int) = 2 ^ n := Int.natCast_pow 2 n
  unfold wrapInt
  omega

/-- Wrapping a number gives the pattern of the bit vector that it makes. -/
theorem ofNat_wrapInt (x : Int) (n : Nat) : BitVec.ofNat n (wrapInt x n) = BitVec.ofInt n x := by
  apply BitVec.eq_of_toNat_eq
  rw [BitVec.toNat_ofNat, Nat.mod_eq_of_lt (wrapInt_lt x n), BitVec.toNat_ofInt, wrapInt, Int.natCast_pow]
  rfl

theorem bit_eq_testBit (x i : Nat) : bit x i = x.testBit i := by
  rw [Nat.testBit_eq_decide_div_mod_eq]; rfl

/-- The length of a number's pattern is the least one that holds it. -/
theorem bitLength_le_iff {x j : Nat} : bitLength x ≤ j ↔ x < 2 ^ j := by
  unfold bitLength
  split
  · next h => rw [h]; exact iff_of_true (Nat.zero_le j) (Nat.two_pow_pos j)
  · next h => exact Nat.log2_lt h

/-! ## Scalar sources and results -/

section Operands

variable (s : State) (g : Group) (w : Slot) (o : Operand)

/-- R187: a scalar source of 64 bits. -/
theorem scalarInt_wide (h : w.ty.wide = true) : s.scalarInt g w o =
    if w.ty.signed then (s.scalarSource g w o).toInt else (s.scalarSource g w o).toNat := by
  simp [State.scalarInt, h, signedOf_toNat, Nat.mod_eq_of_lt (s.scalarSource g w o).isLt]

/-- R187: a scalar source of 32 bits is the low half. -/
theorem scalarInt_narrow (h : w.ty.wide = false) : s.scalarInt g w o =
    let v := (s.scalarSource g w o).extractLsb' 0 32
    if w.ty.signed then v.toInt else v.toNat := by
  have hlow : ((s.scalarSource g w o).extractLsb' 0 32).toNat = (s.scalarSource g w o).toNat % 2 ^ 32 := by simp
  simp only [State.scalarInt, h, Bool.false_eq_true, if_false, ← signedOf_toNat, hlow, signedOf_mod]

/-- R187: a scalar result at the operating width. -/
theorem scalarResult_eq (ty : Ty) (x : Int) : scalarResult ty x =
    if ty.wide then BitVec.ofInt 64 x
    else if ty.signed then (BitVec.ofInt 32 x).signExtend 64 else (BitVec.ofInt 32 x).zeroExtend 64 := by
  simp only [scalarResult, ofNat_wrapInt]

end Operands

/-! ## Results of an instruction that stands ready -/

section Ready

variable {i : Instr} {s : State} {k : Nat} {g : Group} {w : Slot} {f : Form} {ok : Group → Bool}

/-- R187, R188: a scalar ALU instruction writes a value to D0 and passes on. -/
theorem ready_scalarValue {op : Int → Int → Int → Int} {v : Int} (h : ReadyTo i s k g)
    (he : encodingOf s i = some { slot := w, form := f, ok := ok }) (hx : exec i s = scalarAlu f ok w s op)
    (hv : op (s.scalarInt g w w.a) (s.scalarInt g w w.b) (s.scalarInt g w w.c) = v) :
    exec i s = .next (s.retire k w (g.setS w.d0.scalarIndex (scalarResult w.ty v))) :=
  hv ▸ ready_scalarAlu h he hx

/-- R192: SMOVI writes its immediate, in one of three ways. -/
theorem ready_smovi (h : ReadyTo (.smovi w) s k g) : exec (.smovi w) s = .next (s.retire k w (g.setS w.d0.scalarIndex
    (if w.mod = 0 then w.imm.zeroExtend 64 else if w.mod = 1 then w.imm.signExtend 64
     else w.imm ++ (g.s w.d0.scalarIndex).extractLsb' 0 32))) :=
  ready_done h rfl (execSmovi.eq_def w s) rfl

/-- R191: SSEL writes the source that the condition bit selects. -/
theorem ready_ssel (h : ReadyTo (.ssel w) s k g) : exec (.ssel w) s = .next (s.retire k w (g.setS w.d0.scalarIndex
    (scalarResult w.ty (if g.c w.c.specialIndex then s.scalarInt g w w.a else s.scalarInt g w w.b)))) :=
  ready_done h rfl (execSsel.eq_def w s) rfl

/-- R191: CLOG writes the bit of its truth table. -/
theorem ready_clog (h : ReadyTo (.clog w) s k g) : exec (.clog w) s = .next (s.retire k w (g.setC w.d0.specialIndex
    (w.mod.getLsbD (2 * natOf (g.c w.a.specialIndex) + natOf (g.c w.b.specialIndex))))) :=
  ready_done h rfl (execClog.eq_def w s) rfl

end Ready

/-! ## Arithmetic -/

/-- R189: the remainder of a division that rounds toward zero. -/
theorem remainder_eq (x y : Int) : remainder x y = if y = 0 then x else x - y * x.tdiv y := by
  rw [remainder, Int.tmod_def]

/-- R188: a division by a power of two that rounds down. -/
theorem fdiv_natCast (x : Int) (n : Nat) : Int.fdiv x (n : Int) = x / (n : Int) :=
  Int.fdiv_eq_ediv_of_nonneg x (Int.natCast_nonneg n)

/-- Settles O8: the two widths of sources and results, and the value of each instruction. -/
theorem scalarArithmetic : Obligations.ScalarArithmetic := by
  unfold Obligations.ScalarArithmetic
  refine ⟨fun s g w o => ⟨?_, fun h => ?_, ?_, fun h => ?_, fun x => ⟨?_, ?_, fun h => ?_⟩⟩, fun s k g w => ?_⟩
  · rintro (h | h) <;> simp [scalarInt_wide, h, Ty.wide, Ty.signed]
  · simp [scalarInt_wide, h, Ty.wide, Ty.signed]
  · rintro (h | h) <;> simp [scalarInt_narrow, h, Ty.wide, Ty.signed]
  · simp [scalarInt_narrow, h, Ty.wide, Ty.signed]
  · rintro (h | h | h) <;> simp [scalarResult_eq, h, Ty.wide]
  · rintro (h | h) <;> simp [scalarResult_eq, h, Ty.wide, Ty.signed]
  · simp [scalarResult_eq, h, Ty.wide, Ty.signed]
  · refine ⟨fun h => ready_scalarValue h rfl (execSmov.eq_def w s) rfl, ready_smovi,
      fun h => ready_scalarValue h rfl (execSadd.eq_def w s) rfl,
      fun h => ready_scalarValue h rfl (execSsub.eq_def w s) rfl,
      fun h => ready_scalarValue h rfl (execSmul.eq_def w s) rfl,
      fun h => ready_scalarValue h rfl (execSmulh.eq_def w s) (fdiv_natCast _ _),
      fun h => ready_scalarValue h rfl (execSdiv.eq_def w s) rfl,
      fun h => ready_scalarValue h rfl (execSrem.eq_def w s) (remainder_eq _ _),
      fun h => ready_scalarValue h rfl (execSmin.eq_def w s) (Int.min_def _ _),
      fun h => ready_scalarValue h rfl (execSmax.eq_def w s) (Int.max_def _ _),
      fun h => ready_scalarValue h rfl (execSlea.eq_def w s) ?_, ready_ssel⟩
    rw [BitVec.extractLsb'_toNat]
    rfl

/-! ## Logic and bit fields -/

theorem popCount_eq (n x : Nat) : popCount n x = ((List.range n).filter (fun i => x.testBit i)).length := by
  simp only [popCount, bit_eq_testBit]

/-- R189: SSRA shifts the two's complement value, and from a full width on leaves its sign. -/
theorem shiftRight_eq (v : Int) (n b : Nat) :
    (if n ≤ b then (if v < 0 then -1 else 0) else Int.fdiv v (2 ^ b : Nat)) =
      if n ≤ b then (if v < 0 then -1 else 0) else v / (2 ^ b : Nat) := by
  rw [fdiv_natCast]

/-- R189: SBFX reads the value of a field as the TY does. -/
theorem extractField_eq (ty : Ty) (x fc : Int) : extractField ty x fc =
    let (p, l) := fieldControl ty fc
    let v := wrapInt x (opWidth ty) / 2 ^ p
    if l = 0 then 0 else if ty.signed then signedOf v l else (v % 2 ^ l : Nat) := by
  simp only [extractField, signedOf_mod]

/-- R189: SBFI keeps the bits below and above the field. -/
theorem insertField_eq (ty : Ty) (x y fc : Int) : insertField ty x y fc =
    let (p, l) := fieldControl ty fc
    let v := wrapInt x (opWidth ty)
    if l = 0 then x
    else (v % 2 ^ p + wrapInt y (opWidth ty) % 2 ^ l * 2 ^ p + v / 2 ^ (p + l) * 2 ^ (p + l) : Nat) := by
  simp only [insertField, Nat.add_right_comm]

/-- Settles O9: the instructions on patterns, and the counts and bit fields. -/
theorem scalarLogic : Obligations.ScalarLogic := by
  unfold Obligations.ScalarLogic
  refine ⟨fun s k g w => ?_, fun s k g w => ?_⟩
  · exact ⟨fun h => ready_scalarValue h rfl (execSand.eq_def w s) rfl,
      fun h => ready_scalarValue h rfl (execSor.eq_def w s) rfl,
      fun h => ready_scalarValue h rfl (execSxor.eq_def w s) rfl,
      fun h => ready_scalarValue h rfl (execSandn.eq_def w s) rfl,
      fun h => ready_scalarValue h rfl (execSshl.eq_def w s) rfl,
      fun h => ready_scalarValue h rfl (execSshr.eq_def w s) rfl,
      fun h => ready_scalarValue h rfl (execSsra.eq_def w s) (shiftRight_eq _ _ _)⟩
  · refine ⟨fun h => ⟨bitLength (wrapInt (s.scalarInt g w w.a) (opWidth w.ty)),
        ready_scalarValue h rfl (execSclz.eq_def w s) rfl,
        bitLength_le_iff.2 (wrapInt_lt _ _), bitLength_le_iff.1 (Nat.le_refl _),
        fun j => bitLength_le_iff.2⟩,
      fun h => ready_scalarValue h rfl (execSpopc.eq_def w s) (congrArg Nat.cast (popCount_eq _ _)),
      fun h => ready_scalarValue h rfl (execSbfx.eq_def w s) (extractField_eq _ _ _),
      fun h => ready_scalarValue h rfl (execSbfi.eq_def w s) (insertField_eq _ _ _ _)⟩

/-! ## Condition bits -/

/-- A field of the kind of condition bits names c0 to c7 (R169). -/
theorem cond_of_accepts {o : Operand} (h : Kinds.cond.accepts o = true) : ∃ n, o = .special n ∧ n.toNat < 8 := by
  cases o with
  | special n => exact ⟨n, rfl, by simpa [Kinds.accepts, Kinds.cond] using h⟩
  | vec | scalar | imm => simp [Kinds.accepts, Kinds.cond] at h

/-- R168: MOD does not exceed the bits that the form allocates. -/
theorem FieldsOk.mod_le {f : Form} {w : Slot} {g : Group} (h : FieldsOk f w g) : w.mod.toNat ≤ f.mod.toNat := by
  have hand : w.mod = w.mod &&& f.mod :=
    calc w.mod = w.mod &&& (f.mod ||| ~~~f.mod) := by rw [BitVec.or_not_self, BitVec.and_allOnes]
      _ = w.mod &&& f.mod := by rw [BitVec.and_or_distrib_left, h.mod]; exact BitVec.or_zero
  calc w.mod.toNat = (w.mod &&& f.mod).toNat := congrArg BitVec.toNat hand
    _ ≤ f.mod.toNat := by rw [BitVec.toNat_and]; exact Nat.and_le_right

/-- Settles O11: the two results, the fields that the encoding rules allow, and the eight tables. -/
theorem selectAndTruthTables : Obligations.SelectAndTruthTables := by
  unfold Obligations.SelectAndTruthTables
  refine ⟨fun s k g w => ⟨fun h => ⟨ready_ssel h, ?_⟩, rfl, fun h => ⟨ready_clog h, ?_⟩⟩, by decide⟩
  · exact cond_of_accepts (ready_fieldsOk h rfl).c
  · have hf := ready_fieldsOk h rfl
    exact ⟨by simpa using hf.ty, Nat.lt_succ_of_le hf.mod_le, cond_of_accepts hf.d0, cond_of_accepts hf.a,
      cond_of_accepts hf.b⟩

end Sys2Proof.Proofs.Registers
end

section
/-!
PROOFS. The frames of the scalar instructions that write a scalar register, and of the vector instructions that write a
vector register.
-/

namespace Sys2Proof.Proofs.Registers

open Sys2Proof Sys2Proof.Machine Sys2Proof.Laws Sys2Proof.Proofs.Formats

variable {i : Instr} {s t : State} {k : Nat} {g h : Group} {w : Slot}

/-! ## Scalar instructions -/

/-- The instructions of R188, R191 and R192 that write one scalar register. -/
def scalarWriters (w : Slot) : List Instr :=
  [.smov w, .smovi w, .sadd w, .ssub w, .smul w, .smulh w, .sdiv w, .srem w, .smin w, .smax w, .sand w, .sor w, .sxor w,
   .sandn w, .sshl w, .sshr w, .ssra w, .sclz w, .spopc w, .sbfx w, .sbfi w, .ssel w, .slea w]

/-- R187: all that a scalar writer does is to write the register of D0. -/
theorem exec_scalarWriter (s : State) (hi : i ∈ scalarWriters w) : ∃ (f : Form) (ok : Group → Bool) (value : Group → Word),
    encodingOf s i = some { slot := w, form := f, ok := ok } ∧ exec i s = issue f ok noMore w s
      (fun k g => .done (s.setGroup k (g.setS w.d0.scalarIndex (value g)))) := by
  simp only [scalarWriters, List.mem_cons, List.not_mem_nil, or_false] at hi
  rcases hi with rfl | rfl | rfl | rfl | rfl | rfl | rfl | rfl | rfl | rfl | rfl | rfl | rfl | rfl | rfl | rfl | rfl |
    rfl | rfl | rfl | rfl | rfl | rfl <;> exact ⟨_, _, _, rfl, rfl⟩

/-- R187: the state after a scalar writer. -/
theorem ready_scalarWriter (hi : i ∈ scalarWriters w) (hr : ReadyTo i s k g) (hx : exec i s = .next t) :
    ∃ v, t = s.setGroup k ((g.setS w.d0.scalarIndex v).advance s.now w) := by
  obtain ⟨f, ok, value, he, hbody⟩ := exec_scalarWriter s hi
  have hnext := hx.symm.trans (ready_done hr he hbody rfl)
  have hlive : (g.setS w.d0.scalarIndex (value g)).doomed = none := by rw [group_setS_doomed, hr.live]
  exact ⟨value g, (Host.Outcome.next.inj hnext).trans (retire_eq hlive)⟩

/-! ## Vector instructions -/

/-- A group differs from another in the registers of the destination and in the flags of %fpstat only. -/
structure DestOnly (w : Slot) (g h : Group) : Prop where
  frame : h = { g with vecs := h.vecs, fpstat := h.fpstat }
  other : ∀ r l, l < 64 → ¬InDest w.ty w.d0.vecIndex r → h.v r l = g.v r l

/-- R226, R86: what a write over lanes changes. -/
theorem eachLane_destOnly (hw : g.width ≤ 64) (value : Nat → Nat × FpFlags) : DestOnly w g (g.eachLane w value) where
  frame := writeLanes_frame
  other r l hl hr := by
    refine writeLanes_v_other (fun j hj => ?_) hl fun ⟨_, hin⟩ => hr hin
    obtain ⟨hj, -⟩ := mem_lanesOf.1 hj
    exact Nat.lt_of_lt_of_le hj hw

/-- R239: the loop on the codes of elements is a write over lanes. -/
theorem fpLanes_destOnly (hw : g.width ≤ 64) (op : Nat → Nat → Nat → Nat × FpFlags) : DestOnly w g (g.fpLanes s w op) := by
  unfold Group.fpLanes
  exact eachLane_destOnly hw _

/-- R362: a struck lane of the destination is within it. -/
theorem DestOnly.setV {j : Nat} {x : Lane} (hd : DestOnly w g h) (hj : j < 64) :
    DestOnly w g (h.setV w.d0.vecIndex j x) where
  frame := congrArg (fun y : Group => y.setV w.d0.vecIndex j x) hd.frame
  other r l hl hr := by
    have hne : r ≠ w.d0.vecIndex := fun he => hr (.inl he)
    rw [group_v_setV_ne _ (by omega)]
    exact hd.other r l hl hr

/-- R362: an armed injection strikes a lane of the destination of a short instruction. -/
theorem DestOnly.strike (hd : DestOnly w g h) (hsf : w.sf = .none) (x : Inject) : DestOnly w g (x.strike w h) := by
  unfold Inject.strike
  rw [hsf]
  exact hd.setV x.lane.isLt

/-- R362: a vector result goes to its group; an injection also changes its die and the check of its team. -/
theorem putVec_eq (hd : DestOnly w g h) (hsf : w.sf = .none) : ∃ dies checks h', DestOnly w g h' ∧
    s.putVec k w g h = { s with dies := dies, checks := checks }.setGroup k h' := by
  unfold State.putVec
  split
  · exact ⟨s.dies, s.checks, h, hd, rfl⟩
  · next x _ =>
    dsimp only
    split
    · exact ⟨Tab.modify s.dies _ _, Tab.modify s.checks _ _, _, hd.strike hsf x, rfl⟩
    · exact ⟨Tab.modify s.dies _ _, s.checks, _, hd.strike hsf x, rfl⟩

/-- The instructions of R233, R234 and R236 to R238 that write one vector destination. -/
def integerWriters (w : Slot) : List Instr :=
  [.vadd w, .vsub w, .vmul w, .vmulh w, .vmad w, .vmin w, .vmax w, .vabs w, .vneg w, .vdot4 w, .vidx w, .vand w, .vor w,
   .vxor w, .vnot w, .vshl w, .vshr w, .vsra w, .vbfx w, .vbfi w, .vclz w, .vpopc w, .vmov w, .vmovi w, .vsel w]

/-- The instructions of R240 and R243, all of which write one vector destination. -/
def floatWriters (w : Slot) : List Instr :=
  [.fadd w, .fsub w, .fmul w, .ffma w, .fmin w, .fmax w, .frndi w, .pkadd w, .pkmul w, .pkfma w]

/-- R226: all that an integer or logic instruction does is to write lanes of D0. -/
theorem exec_integerWriter (s : State) (hi : i ∈ integerWriters w) :
    ∃ (f : Form) (ok : Group → Bool) (value : Group → Nat → Nat × FpFlags),
      encodingOf s i = some { slot := w, form := f, ok := ok } ∧ f.long = false ∧ exec i s = issue f ok noMore w s
        (fun k g => .done (s.putVec k w g (g.eachLane w (value g)))) := by
  simp only [integerWriters, List.mem_cons, List.not_mem_nil, or_false] at hi
  rcases hi with rfl | rfl | rfl | rfl | rfl | rfl | rfl | rfl | rfl | rfl | rfl | rfl | rfl | rfl | rfl | rfl | rfl |
    rfl | rfl | rfl | rfl | rfl | rfl | rfl | rfl <;> exact ⟨_, _, _, rfl, rfl, rfl⟩

/-- R239: all that a floating-point instruction does is to write lanes of D0, by an operation on the codes of elements. -/
theorem exec_floatWriter (s : State) (hi : i ∈ floatWriters w) :
    ∃ (f : Form) (ok : Group → Bool) (op : Nat → Nat → Nat → Nat × FpFlags),
      encodingOf s i = some { slot := w, form := f, ok := ok } ∧ f.long = false ∧ exec i s = issue f ok noMore w s
        (fun k g => .done (s.putVec k w g (g.fpLanes s w op))) := by
  simp only [floatWriters, List.mem_cons, List.not_mem_nil, or_false] at hi
  rcases hi with rfl | rfl | rfl | rfl | rfl | rfl | rfl | rfl | rfl | rfl <;> exact ⟨_, _, _, rfl, rfl, rfl⟩

/-- R226, R362: the state after an instruction whose vector result is `after`. -/
theorem ready_vectorResult {f : Form} {ok : Group → Bool} {after : Group → Group} (hr : ReadyTo i s k g)
    (he : encodingOf s i = some { slot := w, form := f, ok := ok }) (hshort : f.long = false)
    (hbody : exec i s = issue f ok noMore w s (fun k g => .done (s.putVec k w g (after g))))
    (hafter : DestOnly w g (after g)) (hx : exec i s = .next t) : ∃ dies checks h, DestOnly w g h ∧
      t = { s with dies := dies, checks := checks }.setGroup k (h.advance s.now w) := by
  have hnext := hx.symm.trans (ready_vec hr he hbody rfl)
  have hsf : w.sf = .none := (ready_fieldsOk hr he).sf_none hshort
  obtain ⟨dies, checks, h, hd, hput⟩ := putVec_eq (s := s) (k := k) hafter hsf
  have hlive : h.doomed = none := by rw [hd.frame]; exact hr.live
  refine ⟨dies, checks, h, hd, (Host.Outcome.next.inj hnext).trans ?_⟩
  rw [State.vecRetire, hput]
  exact retire_eq (s := { s with dies := dies, checks := checks }) hlive

/-- R226, R362: the state after a vector writer. -/
theorem ready_vectorWriter (hi : i ∈ integerWriters w ++ floatWriters w) (hr : ReadyTo i s k g) (hw : g.width ≤ 64)
    (hx : exec i s = .next t) : ∃ dies checks h, DestOnly w g h ∧
      t = { s with dies := dies, checks := checks }.setGroup k (h.advance s.now w) := by
  rcases List.mem_append.1 hi with hi | hi
  · obtain ⟨f, ok, value, he, hshort, hbody⟩ := exec_integerWriter s hi
    exact ready_vectorResult (after := fun g => g.eachLane w (value g)) hr he hshort hbody (eachLane_destOnly hw _) hx
  · obtain ⟨f, ok, op, he, hshort, hbody⟩ := exec_floatWriter s hi
    exact ready_vectorResult (after := fun g => g.fpLanes s w op) hr he hshort hbody (fpLanes_destOnly hw op) hx

/-! ## The statement -/

/-- Settles O15: the state after a scalar writer and after a vector writer differs from the one before in one group, and
that group in its destination and its place. -/
theorem registerFrames : Obligations.RegisterFrames := by
  unfold Obligations.RegisterFrames
  refine ⟨fun i w s t k g hi hr hx => ?_, fun i w s t k g hi hr hw _ hx => ?_⟩
  · obtain ⟨v, rfl⟩ := ready_scalarWriter hi hr hx
    refine ⟨fun _ => rfl, fun _ hj => setGroup_other s hj, rfl, rfl, rfl, rfl, rfl, rfl, _, setGroup_group _ _ _, ?_⟩
    obtain ⟨clause, age, yielded, hadv⟩ := advance_eq (g.setS w.d0.scalarIndex v) w s.now
    refine ⟨fun r hr => (advance_s w _ r).trans (group_s_setS_ne g hr), rfl, ?_⟩
    rw [hadv]
    simp [pcAfter]
  · obtain ⟨dies, checks, h, hd, rfl⟩ := ready_vectorWriter hi hr hw hx
    refine ⟨fun _ => rfl, fun _ hj => setGroup_other _ hj, rfl, rfl, rfl, rfl, _, setGroup_group _ _ _, ?_⟩
    obtain ⟨clause, age, yielded, hadv⟩ := advance_eq h w s.now
    have hother : ∀ r l, l < 64 → r ≠ w.d0.vecIndex → (w.ty.wide = true → r ≠ w.d0.vecIndex + 1) → h.v r l = g.v r l :=
      fun r l hl hlow hhigh => hd.other r l hl fun hin => hin.elim hlow fun ⟨hwide, he⟩ => hhigh hwide he
    have hframe := hd.frame
    rw [hadv]
    generalize h.vecs = vecs at *
    generalize h.fpstat = fpstat at *
    subst hframe
    exact ⟨rfl, rfl, rfl, rfl, rfl, rfl, rfl, rfl, rfl, rfl, rfl, rfl, rfl, rfl, rfl, hother, rfl⟩

end Sys2Proof.Proofs.Registers
end

section
/-!
PROOFS. The floating-point arithmetic of fixed latency, and the instructions that write a lane predicate.
-/

namespace Sys2Proof.Proofs.Registers

open Sys2Proof Sys2Proof.Machine Sys2Proof.Laws Sys2Proof.Proofs Sys2Proof.Proofs.Formats

/-! ## Reading an element -/

/-- R85: the subnormal codes lie between the zeros and the least normal code. -/
theorem isSubnormal_iff (code : Nat) :
    fp32.isSubnormal code = true ↔ code % 2 ^ 31 ≠ 0 ∧ code % 2 ^ 31 < 2 ^ 23 := by
  rw [Fmt.isSubnormal, Bool.and_eq_true, decide_eq_true_iff, decide_eq_true_iff, Nat.pos_iff_ne_zero]
  rfl

/-- R85: the zero of a code's sign. -/
theorem signed_zero_of_code {code : Nat} (h : code < 2 ^ 32) : signed fp32 (bit code 31) 0 = code / 2 ^ 31 * 2 ^ 31 := by
  have hq : code / 2 ^ 31 = 0 ∨ code / 2 ^ 31 = 1 := by omega
  unfold signed bit
  rcases hq with hq | hq <;> rw [hq] <;> rfl

/-- Inverting the sign bit of a code is adding it modulo the width. -/
theorem xor_sign {c : Nat} (h : c < 2 ^ 32) : c ^^^ 2 ^ 31 = (c + 2 ^ 31) % 2 ^ 32 := by
  have hlow : (c ^^^ 2 ^ 31) % 2 ^ 31 = c % 2 ^ 31 := by rw [Nat.xor_mod_two_pow, Nat.mod_self, Nat.xor_zero]
  have hhigh : (c ^^^ 2 ^ 31) / 2 ^ 31 = c / 2 ^ 31 ^^^ 1 := by rw [Nat.xor_div_two_pow, Nat.div_self (by decide)]
  have hq : c / 2 ^ 31 = 0 ∨ c / 2 ^ 31 = 1 := by omega
  rcases hq with hq | hq
  · rw [hq, Nat.zero_xor] at hhigh
    omega
  · rw [hq, Nat.xor_self] at hhigh
    omega

/-- R85: under .ftz a subnormal code is read as the zero of its sign. -/
theorem flushInput_fp32 (ftz : Bool) {code : Nat} (h : code < 2 ^ 32) :
    flushInput fp32 ftz code = if ftz && fp32.isSubnormal code then code / 2 ^ 31 * 2 ^ 31 else code := by
  rw [← signed_zero_of_code h]
  rfl

/-- R239: an element is flushed, its magnitude taken, and negated. -/
theorem readFp_fp32 (w : Slot) {code : Nat} (i : Nat) (h : code < 2 ^ 32) :
    let c1 := if w.mod.getLsbD 2 && fp32.isSubnormal code then code / 2 ^ 31 * 2 ^ 31 else code
    let c2 := if w.mod.getLsbD (i + 1) then c1 % 2 ^ 31 else c1
    readFp fp32 w i code = if w.mod.getLsbD i then (c2 + 2 ^ 31) % 2 ^ 32 else c2 := by
  intro c1 c2
  have hflush : flushInput fp32 (fpFtz w) code = c1 := flushInput_fp32 _ h
  have h1 : c1 < 2 ^ 32 := by
    simp only [c1]
    split <;> omega
  have h2 : c2 < 2 ^ 32 := by
    simp only [c2]
    split <;> omega
  rw [readFp, hflush, ← xor_sign h2]
  rfl

/-! ## Arithmetic -/

section Ready

variable {i : Instr} {s : State} {k : Nat} {g : Group} {w : Slot} {f : Form} {ok : Group → Bool}

/-- R239, R240: an arithmetic instruction rounds its exact results; `codes` is what comes of the codes of elements. -/
theorem ready_fpArith {tys : List Ty} {n : Nat} {op : Bool → Exact → Exact → Exact → Exact × FpFlags}
    {codes : Nat → Nat → Nat → Nat × FpFlags} (h : ReadyTo i s k g)
    (he : encodingOf s i = some (encFp w (fpForm tys n true true true))) (hx : exec i s = fpArith tys n w s op)
    (hv : ∀ x y z, roundResult (fmtOf w.ty) (fpMode w) (fpFtz w) (op (fpMode w = .rdn) (decodeFloat (fmtOf w.ty) x)
      (decodeFloat (fmtOf w.ty) y) (decodeFloat (fmtOf w.ty) z)) = codes x y z) :
    exec i s = .next (s.vecRetire k w g (g.fpLanes s w codes)) := by
  have hcodes := funext fun x => funext fun y => funext fun z => hv x y z
  rw [← hcodes]
  exact ready_vec (e := encFp w (fpForm tys n true true true)) h he hx rfl

/-- R240: FMIN and FMAX choose a code and raise no flag. -/
theorem ready_fpMinMax {op : Fmt → Nat → Nat → Nat} (h : ReadyTo i s k g)
    (he : encodingOf s i = some (encFp w (fpForm (.f32 :: packedTys) 2 false true true)))
    (hx : exec i s = fpMinMax w s op) :
    exec i s = .next (s.vecRetire k w g (g.fpLanes s w (fun x y _ => (op (fmtOf w.ty) x y, 0)))) :=
  ready_vec (e := encFp w (fpForm (.f32 :: packedTys) 2 false true true)) h he hx rfl

/-! ## Lane predicates -/

/-- R226, R235: an instruction that writes a lane predicate, where `bitOf` is the bit of each lane. -/
theorem ready_eachQ {value : Group → Nat → Bool} {bitOf : Nat → Bool} (h : ReadyTo i s k g)
    (he : encodingOf s i = some { slot := w, form := f, ok := ok })
    (hx : exec i s = issue f ok noMore w s (fun k g => .done (s.setGroup k (g.eachQ w (value g)))))
    (hv : ∀ l, value g l = bitOf l) : exec i s = .next (s.retire k w (g.eachQ w bitOf)) := by
  rw [← funext hv]
  exact ready_done h he hx rfl

/-- R257: QMOV takes its bits from its source. -/
theorem ready_qmov {bitOf : Nat → Bool} (h : ReadyTo (.qmov w) s k g) (hv : ∀ l, s.qmovBit g w l = bitOf l) :
    exec (.qmov w) s = .next (s.retire k w (g.eachQ w bitOf)) :=
  ready_eachQ h rfl (execQmov.eq_def w s) hv

end Ready

/-- R172: the numbers of the condition bits. -/
theorem specialKind_cond {n : Nat} (h : n < 8) : specialKind n = .cbit n := if_pos h

/-- R172: the numbers of the lane predicates. -/
theorem specialKind_predicate {n : Nat} (hlo : 0x10 ≤ n) (hhi : n < 0x20) : specialKind n = .qreg (n - 0x10) := by
  rw [specialKind, if_neg (by omega), if_pos ⟨hlo, hhi⟩]

/-- R172: any other number but that of %laneid names a register with one value per group, or none. -/
theorem specialKind_group {n : Nat} (h : 0x20 ≤ n) (hne : n ≠ 0x40) :
    specialKind n = .value ∨ specialKind n = .unassigned := by
  rw [specialKind, if_neg (by omega), if_neg (by omega), if_neg hne]
  split
  · exact .inl rfl
  · exact .inr rfl

/-- R190: the six conditions of a comparison of integers. -/
theorem compareInt_eq (cond : Nat) (a b : Int) : compareInt cond a b = match cond with
    | 0 => decide (a = b)
    | 1 => decide (a ≠ b)
    | 2 => decide (a < b)
    | 3 => decide (a ≤ b)
    | 4 => decide (a > b)
    | _ => decide (a ≥ b) := by
  match cond with
  | 0 | 1 | 2 | 3 | 4 => rfl
  | _ + 5 => simp [compareInt]

/-- R241: the eight conditions of a comparison of floating-point values. -/
theorem compareFp_eq (cond : Nat) (a b : Exact) : compareFp cond a b =
    let nan := a.isNan || b.isNan
    match cond with
    | 0 => a.eq b
    | 1 => !a.eq b
    | 2 => !nan && a.lt b
    | 3 => !nan && !b.lt a
    | 4 => !nan && b.lt a
    | 5 => !nan && !a.lt b
    | 6 => !nan
    | _ => nan := by
  match cond with
  | 0 | 1 | 2 | 3 | 4 | 5 | 6 => rfl
  | _ + 7 => simp [compareFp]

/-- R69: a code whose value is no zero has a magnitude. -/
theorem magnitude_ne_zero {code m d : Nat} {neg : Bool} {e : Int} (h : decodeFloat fp32 code = .fin neg m d e)
    (hm : m ≠ 0) : code % 2 ^ 31 ≠ 0 := by
  intro h0
  simp only [decodeFloat, fp32, Nat.reduceSub, h0] at h
  simp at h
  omega

/-- R242: the class of a code. -/
theorem classBit_eq (code : Nat) : classBit code = match decodeFloat fp32 code with
    | .nan => 8
    | .inf neg => if neg then 0 else 7
    | .fin neg m _ _ =>
      if m = 0 then (if neg then 3 else 4)
      else if code % 2 ^ 31 < 2 ^ 23 then (if neg then 2 else 5)
      else (if neg then 1 else 6) := by
  unfold classBit
  cases h : decodeFloat fp32 code with
  | nan => rfl
  | inf neg => rfl
  | fin neg m d e =>
    by_cases hm : m = 0
    · simp [hm]
    · simp only [isSubnormal_iff, magnitude_ne_zero h hm, ne_eq, not_false_eq_true, true_and]

/-- R242: FCLS that stands ready has its class mask in B. -/
theorem imm_of_classMask {w : Slot} (h : (classMask w).isSome = true) :
    ∃ v, w.b = .imm v ∧ classMask w = some v.toNat := by
  unfold classMask at h ⊢
  split at h
  · next v hb =>
    rw [hb]
    split at h
    · next hv => exact ⟨v, rfl, if_pos hv⟩
    · cases h
  · cases h

/-! ## Bits of a lane predicate -/

/-- R37: the launch mask holds the lanes below the width. -/
theorem q0_getLsbD {g : Group} {l : Nat} (hw : g.width ≤ 64) (hl : l < g.width) : g.q0.getLsbD l = true := by
  rw [Group.q0, BitVec.getLsbD_ofNat, Nat.testBit_two_pow_sub_one]
  simp [hl, Nat.lt_of_lt_of_le hl hw]

/-- A lane predicate but q0 reads what was written in the lanes of the group. -/
theorem group_q_setQ_self {g : Group} {i : Nat} {v : BitVec 64} (hi : i ≠ 0) (h : Tab.wf 0 g.qregs = true) :
    (g.setQ i v).q i = v &&& g.q0 := by
  unfold Group.setQ Group.q
  simp only [hi, if_false]
  exact tab_read_write_self (Bool.and_eq_true _ _ ▸ h).1

/-- A mask holds the lanes that it was made from. -/
theorem maskOf_getLsbD (ls : List Nat) {l : Nat} (hl : l < 64) : (maskOf ls).getLsbD l = decide (l ∈ ls) := by
  have hfold (m : BitVec 64) :
      (ls.foldl (fun m j => m ||| (1#64 <<< j)) m).getLsbD l = (m.getLsbD l || decide (l ∈ ls)) := by
    induction ls generalizing m with
    | nil => simp
    | cons x ls ih =>
      have hbit : (1#64 <<< x).getLsbD l = decide (l = x) := by
        have htwo : (1#64 <<< x) = BitVec.twoPow 64 x := rfl
        rw [htwo, BitVec.getLsbD_twoPow]
        by_cases hx : l = x
        · simp [← hx, hl]
        · simp [hx, Ne.symm hx]
      rw [List.foldl_cons, ih, BitVec.getLsbD_or, hbit]
      simp [Bool.or_assoc]
  simpa [maskOf] using hfold 0

/-- R226: an active lane of the predicate gets its new bit, and the others keep theirs; q0 discards the write. -/
theorem eachQ_getLsbD {g : Group} {w : Slot} {bitOf : Nat → Bool} {l : Nat} (hw : g.width ≤ 64)
    (hq : Tab.wf 0 g.qregs = true) (hl : l < g.width) :
    let d := w.d0.specialIndex - 0x10
    ((g.eachQ w bitOf).q d).getLsbD l =
      if d = 0 then true else if (g.lanes w).getLsbD l then bitOf l else (g.q d).getLsbD l := by
  intro d
  have hl64 : l < 64 := Nat.lt_of_lt_of_le hl hw
  by_cases hd : d = 0
  · have hkeep : g.eachQ w bitOf = g := if_pos hd
    rw [if_pos hd, hkeep, hd]
    exact q0_getLsbD hw hl
  · have hact : l ∈ lanesOf (g.lanes w) g.width ↔ (g.lanes w).getLsbD l = true := by simp [mem_lanesOf, hl]
    rw [if_neg hd, Group.eachQ, group_q_setQ_self hd hq]
    simp only [BitVec.getLsbD_and, BitVec.getLsbD_or, BitVec.getLsbD_not, maskOf_getLsbD _ hl64, q0_getLsbD hw hl,
      List.mem_filter, hact]
    cases (g.lanes w).getLsbD l <;> simp [hl64, d]

/-! ## The statement -/

/-- Settles O16: the reading of an element, the arithmetic, and the instructions that write a lane predicate. -/
theorem floatArithmetic : Obligations.FloatArithmetic := by
  unfold Obligations.FloatArithmetic
  refine ⟨fun w code h => ⟨readFp_fp32 w 3 h, isSubnormal_iff code⟩, fun s k g w => ?_, fun s k g w => ?_⟩
  · exact ⟨fun h => ready_fpArith h rfl (execFadd.eq_def w s) fun _ _ _ => rfl,
      fun h => ready_fpArith h rfl (execFsub.eq_def w s) fun _ _ _ => rfl,
      fun h => ready_fpArith h rfl (execFmul.eq_def w s) fun _ _ _ => rfl,
      fun h => ready_fpArith h rfl (execFfma.eq_def w s) fun _ _ _ => rfl,
      fun h => ready_fpArith h rfl (execPkadd.eq_def w s) fun _ _ _ => rfl,
      fun h => ready_fpArith h rfl (execPkmul.eq_def w s) fun _ _ _ => rfl,
      fun h => ready_fpArith h rfl (execPkfma.eq_def w s) fun _ _ _ => rfl,
      fun h => ready_fpMinMax h rfl (execFmin.eq_def w s),
      fun h => ready_fpMinMax h rfl (execFmax.eq_def w s),
      fun h => ready_vec (e := encFp w (fpForm [.f32] 1 true true true)) h rfl (execFrndi.eq_def w s) rfl⟩
  · refine ⟨fun h => ready_eachQ h rfl (execVcmp.eq_def w s) fun l => ?_,
      fun h => ready_eachQ h rfl (execFcmp.eq_def w s) fun l => ?_, fun h => ?_,
      fun h => ⟨fun r ha => ready_qmov h fun l => ?_, fun ha => ready_qmov h fun l => ?_,
        fun r ha => ready_qmov h fun l => ?_, fun v ha => ready_qmov h fun l => ?_,
        fun n ha hn => ready_qmov h fun l => ?_, fun n ha hlo hhi => ready_qmov h fun l => ?_,
        fun n ha hn hne => ready_qmov h fun l => ?_⟩,
      rfl, fun h => ready_eachQ h rfl (execQlog.eq_def w s) fun _ => rfl, fun bitOf hw hq _ l hl => eachQ_getLsbD hw hq hl⟩
    · rw [compareInt_eq]
      rfl
    · rw [compareFp_eq]
      rfl
    · obtain ⟨mask, hb, hmask⟩ := imm_of_classMask (ready_ok h rfl)
      refine ⟨mask, hb, ready_eachQ h rfl (execFcls.eq_def w s) fun l => ?_⟩
      rw [hmask, bit_eq_testBit, classBit_eq]
      rfl
    · simp only [State.qmovBit, ha]
    · simp [State.qmovBit, ha, specialKind]
    · simp only [State.qmovBit, ha, State.scalarSource]
    · simp only [State.qmovBit, ha, State.scalarSource]
    · simp only [State.qmovBit, ha, specialKind_cond hn]
    · have hq := specialKind_predicate hlo hhi
      simp only [State.qmovBit, ha, hq, State.scalarSource, State.special]
    · have hnat : n.toNat ≠ 0x40 := fun he => hne (BitVec.eq_of_toNat_eq he)
      rcases specialKind_group hn hnat with hk | hk <;> simp only [State.qmovBit, ha, hk, State.scalarSource]

end Sys2Proof.Proofs.Registers
end

section
/-!
PROOFS. The vector integer arithmetic, logic, bit fields, counts and moves of an instruction that stands ready.
-/

namespace Sys2Proof.Proofs.Vector

open Sys2Proof Sys2Proof.Machine Sys2Proof.Laws Sys2Proof.Proofs Sys2Proof.Proofs.Formats Sys2Proof.Proofs.Registers

/-! ## What an instruction that stands ready comes to -/

section Ready

variable {i : Instr} {s : State} {k : Nat} {g : Group} {w : Slot} {f : Form} {ok : Group → Bool} {tys : List Ty} {n : Nat}
  {op value : Int → Int → Int → Int}

/-- R166: where a form lists TYs, the instruction has one of them. -/
theorem ty_mem_of_fieldsOk (h : FieldsOk f w g) (hne : f.tys.isEmpty = false) :
    w.ty ∈ f.tys := by
  have hty := h.ty
  rw [hne] at hty
  simpa using hty

/-- R226: an instruction of group 2 that writes lanes of D0, where `result` is what each lane gets. -/
theorem ready_vectorLanes {value : Group → Nat → Nat × FpFlags} {result : Nat → Nat × FpFlags} (h : ReadyTo i s k g)
    (he : encodingOf s i = some { slot := w, form := f, ok := ok })
    (hx : exec i s = issue f ok noMore w s (fun k g => .done (s.putVec k w g (g.eachLane w (value g)))))
    (hv : ∀ l, value g l = result l) : exec i s = .next (s.vecRetire k w g (g.eachLane w result)) := by
  rw [← funext hv]
  exact ready_vec (e := { slot := w, form := f, ok := ok }) h he hx rfl

/-- R233: an instruction with .sat, where `value` is what its operation gives. -/
theorem ready_vecSat (h : ReadyTo i s k g) (he : encodingOf s i = some (encSat w tys n))
    (hx : exec i s = vecSat tys n w s op) (hv : ∀ x y z, op x y z = value x y z) :
    exec i s = .next (s.vecRetire k w g
      (s.elementwise g w (fun x y z => finishElem w.ty (w.mod.getLsbD 0) (value x y z)))) := by
  rw [ready_vecInt h he hx]
  simp only [hv]

/-- R233: an instruction without .sat; what `value` gives needs to agree with its operation only after wrapping. -/
theorem ready_vecPlain (h : ReadyTo i s k g) (he : encodingOf s i = some (encVec w tys n))
    (hx : exec i s = vecPlain tys n w s op)
    (hv : ∀ x y z, wrapInt (op x y z) (elemWidth w.ty) = wrapInt (value x y z) (elemWidth w.ty)) :
    exec i s = .next (s.vecRetire k w g (s.elementwise g w (fun x y z => (wrapInt (value x y z) (elemWidth w.ty), 0)))) := by
  rw [ready_vecInt h he hx]
  simp only [finishElem_wraps, hv]

/-- R168, R233: an instruction without .sat has the MOD bit of .sat clear. -/
theorem ready_vecPlain_finish (h : ReadyTo i s k g) (he : encodingOf s i = some (encVec w tys n))
    (hx : exec i s = vecPlain tys n w s op) (hv : ∀ x y z, op x y z = value x y z) :
    exec i s = .next (s.vecRetire k w g
      (s.elementwise g w (fun x y z => finishElem w.ty (w.mod.getLsbD 0) (value x y z)))) := by
  have hmod : w.mod = 0 := ready_mod_zero h he rfl
  have hsat : w.mod.getLsbD 0 = false := by rw [hmod]; rfl
  rw [hsat]
  exact ready_vecPlain h he hx fun x y z => by rw [hv]

end Ready

/-! ## Arithmetic -/

/-- R233: the high half of a product, rounded down. -/
theorem mulHigh_eq (x y : Int) : Int.fdiv (x * y) (2 ^ 32) = x * y / 2 ^ 32 :=
  Int.fdiv_eq_ediv_of_nonneg _ (by decide)

theorem natAbs_eq_ite (x : Int) : (x.natAbs : Int) = if x < 0 then -x else x := by
  split <;> omega

/-- R237: byte i of a lane as VDOT4 reads it. -/
def dotByte (sg : Bool) (x i : Nat) : Int :=
  if sg then signedOf (x / 2 ^ (8 * i)) 8 else (x / 2 ^ (8 * i) % 256 : Nat)

/-- R71, R237: the bytes that VDOT4 reads are the elements of the lane. -/
theorem dotByte_eq (sg : Bool) (x : Nat) {i : Nat} (hi : i < 4) : dotByte sg x i =
    if sg then signedOf (nth 0 (splitElems .u8x4 x) i) 8 else (nth 0 (splitElems .u8x4 x) i : Nat) := by
  have hbyte : nth 0 (splitElems .u8x4 x) i = x / 2 ^ (8 * i) % 2 ^ 8 := by
    rw [nth_splitElems (ty := .u8x4) x hi, Nat.mul_comm 8 i]
    rfl
  rw [hbyte, signedOf_mod]
  rfl

/-- R232: the result of an element as wide as a lane. -/
theorem finishElem_word {ty : Ty} (h : elemWidth ty = 32) (sat : Bool) (x : Int) : finishElem ty sat x =
    if sat then (wrapInt (satInt x (elemMin ty 32) (elemMax ty 32)).1 32, (satInt x (elemMin ty 32) (elemMax ty 32)).2)
    else (wrapInt x 32, 0) := by
  rw [finishElem, h]

/-- R237: the sum of VDOT4, with the bytes of A and of B read as signed or unsigned numbers. -/
def dotSum (aSigned bSigned : Bool) (a b c : Nat) : Int :=
  readElem (if aSigned || bSigned then .s32 else .u32) 32 c + dotByte aSigned a 0 * dotByte bSigned b 0 +
    dotByte aSigned a 1 * dotByte bSigned b 1 + dotByte aSigned a 2 * dotByte bSigned b 2 +
    dotByte aSigned a 3 * dotByte bSigned b 3

/-- R237: the sum is that of C and the products of the elements. -/
theorem dotSum_eq (aSigned bSigned : Bool) (a b c : Nat) : dotSum aSigned bSigned a b c =
    let byte := fun (sg : Bool) (x : Nat) => if sg then signedOf x 8 else (x : Int)
    (if aSigned || bSigned then signedOf c 32 else (c : Nat)) + ((List.range 4).map (fun i =>
      byte aSigned (nth 0 (splitElems .u8x4 a) i) * byte bSigned (nth 0 (splitElems .u8x4 b) i))).foldl (· + ·) 0 := by
  extract_lets byte
  have hc : readElem (if aSigned || bSigned then .s32 else .u32) 32 c =
      if aSigned || bSigned then signedOf c 32 else (c : Nat) := by
    cases aSigned || bSigned <;> rfl
  have hproducts : (List.range 4).map (fun i => dotByte aSigned a i * dotByte bSigned b i) = (List.range 4).map (fun i =>
      byte aSigned (nth 0 (splitElems .u8x4 a) i) * byte bSigned (nth 0 (splitElems .u8x4 b) i)) :=
    List.map_congr_left fun i hi =>
      congr (congrArg HMul.hMul (dotByte_eq aSigned a (List.mem_range.1 hi))) (dotByte_eq bSigned b (List.mem_range.1 hi))
  rw [← hproducts, ← hc]
  simp [dotSum, List.range_succ, Int.add_assoc]

/-- R237: VDOT4 finishes its sum as a word, which is signed where A or B is. -/
theorem ready_vdot4 {s : State} {k : Nat} {g : Group} {w : Slot} (h : ReadyTo (.vdot4 w) s k g) :
    let bSigned := w.ty.signed != w.mod.getLsbD 1
    exec (.vdot4 w) s = .next (s.vecRetire k w g (g.eachLane w (fun l =>
      finishElem (if w.ty.signed || bSigned then .s32 else .u32) (w.mod.getLsbD 0)
        (dotSum w.ty.signed bSigned (s.laneSource g w w.a l).toNat (s.laneSource g w w.b l).toNat
          (s.laneSource g w w.c l).toNat)))) := by
  intro bSigned
  have hword : elemWidth (if w.ty.signed || bSigned then .s32 else .u32) = 32 := by
    cases w.ty.signed || bSigned <;> rfl
  refine ready_vectorLanes h rfl (execVdot4.eq_def w s) fun l => ?_
  rw [finishElem_word hword, dotSum_eq]

/-- R237: of the TYs of VDOT4 one is signed. -/
theorem signed_of_bytes {ty : Ty} (h : ty ∈ [Ty.u8x4, .s8x4]) : ty.signed = (ty == .s8x4) := by
  revert ty
  decide

/-! ## Logic and moves -/

/-- R233: the complement of an element. -/
theorem wrapInt_complement (x : Int) (n : Nat) : wrapInt (-x - 1) n = wrapInt ((2 ^ n : Nat) - 1 - x) n := by
  have hcast : ((2 ^ n : Nat) : Int) = 2 ^ n := Int.natCast_pow 2 n
  have hsum : ((2 ^ n : Nat) : Int) - 1 - x = (-x - 1) + 2 ^ n := by omega
  rw [hsum, wrapInt, wrapInt, Int.add_emod_right]

/-- R236: the value of VMOVI. -/
theorem moveImmediate_eq (wide signExtends : Bool) (x : Lane) :
    (if wide then (if signExtends then x.signExtend 64 else x.zeroExtend 64).toNat else x.toNat) =
      if !wide then x.toNat else if signExtends then (x.signExtend 64).toNat else x.toNat := by
  have hzero : (x.zeroExtend 64).toNat = x.toNat := BitVec.toNat_setWidth_of_le (by decide)
  cases wide <;> cases signExtends <;> simp [hzero]

/-! ## The statements -/

/-- Settles O13: the operation of each elementwise instruction, the sum of VDOT4, and VIDX. -/
theorem vectorArithmetic : Obligations.VectorArithmetic := by
  unfold Obligations.VectorArithmetic
  intro s k g w gives
  refine ⟨fun h => ready_vecSat h rfl (execVadd.eq_def w s) fun _ _ _ => rfl,
    fun h => ready_vecSat h rfl (execVsub.eq_def w s) fun _ _ _ => rfl,
    fun h => ready_vecSat h rfl (execVmul.eq_def w s) fun _ _ _ => rfl,
    fun h => ready_vecPlain_finish h rfl (execVmulh.eq_def w s) fun x y _ => mulHigh_eq x y,
    fun h => ready_vecSat h rfl (execVmad.eq_def w s) fun _ _ _ => rfl,
    fun h => ready_vecPlain_finish h rfl (execVmin.eq_def w s) fun x y _ => Int.min_def x y,
    fun h => ready_vecPlain_finish h rfl (execVmax.eq_def w s) fun x y _ => Int.max_def x y,
    fun h => ready_vecSat h rfl (execVabs.eq_def w s) fun x _ _ => natAbs_eq_ite x,
    fun h => ready_vecSat h rfl (execVneg.eq_def w s) fun _ _ _ => rfl,
    fun h => ?_,
    fun h => ready_vectorLanes h rfl (execVidx.eq_def w s) fun _ => rfl⟩
  rw [← signed_of_bytes (ty_mem_of_fieldsOk (ready_fieldsOk h rfl) rfl)]
  exact ready_vdot4 h

/-- Settles O14: the operation of each elementwise instruction, VMOVI and VSEL. -/
theorem vectorLogicAndMoves : Obligations.VectorLogicAndMoves := by
  unfold Obligations.VectorLogicAndMoves
  intro s k g w n m pos len gives
  exact ⟨fun h => ready_vecPlain h rfl (execVand.eq_def w s) fun _ _ _ => rfl,
    fun h => ready_vecPlain h rfl (execVor.eq_def w s) fun _ _ _ => rfl,
    fun h => ready_vecPlain h rfl (execVxor.eq_def w s) fun _ _ _ => rfl,
    fun h => ready_vecPlain h rfl (execVnot.eq_def w s) fun x _ _ => wrapInt_complement x _,
    fun h => ready_vecPlain h rfl (execVshl.eq_def w s) fun _ _ _ => rfl,
    fun h => ready_vecPlain h rfl (execVshr.eq_def w s) fun _ _ _ => rfl,
    fun h => ready_vecPlain h rfl (execVsra.eq_def w s) fun _ _ _ => congrArg (wrapInt · _) (shiftRight_eq _ _ _),
    fun h => ready_vecPlain h rfl (execVbfx.eq_def w s) fun x fc _ => congrArg (wrapInt · _) (extractField_eq w.ty x fc),
    fun h => ready_vecPlain h rfl (execVbfi.eq_def w s) fun x y fc => congrArg (wrapInt · _) (insertField_eq w.ty x y fc),
    fun h => ready_vecPlain h rfl (execVclz.eq_def w s) fun _ _ _ => rfl,
    fun h => ready_vecPlain h rfl (execVpopc.eq_def w s) fun _ _ _ => by rw [popCount_eq],
    fun h => ready_vecPlain h rfl (execVmov.eq_def w s) fun _ _ _ => rfl,
    fun h => ready_vectorLanes h rfl (execVmovi.eq_def w s) fun _ => congrArg (·, 0) (moveImmediate_eq _ _ _),
    fun h => ready_vectorLanes h rfl (execVsel.eq_def w s) fun l =>
      congrArg (·, 0) (apply_ite (fun o => s.laneValue g w o l) _ _ _)⟩

end Sys2Proof.Proofs.Vector
end

section
/-!
PROOFS. The cross-lane instructions that stand ready, and the trap of an instruction that is not of class L.
-/

namespace Sys2Proof.Proofs.Vector

open Sys2Proof Sys2Proof.Machine Sys2Proof.Laws Sys2Proof.Proofs Sys2Proof.Proofs.Formats Sys2Proof.Proofs.Registers

section Ready

variable {i : Instr} {s : State} {k : Nat} {g : Group} {w : Slot} {f : Form} {ok : Group → Bool}

/-! ## Traps -/

/-- R374: a trap whose entry has to wait holds the group. -/
theorem trapAt_of_trapWaits (hg : s.group k = some g) (hd : g.doomed = none) (hw : s.trapWaits k = true) (c : Cause) :
    s.trapAt k c = s.hold k := by
  simp only [State.trapWaits, hg, Bool.and_eq_true, Bool.not_eq_true'] at hw
  obtain ⟨⟨hentry, hhandler⟩, hwait⟩ := hw
  obtain ⟨entry, hentry⟩ := Option.isSome_iff_exists.1 hentry
  simp only [State.trapAt, State.takeTrap, hg, hd, hentry, hhandler, hwait, Bool.false_eq_true, if_false, if_true]

/-- R161, R374: an instruction that is not of class L takes its trap where it stands, whether or not entry has to wait. -/
theorem ready_trap {body : Nat → Group → Result} {c : Cause} (h : ReadyTo i s k g)
    (he : encodingOf s i = some { slot := w, form := f, ok := ok }) (hx : exec i s = issue f ok noMore w s body)
    (hf : f.long = false) (hb : body k g = .trap s c) : exec i s = .next (s.trapAt k c) := by
  rw [ready_issue (e := { slot := w, form := f, ok := ok }) h he hx, hb]
  dsimp only [finish]
  split
  · next hw => rw [trapAt_of_trapWaits h.group h.live hw]
  · rw [issueTrap_short hf]

/-! ## Moving lanes -/

/-- The low bits of MOD as a number. -/
theorem modBits_eq (x : BitVec 28) (n : Nat) : (x.extractLsb' 0 n).toNat = x.toNat % 2 ^ n := by
  rw [BitVec.extractLsb'_toNat, Nat.shiftRight_zero]

/-- R252: the source lane in the four modes of SHFL. -/
theorem shuffleLane_eq (mode width l m : Nat) : shuffleLane mode width l m = match mode with
    | 0 => m % width
    | 1 => if m ≤ l then l - m else l
    | 2 => if l + m < width then l + m else l
    | _ => if l ^^^ m < width then l ^^^ m else l := by
  match mode with
  | 0 | 1 | 2 => rfl
  | _ + 3 => simp [shuffleLane]

/-- R252: SHFL reads another lane of A. -/
theorem ready_shfl (h : ReadyTo (.shfl w) s k g) :
    let mode := (w.mod.extractLsb' 0 2).toNat
    exec (.shfl w) s = .next (s.retire k w (g.eachLane w (fun l =>
      (s.laneValue g w w.a (shuffleLane mode g.width l (s.laneValue g w w.b l % 2 ^ 32)), 0)))) :=
  ready_done h rfl (execShfl.eq_def w s) rfl

/-- R253: VRDL of a lane of the group. -/
theorem ready_vrdl (h : ReadyTo (.vrdl w) s k g) (hl : s.namedLane g w < g.width) :
    exec (.vrdl w) s = .next (s.retire k w (g.setS w.d0.scalarIndex
      (if w.ty.wide then g.v64 w.a.vecIndex (s.namedLane g w)
       else if w.ty.signed then (g.v w.a.vecIndex (s.namedLane g w)).signExtend 64
       else (g.v w.a.vecIndex (s.namedLane g w)).zeroExtend 64))) :=
  ready_done h rfl (execVrdl.eq_def w s) (if_neg (Nat.not_le.2 hl))

/-- R253: VRDL of a lane beyond the group. -/
theorem ready_vrdl_beyond (h : ReadyTo (.vrdl w) s k g) (hl : g.width ≤ s.namedLane g w) :
    exec (.vrdl w) s = .next (s.trapAt k (trapAll g 0x07 0)) :=
  ready_trap h rfl (execVrdl.eq_def w s) rfl (if_pos hl)

/-- R253: VWRL of a lane of the group. -/
theorem ready_vwrl (h : ReadyTo (.vwrl w) s k g) (hl : s.namedLane g w < g.width) :
    exec (.vwrl w) s = .next (s.retire k w
      (g.setLane w.ty w.d0.vecIndex (s.namedLane g w) (s.scalarSource g w w.a).toNat)) :=
  ready_done h rfl (execVwrl.eq_def w s) (if_neg (Nat.not_le.2 hl))

/-- R253: VWRL of a lane beyond the group. -/
theorem ready_vwrl_beyond (h : ReadyTo (.vwrl w) s k g) (hl : g.width ≤ s.namedLane g w) :
    exec (.vwrl w) s = .next (s.trapAt k (trapAll g 0x07 0)) :=
  ready_trap h rfl (execVwrl.eq_def w s) rfl (if_pos hl)

/-! ## Reductions and scans -/

/-- R254: of the TYs of a word that reductions take, one is signed. -/
theorem signed_of_word {ty : Ty} (h : ty ∈ redTys) (hw : ty.wide = false) : ty.signed = decide (ty = .s32) := by
  revert ty
  decide

/-- The TYs of VRDL (R253). -/
def vrdlTys : List Ty := [.b32, .s32, .b64]

theorem vrdlTys_subset : vrdlTys ⊆ redTys := by decide

/-- R253: of the TYs of VRDL one is wide. -/
theorem wide_of_vrdl {ty : Ty} (h : ty ∈ vrdlTys) : ty.wide = decide (ty = .b64) := by
  revert ty
  decide

/-- R253, R254: how a value of a lane fills a scalar register. -/
theorem laneWord_eq {ty : Ty} (h : ty ∈ redTys) (x y z : Word) : (if ty.wide then x else if ty.signed then y else z) =
    if ty.wide then x else if ty = .s32 then y else z := by
  cases hw : ty.wide
  · simp [signed_of_word h hw]
  · rfl

/-- R254: VRED into a scalar register. -/
theorem ready_vred_scalar (h : ReadyTo (.vred w) s k g) {r : BitVec 6} (hd : w.d0 = .scalar r) :
    exec (.vred w) s = .next (s.retire k w ((g.setS r.toNat
      (if w.ty.wide then BitVec.ofNat 64 (s.reduce g w).1
       else if w.ty.signed then (BitVec.ofNat 32 (s.reduce g w).1).signExtend 64
       else (BitVec.ofNat 32 (s.reduce g w).1).zeroExtend 64)).raise (s.reduce g w).2)) := by
  refine ready_done h rfl (execVred.eq_def w s) ?_
  simp only [hd]

/-- R254: VRED into the active lanes of a vector register. -/
theorem ready_vred_vec (h : ReadyTo (.vred w) s k g) {r : BitVec 8} (hd : w.d0 = .vec r) :
    exec (.vred w) s = .next (s.retire k w
      ((g.eachLane w (fun _ => ((s.reduce g w).1, 0))).raise (s.reduce g w).2)) := by
  refine ready_done h rfl (execVred.eq_def w s) ?_
  simp only [hd]

/-- The lanes' results of VSCAN, written one after another (R255). -/
def writeScan (g : Group) (w : Slot) (rs : List (Nat × Nat × FpFlags)) : Group :=
  rs.foldl (fun a r => (a.setLane w.ty w.d0.vecIndex r.1 r.2.1).raise r.2.2) g

/-- R255: VSCAN of integers. -/
theorem ready_vscan_int (h : ReadyTo (.vscan w) s k g) (hty : w.ty ≠ .f32) :
    exec (.vscan w) s = .next (s.retire k w (writeScan g w
      (scanInt w w.ty (redOp w) (w.mod.getLsbD 3) (w.mod.getLsbD 4) (intIdentity w.ty (redOp w))
        ((lanesOf (g.lanes w) g.width).map (fun l => (l, s.laneInt g w l)))))) := by
  refine ready_done h rfl (execVscan.eq_def w s) ?_
  simp only [if_neg hty]
  rfl

/-- R255: VSCAN of floating-point values. -/
theorem ready_vscan_fp (h : ReadyTo (.vscan w) s k g) (hty : w.ty = .f32) :
    exec (.vscan w) s = .next (s.retire k w (writeScan g w
      (scanFp (redOp w) (modeOf (w.mod.extractLsb' 5 2).toNat) (w.mod.getLsbD 7) (w.mod.getLsbD 4) (fpIdentity (redOp w))
        ((lanesOf (g.lanes w) g.width).map (fun l => (l, (s.laneSource g w w.a l).toNat)))))) := by
  refine ready_done h rfl (execVscan.eq_def w s) ?_
  simp only [if_pos hty]
  rfl

/-! ## Votes and counts -/

/-- The lanes that VOTE counts: the active lanes whose bit, inverted where MOD says so, is 1 (R256). -/
def voteSet (g : Group) (w : Slot) : BitVec 64 :=
  g.lanes w &&& (if w.mod.getLsbD 2 then ~~~(g.q (w.a.specialIndex - 0x10)) else g.q (w.a.specialIndex - 0x10))

/-- R256: VOTE writes the set, or a condition bit that says whether any, all, or all or none of the active lanes are in
it. -/
theorem ready_vote (h : ReadyTo (.vote w) s k g) : exec (.vote w) s = .next (s.retire k w (match w.mod.toNat % 4 with
    | 0 => g.setS w.d0.scalarIndex (voteSet g w)
    | 1 => g.setC w.d0.specialIndex (decide (voteSet g w ≠ 0))
    | 2 => g.setC w.d0.specialIndex (decide (voteSet g w = g.lanes w))
    | _ => g.setC w.d0.specialIndex (decide (voteSet g w = 0) || decide (voteSet g w = g.lanes w)))) := by
  refine ready_done h rfl (execVote.eq_def w s) ?_
  rw [modBits_eq]
  match w.mod.toNat % 2 ^ 2 with
  | 0 | 1 | 2 => rfl
  | _ + 3 => simp [voteSet]

/-- R257: QCNT writes the number of the lanes that are set, the first of them or the last. -/
theorem ready_qcnt (h : ReadyTo (.qcnt w) s k g) :
    let ls := (lanesOf (g.lanes w) g.width).filter (g.qBit w.a)
    exec (.qcnt w) s = .next (s.retire k w (g.setS w.d0.scalarIndex (BitVec.ofNat 64 (match w.mod.toNat % 4 with
      | 0 => ls.length
      | 1 => ls.head?.getD g.width
      | _ => ls.getLast?.getD g.width)))) := by
  refine ready_done h rfl (execQcnt.eq_def w s) ?_
  rw [modBits_eq]
  match w.mod.toNat % 2 ^ 2 with
  | 0 | 1 => rfl
  | _ + 2 => simp

end Ready

/-! ## The statement -/

/-- Settles O21: each instruction by its own rule, with the lane that VRDL and VWRL name on both sides of the width. -/
theorem crossLane : Obligations.CrossLane := by
  unfold Obligations.CrossLane
  intro s k g w b lam acts q
  refine ⟨fun h => ?_, fun h hl => ?_, ready_vwrl, ready_vrdl_beyond, ready_vwrl_beyond, fun h i hd => ?_,
    fun h r hd => ready_vred_vec h hd, ready_vscan_int, ready_vscan_fp, ready_vote, ready_qcnt⟩
  · have hx := ready_shfl h
    simp only [shuffleLane_eq, modBits_eq] at hx
    exact hx
  · have hty := ty_mem_of_fieldsOk (ready_fieldsOk h rfl) rfl
    have hred : w.ty ∈ redTys := vrdlTys_subset hty
    have hx := ready_vrdl h hl
    rw [laneWord_eq hred, wide_of_vrdl hty] at hx
    simp only [decide_eq_true_eq] at hx
    exact hx
  · rw [ready_vred_scalar h hd, laneWord_eq (ty_mem_of_fieldsOk (ready_fieldsOk h rfl) rfl)]

end Sys2Proof.Proofs.Vector
end

section
/-!
PROOFS. The basin instructions that stand ready: BCFG within its operand ranges and outside them, and the moves of BPUT
and BTAKE, in a team under check and in one that is not.
-/

namespace Sys2Proof.Proofs.Basins

open Sys2Proof Sys2Proof.Machine Sys2Proof.Laws Sys2Proof.Proofs.Vector

variable {i : Instr} {s s1 : State} {k : Nat} {g : Group} {w : Slot}

/-- R284: the basin that an instruction names stands in MOD [3:0]. -/
theorem basinField_eq (w : Slot) : basinField w = w.mod.toNat % 16 := modBits_eq w.mod 4

/-! ## BCFG -/

/-- The operand ranges of BCFG (R284). -/
def bcfgInRange (x e n : Nat) : Bool := x % 128 = 0 && e % 16 = 0 && 16 ≤ e && e ≤ 65536 && 1 ≤ n && n ≤ 4096

/-- The operands that the model refuses are the ones outside the ranges. -/
theorem not_bcfgInRange (x e n : Nat) : (!bcfgInRange x e n) =
    (x % 128 != 0 || e % 16 != 0 || e < 16 || 65536 < e || n = 0 || 4096 < n) := by
  simp only [bcfgInRange, Bool.not_and, ← decide_not, Nat.not_le, Nat.lt_one_iff, bne, Bool.beq_eq_decide_eq]

section Bcfg

/-- What BCFG tests first: a basin that an issued operation names, or operands outside their ranges (R284). -/
def bcfgRefused (s : State) (g : Group) (w : Slot) : Bool :=
  s.basinBusy g.team (basinField w) ||
    !bcfgInRange (s.scalarSource g w w.a).toNat (s.scalarSource g w w.b).toNat (s.scalarSource g w w.c).toNat

/-- It is the model's test. -/
theorem bcfgRefused_eq (s : State) (g : Group) (w : Slot) :
    let x := (s.scalarSource g w w.a).toNat
    let e := (s.scalarSource g w w.b).toNat
    let n := (s.scalarSource g w w.c).toNat
    bcfgRefused s g w = (s.basinBusy g.team (basinField w) || x % 128 != 0 || e % 16 != 0 || e < 16 || 65536 < e || n = 0 ||
      4096 < n) := by
  intro x e n
  simp only [bcfgRefused, not_bcfgInRange, Bool.or_assoc, x, e, n]

theorem bcfgRefused_iff : bcfgRefused s g w = true ↔ s.basinBusy g.team (basinField w) = true ∨
    bcfgInRange (s.scalarSource g w w.a).toNat (s.scalarSource g w w.b).toNat (s.scalarSource g w w.c).toNat = false := by
  rw [bcfgRefused, Bool.or_eq_true, Bool.not_eq_true']

theorem bcfgRefused_eq_false_iff : bcfgRefused s g w = false ↔ s.basinBusy g.team (basinField w) = false ∧
    bcfgInRange (s.scalarSource g w w.a).toNat (s.scalarSource g w w.b).toNat (s.scalarSource g w w.c).toNat = true := by
  rw [bcfgRefused, Bool.or_eq_false_iff, Bool.not_eq_false']

/-- R284: BCFG that fails its first test. -/
theorem ready_bcfg_refused (h : ReadyTo (.bcfg w) s k g) (hr : bcfgRefused s g w = true) :
    exec (.bcfg w) s = .next (s.trapAt k (trapAll g 0x07 0)) :=
  ready_trap h rfl (execBcfg.eq_def w s) rfl (if_pos (bcfgRefused_eq s g w ▸ hr))

variable (h : ReadyTo (.bcfg w) s k g) (hr : bcfgRefused s g w = false)

include h hr

/-- R284: BCFG of a basin that would end beyond the scratchpad. -/
theorem ready_bcfg_beyond :
    let x := (s.scalarSource g w w.a).toNat
    (s.teamOf g).scratchSize < x + (s.scalarSource g w w.b).toNat * (s.scalarSource g w w.c).toNat →
    exec (.bcfg w) s = .next (s.trapAt k (trapAll g 0x08 (BitVec.ofNat 64 x))) := by
  intro x hbeyond
  rw [bcfgRefused_eq] at hr
  exact ready_trap h rfl (execBcfg.eq_def w s) rfl ((if_neg (Bool.eq_false_iff.1 hr)).trans (if_pos hbeyond))

/-- R284: BCFG of a basin inside the scratchpad. -/
theorem ready_bcfg :
    let x := (s.scalarSource g w w.a).toNat
    let e := (s.scalarSource g w w.b).toNat
    let n := (s.scalarSource g w w.c).toNat
    x + e * n ≤ (s.teamOf g).scratchSize → exec (.bcfg w) s = .next (((s.modTeam g.team (fun t =>
      t.setBasin (basinField w) { base := x, esize := e, count := n, prod := 0, cons := 0 })).modGroup k id).advance k w) := by
  intro x e n hfit
  rw [bcfgRefused_eq] at hr
  rw [ready_issue h rfl (execBcfg.eq_def w s)]
  dsimp only
  rw [if_neg (Bool.eq_false_iff.1 hr), if_neg (Nat.not_lt.2 hfit)]
  rfl

end Bcfg

/-! ## What a log says of a move -/

section Logged

variable {op n c r : Nat} {ok : Bool} {old : BitVec 32} {e : LogEntry}

/-- A team that is not under check moves as its basin allows. -/
theorem basinLogged_plain (h : s.runOf (g.who k) = none) : s.basinLogged k g op n ok old = (some (ok, false), s) := by
  simp only [State.basinLogged, State.partOf, h]

/-- R350: the original moves as its basin allows, and logs D0. -/
theorem basinLogged_original (h : s.runOf (g.who k) = some (c, 0)) : s.basinLogged k g op n ok old =
    (some (ok, false), s.logFor (g.who k) g.gid { op := op, lanes := 0, operands := [BitVec.ofNat 64 n]
                                                  values := [if ok then old.zeroExtend 64 else 0xFFFFFFFFFFFFFFFF#64] }) := by
  simp only [State.basinLogged, State.partOf, h]

/-- R296: a later run moves as the log says, and waits where its own basin does not allow it yet. -/
theorem basinLogged_later (h : s.runOf (g.who k) = some (c, r + 1))
    (hlog : s.readLog c (r + 1) k g op 0 [BitVec.ofNat 64 n] = (some e, s1)) :
    let was := nth 0 e.values 0 != 0xFFFFFFFFFFFFFFFF#64
    s.basinLogged k g op n ok old = (some (was, was && !ok), s1) := by
  simp only [State.basinLogged, State.partOf, h, hlog]

end Logged

/-! ## BPUT and BTAKE -/

section Moves

variable {op n : Nat} {ok yes release : Bool} {old : BitVec 32} {moved : Basin}

/-- Instruction i comes to a move of the basin that w names. -/
def MovesBasin (i : Instr) (s : State) (k : Nat) (g : Group) (w : Slot) (op n : Nat) (ok release : Bool) (old : BitVec 32)
    (moved : Basin) : Prop :=
  exec i s = .next (finish s k basinForm w (s.basinMove k g w op n ok release old moved))

/-- R285: a move whose outcome is settled takes effect, unless it is a release that takes a refusal. -/
theorem MovesBasin.settled (h : MovesBasin i s k g w op n ok release old moved)
    (hl : s.basinLogged k g op n ok old = (some (yes, false), s1)) (hr : (yes && release) = true → g.refused = none) :
    exec i s = .next ((s1.moveBasin k g w yes old moved).advance k w) := by
  rw [h, State.basinMove, hl]
  dsimp only
  split
  · next hrel => simp only [State.releasing, State.takeRefused, hr hrel, Option.map_none, Option.getD_none, finish]
  · rfl

/-- R296: a move that has to wait holds the group. -/
theorem MovesBasin.waits (h : MovesBasin i s k g w op n ok release old moved)
    (hl : s.basinLogged k g op n ok old = (some (yes, true), s1)) : exec i s = .next (s.hold k) := by
  rw [h, State.basinMove, hl]
  rfl

/-- R285: the moves of a team that is not under check. -/
theorem MovesBasin.plain (h : MovesBasin i s k g w op n ok release old moved) (hrun : s.runOf (g.who k) = none)
    (hr : (ok && release) = true → g.refused = none) :
    exec i s = .next ((s.moveBasin k g w ok old moved).advance k w) :=
  h.settled (basinLogged_plain hrun) hr

/-- R296, R350: the moves of a later run. -/
theorem MovesBasin.later {c r : Nat} {e : LogEntry} (h : MovesBasin i s k g w op n ok release old moved)
    (hrun : s.runOf (g.who k) = some (c, r + 1)) (hr : g.refused = none)
    (hlog : s.readLog c (r + 1) k g op 0 [BitVec.ofNat 64 n] = (some e, s1)) :
    let was := nth 0 e.values 0 != 0xFFFFFFFFFFFFFFFF#64
    (was = true → ok = false → exec i s = .next (s.hold k)) ∧
    (was = false ∨ ok = true → exec i s = .next ((s1.moveBasin k g w was old moved).advance k w)) := by
  intro was
  have hl : s.basinLogged k g op n ok old = (some (was, was && !ok), s1) := basinLogged_later hrun hlog
  constructor
  · intro hwas hok
    have hwait : (was && !ok) = true := by rw [hwas, hok]; rfl
    exact h.waits (hwait ▸ hl)
  · intro hgo
    have hwait : (was && !ok) = false := by
      rcases hgo with hwas | hok
      · rw [hwas, Bool.false_and]
      · rw [hok, Bool.not_true, Bool.and_false]
    exact h.settled (hwait ▸ hl) fun _ => hr

/-- R285: an instruction whose body moves a basin. -/
theorem ready_move {body : Nat → Group → Result} (h : ReadyTo i s k g)
    (he : encodingOf s i = some { slot := w, form := basinForm }) (hx : exec i s = issue basinForm always noMore w s body)
    (hb : body k g = s.basinMove k g w op n ok release old moved) : MovesBasin i s k g w op n ok release old moved := by
  rw [MovesBasin, ready_issue h he hx, hb]

end Moves

section Ready

/-- R285: BPUT of a number of elements that the basin can hold. -/
theorem ready_bput (h : ReadyTo (.bput w) s k g) :
    let x := (s.scalarSource g w w.a).toNat
    let b := (s.teamOf g).basin (basinField w)
    b.count ≠ 0 → x ≤ b.count → MovesBasin (.bput w) s k g w 0x308 x (decide (x ≤ b.room)) true b.prod
      { b with prod := b.prod + BitVec.ofNat 32 x } :=
  fun h0 hx => ready_move h rfl (execBput.eq_def w s) (if_neg (by simpa using ⟨h0, hx⟩))

/-- R285: BTAKE of a number of elements that the basin can hold. -/
theorem ready_btake (h : ReadyTo (.btake w) s k g) :
    let x := (s.scalarSource g w w.a).toNat
    let b := (s.teamOf g).basin (basinField w)
    b.count ≠ 0 → x ≤ b.count → MovesBasin (.btake w) s k g w 0x309 x (decide (x ≤ b.held)) false b.cons
      { b with cons := b.cons + BitVec.ofNat 32 x } :=
  fun h0 hx => ready_move h rfl (execBtake.eq_def w s) (if_neg (by simpa using ⟨h0, hx⟩))

/-- R285: BPUT of more, or at a basin that is not configured. -/
theorem ready_bput_range (h : ReadyTo (.bput w) s k g) :
    let b := (s.teamOf g).basin (basinField w)
    b.count = 0 ∨ b.count < (s.scalarSource g w w.a).toNat → exec (.bput w) s = .next (s.trapAt k (trapAll g 0x07 0)) :=
  fun hb => ready_trap h rfl (execBput.eq_def w s) rfl (if_pos (by simpa using hb))

/-- R285: BTAKE of more, or at a basin that is not configured. -/
theorem ready_btake_range (h : ReadyTo (.btake w) s k g) :
    let b := (s.teamOf g).basin (basinField w)
    b.count = 0 ∨ b.count < (s.scalarSource g w w.a).toNat → exec (.btake w) s = .next (s.trapAt k (trapAll g 0x07 0)) :=
  fun hb => ready_trap h rfl (execBtake.eq_def w s) rfl (if_pos (by simpa using hb))

end Ready

/-! ## The statement -/

/-- Settles O37: BCFG by its two tests, and BPUT and BTAKE as moves of a basin, in a team that is not under check, in an
original and in a later run. -/
theorem basins : Obligations.Basins := by
  unfold Obligations.Basins
  intro s k g w
  simp only [← basinField_eq]
  refine ⟨fun h => ?bcfg, fun h => ⟨?putFits, ?putFull, fun _ => ready_bput_range h⟩,
    fun h => ⟨?takeFits, ?takeFull, fun _ => ready_btake_range h⟩, ?checked⟩
  case bcfg =>
    exact ⟨fun hb hx => ready_bcfg h (bcfgRefused_eq_false_iff.2 ⟨hb, hx⟩),
      fun _ hbad => ready_bcfg_refused h (bcfgRefused_iff.2 hbad),
      fun _ hb hx => ready_bcfg_beyond h (bcfgRefused_eq_false_iff.2 ⟨hb, hx⟩)⟩
  case putFits =>
    intro hrun h0 hx hroom href
    have hfits := decide_eq_true hroom
    exact (hfits ▸ ready_bput h h0 hx).plain hrun fun _ => href
  case putFull =>
    intro hrun h0 hx hroom
    have hfull := decide_eq_false (Nat.not_le.2 hroom)
    exact (hfull ▸ ready_bput h h0 hx).plain hrun nofun
  case takeFits =>
    intro hrun h0 hx hheld
    have hfits := decide_eq_true hheld
    exact (hfits ▸ ready_btake h h0 hx).plain hrun nofun
  case takeFull =>
    intro hrun h0 hx hheld
    have hempty := decide_eq_false (Nat.not_le.2 hheld)
    exact (hempty ▸ ready_btake h h0 hx).plain hrun nofun
  case checked =>
    intro h0 hx href i op fits old y hi h
    have hm : ∃ release, MovesBasin i s k g w op (s.scalarSource g w w.a).toNat fits release old y := by
      rcases hi with ⟨rfl, rfl, rfl, rfl, rfl⟩ | ⟨rfl, rfl, rfl, rfl, rfl⟩
      · exact ⟨true, ready_bput h h0 hx⟩
      · exact ⟨false, ready_btake h h0 hx⟩
    obtain ⟨release, hm⟩ := hm
    exact ⟨fun c hrun => hm.settled (basinLogged_original hrun) fun _ => href,
      fun c r e s1 hrun hlog => hm.later hrun href hlog⟩

end Sys2Proof.Proofs.Basins
end

section
/-!
PROOFS. The Towpath: the mint of a control interval, claims, %energy, one fabric cycle of a ring that nothing takes from,
and what a station gives to claims and purses.
-/

namespace Sys2Proof.Proofs.Towpath

open Sys2Proof Sys2Proof.Machine Sys2Proof.Laws Sys2Proof.Proofs

variable {s : State}

/-! ## The mint -/

/-- R330: the factors of the vector rail. -/
theorem vecFactor_eq (p : BitVec 2) : vecFactor p = nth 0 [1000, 800, 660, 540] p.toNat := by
  revert p; decide

/-- R330: the factors of the matrix rail. -/
theorem matFactor_eq (p : BitVec 2) : matFactor p = nth 0 [1000, 830, 680, 550] p.toNat := by
  revert p; decide

/-- The greater factor of the rails as they stand, or of the points of the change that is in progress (R330, R418). -/
def presentFactor (h : Hub) : Nat :=
  if h.railBusy then
    max (max (vecFactor h.railOldVec) (vecFactor h.railCtlVec)) (max (matFactor h.railOldMat) (matFactor h.railCtlMat))
  else max (vecFactor h.railVec) (matFactor h.railMat)

theorem presentFactor_eq (h : Hub) :
    max (pointFactor vecFactor h.railBusy h.railOldVec h.railCtlVec h.railVec)
      (pointFactor matFactor h.railBusy h.railOldMat h.railCtlMat h.railMat) = presentFactor h := by
  unfold pointFactor presentFactor
  split <;> rfl

/-- R418: no change of the rails has ended in the interval. -/
theorem factor_of_railEnd_ne (h : s.hub.railEnd ≠ some (s.now / 1000)) : s.factor = presentFactor s.hub :=
  (if_neg h).trans (presentFactor_eq s.hub)

/-- R418: the points of a change that has ended in the interval count with the present ones. -/
theorem factor_of_railEnd (h : s.hub.railEnd = some (s.now / 1000)) : s.factor =
    max (presentFactor s.hub) (max (vecFactor s.hub.railPastVec) (matFactor s.hub.railPastMat)) :=
  (if_pos h).trans (congrArg (max · _) (presentFactor_eq s.hub))

/-- Settles O43: the control interval's one branch, and the factor by whether a change has ended in the interval. -/
theorem mints : Obligations.Mints := by
  unfold Obligations.Mints
  intro s
  simp only [← vecFactor_eq, ← matFactor_eq]
  exact ⟨fun die measured h => if_pos h, ⟨factor_of_railEnd_ne, factor_of_railEnd⟩, rfl⟩

/-! ## Claims -/

/-- R334: the oldest clause's claim opens. -/
theorem claim_opens {core price : Nat} {g : Group} (hnone : (s.core core).claim = none)
    (hold : s.oldestClause core = some (g, price)) (hless : (s.core core).purse < price)
    (hwait : max g.age (g.gtSince.getD 0) + 16 ≤ s.now) :
    exec (.claim core false) s =
      .next (s.modCore core (fun c => { c with claim := some (price - (s.core core).purse) })) := by
  have hopen : ((s.core core).purse < price && decide (g.priceSince + claimWait ≤ s.now)) = true := by
    simpa only [Bool.and_eq_true, decide_eq_true_eq] using ⟨hless, hwait⟩
  show execClaim core false s = _
  simp only [execClaim, hnone, hold, hopen, if_true, Bool.false_eq_true, if_false]
  rfl

/-- R334: an engine claim opens. -/
theorem engineClaim_opens {core n : Nat} (hnone : (s.core core).engineClaim = none) (hn : s.starved core = some n) :
    exec (.claim core true) s = .next (s.modCore core (fun c => { c with engineClaim := some n })) := by
  show execClaim core true s = _
  simp only [execClaim, hnone, hn, if_true]

/-! ## Energy -/

section Energy

variable (p : Partition) (now : Nat)

/-- R336: settling an interval counts its tokens and leaves %energy. -/
theorem settleInterval_eq : (p.settleInterval now).energyAcc =
      (if p.energyInterval = now / 1000 then p.energyAcc else p.energyAcc + p.energyTokens * p.energyFactor) ∧
    (p.settleInterval now).energy = p.energy ∧ (p.settleInterval now).energyAt = p.energyAt := by
  unfold Partition.settleInterval
  split <;> exact ⟨rfl, rfl, rfl⟩

/-- R336: %energy is only written after the interval's count. -/
theorem settleMs_energyAcc : (p.settleMs now).energyAcc = (p.settleInterval now).energyAcc := by
  simp only [Partition.settleMs]
  split <;> rfl

variable {p now}

/-- R336: at a new millisecond %energy takes the whole millijoules. -/
theorem settleMs_new (h : p.energyAt < now / 1000000) :
    (p.settleMs now).energy = (p.settleInterval now).energyAcc / 62500000000 ∧
      (p.settleMs now).energyAt = now / 1000000 := by
  have hat : (p.settleInterval now).energyAt < now / 1000000 := (settleInterval_eq p now).2.2 ▸ h
  rw [Partition.settleMs, if_pos hat]
  exact ⟨rfl, rfl⟩

/-- R336: within a millisecond %energy stands. -/
theorem settleMs_same (h : now / 1000000 ≤ p.energyAt) :
    (p.settleMs now).energy = p.energy ∧ (p.settleMs now).energyAt = p.energyAt := by
  obtain ⟨-, henergy, hat⟩ := settleInterval_eq p now
  rw [Partition.settleMs, if_neg (hat ▸ Nat.not_lt.2 h)]
  exact ⟨henergy, hat⟩

end Energy

/-- Modifying a listed key is putting the modified value. -/
theorem tab_modify_of_find {α : Type} {t : Tab α} {i : Nat} {x : α} (f : α → α) (h : Tab.find t i = some x) :
    Tab.modify t i f = Tab.insert t i (f x) := by
  simp only [Tab.modify, h]

theorem modPart_of_part {ctx : Nat} {p : Partition} (f : Partition → Partition) (h : s.part ctx = some p) :
    s.modPart ctx f = { s with parts := Tab.insert s.parts ctx (f p) } :=
  congrArg (fun ps => { s with parts := ps }) (tab_modify_of_find f h)

theorem modDie_of_find {die : Nat} {d : Die} (f : Die → Die) (h : Tab.find s.dies die = some d) :
    s.modDie die f = { s with dies := Tab.insert s.dies die (f d) } :=
  congrArg (fun ds => { s with dies := ds }) (tab_modify_of_find f h)

/-! ## A ring that nothing takes from -/

/-- R332: a station whose pound takes nothing passes all. -/
theorem station_idle {die p : Nat} (claims : Bool) (n : Nat) (h : s.takers die p = []) :
    s.station claims die p n = (n, s) := by
  cases claims
  · simp only [State.station, h]; rfl
  · simp only [State.station, h]; rfl

/-- R332: stations whose pounds take nothing pass all. -/
theorem stations_idle {die : Nat} {here : List (Nat × Nat)} (claims : Bool)
    (h : ∀ q ∈ here, s.takers die q.1 = []) : s.stations claims die here = (here.map Prod.snd, s) := by
  induction here with
  | nil => rfl
  | cons q rest ih =>
    obtain ⟨hq, hrest⟩ := List.forall_mem_cons.1 h
    simp only [State.stations, station_idle claims q.2 hq, ih hrest, List.map_cons]

/-- A list is its entries in order. -/
theorem map_nth_range (l : List Nat) : (List.range l.length).map (nth 0 l) = l :=
  List.ext_getElem (by simp) (fun i _ hi => by simp [nth_eq_getD, hi])

/-- R331: one fabric cycle of a ring that nothing takes from. -/
theorem stationDelivery_idle {die : Nat} {d : Die} (hd : Tab.find s.dies die = some d) (hlen : d.ring.length = 16)
    (h : ∀ p, p < 16 → s.takers die p = []) :
    let put := d.injection (d.ring.foldl (· + ·) 0)
    exec (.stationDelivery die) s = .next { s with dies := Tab.insert s.dies die { d with
      ring := (List.range 16).map (fun i => nth 0 d.ring ((i + 15) % 16) + (if i = 0 then put else 0))
      mintLeft := d.mintLeft - put } } := by
  intro put
  have hdie : s.die die = d := congrArg (·.getD Die.fresh) hd
  have hring : (List.range 16).map (fun i => nth 0 d.ring i) = d.ring := hlen ▸ map_nth_range d.ring
  show execStationDelivery die s = _
  have hidle : ∀ q ∈ (List.range 16).map (fun i => (i, nth 0 d.ring ((i + 15) % 16) + (if i = 0 then put else 0))),
      s.takers die q.1 = [] := by
    simp only [List.forall_mem_map, List.mem_range]
    exact h
  simp only [execStationDelivery, hdie, hring]
  rw [stations_idle (s.claimOpen die) hidle, modDie_of_find _ hd, List.map_map]
  rfl

/-! ## What a station gives -/

section Served

variable (claim : Option Nat) (n room : Nat)

/-- R334: a claim takes at most what it asks for, what is there and what there is room for. -/
theorem serveClaim_le : (serveClaim claim n room).1 ≤ claim.getD 0 ∧ (serveClaim claim n room).1 ≤ n ∧
    (serveClaim claim n room).1 ≤ room := by
  cases claim with
  | none => simp [serveClaim]
  | some m => simp only [serveClaim, Option.getD_some]; omega

/-- R334: a claim falls by what it got, and ends when it has got all. -/
theorem serveClaim_rest (m : Nat) : (serveClaim (some m) n room).2.getD 0 + min m (min n room) = m := by
  simp only [serveClaim]
  split
  · next hall => simpa only [Option.getD_none, Nat.zero_add] using hall
  · simp only [Option.getD_some]; omega

end Served

/-- R332: filling purses takes at most what is there. -/
theorem fillPurses_le (s : State) (ps : List Purse) (n : Nat) (done : List (Nat × Nat)) : (s.fillPurses ps n done).1 ≤ n := by
  induction ps generalizing s n done with
  | nil => exact Nat.le_refl n
  | cons p ps ih => exact Nat.le_trans (ih _ _ _) (Nat.sub_le n _)

/-- R332: filling purses leaves the cores whose purses they are not. -/
theorem fillPurses_core {ps : List Purse} {c : Nat} (s : State) (n : Nat) (done : List (Nat × Nat))
    (h : ∀ p ∈ ps, p.core ≠ c) : (s.fillPurses ps n done).2.core c = s.core c := by
  induction ps generalizing s n done with
  | nil => rfl
  | cons p ps ih =>
    obtain ⟨hp, hps⟩ := List.forall_mem_cons.1 h
    exact (ih _ _ _ hps).trans (modCore_other s hp.symm)

/-- R332: filling purses changes cores alone. -/
theorem fillPurses_frame (s : State) (ps : List Purse) (n : Nat) (done : List (Nat × Nat)) :
    (s.fillPurses ps n done).2.groups = s.groups ∧ (s.fillPurses ps n done).2.mem = s.mem := by
  induction ps generalizing s n done with
  | nil => exact ⟨rfl, rfl⟩
  | cons p ps ih => exact ih _ _ _

/-- Settles O44: the claims that open and %energy, the ring that nothing takes from, and the bounds of what a station gives. -/
theorem claimsAndRing : Obligations.ClaimsAndRing := by
  unfold Obligations.ClaimsAndRing
  refine ⟨fun s => ⟨fun core g price => claim_opens, fun core n => engineClaim_opens, ?energy⟩,
    fun s die d hd hlen h => stationDelivery_idle hd hlen h, ?served, ?fills, ?bounds⟩
  case energy =>
    intro ctx p hp
    have hacc := (settleInterval_eq p s.now).1
    exact ⟨p.settleMs s.now, congrArg Host.Outcome.next (modPart_of_part _ hp), (settleMs_energyAcc p s.now).trans hacc,
      fun hnew => hacc ▸ settleMs_new hnew, settleMs_same⟩
  case served =>
    intro c n
    have hpurse := serveClaim_le c.claim n 256
    have hengine := serveClaim_le c.engineClaim (n - (serveClaim c.claim n 256).1) (256 - (serveClaim c.claim n 256).1)
    simp only [Core.served]
    refine ⟨by omega, by omega, by omega, by omega, fun _ _ => by omega, fun m hm => ?_⟩
    rw [hm]
    exact serveClaim_rest n 256 m
  case fills =>
    intro s c n
    rfl
  case bounds =>
    intro s ps n done
    exact ⟨fillPurses_le s ps n done, fun c => fillPurses_core s n done, fillPurses_frame s ps n done⟩

end Sys2Proof.Proofs.Towpath
end

section
/-!
PROOFS. The rails, the states of a pound, the dispatch at its lock, and the droop detector.
-/

namespace Sys2Proof.Proofs.Power

open Sys2Proof Sys2Proof.Machine Sys2Proof.Laws

variable {s : State}

/-! ## The start of a change of the rails -/

/-- R418: the hub after a write of RAIL_CTL that is not ignored. -/
def railsWritten (h : Hub) (vec mat : BitVec 2) : Hub :=
  { h with
    railCtlVec := vec
    railCtlMat := mat
    railOldVec := h.railVec
    railOldMat := h.railMat
    railVec := if h.railVec < vec then vec else h.railVec
    railMat := if h.railMat < mat then mat else h.railMat
    railVecPending := vec != h.railVec
    railMatPending := mat != h.railMat
    railBusy := vec != h.railVec || mat != h.railMat }

/-- R418: a write of RAIL_CTL while a change is in progress is ignored. -/
theorem writeRail_busy (v : Word) (h : s.hub.railBusy = true) : s.writeRail v = s := if_pos h

/-- R418: beside the hub, a write of RAIL_CTL touches mints and counts of energy alone. -/
theorem writeRail_idle (v : Word) (h : s.hub.railBusy = false) :
    (s.writeRail v).hub = railsWritten s.hub (v.extractLsb' 0 2) (v.extractLsb' 8 2) ∧
      (s.writeRail v).mem = s.mem ∧ (s.writeRail v).groups = s.groups := by
  simp only [State.writeRail, h, Bool.false_eq_true, if_false]
  split <;> exact ⟨rfl, rfl, rfl⟩

/-! ## The end of a change of the rails -/

/-- Updates of the hub that agree on it leave the same state. -/
theorem modHub_congr {f f' : Hub → Hub} (h : f s.hub = f' s.hub) : s.modHub f = s.modHub f' :=
  congrArg (fun x => { s with hub := x }) h

/-- R418: the hub once a rail has reached its voltage. -/
def railSwitched (h : Hub) (vector : Bool) : Hub :=
  { h with
    railVec := if vector then h.railCtlVec else h.railVec
    railVecPending := if vector then false else h.railVecPending
    railMat := if vector then h.railMat else h.railCtlMat
    railMatPending := if vector then h.railMatPending else false }

/-- R418: the change ends with the last rail that reaches its voltage. -/
theorem railReached_eq (s : State) (vector : Bool) : s.railReached vector = s.modHub (fun h =>
    if (railSwitched h vector).railVecPending || (railSwitched h vector).railMatPending then railSwitched h vector
    else (railSwitched h vector).endRail s.intervalNow) := by
  cases vector <;> rfl

/-- R418: the last rail to reach its voltage ends the change. -/
theorem railReached_last {vector : Bool}
    (h : ((railSwitched s.hub vector).railVecPending || (railSwitched s.hub vector).railMatPending) = false) :
    s.railReached vector = s.modHub (fun h => (railSwitched h vector).endRail s.intervalNow) :=
  (railReached_eq s vector).trans (modHub_congr (if_neg (Bool.eq_false_iff.1 h)))

/-- R418: of two rails that change, either may be the first, and the change goes on. -/
theorem railReached_first (vector : Bool) (hv : s.hub.railVecPending = true) (hm : s.hub.railMatPending = true) :
    s.railReached vector = s.modHub (fun h => railSwitched h vector) := by
  have hpending : ((railSwitched s.hub vector).railVecPending || (railSwitched s.hub vector).railMatPending) = true := by
    cases vector
    · exact congrArg (· || false) hv
    · exact hm
  exact (railReached_eq s vector).trans (modHub_congr (if_pos hpending))

/-- R418: the vector rail alone has to change. -/
theorem railVoltageReached_vec (hv : s.hub.railVecPending = true) (hm : s.hub.railMatPending = false) :
    exec .railVoltageReached s = .next (s.modHub (fun h => (railSwitched h true).endRail s.intervalNow)) := by
  have hlast : s.railReached true = _ := railReached_last hm
  show execRailVoltageReached s = _
  simp only [execRailVoltageReached, hv, hm, Bool.and_false, Bool.false_eq_true, if_false, if_true, hlast]

/-- R418: the matrix rail alone has to change. -/
theorem railVoltageReached_mat (hv : s.hub.railVecPending = false) (hm : s.hub.railMatPending = true) :
    exec .railVoltageReached s = .next (s.modHub (fun h => (railSwitched h false).endRail s.intervalNow)) := by
  have hlast : s.railReached false = _ := railReached_last (congrArg (· || false) hv)
  show execRailVoltageReached s = _
  simp only [execRailVoltageReached, hv, hm, Bool.false_and, Bool.false_eq_true, if_false, if_true, hlast]

/-- R418: both rails have to change. -/
theorem railVoltageReached_both (hv : s.hub.railVecPending = true) (hm : s.hub.railMatPending = true) :
    exec .railVoltageReached s = .next (s.freeBool.2.modHub (fun h => railSwitched h s.freeBool.1)) := by
  have hfirst := railReached_first (s := s.freeBool.2) s.freeBool.1 hv hm
  show execRailVoltageReached s = _
  simp only [execRailVoltageReached, hv, hm, Bool.and_self, if_true, hfirst]

/-! ## A wake -/

section Wake

variable {key : Nat}

/-- A pound's TARGET is cleared. -/
def targetCleared (s : State) (key : Nat) : State := s.modPound key (fun q => { q with target := 0 })

/-- R422: a pound that runs, or is on its way to RUN, keeps its state. -/
theorem wakePound_awake (h : ((targetCleared s key).pound key).state = .run ∨
      ((targetCleared s key).pound key).state = .railon ∨ ((targetCleared s key).pound key).state = .clkon ∨
      ((targetCleared s key).pound key).state = .restore) : s.wakePound key = targetCleared s key := by
  rw [targetCleared] at h ⊢
  rcases h with h | h | h | h <;> simp only [State.wakePound, h]

/-- R422: a gating that still drains ends at once. -/
theorem wakePound_drain (h : ((targetCleared s key).pound key).state = .drain) :
    s.wakePound key = (targetCleared s key).reachRun key 3 := by
  rw [targetCleared] at h ⊢
  simp only [State.wakePound, h]

/-- R422: in QUIET, SAVE and RAILOFF a wake waits for the state to complete. -/
theorem wakePound_waits (h : ((targetCleared s key).pound key).state = .quiet ∨
      ((targetCleared s key).pound key).state = .save ∨ ((targetCleared s key).pound key).state = .railoff) :
    s.wakePound key = (targetCleared s key).modPound key (fun q => { q with waking := true }) := by
  rw [targetCleared] at h ⊢
  rcases h with h | h | h <;> simp only [State.wakePound, h]

/-- R422: from CLKOFF the clocks start. -/
theorem wakePound_clkoff (h : ((targetCleared s key).pound key).state = .clkoff) : s.wakePound key =
    (targetCleared s key).modPound key (fun q => { q with state := .clkon, waking := true }) := by
  rw [targetCleared] at h ⊢
  simp only [State.wakePound, h]

/-- R422: from OFF the rail starts. -/
theorem wakePound_off (h : ((targetCleared s key).pound key).state = .off) : s.wakePound key =
    (targetCleared s key).modPound key (fun q => { q with state := .railon, waking := true }) := by
  rw [targetCleared] at h ⊢
  simp only [State.wakePound, h]

end Wake

/-! ## Writes of PD_CTL and PD_WAKE -/

/-- R420: a write of PD_CTL sets AUTOIDLE, unless it writes zero, and AUTOTGT. -/
def pdConfigured (s : State) (key : Nat) (v : Word) : State :=
  s.modPound key (fun q => { q with
    autoidle := if v.extractLsb' 16 16 = 0 then q.autoidle else v.extractLsb' 16 16
    autotgt := v.extractLsb' 2 2 })

section Writes

variable {key : Nat} {v : Word}

/-- R420: TARGET 3 leaves the power state. -/
theorem writePdCtl_keeps (h : v.extractLsb' 0 2 = 3) : s.writePdCtl key v = pdConfigured s key v := if_pos h

/-- R420: TARGET 0 wakes. -/
theorem writePdCtl_wakes (h : v.extractLsb' 0 2 = 0) : s.writePdCtl key v = (pdConfigured s key v).wakePound key := by
  have hne : v.extractLsb' 0 2 ≠ 3 := by rw [h]; decide
  exact (if_neg hne).trans (if_pos h)

/-- R420, R422: TARGET 1 or 2 starts gating in a pound that runs. -/
theorem writePdCtl_gates (h : v.extractLsb' 0 2 = 1 ∨ v.extractLsb' 0 2 = 2) :
    let s2 := (pdConfigured s key v).modPound key (fun q => { q with target := v.extractLsb' 0 2 })
    s.writePdCtl key v = if (s2.pound key).state = .run then s2.beginGating key else s2 := by
  have hne : v.extractLsb' 0 2 ≠ 3 ∧ v.extractLsb' 0 2 ≠ 0 := by
    rcases h with h | h <;> rw [h] <;> decide
  exact (if_neg hne.1).trans (if_neg hne.2)

end Writes

/-! ## The states of a pound -/

/-- R421: what a pound comes to that completes a power state. -/
def completes (s : State) (key : Nat) : PoundState → Out
  | .run => .next s
  | .drain =>
    if !(s.pound key).lock then .next (s.commitGating key)
    else if s.poundDrained key then .next (s.beginQuiet key) else .next s
  | .quiet =>
    if (s.pound key).waking then .next (s.reachRun key 3).settleRestores
    else .next (s.modPound key (fun q => { q with state := .save }))
  | .save =>
    if (s.pound key).waking then .next ((s.endSave key).modPound key (fun q => { q with state := .restore }))
    else .next ((s.endSave key).beginClkoff key)
  | .clkoff => if (s.pound key).aim = 2 then .next (s.modPound key (fun q => { q with state := .railoff })) else .next s
  | .railoff =>
    if (s.pound key).waking then .next (s.modPound key (fun q => { q with state := .railon }))
    else
      let off := s.modPound key (fun q => { q with state := .off })
      .next (if (s.pound key).aim = 2 then off.ackPound key 1 else off)
  | .off => .next s
  | .railon => .next (s.modPound key (fun q => { q with state := .clkon }))
  | .clkon =>
    .next ((s.modPound key (fun q => { q with droop := false })).modPound key (fun q => { q with state := .restore }))
  | .restore => .next (s.endRestore key).settleRestores

section Pound

variable {die pound : Nat} (hd : die < 4) (hp : pound < 16)

include hd hp

/-- The number of a pound is one that the machine has. -/
theorem poundInRange : (decide (die < 4) && decide (pound < 16)) = true := by
  simp only [hd, hp, decide_true, Bool.and_self]

/-- R436: in steps 4 and 5 of its warm reset a die counts an error reply. -/
theorem pdWrite_down (v : BitVec 64) (hdown : s.dieDown die = true) :
    ∀ i ∈ ([.pdCtl die pound v, .pdWake die pound v] : List Instr),
      exec i s = .next (s.modDie die (fun x => { x with resetErrors := x.resetErrors + 1 })) := by
  have hcount : ∀ act, s.dieWrite die act = s.modDie die (fun x => { x with resetErrors := x.resetErrors + 1 }) :=
    fun _ => (if_pos hdown).trans (if_pos hdown)
  have hin := poundInRange hd hp
  exact List.forall_mem_cons.2 ⟨(if_pos hin).trans (congrArg _ (hcount _)),
    List.forall_mem_singleton.2 ((if_pos hin).trans (congrArg _ (hcount _)))⟩

/-- R420: a write of PD_CTL that the die takes. -/
theorem exec_pdCtl {v : BitVec 64} {a : State} (hup : s.dieDown die = false)
    (ha : s.writePdCtl (die * 16 + pound) v = a) : exec (.pdCtl die pound v) s = .next a.settleRestores :=
  ha ▸ (if_pos (poundInRange hd hp)).trans (congrArg _ (if_neg (Bool.eq_false_iff.1 hup)))

/-- R420: a write of PD_WAKE that the die takes. -/
theorem exec_pdWake {v : BitVec 64} {a : State} (hup : s.dieDown die = false)
    (ha : s.writePdWake (die * 16 + pound) v = a) : exec (.pdWake die pound v) s = .next a.settleRestores :=
  ha ▸ (if_pos (poundInRange hd hp)).trans (congrArg _ (if_neg (Bool.eq_false_iff.1 hup)))

/-- R421: automatic gating. -/
theorem autoidle_starts :
    let key := die * 16 + pound
    let p := s.pound key
    p.state = .run → p.autotgt = 1 ∨ p.autotgt = 2 → s.poundTeams key = [] → p.blocks = [] →
      p.idleSince + p.autoidle.toNat * 1000 ≤ s.now → exec (.autoidleExpiry die pound) s = .next (s.beginGating key) := by
  intro key p hrun htgt hteams hblocks hidle
  refine if_pos ?_
  simp only [Bool.and_eq_true, Bool.or_eq_true, decide_eq_true_eq, List.isEmpty_iff]
  exact ⟨⟨⟨⟨⟨⟨hd, hp⟩, hrun⟩, htgt⟩, hteams⟩, hblocks⟩, hidle⟩

/-- R421: a pound completes the state in which it is. -/
theorem exec_poundStateComplete {st : PoundState} (h : (s.pound (die * 16 + pound)).state = st) :
    exec (.poundStateComplete die pound) s = completes s (die * 16 + pound) st := by
  have hin : (!(decide (die < 4) && decide (pound < 16))) = false := by rw [poundInRange hd hp]; rfl
  subst h
  exact if_neg (Bool.eq_false_iff.1 hin)

/-! ## The dispatch at a lock -/

/-- R337: only a real dispatch of a cluster or of a later run of a check meets the admit lock. -/
theorem exec_dispatchAtLock : let key := die * 16 + pound
    let dispatched := (∃ c ∈ s.clusters, s.dispatches key c.2 = true) ∨ ∃ c ∈ s.checks, s.runDispatches key c.2 = true
    (¬dispatched → exec (.dispatchAtLock die pound) s = .next s) ∧
      (dispatched → ∀ a, s.dispatchAt key = a → exec (.dispatchAtLock die pound) s = .next a.settleRestores) := by
  intro key dispatched
  have hreal : (decide (die < 4) && decide (pound < 16) && (s.clusters.any (fun c => s.dispatches key c.2) ||
      s.checks.any (fun c => s.runDispatches key c.2))) = true ↔ dispatched := by
    rw [poundInRange hd hp, Bool.true_and, Bool.or_eq_true, List.any_eq_true, List.any_eq_true]
  exact ⟨fun hno => if_neg (mt hreal.1 hno), fun hyes _ ha => ha ▸ if_pos (hreal.2 hyes)⟩

end Pound

/-- R337: a dispatch to a pound that runs changes nothing. -/
theorem dispatchAt_run {key : Nat} (h : (s.pound key).state = .run) : s.dispatchAt key = s := by
  simp only [State.dispatchAt, h]

/-- R337: a gating whose lock is open is cancelled. -/
theorem dispatchAt_open {key : Nat} (h : (s.pound key).state = .drain) (hopen : (s.pound key).lock = false) :
    s.dispatchAt key = s.cancelGating key := by
  simp only [State.dispatchAt, h, hopen, Bool.false_eq_true, if_false]

/-- R422: a gating beyond that is reversed by a wake. -/
theorem dispatchAt_closed {key : Nat} (h : (s.pound key).state ≠ .run)
    (hclosed : (s.pound key).state = .drain → (s.pound key).lock = true) : s.dispatchAt key = s.wakePound key := by
  unfold State.dispatchAt
  split
  · next hrun => exact absurd hrun h
  · next hdrain => exact if_pos (hclosed hdrain)
  · rfl

/-! ## Droop -/

/-- R335, R419: a detector that fires. -/
theorem droopFire_counts {die pound : Nat} (hd : die < 4) (hp : pound < 16)
    (h : (s.pound (die * 16 + pound)).detects = true) :
    exec (.droopFire die pound) s = .next (s.modPound (die * 16 + pound) (fun q =>
      { q with droop := true, droopSince := s.now
               droops := if q.droops = 0xFFFFFFFF#32 then q.droops else q.droops + 1 })) :=
  if_pos (Bool.and_eq_true_iff.2 ⟨poundInRange hd hp, h⟩)

/-- R335: the droop ends. -/
theorem droopHold_ends {die pound : Nat} :
    let key := die * 16 + pound
    (s.pound key).droop = true → (s.pound key).droopSince + (s.pound key).hold.toNat * 1000 ≤ s.now →
      exec (.droopHoldExpiry die pound) s = .next (s.modPound key (fun q => { q with droop := false })) :=
  fun hdroop hhold => if_pos (Bool.and_eq_true_iff.2 ⟨hdroop, decide_eq_true hhold⟩)

/-! ## The statement -/

/-- Settles O59: the rails by the ends of their changes, a pound by its power state, and the droop detector. -/
theorem powerAndRails : Obligations.PowerAndRails := by
  unfold Obligations.PowerAndRails
  intro s
  refine ⟨?railCtl, ⟨?railVec, ?railMat, railVoltageReached_both⟩, ?pounds⟩
  case railCtl =>
    intro v
    refine ⟨fun hbusy => congrArg Host.Outcome.next (writeRail_busy v hbusy), fun hidle => ?_⟩
    obtain ⟨hhub, hmem, hgroups⟩ := writeRail_idle v hidle
    refine ⟨s.writeRail v, rfl, ?_⟩
    rw [hhub]
    refine ⟨rfl, rfl, ?_, bne_iff_ne, bne_iff_ne, fun h => if_pos h, fun h => if_neg (BitVec.not_lt.2 h), ⟨rfl, rfl⟩,
      fun h => if_pos h, fun h => if_neg (BitVec.not_lt.2 h), hmem, hgroups⟩
    simp only [railsWritten, Bool.or_eq_true, bne_iff_ne]
  case railVec => exact railVoltageReached_vec
  case railMat => exact railVoltageReached_mat
  case pounds =>
    intro die pound hd hp
    have step {st : PoundState} := exec_poundStateComplete (s := s) hd hp (st := st)
    obtain ⟨hno, hdispatch⟩ := exec_dispatchAtLock (s := s) hd hp
    refine ⟨pdWrite_down hd hp, ?pdCtl, ?pdWake, autoidle_starts hd hp, ?still, ?drain, ?quiet, ?save, ?clkoff, ?railoff,
      step, step, step, ?dispatch, droopFire_counts hd hp, droopHold_ends⟩
    case pdCtl =>
      intro v hup
      have hx {a : State} := exec_pdCtl hd hp (v := v) (a := a) hup
      exact ⟨fun h => hx (writePdCtl_keeps h), fun h => hx (writePdCtl_wakes h), fun h =>
        ⟨fun hst => hx ((writePdCtl_gates h).trans (if_neg hst)), fun hst => hx ((writePdCtl_gates h).trans (if_pos hst))⟩⟩
    case pdWake =>
      intro v hup
      have hx {a : State} := exec_pdWake hd hp (v := v) (a := a) hup
      refine ⟨fun hbit => hx (if_neg (Bool.eq_false_iff.1 hbit)), fun hbit => ?_⟩
      have hwake : s.writePdWake (die * 16 + pound) v = s.wakePound (die * 16 + pound) := if_pos hbit
      exact ⟨fun h => hx (hwake.trans (wakePound_awake h)), fun h => hx (hwake.trans (wakePound_drain h)),
        fun h => hx (hwake.trans (wakePound_waits h)), fun h => hx (hwake.trans (wakePound_clkoff h)),
        fun h => hx (hwake.trans (wakePound_off h))⟩
    case still => exact fun h => h.elim step step
    case drain =>
      intro h
      have hclosed (hlock : (s.pound (die * 16 + pound)).lock = true) := (step h).trans (if_neg (by rw [hlock]; decide))
      exact ⟨fun hlock => (step h).trans (if_pos (by rw [hlock]; rfl)),
        fun hlock hdrained => (hclosed hlock).trans (if_pos hdrained),
        fun hlock hdrained => (hclosed hlock).trans (if_neg (Bool.eq_false_iff.1 hdrained))⟩
    case quiet =>
      exact fun h => ⟨fun hw => (step h).trans (if_pos hw), fun hw => (step h).trans (if_neg (Bool.eq_false_iff.1 hw))⟩
    case save =>
      exact fun h => ⟨fun hw => (step h).trans (if_pos hw), fun hw => (step h).trans (if_neg (Bool.eq_false_iff.1 hw))⟩
    case clkoff => exact fun h => ⟨fun haim => (step h).trans (if_pos haim), fun haim => (step h).trans (if_neg haim)⟩
    case railoff =>
      intro h
      have hoff (hw : (s.pound (die * 16 + pound)).waking = false) := (step h).trans (if_neg (Bool.eq_false_iff.1 hw))
      exact ⟨fun hw => (step h).trans (if_pos hw), fun hw haim => (hoff hw).trans (congrArg _ (if_pos haim)),
        fun hw haim => (hoff hw).trans (congrArg _ (if_neg haim))⟩
    case dispatch =>
      rintro _ rfl
      exact ⟨hno, fun hyes => ⟨fun h => hdispatch hyes _ (dispatchAt_run h),
        fun h hopen => hdispatch hyes _ (dispatchAt_open h hopen),
        fun h hclosed => hdispatch hyes _ (dispatchAt_closed h hclosed)⟩⟩

end Sys2Proof.Proofs.Power
end

section
/-!
PROOFS. How checks end, and the bytes of the signed health record.
-/

namespace Sys2Proof.Proofs.Sluice

open Sys2Proof Sys2Proof.Machine Sys2Proof.Laws Sys2Proof.Proofs

variable {s : State} {k : Nat} {c : Check}

/-! ## The resolution of a check -/

/-- R349: two runs match where both their signatures are equal. -/
theorem matchesRun_iff {a b : Run} : a.matchesRun b = true ↔ a.storeSig = b.storeSig ∧ a.regSig = b.regSig := by
  simp [Run.matchesRun]

theorem matchesRun_eq_false_iff {a b : Run} :
    a.matchesRun b = false ↔ ¬(a.storeSig = b.storeSig ∧ a.regSig = b.regSig) := by
  rw [← matchesRun_iff, Bool.not_eq_true]

section Resolve

variable {a b t : Run} {rest : List Run}

/-- R317: the replica of a check of no pair has exited and matches. -/
theorem resolveTwo_match (hpair : c.pair = none) (hruns : c.runs = a :: b :: rest) (hab : a.matchesRun b = true) :
    s.resolveTwo k c = s.resolveMatch k c := by
  simp [State.resolveTwo, State.pairOf, Check.replicaMatches, hpair, hruns, hab]

/-- R347: the replica of a check of no pair has exited and differs. -/
theorem resolveTwo_differ (hpair : c.pair = none) (hruns : c.runs = a :: b :: rest) (hab : a.matchesRun b = false) :
    s.resolveTwo k c = s.toVote k := by
  simp [State.resolveTwo, State.pairOf, Check.replicaMatches, hpair, hruns, hab]

/-- R355: the outcomes of three runs, in the order in which they are compared. -/
theorem resolveThree_eq (hruns : c.runs = a :: b :: t :: rest) : s.resolveThree k c =
    if a.matchesRun b then s.resolveMatch k c
    else if t.matchesRun a then s.resolveVote k c 0 1
    else if t.matchesRun b then s.resolveVote k c 1 0
    else s.resolveNonRepro k c := by
  simp only [State.resolveThree, hruns]

end Resolve

/-! ## The events of a check -/

section Events

variable (hk : s.check k = some c)
include hk

/-- R353: a perturbed check ends unchecked. -/
theorem checkResolve_perturbed (hp : c.perturbed = true) :
    exec (.checkResolve k) s = .next ((s.endUnchecked k 4).advanceLaunch c.launch) := by
  show execCheckResolve k s = _
  simp only [execCheckResolve, hk, hp, if_true]

/-- R347: the replica of an unperturbed check has exited. -/
theorem checkResolve_replay (hp : c.perturbed = false) (hstate : c.state = .replay) (hexit : c.runExited 1 = true) :
    exec (.checkResolve k) s = .next ((s.resolveTwo k c).advanceLaunch c.launch) := by
  show execCheckResolve k s = _
  simp only [execCheckResolve, hk, hp, hstate, hexit, Bool.false_eq_true, if_false, if_true]

/-- R355: the third run of an unperturbed check has exited. -/
theorem checkResolve_vote (hp : c.perturbed = false) (hstate : c.state = .vote) (hexit : c.runExited 2 = true) :
    exec (.checkResolve k) s = .next ((s.resolveThree k c).advanceLaunch c.launch) := by
  show execCheckResolve k s = _
  simp only [execCheckResolve, hk, hp, hstate, hexit, Bool.false_eq_true, if_false, if_true]

/-- R353: what ending a check unchecked does. -/
theorem endUnchecked_eq (counter : Nat) : s.endUnchecked k counter =
    (((s.commitRun k 0).countHealth c.die 0).countHealth c.die counter).freeCheck k := by
  simp only [State.endUnchecked, hk]

/-- R342: HOLDMAX has run out since the original's exit. -/
theorem timeout_exposes {t : Nat} {l : Launch} (hexit : c.exitedAt = some t) (hl : s.launch c.launch = some l)
    (hpolicy : s.policyOf k = 2) (hout : c.timedOut = false) (hp : c.perturbed = false)
    (hnow : t + 1000 * l.record.holdmax.toNat ≤ s.now) : exec (.timeout k) s =
      .next (((s.exposeHeld k).modCheck k (fun x => { x with timedOut := true })).countHealth c.die 5) := by
  have hdue : (decide (s.policyOf k = 2) && !c.timedOut && !c.perturbed &&
      decide (t + 1000 * l.record.holdmax.toNat ≤ s.now)) = true := by
    simp [hpolicy, hout, hp, hnow]
  show execTimeout k s = _
  simp only [execTimeout, hk, hexit, hl, hdue, if_true]

end Events

/-- Settles O51: the event by the check's mark and state, then by which of its runs match. -/
theorem checksResolve : Obligations.ChecksResolve := by
  unfold Obligations.ChecksResolve
  intro s k c hk
  simp only [← matchesRun_iff, Bool.not_eq_true]
  refine ⟨?perturbed, ?replay, ?vote, fun t l => timeout_exposes hk⟩
  case perturbed =>
    intro hp
    rw [checkResolve_perturbed hk hp, endUnchecked_eq hk]
  case replay =>
    intro hp hstate hpair a b rest hruns hexit
    have hexited : c.runExited 1 = true := by simpa [Check.runExited, hruns] using hexit
    rw [checkResolve_replay hk hp hstate hexited]
    exact ⟨fun hab => by rw [resolveTwo_match hpair hruns hab]; rfl,
      fun hab => by rw [resolveTwo_differ hpair hruns hab]; rfl⟩
  case vote =>
    intro hp hstate a b t rest hruns hexit
    have hexited : c.runExited 2 = true := by simpa [Check.runExited, hruns] using hexit
    rw [checkResolve_vote hk hp hstate hexited, resolveThree_eq hruns]
    refine ⟨fun hab => ?_, fun hab hta => ?_, fun hab hta htb => ?_, fun hab hta htb => ?_⟩
    · rw [if_pos hab]; rfl
    · simp only [hab, hta, Bool.false_eq_true, if_false, if_true]; rfl
    · simp only [hab, hta, htb, Bool.false_eq_true, if_false, if_true]; rfl
    · simp only [hab, hta, htb, Bool.false_eq_true, if_false]

/-! ## The health record -/

/-- Equally long parts in a row. -/
theorem length_flatten_map {α β : Type} {f : α → List β} {n : Nat} (l : List α) (h : ∀ x ∈ l, (f x).length = n) :
    (l.map f).flatten.length = l.length * n := by
  induction l with
  | nil => exact (Nat.zero_mul n).symm
  | cons x xs ih =>
    have htail := ih fun y hy => h y (List.mem_cons_of_mem x hy)
    rw [List.map_cons, List.flatten_cons, List.length_append, h x List.mem_cons_self, htail, List.length_cons,
      Nat.succ_mul, Nat.add_comm]

/-- R366: an item of every die. -/
theorem length_perDie (s : State) {f : Die → List Byte} {n : Nat} (h : ∀ d, (f d).length = n) :
    (s.perDie f).length = 4 * n :=
  length_flatten_map [0, 1, 2, 3] fun d _ => h (s.die d)

/-- R368: an event entry. -/
@[simp] theorem length_healthEvent_bytes (e : HealthEvent) : e.bytes.length = 32 := by
  simp [HealthEvent.bytes]

/-- R366: the fields before the per-site items take 64 bytes, all fields but the events 3,072. -/
theorem length_healthBytes (s : State) : s.healthBytes.length =
    3072 + (s.hub.events.length * 32 + (928 - s.hub.events.length * 32)) := by
  have hevents : (s.hub.events.map HealthEvent.bytes).flatten.length = s.hub.events.length * 32 :=
    length_flatten_map _ fun e _ => length_healthEvent_bytes e
  have hsites (d : Die) : ((List.range 144).map (fun i => leBytes 4 (d.siteEntry i).toNat)).flatten.length = 576 :=
    (length_flatten_map _ fun _ _ => length_leBytes ..).trans (by simp)
  have hcounters (d : Die) : ((List.range 8).map (fun i => leBytes 8 (nth 0 d.counters i))).flatten.length = 64 :=
    (length_flatten_map _ fun _ _ => length_leBytes ..).trans (by simp)
  simp only [State.healthBytes, List.length_append, length_leBytes, length_wordBytes, List.length_replicate, hevents,
    length_perDie s hsites, length_perDie s hcounters, length_perDie s fun _ => length_leBytes _ _]
  omega

/-- R366: LASTSEQ follows the format, a zero word and the serial number. -/
theorem healthBytes_lastSeq (s : State) : ∃ rest, s.healthBytes =
    (leBytes 4 1 ++ leBytes 4 0 ++ wordBytes 8 s.hub.serial) ++ (leBytes 8 s.hub.lastSeq ++ rest) := by
  simp only [State.healthBytes, List.append_assoc]
  exact ⟨_, rfl⟩

/-- R366: bytes 0x10 to 0x17 are LASTSEQ. -/
theorem leNat_healthBytes_lastSeq (s : State) :
    leNat ((s.healthBytes.drop 0x10).take 8) = s.hub.lastSeq % 2 ^ 64 := by
  obtain ⟨rest, h⟩ := healthBytes_lastSeq s
  rw [h, List.drop_left' (by simp), List.take_left' (by simp)]
  exact leNat_leBytes 8 s.hub.lastSeq

/-- R369: the signature of a record, in the 96 bytes that it takes. -/
def recordSignature (body : List Byte) : List Byte := (Config.sign body ++ List.replicate 96 0).take 96

theorem length_recordSignature (body : List Byte) : (recordSignature body).length = 96 := by
  simp [recordSignature]

/-- R369, R416: the new snapshot is the record and its signature. -/
theorem healthRecordSign_eq (s : State) : exec .healthRecordSign s = .next (s.modHub (fun h => { h with
    snapshots := ({ lastSeq := s.hub.lastSeq, bytes := s.healthBytes ++ recordSignature s.healthBytes } ::
      h.snapshots).take 2 })) := rfl

/-- Settles O53: the snapshot is the record and 96 bytes of signature; the record's length is the sum of its fields'. -/
theorem signedRecord : Obligations.SignedRecord := by
  unfold Obligations.SignedRecord
  intro s
  refine ⟨⟨s.healthBytes ++ recordSignature s.healthBytes, healthRecordSign_eq s, List.take_left, ?_⟩, fun h => ?_, leNat_healthBytes_lastSeq s⟩
  · rw [List.length_append, length_recordSignature]
  · have hlen := length_healthBytes s
    omega

end Sys2Proof.Proofs.Sluice
end

section
/-!
PROOFS. Reset and the platform: the state after reset, the binding of queues.
-/

namespace Sys2Proof.Proofs.Platform
open Sys2Proof Sys2Proof.Machine Sys2Proof.Laws Sys2Proof.Proofs

/-! ## Queues -/

section Queues
variable (s : State) {q : Nat} {v : BitVec 64}

/-- R435: the binding that a write of Q_BIND gives an empty queue. -/
def boundBy (x : Queue) (v : BitVec 64) : Queue :=
  { x with ctx := (if v.getLsbD 63 then some (v.toNat % 256) else none), bindCtx := v.extractLsb' 0 8, drop := 0 }

theorem qBind_of_waiting (hq : q < 64) (h : (s.queue q).fifo ≠ []) : exec (.qBind q v) s = .next s := by
  show execQBind q v s = _
  simp [execQBind, State.bindQueue, hq, h]

theorem qBind_of_empty (hq : q < 64) (h : (s.queue q).fifo = []) :
    exec (.qBind q v) s = .next (s.modQueue q (fun _ => boundBy (s.queue q) v)) := by
  have hctx : (v.extractLsb' 0 8).toNat = v.toNat % 256 := by simp
  show execQBind q v s = _
  simp only [execQBind, State.bindQueue, hq, h, List.isEmpty_nil, if_true, hctx]
  rfl

theorem modQueue_queue {f : Queue → Queue} (h : Tab.wf {} s.hub.queues = true) : (s.modQueue q f).queue q = f (s.queue q) :=
  tab_read_write_self (Bool.and_eq_true _ _ ▸ h).1

/-- R424: the Q_BIND register of a queue. -/
theorem readHubReg_qBind (hq : q < 64) : s.readHubReg (0x600 + 8 * q) = (s.queue q).bindWord := by
  have hoff : (0x600 + 8 * q - 0x600) / 8 = q := by omega
  unfold State.readHubReg
  grind

/-- R435: EN in bit 63, CTX in bits [7:0], the rest zero. -/
theorem bindWord_eq (x : Queue) : x.bindWord = (BitVec.ofBool x.ctx.isSome ++ 0#55 ++ x.bindCtx : BitVec 64) := by
  apply BitVec.eq_of_toNat_eq
  have hlt := x.bindCtx.isLt
  unfold Queue.bindWord
  rw [BitVec.toNat_append, ← Nat.shiftLeft_add_eq_or_of_lt hlt]
  cases x.ctx.isSome
  · simp [natOf]; omega
  · simp [natOf]; omega

/-- Bit 63 of a word as one bit. -/
theorem ofBool_getLsbD_63 (v : BitVec 64) : BitVec.ofBool (v.getLsbD 63) = v.extractLsb' 63 1 := by
  ext i hi
  obtain rfl : i = 0 := by omega
  simp

end Queues

/-- Settles O57: by whether launches wait in the queue. -/
theorem queueBinding : Obligations.QueueBinding := by
  unfold Obligations.QueueBinding
  intro s q v hq
  refine ⟨qBind_of_waiting s hq, fun hempty => ?_, by rw [readHubReg_qBind s hq, bindWord_eq]⟩
  refine ⟨qBind_of_empty s hq hempty, fun hwf => ?_⟩
  have hb := modQueue_queue s (q := q) (f := fun _ => boundBy (s.queue q) v) hwf
  refine ⟨hb, ?_⟩
  show (s.modQueue q fun _ => boundBy (s.queue q) v).readHubReg _ = _
  rw [readHubReg_qBind _ hq, hb, bindWord_eq]
  have hen : (boundBy (s.queue q) v).ctx.isSome = v.getLsbD 63 := by
    unfold boundBy
    cases v.getLsbD 63 <;> rfl
  rw [hen, ofBool_getLsbD_63]
  rfl

/-- Settles O6: the fields of the state after reset. -/
theorem resetState : Obligations.ResetState := by
  unfold Obligations.ResetState
  refine ⟨⟨firmwareGroup, rfl, rfl, rfl, rfl, rfl, rfl, rfl, rfl, rfl, fun r => ?_, fun r l => rfl⟩, rfl, rfl, rfl, fun d => ?_, fun k => ⟨rfl, rfl⟩, rfl, rfl, ?_⟩
  · unfold Group.s
    split <;> rfl
  · match d with
    | 0 | 1 | 2 | 3 => rfl
    | d + 4 => rfl
  · decide

end Sys2Proof.Proofs.Platform
end

section
/-!
PROOFS. Cold reset, recovery and the firmware update, and the warm reset of a die.
-/

namespace Sys2Proof.Proofs.Resets
open Sys2Proof Sys2Proof.Machine Sys2Proof.Laws Sys2Proof.Proofs

/-! ## Recovery -/

/-- The bytes that reach the recovery buffer. -/
def bufferWrites (off : Nat) (bs : List Byte) : List (Nat × Byte) :=
  (atAddr off bs).filter (fun p => decide (p.1 < rcvSize))

theorem mem_bufferWrites {off i : Nat} {bs : List Byte} (hi : i < 2 ^ 25) (hlo : off ≤ i) (hhi : i < off + bs.length) :
    (i, nth 0 bs (i - off)) ∈ bufferWrites off bs := by
  refine List.mem_filter.2 ⟨mem_atAddr.2 ⟨i - off, by omega, ?_⟩, decide_eq_true hi⟩
  rw [Nat.add_sub_cancel' hlo]

theorem bufferWrites_ne {off i : Nat} {bs : List Byte} (hi : ¬(off ≤ i ∧ i < off + bs.length)) :
    ∀ p ∈ bufferWrites off bs, p.1 ≠ i := by
  intro p hp
  obtain ⟨j, hj, rfl⟩ := mem_atAddr.1 (List.mem_filter.1 hp).1
  show off + j ≠ i
  omega

theorem bufferWrites_nodup (off : Nat) (bs : List Byte) : ((bufferWrites off bs).map Prod.fst).Nodup :=
  (atAddr_nodup off bs).sublist (List.filter_sublist.map Prod.fst)

/-- R429: what stands in the buffer after bytes are put into it, which it takes as memory does. -/
theorem read_fillBuffer {h : Hub} {off i : Nat} {bs : List Byte} (hw : Tab.wf 0 h.rcvBuffer = true) (hi : i < 2 ^ 25) :
    Tab.read 0 (h.fillBuffer off bs).rcvBuffer i =
      if off ≤ i ∧ i < off + bs.length then nth 0 bs (i - off) else Tab.read 0 h.rcvBuffer i := by
  let s : State := { ({} : State) with mem := h.rcvBuffer }
  split
  · next hin => exact setBytes_byte (s := s) (bufferWrites_nodup off bs) hw (mem_bufferWrites hi hin.1 hin.2)
  · next hout => exact setBytes_other s (bufferWrites_ne hout)

/-- R400, R429: the host reads the buffer from 0x1000000 on in the recovery layout. -/
theorem barByte_buffer {s : State} {i : Nat} (hb : s.hub.boot = .recovery) (hi : i < 2 ^ 25) :
    s.barByte (0x1000000 + i) = Tab.read 0 s.hub.rcvBuffer i := by
  unfold State.barByte
  rw [hb, if_neg (by omega), Nat.add_sub_cancel_left]
  have h1 : (decide (0x300008 ≤ 0x1000000 + i) && decide (0x1000000 + i < 0x300010)) = false := by simp; omega
  have h2 : (decide (0x1000000 ≤ 0x1000000 + i) && decide (0x1000000 + i < 0x3000000)) = true := by simp; omega
  simp only [h1, h2, Bool.false_eq_true, if_false, if_true]

theorem rcvGo_buffer {s : State} {off : Nat} {bs : List Byte} (hb : s.hub.boot = .recovery) :
    exec (.rcvGo (.buffer off bs)) s = .next (s.modHub (fun h => h.fillBuffer off bs)) := by
  show execRcvGo _ s = _
  simp only [execRcvGo, hb]

theorem rcvGo_go {s : State} {len : BitVec 64} (hb : s.hub.boot = .recovery) (hr : s.hub.rcvStat ≠ 1) :
    exec (.rcvGo (.go len)) s = .next { s.modHub (fun h => { h with rcvStat := 1, rcvImage := h.bufferImage len.toNat }) with
      agenda := .rcvGo (.go len) :: s.agenda } := by
  show execRcvGo _ s = _
  simp only [execRcvGo, hb, if_neg hr]
  rfl

theorem rcvGo_verified {s : State} {len : BitVec 64} (hb : s.hub.boot = .recovery) (hr : s.hub.rcvStat = 1) :
    exec (.rcvGo (.go len)) s = .next s.endRecovery := by
  show execRcvGo _ s = _
  simp only [execRcvGo, hb, if_pos hr]

theorem rcvGo_running {s : State} {w : RecoveryWrite} (hb : s.hub.boot = .running) : exec (.rcvGo w) s = .next s := by
  show execRcvGo _ s = _
  simp only [execRcvGo, hb]

theorem endRecovery_valid {s : State} {x : FirmwareImage} (hx : s.hub.rcvImage = some x) (hv : imageValid x = true) :
    s.endRecovery = ((s.modHub (fun h => { h with rcvImage := none })).modHub (fun h => { h with flash := some x })).bootFlash := by
  simp only [State.endRecovery, hx, hv, if_true]

theorem endRecovery_invalid {s : State} (hx : ∀ x, s.hub.rcvImage = some x → imageValid x = false) :
    s.endRecovery = (s.modHub (fun h => { h with rcvImage := none })).modHub (fun h => { h with rcvStat := 2 }) := by
  unfold State.endRecovery
  split
  · next x hi => simp only [hx x hi, Bool.false_eq_true, if_false]
  · rfl

/-! ## Images -/

/-- A field of an image's header is the one of the image. -/
theorem field_take {bs : List Byte} {off n : Nat} (h : off + n ≤ 256) :
    field (bs.take 256) off n = leNat ((bs.drop off).take n) := by
  rw [field, List.drop_take, List.take_take, Nat.min_eq_left (by omega)]

theorem imageOf_eq_none {bs : List Byte} (h : bs.length < 256 ∨ leNat ((bs.drop 16).take 8) ≠ bs.length) :
    imageOf bs = none := by
  rw [← field_take (by decide)] at h
  simp [imageOf, h]

theorem imageOf_eq_some {bs : List Byte} (h : 256 ≤ bs.length) (hlen : leNat ((bs.drop 16).take 8) = bs.length) :
    ∃ i, imageOf bs = some i ∧ i.magic = BitVec.ofNat 64 (leNat (bs.take 8)) ∧
      i.version = BitVec.ofNat 64 (leNat ((bs.drop 8).take 8)) ∧ i.length = BitVec.ofNat 64 bs.length ∧
      i.entry = BitVec.ofNat 64 (leNat ((bs.drop 24).take 8)) ∧ i.digest = Config.digest (bs.take 128 ++ bs.drop 256) ∧
      i.signature = BitVec.ofNat 768 (leNat ((bs.drop 128).take 96)) := by
  have hfield : field (bs.take 256) 16 8 = bs.length := (field_take (by decide)).trans hlen
  have hbad : ¬(decide (bs.length < 256) || decide (field (bs.take 256) 16 8 ≠ bs.length)) = true := by
    simp [hfield, h]
  unfold imageOf
  dsimp only
  refine ⟨_, if_neg hbad, ?_, ?_, ?_, ?_, ?_, ?_⟩
  · exact congrArg (BitVec.ofNat 64) (field_take (by decide))
  · exact congrArg (BitVec.ofNat 64) (field_take (by decide))
  · exact congrArg (BitVec.ofNat 64) hfield
  · exact congrArg (BitVec.ofNat 64) (field_take (by decide))
  · exact congrArg (fun h => Config.digest (h ++ bs.drop 256)) List.take_take
  · exact congrArg (BitVec.ofNat 768) (field_take (by decide))

/-- R429: what the buffer holds of an image. -/
def bufferBytes (h : Hub) (len : Nat) : List Byte := (List.range len).map (fun i => Tab.read 0 h.rcvBuffer i)

@[simp] theorem bufferBytes_length {h : Hub} {len : Nat} : (bufferBytes h len).length = len := by simp [bufferBytes]

theorem bufferImage_of_fits {h : Hub} {len : Nat} (hl : len ≤ 2 ^ 25) : h.bufferImage len = imageOf (bufferBytes h len) :=
  if_neg (Nat.not_lt.2 hl)

theorem bufferImage_eq_none {h : Hub} {len : Nat}
    (hl : 2 ^ 25 < len ∨ len < 256 ∨ leNat (((bufferBytes h len).drop 16).take 8) ≠ len) : h.bufferImage len = none := by
  rcases Nat.lt_or_ge (2 ^ 25) len with hbig | hfits
  · exact if_pos hbig
  · rw [bufferImage_of_fits hfits]
    refine imageOf_eq_none ?_
    rw [bufferBytes_length]
    exact hl.resolve_left (by omega)

/-! ## Cold reset and update -/

theorem coldReset_unstaged {s : State} (h : s.hub.staged = none) : exec .coldReset s = .next s.cleared.bootFlash := by
  have hc : s.cleared.hub.staged = none := h
  show execColdReset s = _
  simp only [execColdReset, hc]

theorem coldReset_staged {s : State} {i : FirmwareImage} (h : s.hub.staged = some i) :
    exec .coldReset s = .next (s.cleared.modHub (fun h => { h with
      flash := (if imageValid i then some i else h.flash), staged := none })).bootFlash := by
  have hc : s.cleared.hub.staged = some i := h
  show execColdReset s = _
  simp only [execColdReset, hc]

theorem fwUpdCmd_valid {s t : State} {i : FirmwareImage}
    (h : s.imageAt s.hub.fwAddr.toNat s.hub.fwLen.toNat = (some i, t)) (hv : imageValid i = true) :
    exec (.fwUpdCmd 1) s = .next ((t.modHub (fun h => { h with staged := some i, fwStat := 1 })).raiseIrq 6) := by
  show execFwUpdCmd 1 s = _
  simp [execFwUpdCmd, State.writeFwUpdate, h, Option.filter, hv]

theorem fwUpdCmd_invalid {s t : State} {image : Option FirmwareImage}
    (h : s.imageAt s.hub.fwAddr.toNat s.hub.fwLen.toNat = (image, t)) (hv : ∀ i, image = some i → imageValid i = false) :
    exec (.fwUpdCmd 1) s = .next ((t.modHub (fun h => { h with fwStat := 2 })).raiseIrq 6) := by
  have hnone : image.filter imageValid = none := Option.filter_eq_none_iff.2 fun i hi => by simp [hv i hi]
  show execFwUpdCmd 1 s = _
  simp [execFwUpdCmd, State.writeFwUpdate, h, hnone]

theorem fwUpdCmd_other {s : State} {v : BitVec 64} (hv : v ≠ 1) : exec (.fwUpdCmd v) s = .next s :=
  congrArg Host.Outcome.next (if_neg hv)

/-! ## Warm reset of a die -/

theorem drCtl_ignored {s : State} {die : Nat} {v : BitVec 64} (h : v ≠ 1 ∨ ∃ p ∈ s.dies, p.2.resetStep ≠ 0) :
    exec (.drCtl die v) s = .next s := by
  have hno : ¬(v = 1 && decide (die < 4) && s.dies.all (fun p => p.2.resetStep = 0)) = true := by
    simp only [Bool.and_eq_true, decide_eq_true_eq, List.all_eq_true, not_and]
    rintro ⟨hv, -⟩ hall
    obtain hne | ⟨p, hp, hne⟩ := h
    · exact hne hv
    · exact hne (by simpa using hall p hp)
  exact congrArg Host.Outcome.next (if_neg hno)

theorem drCtl_starts {s : State} {die : Nat} (hd : die < 4) (h : ∀ p ∈ s.dies, p.2.resetStep = 0) :
    exec (.drCtl die 1) s =
      .next ((s.quiesceDie die).modDie die (fun x => { x with resetStep := 1, resetErrors := 0 })) := by
  have hyes : ((1 : Word) = 1 && decide (die < 4) && s.dies.all (fun p => p.2.resetStep = 0)) = true := by
    simp only [Bool.and_eq_true, decide_eq_true_eq, List.all_eq_true]
    exact ⟨⟨trivial, hd⟩, fun p hp => by simpa using h p hp⟩
  exact congrArg Host.Outcome.next (if_pos hyes)

/-- R436: what the end of each step of a warm reset leaves. -/
theorem drStepEnd_eq {s : State} {die n : Nat} (hd : die < 4) (h : (s.die die).resetStep = n) :
    exec (.drStepEnd die) s =
      if n = 1 then .next (s.toStep die 2)
      else if n = 2 then .next (((([0, 1, 2, 3, 4].filter (· != die)).foldl
        (fun a e => a.drainWhere e (fun l => homeDie (l * 128) = some die)) s).beginWriteback die).toStep die 3)
      else if n = 3 then (if s.writebackDone die then .next ((s.resetDie die).toStep die 4) else .next s)
      else if n = 4 then .next (s.toStep die 5)
      else if n = 5 then .next ((if ((s.modDie die Die.rebuild).die die).fenceGen = (s.die die).fenceGen
        then s.modDie die Die.rebuild else (s.modDie die Die.rebuild).retest die).toStep die 6)
      else if n = 6 then .next (s.toStep die 0)
      else .next s := by
  subst h
  exact if_neg (Nat.not_le.2 hd)

/-- Settles O55: an equation for each write and each step. -/
theorem resetsAndFirmware : Obligations.ResetsAndFirmware := by
  unfold Obligations.ResetsAndFirmware
  intro s
  refine ⟨coldReset_unstaged, fun i => coldReset_staged, fun off bs hb => ⟨rcvGo_buffer hb, fun hw i hi => ?_⟩,
    fun len => rcvGo_go, fun h len => ⟨bufferImage_eq_none, fun hlo hhi hlen => ?_⟩,
    fun len hb hr => ⟨fun x hx hv => ?_, fun hx => ?_⟩, fun w => rcvGo_running,
    fun image t him => ⟨?_, fwUpdCmd_invalid him, fun v => fwUpdCmd_other⟩,
    fun die v hd => ⟨drCtl_ignored, drCtl_starts hd⟩, fun die hd => ?_⟩
  · rw [barByte_buffer hb hi, barByte_buffer (s := s.modHub fun h => h.fillBuffer off bs) hb hi]
    exact read_fillBuffer hw hi
  · rw [bufferImage_of_fits hhi]
    obtain ⟨i, hi, hfields⟩ := imageOf_eq_some (bs := bufferBytes h len) (by rw [bufferBytes_length]; exact hlo)
      (by rw [bufferBytes_length]; exact hlen)
    rw [bufferBytes_length (h := h)] at hfields
    exact ⟨i, hi, hfields⟩
  · rw [rcvGo_verified hb hr, endRecovery_valid hx hv]
  · rw [rcvGo_verified hb hr, endRecovery_invalid hx]
  · rintro i rfl hv
    exact fwUpdCmd_valid him hv
  · refine ⟨fun h => drStepEnd_eq hd h, fun h => drStepEnd_eq hd h, fun h => drStepEnd_eq hd h, fun h => drStepEnd_eq hd h,
      fun h => drStepEnd_eq hd h, fun hdone h => ?_, fun h hwait => ?_⟩
    · exact (drStepEnd_eq hd h).trans (if_pos hdone)
    · exact (drStepEnd_eq hd h).trans (if_neg (ne_true_of_eq_false hwait))

end Sys2Proof.Proofs.Resets
end

section
/-!
PROOFS. The partition commands, the save timer and the hang watchdog.
-/

namespace Sys2Proof.Proofs.Partitions
open Sys2Proof Sys2Proof.Machine Sys2Proof.Laws Sys2Proof.Proofs

section Commands
variable {s : State} {ctx : Nat} {p : Partition}

/-! ## Which command is run -/

/-- R431: while a command is in progress another is refused. -/
theorem partCommand_busy (op : Nat) (h : s.hub.ptBusy = true) :
    s.partCommand op ctx = s.modHub (fun h => { h with ptResult := 1 }) := if_pos h

theorem create_idle (h : s.hub.ptBusy = false) : exec (.create ctx) s = .next (s.createPartition ctx) :=
  congrArg Host.Outcome.next (if_neg (ne_true_of_eq_false h))

theorem switchout_idle (h : s.hub.ptBusy = false) : exec (.switchout ctx) s = .next (s.switchOut ctx) :=
  congrArg Host.Outcome.next (if_neg (ne_true_of_eq_false h))

theorem switchin_idle (h : s.hub.ptBusy = false) : exec (.switchin ctx) s = .next (s.switchIn ctx) :=
  congrArg Host.Outcome.next (if_neg (ne_true_of_eq_false h))

theorem reset_idle (h : s.hub.ptBusy = false) : exec (.reset ctx) s = .next (s.resetCommand ctx) :=
  congrArg Host.Outcome.next (if_neg (ne_true_of_eq_false h))

theorem destroy_idle (h : s.hub.ptBusy = false) : exec (.destroy ctx) s = .next (s.destroyPartition ctx) :=
  congrArg Host.Outcome.next (if_neg (ne_true_of_eq_false h))

/-! ## CREATE -/

theorem createPartition_exists (h : s.part ctx = some p) : s.createPartition ctx = s.partDone ctx 3 :=
  if_pos (by simp [h])

/-- The descriptor passes the checks that end with RESULT 2 (R432, R433). -/
def DescOk (s : State) (ctx : Nat) (d : PartDesc) (map window : List Nat) : Prop :=
  d.ok = true ∧ d.ctx = ctx ∧ (∀ q ∈ s.parts, q.2.ports &&& d.part.ports = 0) ∧ (∀ e ∈ map, granuleOk e = true) ∧
    (∀ e ∈ window, windowOk e = true) ∧ ∀ i, i < 4 → s.mapFits d.part.dies map i = true

theorem descOk_iff {d : PartDesc} {map window : List Nat} : DescOk s ctx d map window ↔
    (!d.ok || d.ctx != ctx || s.parts.any (fun q => q.2.ports &&& d.part.ports != 0) || !map.all granuleOk ||
      !window.all windowOk || !(List.range 4).all (s.mapFits d.part.dies map)) = false := by
  simp only [DescOk, Bool.or_eq_false_iff, Bool.not_eq_false', bne_eq_false_iff_eq, List.any_eq_false, List.all_eq_true,
    List.mem_range, and_assoc, bne_iff_ne, ne_eq, not_not]

/-- R431 to R433: a descriptor that passes every check is installed. -/
theorem createPartition_ok {bs map window : List Byte} (hnone : s.part ctx = none) (h0 : ctx ≠ 0)
    (hin : inHbm s.hub.ptArg.toNat 256 = true) (hdesc : s.recordAt s.hub.ptArg.toNat 256 = (some bs, s))
    (hmap : s.recordAt (readDesc bs).vmap 4096 = (some map, s))
    (hwin : (readDesc bs).peerwin ≠ 0 → s.recordAt (readDesc bs).peerwin 128 = (some window, s)) :
    let ms := (List.range 2048).map (fun i => field map (2 * i) 2)
    let ws := if (readDesc bs).peerwin = 0 then [] else (List.range 16).map (fun i => field window (8 * i) 8)
    DescOk s ctx (readDesc bs) ms ws → (∀ i, i < 4 → 2 * nth 0 (readDesc bs).part.cores i ≤ shadowCount ms i) →
    s.createPartition ctx = (s.installPartition (readDesc bs) ms ws).partDone ctx 0 := by
  intro ms ws hok hcores
  have hnew : ¬(decide (ctx = 0) || (s.part ctx).isSome) = true := by simp [h0, hnone]
  have hshadow : ¬(!(List.range 4).all fun i => decide (2 * nth 0 (readDesc bs).part.cores i ≤ shadowCount ms i)) = true := by
    simpa using hcores
  have hmap' : s.recordAt (readDesc bs).vmap (2048 * 2) = (some map, s) := hmap
  have hwords : (if (readDesc bs).peerwin = 0 then (some [], s) else
      ((s.recordAt (readDesc bs).peerwin (16 * 8)).1.map (fun b => (List.range 16).map (fun i => field b (8 * i) 8)),
        (s.recordAt (readDesc bs).peerwin (16 * 8)).2)) = (some ws, s) := by
    unfold ws
    split
    · rfl
    · next hp => rw [show 16 * 8 = 128 from rfl, hwin hp]; rfl
  have hdescOk := descOk_iff.1 hok
  unfold State.createPartition
  rw [if_neg hnew]
  dsimp only
  rw [if_pos hin, hdesc]
  simp only [hmap', hwords, Option.map_some]
  rw [if_neg (ne_true_of_eq_false hdescOk), if_neg hshadow]

/-! ## SWITCHOUT -/

theorem switchOut_in (h : s.part ctx = some p) (hp : p.state = .switchedIn) :
    s.switchOut ctx = ((s.modHub (fun h => { h with ptBusy := true, ptCtx := BitVec.ofNat 8 ctx })).modPart ctx (fun x =>
      { x with state := .halting, watchdog := s.now - x.watchdog, haltedAt := none })).endHubGroups ctx := by
  simp only [State.switchOut, h, hp, if_true]

theorem switchOut_notIn (h : s.part ctx = some p) (hp : p.state ≠ .switchedIn) : s.switchOut ctx = s.partDone ctx 0 := by
  simp only [State.switchOut, h, if_neg hp]

theorem imageSave_halts (h : s.part ctx = some p) (hp : p.state = .halting) (hh : s.partitionHalted ctx = true) :
    exec (.partitionImageSave ctx) s = .next (s.haltPartition ctx) := by
  show execPartitionImageSave ctx s = _
  simp [execPartitionImageSave, h, hp, hh]

theorem imageSave_saves (h : s.part ctx = some p) (hp : p.state = .saving) (hl : p.saveLate s.now = false) :
    exec (.partitionImageSave ctx) s = .next (s.saveImage ctx) := by
  show execPartitionImageSave ctx s = _
  simp [execPartitionImageSave, h, hp, hl]

theorem saveTimerExpiry_late (h : s.part ctx = some p) (hp : p.state = .saving) (hl : p.saveLate s.now = true) :
    exec (.saveTimerExpiry ctx) s =
      .next (((s.modPart ctx (fun x => { x with state := .switchedOut })).resetPartition ctx).partDone ctx 5) := by
  show execSaveTimerExpiry ctx s = _
  simp [execSaveTimerExpiry, h, hp, hl]

/-- R393: the save timer is 20 µs. -/
theorem saveLate_eq {t : Nat} (h : p.haltedAt = some t) (now : Nat) : p.saveLate now = decide (t + 20000 ≤ now) := by
  simp only [Partition.saveLate, h]
  rfl

@[simp] theorem saveArray_parts (t : Nat) : (s.saveArray t).parts = s.parts := by
  unfold State.saveArray
  dsimp only
  repeat' split
  all_goals rfl

@[simp] theorem markIdle_parts (core : Nat) : (s.markIdle core).parts = s.parts := by
  unfold State.markIdle
  dsimp only
  repeat' split
  all_goals rfl

/-- R391: saving a team leaves the partitions. -/
theorem saveTeam_parts (t : Nat) (place : Residency) : (s.saveTeam t place).parts = s.parts := by
  unfold State.saveTeam
  dsimp only
  split
  · rw [markIdle_parts, modTeam_parts]
    refine (foldl_keeps State.parts _ (fun a k => ?_) _ _).trans (saveArray_parts t)
    rfl
  · exact saveArray_parts t

/-- R391: the state in which the image is written. -/
def imageSaved (s : State) (ctx : Nat) : State :=
  ((s.residentTeams ctx).foldl (fun a t => a.saveTeam t .switchedOut) s).modPart ctx (fun p =>
    { p with state := .switchedOut, haltedAt := none })

theorem imageSaved_part (h : s.part ctx = some p) :
    (imageSaved s ctx).part ctx = some { p with state := .switchedOut, haltedAt := none } := by
  have hparts : ((s.residentTeams ctx).foldl (fun a t => a.saveTeam t .switchedOut) s).parts = s.parts :=
    foldl_keeps State.parts _ (fun _ _ => saveTeam_parts _ _) _ _
  have hfind : Tab.find ((s.residentTeams ctx).foldl (fun a t => a.saveTeam t .switchedOut) s).parts ctx = some p := hparts ▸ h
  exact tab_find_modify_self.trans (by rw [hfind]; rfl)

/-! ## SWITCHIN -/

theorem switchIn_notOut (h : s.part ctx = some p) (hp : p.state ≠ .switchedOut) : s.switchIn ctx = s.partDone ctx 3 := by
  simp only [State.switchIn, h, if_neg hp]

theorem switchIn_out (h : s.part ctx = some p) (hp : p.state = .switchedOut) :
    s.switchIn ctx = ((s.modHub (fun h => { h with ptBusy := true, ptCtx := BitVec.ofNat 8 ctx })).modPart ctx
      (fun x => { x with state := .restoring })).tryRestore ctx := by
  simp only [State.switchIn, h, hp, if_true]

theorem dispatchAt_run {key : Nat} (h : (s.pound key).state = .run) : s.dispatchAt key = s := by
  simp only [State.dispatchAt, h]

theorem dispatches_run {keys : List Nat} (h : ∀ k ∈ keys, (s.pound k).state = .run) : keys.foldl State.dispatchAt s = s := by
  induction keys with
  | nil => rfl
  | cons k ks ih =>
    obtain ⟨hk, hks⟩ := List.forall_mem_cons.1 h
    rw [List.foldl_cons, dispatchAt_run hk, ih hks]

/-- R421, R431: where the pounds of the saved teams run, they are restored at once. -/
theorem tryRestore_run (h : ∀ t ∈ s.savedTeams ctx, ∀ x, s.team t = some x → (s.pound (corePound x.core)).state = .run) :
    s.tryRestore ctx = ((s.savedTeams ctx).foldl State.restoreTeam
      (s.modPart ctx (fun x => { x with state := .switchedIn, watchdog := s.now - x.watchdog }))).partDone ctx 0 := by
  have hkeys : ∀ k ∈ ((s.savedTeams ctx).filterMap (fun t => (s.team t).map (fun x => corePound x.core))).eraseDups,
      (s.pound k).state = .run := by
    intro k hk
    obtain ⟨t, ht, hx⟩ := List.mem_filterMap.1 (List.mem_eraseDups.1 hk)
    obtain ⟨x, hteam, rfl⟩ := Option.map_eq_some_iff.1 hx
    exact h t ht x hteam
  unfold State.tryRestore
  dsimp only
  rw [dispatches_run hkeys, if_pos]
  simpa using hkeys

/-! ## RESET and DESTROY -/

theorem resetCommand_exists (h : s.part ctx = some p) : s.resetCommand ctx = (s.resetPartition ctx).partDone ctx 0 :=
  if_pos (by simp [h])

theorem signal_parts (irq : Option Nat) : (s.signal irq).parts = s.parts := by
  unfold State.signal
  repeat' split
  all_goals rfl

theorem dropOwed_parts (ctx : Nat) : (s.dropOwed ctx).parts = s.parts :=
  foldl_keeps State.parts _ (fun _ _ => signal_parts _) _ _

/-- R431: the state in which a partition is released. -/
def released (s : State) (ctx : Nat) : State :=
  let s1 := s.endHubGroups ctx
  ({ s1 with
    parts := Tab.remove s1.parts ctx
    dies := Tab.mapWith (fun _ d => { d with vault := d.vault.filter (fun p => p.2.2 != ctx) }) s1.dies } : State).dropOwed ctx

theorem destroyPartition_unused (h : s.part ctx = some p) (hl : ∀ l ∈ s.launches, l.2.ctx = ctx → l.2.state = .completed)
    (hq : ∀ q ∈ s.hub.queues, q.2.ctx ≠ some ctx) : s.destroyPartition ctx = (released s ctx).partDone ctx 0 := by
  refine if_neg ?_
  simpa [h] using ⟨fun k l => hl (k, l), fun k q => hq (k, q)⟩

/-! ## The watchdog -/

theorem hangWatchdogExpiry_late (h : s.part ctx = some p) (hp : p.state = .switchedIn)
    (hw : p.watchdog + p.wdog * 1000 ≤ s.now) : exec (.hangWatchdogExpiry ctx) s = .next (s.resetPartition ctx) := by
  have hw' : p.watchdog + us p.wdog ≤ s.now := hw
  show execHangWatchdogExpiry ctx s = _
  simp [execHangWatchdogExpiry, h, hp, hw']

end Commands

/-- Settles O58: an equation for each command and each event of a partition. -/
theorem partitionCommands : Obligations.PartitionCommands := by
  unfold Obligations.PartitionCommands
  intro s ctx result all
  refine ⟨fun hbusy i hi => ?_, fun hidle hnone => ⟨fun i hi => ?_, ?create⟩,
    fun p hp => ⟨fun hidle => ?commands, ?halts, ?saves, ?watchdog⟩⟩
  · have hall : ∃ op, exec i s = .next (s.partCommand op ctx) := by
      simp only [all, List.mem_cons, List.not_mem_nil, or_false] at hi
      obtain rfl | rfl | rfl | rfl | rfl := hi
      exacts [⟨1, rfl⟩, ⟨2, rfl⟩, ⟨3, rfl⟩, ⟨4, rfl⟩, ⟨5, rfl⟩]
    obtain ⟨op, hop⟩ := hall
    rw [hop, partCommand_busy op hbusy]
  · simp only [all, List.tail_cons, List.mem_cons, List.not_mem_nil, or_false] at hi
    obtain rfl | rfl | rfl | rfl := hi
    · rw [switchout_idle hidle, State.switchOut, hnone]
      rfl
    · rw [switchin_idle hidle, State.switchIn, hnone]
      rfl
    · rw [reset_idle hidle, State.resetCommand, hnone]
      rfl
    · rw [destroy_idle hidle, State.destroyPartition, hnone]
      rfl
  case create =>
    intro bs map window h0 hin hdesc d hmap hwin ms ws hok hctx hports hgranules hwindows hfits hcores
    rw [create_idle hidle, createPartition_ok hnone h0 hin hdesc hmap hwin
      ⟨hok, hctx, hports, hgranules, hwindows, hfits⟩ hcores]
    rfl
  case commands =>
    rw [create_idle hidle, switchout_idle hidle, switchin_idle hidle, reset_idle hidle, destroy_idle hidle,
      createPartition_exists hp, resetCommand_exists hp]
    refine ⟨rfl, fun hin => by rw [switchOut_in hp hin], fun hout => by rw [switchOut_notIn hp hout]; rfl,
      fun hout => by rw [switchIn_notOut hp hout]; rfl, fun hout => ?_, rfl, fun hl hq => ?_⟩
    · rw [switchIn_out hp hout]
      exact ⟨rfl, fun hrun => congrArg Host.Outcome.next (tryRestore_run hrun)⟩
    · exact ⟨released s ctx, congrArg Host.Outcome.next (destroyPartition_unused hp hl hq), dropOwed_parts ctx⟩
  case halts => exact fun hhalt hh => imageSave_halts hp hhalt hh
  case saves =>
    intro t hsaving ht
    have hlate := saveLate_eq ht s.now
    refine ⟨fun hsoon => ⟨imageSaved s ctx, imageSave_saves hp hsaving ?_, ?_⟩,
      fun hpast => saveTimerExpiry_late hp hsaving ?_⟩
    · rw [hlate]; exact decide_eq_false (Nat.not_le.2 hsoon)
    · rw [imageSaved_part hp]; rfl
    · rw [hlate]; exact decide_eq_true hpast
  case watchdog => exact fun hin hw => hangWatchdogExpiry_late hp hin hw

end Sys2Proof.Proofs.Partitions
end

section
/-!
PROOFS. Memory stays canonical: the state that a result carries.
-/

namespace Sys2Proof.Machine

/-- The state that a result carries. -/
def Result.state : Result → State
  | .done s => s
  | .trap s _ => s
  | .park s _ => s
  | .stay s => s
  | .moved s => s

/-- The state that a step of an operation carries. -/
def Stepped.state : Stepped → State
  | .ok s _ _ => s
  | .halt s _ => s
  | .fail s _ _ => s
  | .wait s => s
  | .again s _ => s
  | .gone s => s

/-- The state that the reading of a row carries. -/
def RowGot.state : RowGot → State
  | .ok _ _ _ s _ => s
  | .halt s _ => s
  | .differs s => s

/-- The state that an outcome gives, if any, holds memory in its canonical form. -/
def Out.Canonical (o : Out) : Prop := ∀ t, o = .next t → Memory.wf t.mem = true

end Sys2Proof.Machine
end

section
/-!
PROOFS. Memory stays canonical: outcomes, folds and matches. A function that leaves memory alone has
a lemma `_mem`, one that puts bytes into it a lemma `_wf`, and what an instruction or event gives a lemma `_wf` about its outcome.
-/

namespace Sys2Proof.Proofs.Canonical

open Sys2Proof Sys2Proof.Machine Sys2Proof.Laws Sys2Proof.Proofs

@[simp] theorem Result.state_done (s : State) : (Result.done s).state = s := rfl
@[simp] theorem Result.state_trap (s : State) (c : Cause) : (Result.trap s c).state = s := rfl
@[simp] theorem Result.state_park (s : State) (n : List (Nat × AccessKind)) : (Result.park s n).state = s := rfl
@[simp] theorem Result.state_stay (s : State) : (Result.stay s).state = s := rfl
@[simp] theorem Result.state_moved (s : State) : (Result.moved s).state = s := rfl

@[simp] theorem Stepped.state_ok (s : State) (o : EngineOp) (b : Bool) : (Stepped.ok s o b).state = s := rfl
@[simp] theorem Stepped.state_halt (s : State) (x : Halt) : (Stepped.halt s x).state = s := rfl
@[simp] theorem Stepped.state_fail (s : State) (c a : Nat) : (Stepped.fail s c a).state = s := rfl
@[simp] theorem Stepped.state_wait (s : State) : (Stepped.wait s).state = s := rfl
@[simp] theorem Stepped.state_again (s : State) (r : List (Nat × Nat)) : (Stepped.again s r).state = s := rfl
@[simp] theorem Stepped.state_gone (s : State) : (Stepped.gone s).state = s := rfl

@[simp] theorem RowGot.state_ok (u : List (List Byte)) (m : List (List Bool)) (b : Bool) (s : State) (o : EngineOp) :
    (RowGot.ok u m b s o).state = s := rfl
@[simp] theorem RowGot.state_halt (s : State) (x : Halt) : (RowGot.halt s x).state = s := rfl
@[simp] theorem RowGot.state_differs (s : State) : (RowGot.differs s).state = s := rfl

@[simp] theorem canonical_next {t : State} : Out.Canonical (.next t) ↔ Memory.wf t.mem = true :=
  ⟨fun h => h t rfl, fun h _ ht => by cases ht; exact h⟩

@[simp] theorem canonical_fault (r : Fault) : Out.Canonical (.fault r) := fun _ ht => nomatch ht

variable {s : State}

/-- A fold whose steps leave memory as it is leaves memory as it is. -/
@[simp] theorem foldl_mem {α : Type} {f : State → α → State} (h : ∀ a x, (f a x).mem = a.mem) (l : List α) :
    (l.foldl f s).mem = s.mem := foldl_keeps State.mem f h l s

/-- A fold whose steps keep memory canonical keeps memory canonical. -/
theorem foldl_wf {α : Type} {f : State → α → State} {l : List α}
    (hf : ∀ a x, Memory.wf a.mem = true → Memory.wf (f a x).mem = true) (h : Memory.wf s.mem = true) :
    Memory.wf (l.foldl f s).mem = true := foldl_holds (fun s => Memory.wf s.mem = true) f hf l s h

/-- Each branch keeps memory canonical. -/
theorem ite_wf {c : Prop} [Decidable c] {a b : State} (ha : Memory.wf a.mem = true) (hb : Memory.wf b.mem = true) :
    Memory.wf (if c then a else b).mem = true := by
  split <;> assumption

/-- The same of a result whose form a condition chooses. -/
theorem ite_state_wf {c : Prop} [Decidable c] {a b : Result} (ha : Memory.wf a.state.mem = true)
    (hb : Memory.wf b.state.mem = true) : Memory.wf (if c then a else b).state.mem = true := by
  split <;> assumption

/-- What holds of the state of a pair holds of the state that a match on the pair names. -/
theorem wf_of_snd {α : Type} {p : α × State} {a : α} {t : State} (hp : Memory.wf p.2.mem = true) (e : p = (a, t)) :
    Memory.wf t.mem = true := by
  subst e
  exact hp

end Sys2Proof.Proofs.Canonical
end

section
/-!
PROOFS. Memory stays canonical: the choices that are left open.
-/

namespace Sys2Proof.Proofs.Canonical

open Sys2Proof Sys2Proof.Machine Sys2Proof.Laws Sys2Proof.Proofs

variable {s : State}

@[simp] theorem freeNat_mem : (s.freeNat).2.mem = s.mem := rfl

@[simp] theorem freeBool_mem : (s.freeBool).2.mem = s.mem := rfl

@[simp] theorem fresh_mem : (s.fresh).2.mem = s.mem := rfl

end Sys2Proof.Proofs.Canonical
end

section
/-!
PROOFS. Memory stays canonical: memory, tokens, the homes and the remote-write buffers.
-/

namespace Sys2Proof.Proofs.Canonical

open Sys2Proof Sys2Proof.Machine Sys2Proof.Laws Sys2Proof.Proofs

variable {s : State}

@[simp] theorem countReply_mem {d} : (s.countReply d).mem = s.mem := by
  unfold State.countReply
  split <;> rfl

@[simp] theorem dieWrite_mem {d : Nat} {act : State → State} (ha : (act s).mem = s.mem) :
    (s.dieWrite d act).mem = s.mem := by
  unfold State.dieWrite
  split <;> simp [ha]

@[simp] theorem dieWrite_wf {d : Nat} {act : State → State} (h : Memory.wf s.mem = true)
    (ha : Memory.wf (act s).mem = true) : Memory.wf (s.dieWrite d act).mem = true := by
  unfold State.dieWrite
  split <;> simp [h, ha]

@[simp] theorem recordPoison_mem {pa} : (s.recordPoison pa).mem = s.mem := by
  unfold State.recordPoison
  split <;> rfl

@[simp] theorem ensureAppend_mem {page size mapping} : (s.ensureAppend page size mapping).mem = s.mem := by
  unfold State.ensureAppend
  repeat' split
  all_goals rfl

@[simp] theorem touchWatches_mem {as} : (s.touchWatches as).mem = s.mem := rfl

@[simp] theorem perturb_mem {origin as} : (s.perturb origin as).mem = s.mem := rfl

@[simp] theorem displace_mem {core lines} : (s.displace core lines).mem = s.mem := by
  unfold State.displace
  grind -ring -linarith [freeBool_mem, setTokens_mem, foldl_mem]

@[simp] theorem tokenWrite_mem {core pa} : (s.tokenWrite core pa).mem = s.mem := by
  unfold State.tokenWrite
  repeat' split
  all_goals rfl

@[simp] theorem tokenHome_mem {pa} : (s.tokenHome pa).mem = s.mem := by
  unfold State.tokenHome
  split <;> rfl

@[simp] theorem homeLines_mem {ws} : (s.homeLines ws).mem = s.mem := by
  simp [State.homeLines]

@[simp] theorem sendSnoop_mem : (s.sendSnoop).mem = s.mem := by
  unfold State.sendSnoop
  repeat' split
  all_goals rfl

@[simp] theorem settle_wf {ws} (h : Memory.wf s.mem = true) : Memory.wf (s.settle ws).mem = true := by
  unfold State.settle
  refine foldl_wf (fun a p ha => ?_) (setBytes_wf _ h)
  split <;> exact ha

@[simp] theorem enter_wf {ws} (h : Memory.wf s.mem = true) : Memory.wf (s.enter ws).mem = true := by
  unfold State.enter
  refine foldl_wf (fun a p ha => by simpa using ha) ?_
  rw [clearCovered_mem]
  exact ite_wf h (settle_wf h)

@[simp] theorem place_wf {ws} (h : Memory.wf s.mem = true) : Memory.wf (s.place ws).mem = true := by
  unfold State.place
  rw [announce_mem, clearCovered_mem]
  exact settle_wf (by simpa using h)

@[simp] theorem commit_wf {origin ws} (h : Memory.wf s.mem = true) : Memory.wf (s.commit origin ws).mem = true := by
  unfold State.commit
  split <;> simp [h]

@[simp] theorem homeEnter_wf {ws} (h : Memory.wf s.mem = true) : Memory.wf (s.homeEnter ws).mem = true := by
  simp [State.homeEnter, h]

@[simp] theorem homeCommit_wf {origin ws} (h : Memory.wf s.mem = true) :
    Memory.wf (s.homeCommit origin ws).mem = true := by
  simp [State.homeCommit, h]

@[simp] theorem commitLate_wf {origin ws} (h : Memory.wf s.mem = true) :
    Memory.wf (s.commitLate origin ws).mem = true := by
  unfold State.commitLate
  split <;> simp [h]

@[simp] theorem refuse_mem {group c} : (s.refuse group c).mem = s.mem := rfl

@[simp] theorem arrive_wf {l} (h : Memory.wf s.mem = true) : Memory.wf (s.arrive l).mem = true := by
  unfold State.arrive
  dsimp only
  split
  · rw [countError_mem]
    exact foldl_wf (fun a g ha => by simpa using ha) h
  · exact homeCommit_wf h

@[simp] theorem modRwb_mem {die f} : (s.modRwb die f).mem = s.mem := by
  unfold State.modRwb
  split <;> rfl

@[simp] theorem drainLine_wf {die line} (h : Memory.wf s.mem = true) : Memory.wf (s.drainLine die line).mem = true := by
  unfold State.drainLine
  split <;> simp [h]

@[simp] theorem drainWhere_wf {die sel} (h : Memory.wf s.mem = true) : Memory.wf (s.drainWhere die sel).mem = true :=
  foldl_wf (fun _ _ ha => by simp [ha]) h

@[simp] theorem drainAll_wf {die} (h : Memory.wf s.mem = true) : Memory.wf (s.drainAll die).mem = true := by
  simp [State.drainAll, h]

@[simp] theorem bufferStore_wf {die group va line ws} (h : Memory.wf s.mem = true) :
    Memory.wf (s.bufferStore die group va line ws).mem = true := by
  unfold State.bufferStore
  repeat' split
  all_goals simp [h]

@[simp] theorem modRun_mem {c r f} : (s.modRun c r f).mem = s.mem := rfl

@[simp] theorem dropCopies_mem {core} : (s.dropCopies core).mem = s.mem := rfl

@[simp] theorem dropLines_mem {lines cores} : (s.dropLines lines cores).mem = s.mem := rfl

@[simp] theorem dropLine_mem {line} : (s.dropLine line).mem = s.mem := rfl

@[simp] theorem staleHalves_mem {who hs} : (s.staleHalves who hs).2.mem = s.mem := by
  obtain ⟨n, hn⟩ := staleHalves_state s who hs
  rw [hn]

@[simp] theorem updateCopy_mem {core ws} : (s.updateCopy core ws).mem = s.mem := rfl

end Sys2Proof.Proofs.Canonical
end

section
/-!
PROOFS. Memory stays canonical: translation, the front end's accesses and health counters.
-/

namespace Sys2Proof.Proofs.Canonical

open Sys2Proof Sys2Proof.Machine Sys2Proof.Laws Sys2Proof.Proofs

variable {s : State}

@[simp] theorem keep_mem {core e} : (s.keep core e).mem = s.mem := by
  unfold State.keep
  split <;> rfl

@[simp] theorem bindFrames_mem {ctx pa size} : (s.bindFrames ctx pa size).mem = s.mem := rfl

@[simp] theorem setEntry_wf {a old new} (h : Memory.wf s.mem = true) : Memory.wf (s.setEntry a old new).mem = true := by
  unfold State.setEntry
  split <;> simp [h]

@[simp] theorem walkFor_wf {who va kind} (h : Memory.wf s.mem = true) :
    Memory.wf (s.walkFor who va kind).2.2.mem = true := by
  unfold State.walkFor
  dsimp only
  repeat' split
  all_goals simp [h]

@[simp] theorem mtuWalk_wf {who va kind} (h : Memory.wf s.mem = true) :
    Memory.wf (s.mtuWalk who va kind).2.mem = true := by
  unfold State.mtuWalk
  grind -ring -linarith [walkFor_wf, keep_mem]

@[simp] theorem frontPhys_wf {ctx va kind} (h : Memory.wf s.mem = true) :
    Memory.wf (s.frontPhys ctx va kind).2.mem = true := by
  unfold State.frontPhys
  grind -ring -linarith [walkFor_wf]

@[simp] theorem frontRead_wf {ctx va n} (h : Memory.wf s.mem = true) :
    Memory.wf (s.frontRead ctx va n).2.mem = true := by
  unfold State.frontRead
  grind -ring -linarith [frontPhys_wf, countError_mem]

@[simp] theorem frontWrite_wf {ctx va bs} (h : Memory.wf s.mem = true) :
    Memory.wf (s.frontWrite ctx va bs).2.mem = true := by
  unfold State.frontWrite
  grind -ring -linarith [frontPhys_wf, countError_mem, homeCommit_wf]

theorem askHost_mem {ctx entry va t} (ht : s.askHost ctx entry va = some t) : t.mem = s.mem := by
  unfold State.askHost at ht
  grind -ring -linarith [send_mem]

@[simp] theorem signal_mem {irq} : (s.signal irq).mem = s.mem := by
  unfold State.signal
  repeat' split
  all_goals rfl

@[simp] theorem frontStore_wf {ctx va bs irq} (h : Memory.wf s.mem = true) :
    Memory.wf (s.frontStore ctx va bs irq).mem = true := by
  unfold State.frontStore
  grind -ring -linarith [modHub_mem, frontWrite_wf, askHost_mem, signal_mem]

@[simp] theorem payOwed_wf {ctx entry ok} (h : Memory.wf s.mem = true) :
    Memory.wf (s.payOwed ctx entry ok).mem = true := by
  unfold State.payOwed
  refine foldl_wf (fun a x ha => ?_) ?_
  · split <;> simp [ha]
  · simp [h]

@[simp] theorem dropTranslations_mem {ctx va len dies} : (s.dropTranslations ctx va len dies).mem = s.mem := rfl

end Sys2Proof.Proofs.Canonical
end

section
/-!
PROOFS. Memory stays canonical: the lives of groups, teams and launches.
-/

namespace Sys2Proof.Proofs.Canonical

open Sys2Proof Sys2Proof.Machine Sys2Proof.Laws Sys2Proof.Proofs

variable {s : State}

@[simp] theorem raiseIrq_mem {i} : (s.raiseIrq i).mem = s.mem := by
  unfold State.raiseIrq
  dsimp only
  repeat' split
  all_goals rfl

@[simp] theorem addEvent_mem {kind die site flags unit dem launch check team} :
    (s.addEvent kind die site flags unit dem launch check team).mem = s.mem := by
  simp [State.addEvent]

@[simp] theorem modSite_mem {die site f} : (s.modSite die site f).mem = s.mem := rfl

@[simp] theorem countHealth_mem {die i} : (s.countHealth die i).mem = s.mem := rfl

@[simp] theorem recallLine_mem {core line} : (s.recallLine core line).mem = s.mem := by
  unfold State.recallLine
  dsimp only
  repeat' split
  all_goals rfl

@[simp] theorem fenceDecision_mem {die site inj} : (s.fenceDecision die site inj).mem = s.mem := by
  unfold State.fenceDecision
  split <;> simp

@[simp] theorem addDemerits_mem {die site n} : (s.addDemerits die site n).mem = s.mem := by
  unfold State.addDemerits
  split <;> rfl

@[simp] theorem fenceIfDue_mem {die site inj} : (s.fenceIfDue die site inj).mem = s.mem := by
  unfold State.fenceIfDue
  split <;> simp

@[simp] theorem charge_mem {die site n inj} : (s.charge die site n inj).mem = s.mem := by
  simp [State.charge]

@[simp] theorem sealNow_mem {page} : (s.sealNow page).mem = s.mem := by
  unfold State.sealNow
  repeat' split
  all_goals rfl

@[simp] theorem publish_mem {page} : (s.publish page).mem = s.mem := by
  unfold State.publish
  grind -ring -linarith [perturb_mem, touchWatches_mem, foldl_mem]

@[simp] theorem acceptReservation_mem {page offset} : (s.acceptReservation page offset).mem = s.mem := rfl

@[simp] theorem settleReservations_wf {c appends which} (h : Memory.wf s.mem = true) :
    Memory.wf (s.settleReservations c appends which).mem = true := by
  unfold State.settleReservations
  grind -ring -linarith [homeEnter_wf, publish_mem, foldl_wf]

@[simp] theorem sealArrive_mem {page} : (s.sealArrive page).mem = s.mem := rfl

@[simp] theorem commitBytes_wf {c r all} (h : Memory.wf s.mem = true) :
    Memory.wf (s.commitBytes c r all).mem = true := by
  unfold State.commitBytes
  split
  · exact h
  · extract_lets early words fresh lines refused data s1 s2 s3
    have hdata : Memory.wf data.mem = true := homeCommit_wf (by simpa using h)
    have hs1 : Memory.wf s1.mem = true := by
      simp only [s1, dropLines_mem]
      split <;> simp [hdata]
    have hs2 : Memory.wf s2.mem = true := settleReservations_wf hs1
    have hs3 : Memory.wf s3.mem = true := foldl_wf (fun a l ha => ha) hs2
    exact hs3

@[simp] theorem commitRun_wf {c r} (h : Memory.wf s.mem = true) : Memory.wf (s.commitRun c r).mem = true := by
  unfold State.commitRun
  grind -ring -linarith [commitBytes_wf, countError_mem, sealNow_mem, sealArrive_mem, modRun_mem, foldl_wf]

@[simp] theorem markIdle_mem {core} : (s.markIdle core).mem = s.mem := by
  unfold State.markIdle
  dsimp only
  repeat' split
  all_goals rfl

@[simp] theorem dropBlocks_mem {out} : (s.dropBlocks out).mem = s.mem := rfl

@[simp] theorem unqueue_mem {c} : (s.unqueue c).mem = s.mem := rfl

@[simp] theorem withdraw_mem {c} : (s.withdraw c).mem = s.mem := rfl

@[simp] theorem dropArray_mem {core team} : (s.dropArray core team).mem = s.mem := by
  unfold State.dropArray
  split <;> rfl

@[simp] theorem removeTeam_mem {t} : (s.removeTeam t).mem = s.mem := by
  unfold State.removeTeam
  repeat' split
  all_goals simp

@[simp] theorem freeCheck_wf {c} (h : Memory.wf s.mem = true) : Memory.wf (s.freeCheck c).mem = true := by
  unfold State.freeCheck
  split <;> simp [h]

@[simp] theorem endUnchecked_wf {c counter} (h : Memory.wf s.mem = true) :
    Memory.wf (s.endUnchecked c counter).mem = true := by
  unfold State.endUnchecked
  split <;> simp [h]

@[simp] theorem takeUnits_wf {fuel c n} (h : Memory.wf s.mem = true) :
    Memory.wf (State.takeUnits fuel s c n).mem = true := by
  induction fuel generalizing s with
  | zero => exact h
  | succ fuel ih =>
    unfold State.takeUnits
    grind -ring -linarith [modPart_mem, modCheck_mem, endUnchecked_wf]

@[simp] theorem spill_wf {c n} (h : Memory.wf s.mem = true) : Memory.wf (s.spill c n).mem = true := by
  simp [State.spill, h]

@[simp] theorem complete_wf {ctx cw irq q word} (h : Memory.wf s.mem = true) :
    Memory.wf (s.complete ctx cw irq q word).mem = true := by
  unfold State.complete
  grind -ring -linarith [drainAll_wf, signal_mem, frontStore_wf]

@[simp] theorem onLink_mem {act : State → State} (ha : ∀ t : State, (act t).mem = t.mem) :
    (s.onLink act).mem = s.mem := by
  unfold State.onLink
  dsimp only
  repeat' split
  all_goals simp [ha]

@[simp] theorem onLink_wf {act : State → State} (h : Memory.wf s.mem = true)
    (ha : ∀ t : State, Memory.wf t.mem = true → Memory.wf (act t).mem = true) :
    Memory.wf (s.onLink act).mem = true := by
  unfold State.onLink
  dsimp only
  repeat' split
  all_goals simp [h, ha]

@[simp] theorem advanceLaunch_mem {seq} : (s.advanceLaunch seq).mem = s.mem := by
  unfold State.advanceLaunch
  repeat' split
  all_goals rfl

@[simp] theorem clusterExit_mem {k} : (s.clusterExit k).mem = s.mem := by
  unfold State.clusterExit
  repeat' split
  all_goals simp

@[simp] theorem teamExit_mem {k} : (s.teamExit k).mem = s.mem := by
  unfold State.teamExit
  repeat' split
  all_goals simp

@[simp] theorem endGroup_mem {k} : (s.endGroup k).mem = s.mem := by
  unfold State.endGroup
  dsimp only
  repeat' split
  all_goals simp

@[simp] theorem stopGroup_mem {k code} : (s.stopGroup k code).mem = s.mem := by
  unfold State.stopGroup
  repeat' split
  all_goals simp

@[simp] theorem stopTeam_mem {t code} : (s.stopTeam t code).mem = s.mem := by
  unfold State.stopTeam
  grind -ring -linarith [modGroup_mem, stopGroup_mem, foldl_mem]

@[simp] theorem discardCheck_wf {c} (h : Memory.wf s.mem = true) : Memory.wf (s.discardCheck c).mem = true := by
  unfold State.discardCheck
  split <;> simp [h]

@[simp] theorem abortLaunch_mem {seq} : (s.abortLaunch seq).mem = s.mem := by
  unfold State.abortLaunch
  grind -ring -linarith [modLaunch_mem, stopTeam_mem, advanceLaunch_mem, withdraw_mem, foldl_mem]

@[simp] theorem fatalTrap_wf {k c dbl slot} (h : Memory.wf s.mem = true) :
    Memory.wf (s.fatalTrap k c dbl slot).mem = true := by
  unfold State.fatalTrap
  split
  · exact h
  · split
    · simpa using h
    · split
      · simpa using h
      · next t _ _ =>
        extract_lets s1 s2 s3 s4
        have hs2 : Memory.wf s2.mem = true := by
          simp only [s2]
          split <;> simpa [s1] using h
        have hs3 : Memory.wf s3.mem = true := by
          simp only [s3]
          split <;> simp [hs2]
        have hs4 : Memory.wf s4.mem = true := by simpa [s4] using hs3
        repeat' split
        all_goals simp [hs4]

end Sys2Proof.Proofs.Canonical
end

section
/-!
PROOFS. Memory stays canonical: the parts that instructions share.
-/

namespace Sys2Proof.Proofs.Canonical

open Sys2Proof Sys2Proof.Machine Sys2Proof.Laws Sys2Proof.Proofs

variable {s : State}

@[simp] theorem settleDoom_mem {k} : (s.settleDoom k).mem = s.mem := by
  unfold State.settleDoom
  repeat' split
  all_goals simp

@[simp] theorem advance_mem {k w} : (s.advance k w).mem = s.mem := by
  simp [State.advance]

@[simp] theorem branchTo_mem {k w target} : (s.branchTo k w target).mem = s.mem := by
  simp [State.branchTo]

@[simp] theorem hold_mem {k} : (s.hold k).mem = s.mem := rfl

@[simp] theorem takeTrap_wf {k c slot resume} (h : Memory.wf s.mem = true) :
    Memory.wf (s.takeTrap k c slot resume).mem = true := by
  unfold State.takeTrap
  repeat' split
  all_goals simp [h]

@[simp] theorem trapAt_wf {k c} (h : Memory.wf s.mem = true) : Memory.wf (s.trapAt k c).mem = true := by
  unfold State.trapAt
  split <;> simp [h]

@[simp] theorem trapEntry_wf {k c reported} (h : Memory.wf s.mem = true) :
    Memory.wf (s.trapEntry k c reported).mem = true := by
  unfold State.trapEntry
  split <;> simp [h]

@[simp] theorem writeEntries_wf {ctx base i n} (h : Memory.wf s.mem = true) :
    Memory.wf (s.writeEntries ctx base i n).mem = true := by
  induction n generalizing s i with
  | zero => exact h
  | succ n ih => exact ih (frontStore_wf h)

@[simp] theorem writeQueue_wf {team c} (h : Memory.wf s.mem = true) : Memory.wf (s.writeQueue team c).mem = true := by
  unfold State.writeQueue
  repeat' split
  all_goals simp [h]

@[simp] theorem stopQueues_wf {team} (h : Memory.wf s.mem = true) : Memory.wf (s.stopQueues team).mem = true := by
  refine foldl_wf (fun a c ha => ?_) h
  repeat' split
  all_goals simp [ha]

@[simp] theorem resumeQueues_mem {team} : (s.resumeQueues team).mem = s.mem := rfl

@[simp] theorem resumeEngines_mem {k} : (s.resumeEngines k).mem = s.mem := by
  unfold State.resumeEngines
  split <;> rfl

@[simp] theorem park_mem {k needs} : (s.park k needs).mem = s.mem := rfl

@[simp] theorem countEnergy_mem {ctx tokens} : (s.countEnergy ctx tokens).mem = s.mem := rfl

end Sys2Proof.Proofs.Canonical
end

section
/-!
PROOFS. Memory stays canonical: the issue of an instruction and what follows from its result.
-/

namespace Sys2Proof.Proofs.Canonical

open Sys2Proof Sys2Proof.Machine Sys2Proof.Laws Sys2Proof.Proofs

variable {s : State}

@[simp] theorem ownOps_mem {before k} : (s.ownOps before k).mem = s.mem := rfl

@[simp] theorem departTrapped_mem {before k f w} : (s.departTrapped before k f w).mem = s.mem := by
  unfold State.departTrapped
  repeat' split
  all_goals rfl

@[simp] theorem issueTrap_wf {before k f w c} (h : Memory.wf s.mem = true) :
    Memory.wf (s.issueTrap before k f w c).mem = true := by
  unfold State.issueTrap
  split <;> simp [h]

theorem finish_wf {before : State} {k f w} {r : Result} (hb : Memory.wf before.mem = true)
    (h : Memory.wf r.state.mem = true) : Memory.wf (finish before k f w r).mem = true := by
  unfold finish
  grind -ring -linarith [Result.state_done, Result.state_trap, Result.state_park, Result.state_stay,
    Result.state_moved, advance_mem, hold_mem, issueTrap_wf, park_mem]

/-- Issue keeps memory canonical where the instruction's body does. -/
theorem issue_wf {f ok more w} {body : Nat → Group → Result} (h : Memory.wf s.mem = true)
    (hb : ∀ k g, Memory.wf (body k g).state.mem = true) : Out.Canonical (issue f ok more w s body) := by
  unfold issue
  split
  · exact canonical_fault _
  · next g hg =>
    have hbody := finish_wf (k := s.cur) (f := f) (w := w) h (hb s.cur g)
    repeat' split
    all_goals simp [h, hbody]

end Sys2Proof.Proofs.Canonical
end

section
/-!
PROOFS. Memory stays canonical: injected faults.
-/

namespace Sys2Proof.Proofs.Canonical

open Sys2Proof Sys2Proof.Machine Sys2Proof.Laws Sys2Proof.Proofs

variable {s : State}

@[simp] theorem putVec_mem {k w before after} : (s.putVec k w before after).mem = s.mem := by
  unfold State.putVec
  repeat' split
  all_goals rfl

end Sys2Proof.Proofs.Canonical
end

section
/-!
PROOFS. Memory stays canonical: the scalar instructions.
-/

namespace Sys2Proof.Proofs.Canonical

open Sys2Proof Sys2Proof.Machine Sys2Proof.Laws Sys2Proof.Proofs

variable {s : State}

theorem scalarAlu_wf {f ok w op} (h : Memory.wf s.mem = true) : Out.Canonical (scalarAlu f ok w s op) :=
  issue_wf h fun k g => by simpa using h

theorem execSmov_wf {w} (h : Memory.wf s.mem = true) : Out.Canonical (execSmov w s) :=
  scalarAlu_wf h

theorem execSadd_wf {w} (h : Memory.wf s.mem = true) : Out.Canonical (execSadd w s) :=
  scalarAlu_wf h

theorem execSsub_wf {w} (h : Memory.wf s.mem = true) : Out.Canonical (execSsub w s) :=
  scalarAlu_wf h

theorem execSmul_wf {w} (h : Memory.wf s.mem = true) : Out.Canonical (execSmul w s) :=
  scalarAlu_wf h

theorem execSmulh_wf {w} (h : Memory.wf s.mem = true) : Out.Canonical (execSmulh w s) :=
  scalarAlu_wf h

theorem execSdiv_wf {w} (h : Memory.wf s.mem = true) : Out.Canonical (execSdiv w s) :=
  scalarAlu_wf h

theorem execSrem_wf {w} (h : Memory.wf s.mem = true) : Out.Canonical (execSrem w s) :=
  scalarAlu_wf h

theorem execSmin_wf {w} (h : Memory.wf s.mem = true) : Out.Canonical (execSmin w s) :=
  scalarAlu_wf h

theorem execSmax_wf {w} (h : Memory.wf s.mem = true) : Out.Canonical (execSmax w s) :=
  scalarAlu_wf h

theorem execSand_wf {w} (h : Memory.wf s.mem = true) : Out.Canonical (execSand w s) :=
  scalarAlu_wf h

theorem execSor_wf {w} (h : Memory.wf s.mem = true) : Out.Canonical (execSor w s) :=
  scalarAlu_wf h

theorem execSxor_wf {w} (h : Memory.wf s.mem = true) : Out.Canonical (execSxor w s) :=
  scalarAlu_wf h

theorem execSandn_wf {w} (h : Memory.wf s.mem = true) : Out.Canonical (execSandn w s) :=
  scalarAlu_wf h

theorem execSshl_wf {w} (h : Memory.wf s.mem = true) : Out.Canonical (execSshl w s) :=
  scalarAlu_wf h

theorem execSshr_wf {w} (h : Memory.wf s.mem = true) : Out.Canonical (execSshr w s) :=
  scalarAlu_wf h

theorem execSsra_wf {w} (h : Memory.wf s.mem = true) : Out.Canonical (execSsra w s) :=
  scalarAlu_wf h

theorem execSclz_wf {w} (h : Memory.wf s.mem = true) : Out.Canonical (execSclz w s) :=
  scalarAlu_wf h

theorem execSpopc_wf {w} (h : Memory.wf s.mem = true) : Out.Canonical (execSpopc w s) :=
  scalarAlu_wf h

theorem execSbfx_wf {w} (h : Memory.wf s.mem = true) : Out.Canonical (execSbfx w s) :=
  scalarAlu_wf h

theorem execSbfi_wf {w} (h : Memory.wf s.mem = true) : Out.Canonical (execSbfi w s) :=
  scalarAlu_wf h

theorem execSlea_wf {w} (h : Memory.wf s.mem = true) : Out.Canonical (execSlea w s) :=
  scalarAlu_wf h

theorem execSmovi_wf {w} (h : Memory.wf s.mem = true) : Out.Canonical (execSmovi w s) :=
  issue_wf h fun k g => by simpa using h

theorem execScmp_wf {w} (h : Memory.wf s.mem = true) : Out.Canonical (execScmp w s) := by
  unfold execScmp
  refine issue_wf h fun k g => ?_
  simpa using h

theorem execSsel_wf {w} (h : Memory.wf s.mem = true) : Out.Canonical (execSsel w s) :=
  issue_wf h fun k g => by simpa using h

theorem execClog_wf {w} (h : Memory.wf s.mem = true) : Out.Canonical (execClog w s) :=
  issue_wf h fun k g => by simpa using h

end Sys2Proof.Proofs.Canonical
end

section
/-!
PROOFS. Memory stays canonical: the vector instructions.
-/

namespace Sys2Proof.Proofs.Canonical

open Sys2Proof Sys2Proof.Machine Sys2Proof.Laws Sys2Proof.Proofs

variable {s : State}

theorem vecInt_wf {f ok w sat op} (h : Memory.wf s.mem = true) : Out.Canonical (vecInt f ok w s sat op) :=
  issue_wf h fun k g => by simpa using h

theorem vecSat_wf {tys n w op} (h : Memory.wf s.mem = true) : Out.Canonical (vecSat tys n w s op) :=
  vecInt_wf h

theorem vecPlain_wf {tys n w op} (h : Memory.wf s.mem = true) : Out.Canonical (vecPlain tys n w s op) :=
  vecInt_wf h

theorem execVadd_wf {w} (h : Memory.wf s.mem = true) : Out.Canonical (execVadd w s) :=
  vecSat_wf h

theorem execVsub_wf {w} (h : Memory.wf s.mem = true) : Out.Canonical (execVsub w s) :=
  vecSat_wf h

theorem execVmul_wf {w} (h : Memory.wf s.mem = true) : Out.Canonical (execVmul w s) :=
  vecSat_wf h

theorem execVmulh_wf {w} (h : Memory.wf s.mem = true) : Out.Canonical (execVmulh w s) :=
  vecPlain_wf h

theorem execVmad_wf {w} (h : Memory.wf s.mem = true) : Out.Canonical (execVmad w s) :=
  vecSat_wf h

theorem execVmin_wf {w} (h : Memory.wf s.mem = true) : Out.Canonical (execVmin w s) :=
  vecPlain_wf h

theorem execVmax_wf {w} (h : Memory.wf s.mem = true) : Out.Canonical (execVmax w s) :=
  vecPlain_wf h

theorem execVabs_wf {w} (h : Memory.wf s.mem = true) : Out.Canonical (execVabs w s) :=
  vecSat_wf h

theorem execVneg_wf {w} (h : Memory.wf s.mem = true) : Out.Canonical (execVneg w s) :=
  vecSat_wf h

theorem execVand_wf {w} (h : Memory.wf s.mem = true) : Out.Canonical (execVand w s) :=
  vecPlain_wf h

theorem execVor_wf {w} (h : Memory.wf s.mem = true) : Out.Canonical (execVor w s) :=
  vecPlain_wf h

theorem execVxor_wf {w} (h : Memory.wf s.mem = true) : Out.Canonical (execVxor w s) :=
  vecPlain_wf h

theorem execVnot_wf {w} (h : Memory.wf s.mem = true) : Out.Canonical (execVnot w s) :=
  vecPlain_wf h

theorem execVshl_wf {w} (h : Memory.wf s.mem = true) : Out.Canonical (execVshl w s) :=
  vecPlain_wf h

theorem execVshr_wf {w} (h : Memory.wf s.mem = true) : Out.Canonical (execVshr w s) :=
  vecPlain_wf h

theorem execVsra_wf {w} (h : Memory.wf s.mem = true) : Out.Canonical (execVsra w s) :=
  vecPlain_wf h

theorem execVbfx_wf {w} (h : Memory.wf s.mem = true) : Out.Canonical (execVbfx w s) :=
  vecPlain_wf h

theorem execVbfi_wf {w} (h : Memory.wf s.mem = true) : Out.Canonical (execVbfi w s) :=
  vecPlain_wf h

theorem execVclz_wf {w} (h : Memory.wf s.mem = true) : Out.Canonical (execVclz w s) :=
  vecPlain_wf h

theorem execVpopc_wf {w} (h : Memory.wf s.mem = true) : Out.Canonical (execVpopc w s) :=
  vecPlain_wf h

theorem execVmov_wf {w} (h : Memory.wf s.mem = true) : Out.Canonical (execVmov w s) :=
  vecPlain_wf h

theorem execVmovi_wf {w} (h : Memory.wf s.mem = true) : Out.Canonical (execVmovi w s) :=
  issue_wf h fun k g => by simpa using h

theorem execVsel_wf {w} (h : Memory.wf s.mem = true) : Out.Canonical (execVsel w s) :=
  issue_wf h fun k g => by simpa using h

theorem execVcmp_wf {w} (h : Memory.wf s.mem = true) : Out.Canonical (execVcmp w s) := by
  unfold execVcmp
  refine issue_wf h fun k g => ?_
  simpa using h

theorem execVdot4_wf {w} (h : Memory.wf s.mem = true) : Out.Canonical (execVdot4 w s) :=
  issue_wf h fun k g => by simpa using h

theorem execVidx_wf {w} (h : Memory.wf s.mem = true) : Out.Canonical (execVidx w s) :=
  issue_wf h fun k g => by simpa using h

end Sys2Proof.Proofs.Canonical
end

section
/-!
PROOFS. Memory stays canonical: the floating-point instructions.
-/

namespace Sys2Proof.Proofs.Canonical

open Sys2Proof Sys2Proof.Machine Sys2Proof.Laws Sys2Proof.Proofs

variable {s : State}

theorem fpArith_wf {tys n w op} (h : Memory.wf s.mem = true) : Out.Canonical (fpArith tys n w s op) :=
  issue_wf h fun k g => by simpa using h

theorem execFadd_wf {w} (h : Memory.wf s.mem = true) : Out.Canonical (execFadd w s) :=
  fpArith_wf h

theorem execFsub_wf {w} (h : Memory.wf s.mem = true) : Out.Canonical (execFsub w s) :=
  fpArith_wf h

theorem execFmul_wf {w} (h : Memory.wf s.mem = true) : Out.Canonical (execFmul w s) :=
  fpArith_wf h

theorem execFfma_wf {w} (h : Memory.wf s.mem = true) : Out.Canonical (execFfma w s) :=
  fpArith_wf h

theorem execPkadd_wf {w} (h : Memory.wf s.mem = true) : Out.Canonical (execPkadd w s) :=
  fpArith_wf h

theorem execPkmul_wf {w} (h : Memory.wf s.mem = true) : Out.Canonical (execPkmul w s) :=
  fpArith_wf h

theorem execPkfma_wf {w} (h : Memory.wf s.mem = true) : Out.Canonical (execPkfma w s) :=
  fpArith_wf h

theorem fpMinMax_wf {w op} (h : Memory.wf s.mem = true) : Out.Canonical (fpMinMax w s op) :=
  issue_wf h fun k g => by simpa using h

theorem execFmin_wf {w} (h : Memory.wf s.mem = true) : Out.Canonical (execFmin w s) :=
  fpMinMax_wf h

theorem execFmax_wf {w} (h : Memory.wf s.mem = true) : Out.Canonical (execFmax w s) :=
  fpMinMax_wf h

theorem execFcmp_wf {w} (h : Memory.wf s.mem = true) : Out.Canonical (execFcmp w s) := by
  unfold execFcmp
  refine issue_wf h fun k g => ?_
  simpa using h

theorem execFcls_wf {w} (h : Memory.wf s.mem = true) : Out.Canonical (execFcls w s) :=
  issue_wf h fun k g => by simpa using h

theorem execFrndi_wf {w} (h : Memory.wf s.mem = true) : Out.Canonical (execFrndi w s) :=
  issue_wf h fun k g => by simpa using h

end Sys2Proof.Proofs.Canonical
end

section
/-!
PROOFS. Memory stays canonical: the conversions.
-/

namespace Sys2Proof.Proofs.Canonical

open Sys2Proof Sys2Proof.Machine Sys2Proof.Laws Sys2Proof.Proofs

variable {s : State}

theorem execCvt_wf {w} (h : Memory.wf s.mem = true) : Out.Canonical (execCvt w s) := by
  unfold execCvt
  refine issue_wf h fun k g => ?_
  simpa using h

theorem execCvte_wf {w} (h : Memory.wf s.mem = true) : Out.Canonical (execCvte w s) := by
  unfold execCvte
  refine issue_wf h fun k g => ?_
  simpa using h

theorem execCvtb_wf {w} (h : Memory.wf s.mem = true) : Out.Canonical (execCvtb w s) :=
  issue_wf h fun k g => by split <;> simp [h]

end Sys2Proof.Proofs.Canonical
end

section
/-!
PROOFS. Memory stays canonical: what a group under check folds, holds and logs.
-/

namespace Sys2Proof.Proofs.Canonical

open Sys2Proof Sys2Proof.Machine Sys2Proof.Laws Sys2Proof.Proofs

variable {s : State}

@[simp] theorem exposeHeld_wf {c} (h : Memory.wf s.mem = true) : Memory.wf (s.exposeHeld c).mem = true := by
  unfold State.exposeHeld
  split <;> simp [h]

@[simp] theorem release_wf {who scope} (h : Memory.wf s.mem = true) : Memory.wf (s.release who scope).mem = true := by
  unfold State.release
  repeat' split
  all_goals simp [h]

@[simp] theorem acquire_mem {who scope} : (s.acquire who scope).mem = s.mem := by
  unfold State.acquire
  split <;> rfl

theorem takeRefused_mem {k g r} (hr : s.takeRefused k g = some r) : r.state.mem = s.mem := by
  obtain ⟨c, -, rfl⟩ := Option.map_eq_some_iff.1 hr
  simp

@[simp] theorem releasing_wf {k g} {r : Result} (h : Memory.wf s.mem = true) (hr : Memory.wf r.state.mem = true) :
    Memory.wf (s.releasing k g r).state.mem = true := by
  unfold State.releasing
  cases hx : s.takeRefused k g with
  | none => exact hr
  | some x => simpa [takeRefused_mem hx] using h

@[simp] theorem addSignature_mem {who x} : (s.addSignature who x).mem = s.mem := by
  unfold State.addSignature
  repeat' split
  all_goals rfl

@[simp] theorem signBytes_mem {who kind va bs} : (s.signBytes who kind va bs).mem = s.mem := by
  unfold State.signBytes
  split <;> simp

@[simp] theorem signWrites_mem {who kind ws} : (s.signWrites who kind ws).mem = s.mem := by
  unfold State.signWrites
  split <;> simp

@[simp] theorem growLog_wf {c f} (h : Memory.wf s.mem = true) : Memory.wf (s.growLog c f).mem = true := by
  unfold State.growLog
  dsimp only
  repeat' split
  all_goals simp [h]

@[simp] theorem appendLog_wf {c gid i} (h : Memory.wf s.mem = true) : Memory.wf (s.appendLog c gid i).mem = true := by
  simp [State.appendLog, h]

@[simp] theorem fillLog_wf {c gid op n values fault} (h : Memory.wf s.mem = true) :
    Memory.wf (s.fillLog c gid op n values fault).mem = true := by
  simp [State.fillLog, h]

@[simp] theorem readLog_mem {c r k g op lanes operands} : (s.readLog c r k g op lanes operands).2.mem = s.mem := by
  unfold State.readLog
  repeat' split
  all_goals rfl

@[simp] theorem compareEffect_mem {who e} : (s.compareEffect who e).mem = s.mem := by
  unfold State.compareEffect
  split <;> rfl

@[simp] theorem stopRun_mem {k code slot} : (s.stopRun k code slot).mem = s.mem := by
  unfold State.stopRun
  split <;> simp

@[simp] theorem logFor_wf {who gid i} (h : Memory.wf s.mem = true) : Memory.wf (s.logFor who gid i).mem = true := by
  unfold State.logFor
  split <;> simp [h]

end Sys2Proof.Proofs.Canonical
end

section
/-!
PROOFS. Memory stays canonical: the fetch of clauses.
-/

namespace Sys2Proof.Proofs.Canonical

open Sys2Proof Sys2Proof.Machine Sys2Proof.Laws Sys2Proof.Proofs

variable {s : State}

@[simp] theorem tick_mem : (s.tick).mem = s.mem := by
  unfold State.tick
  split <;> rfl

@[simp] theorem illegalSlot_wf {k} (h : Memory.wf s.mem = true) : Memory.wf (s.illegalSlot k).mem = true := by
  unfold State.illegalSlot
  split <;> simp [h]

@[simp] theorem dropClause_mem {k} : (s.dropClause k).mem = s.mem := rfl

@[simp] theorem retryHolding_mem : (s.retryHolding).mem = s.mem := rfl

end Sys2Proof.Proofs.Canonical
end

section
/-!
PROOFS. Memory stays canonical: the clauses.
-/

namespace Sys2Proof.Proofs.Canonical

open Sys2Proof Sys2Proof.Machine Sys2Proof.Laws Sys2Proof.Proofs

variable {s : State}

@[simp] theorem fetchAnew_mem {who pa va} : (s.fetchAnew who pa va).2.mem = s.mem := by
  unfold State.fetchAnew
  repeat' split
  all_goals simp

@[simp] theorem fetchPhys_mem {who pa va} : (s.fetchPhys who pa va).2.mem = s.mem := by
  unfold State.fetchPhys
  dsimp only
  repeat' split
  all_goals simp

@[simp] theorem fetchLine_mem {who known va} : (s.fetchLine who known va).2.mem = s.mem := by
  unfold State.fetchLine
  split <;> simp

@[simp] theorem fetchClause_mem {fuel who known va k n} :
    (State.fetchClause fuel s who known va k n).2.mem = s.mem := by
  induction fuel generalizing s va k n with
  | zero => rfl
  | succ fuel ih =>
    unfold State.fetchClause
    grind -ring -linarith [fetchLine_mem]

theorem fetchAhead_mem {who known va z t} (ht : s.fetchAhead who known va = some (z, t)) : t.mem = s.mem := by
  unfold State.fetchAhead at ht
  grind -ring -linarith [fetchPhys_mem]

@[simp] theorem predecode_mem {who known entry width} : (s.predecode who known entry width).2.mem = s.mem := by
  unfold State.predecode
  dsimp only
  split
  · rfl
  · have hf := fetchClause_mem (s := s) (fuel := 9) (who := who) (known := known) (va := lineOf entry)
      (k := slotIndex entry) (n := 0)
    split
    · next heq => rw [heq] at hf; exact hf
    · next heq => rw [heq] at hf; exact hf
    · next heq => rw [heq] at hf; exact hf
    · next heq =>
      rw [heq] at hf
      split
      · exact hf
      · exact hf
      · split
        · split
          · exact hf
          · split
            · next ht => split <;> exact (fetchAhead_mem ht).trans hf
            · exact hf
        · exact hf

@[simp] theorem drawPrice_mem {core ctx price} : (s.drawPrice core ctx price).mem = s.mem := by
  unfold State.drawPrice
  split <;> rfl

@[simp] theorem feedWatchdog_mem {ctx} : (s.feedWatchdog ctx).mem = s.mem := rfl

@[simp] theorem loseOthers_mem {k g} : (s.loseOthers k g).mem = s.mem :=
  foldl_mem (fun _ _ => by simp) _

@[simp] theorem engineEntryTrap_wf {k c} (h : Memory.wf s.mem = true) :
    Memory.wf (s.engineEntryTrap k c).mem = true := by
  simp [State.engineEntryTrap, h]

@[simp] theorem endYields_mem {g} : (s.endYields g).mem = s.mem := rfl

@[simp] theorem startClause_mem {k g c price} : (s.startClause k g c price).mem = s.mem := by
  simp [State.startClause]

theorem execClauseIssue_wf {k} (h : Memory.wf s.mem = true) : Out.Canonical (execClauseIssue k s) := by
  unfold execClauseIssue
  split
  · simpa using h
  · next g _ =>
    have hp : Memory.wf (s.predecode (g.who k) g.walkFaults g.pc g.width).2.mem = true := by simp [h]
    split
    · simp [h]
    · split
      · next heq => simp [wf_of_snd hp heq]
      · next heq => split <;> simp [wf_of_snd hp heq, h]
      · next heq =>
        have hs1 := wf_of_snd hp heq
        split
        · simp [h]
        · split <;> split <;> simp [hs1, h]

theorem execStickyPriority_wf {k} (h : Memory.wf s.mem = true) : Out.Canonical (execStickyPriority k s) := by
  unfold execStickyPriority
  repeat' split
  all_goals simp [h]

theorem execTimerTrap_wf {k} (h : Memory.wf s.mem = true) : Out.Canonical (execTimerTrap k s) := by
  unfold execTimerTrap
  repeat' split
  all_goals simp [h]

end Sys2Proof.Proofs.Canonical
end

section
/-!
PROOFS. Memory stays canonical: rails, pounds and the teams that they save and restore.
-/

namespace Sys2Proof.Proofs.Canonical

open Sys2Proof Sys2Proof.Machine Sys2Proof.Laws Sys2Proof.Proofs

variable {s : State}

@[simp] theorem refactor_mem : (s.refactor).mem = s.mem := rfl

@[simp] theorem writeRail_mem {v} : (s.writeRail v).mem = s.mem := by
  unfold State.writeRail
  dsimp only
  repeat' split
  all_goals rfl

@[simp] theorem railReached_mem {vector} : (s.railReached vector).mem = s.mem := rfl

theorem execRailCtl_wf {value} (h : Memory.wf s.mem = true) : Out.Canonical (execRailCtl value s) := by
  simp [execRailCtl, h]

theorem execRailVoltageReached_wf (h : Memory.wf s.mem = true) : Out.Canonical (execRailVoltageReached s) := by
  unfold execRailVoltageReached
  dsimp only
  repeat' split
  all_goals simp [h]

@[simp] theorem ackPound_mem {key code} : (s.ackPound key code).mem = s.mem := by
  simp [State.ackPound]

@[simp] theorem quietCore_mem {core} : (s.quietCore core).mem = s.mem := rfl

@[simp] theorem beginGating_mem {key} : (s.beginGating key).mem = s.mem := rfl

@[simp] theorem commitGating_mem {key} : (s.commitGating key).mem = s.mem :=
  foldl_mem (fun _ _ => by simp) _

@[simp] theorem beginQuiet_mem {key} : (s.beginQuiet key).mem = s.mem :=
  foldl_mem (fun _ _ => by simp) _

@[simp] theorem endSave_mem {key} : (s.endSave key).mem = s.mem := rfl

@[simp] theorem beginClkoff_mem {key} : (s.beginClkoff key).mem = s.mem := by
  unfold State.beginClkoff
  grind -ring -linarith [modCore_mem, modPound_mem, ackPound_mem, foldl_mem]

@[simp] theorem reachRun_mem {key code} : (s.reachRun key code).mem = s.mem := by
  unfold State.reachRun
  grind -ring -linarith [modCore_mem, modPound_mem, ackPound_mem, beginGating_mem, foldl_mem]

@[simp] theorem endRestore_mem {key} : (s.endRestore key).mem = s.mem := by
  unfold State.endRestore
  grind -ring -linarith [freeBool_mem, modPound_mem, reachRun_mem, modCore_mem, foldl_mem]

@[simp] theorem wakePound_mem {key} : (s.wakePound key).mem = s.mem := by
  unfold State.wakePound
  dsimp only
  split <;> simp

@[simp] theorem cancelGating_mem {key} : (s.cancelGating key).mem = s.mem := by
  simp [State.cancelGating]

@[simp] theorem dispatchAt_mem {key} : (s.dispatchAt key).mem = s.mem := by
  unfold State.dispatchAt
  repeat' split
  all_goals simp

@[simp] theorem saveArray_mem {t} : (s.saveArray t).mem = s.mem := by
  unfold State.saveArray
  dsimp only
  repeat' split
  all_goals rfl

@[simp] theorem saveTeam_mem {t place} : (s.saveTeam t place).mem = s.mem := by
  unfold State.saveTeam
  grind -ring -linarith [saveArray_mem, modGroup_mem, markIdle_mem, modTeam_mem, foldl_mem]

@[simp] theorem regainArray_mem {t} : (s.regainArray t).mem = s.mem := by
  unfold State.regainArray
  repeat' split
  all_goals rfl

@[simp] theorem endPoisoned_wf {t} (h : Memory.wf s.mem = true) : Memory.wf (s.endPoisoned t).mem = true := by
  unfold State.endPoisoned
  repeat' split
  all_goals simp [h]

@[simp] theorem restoreTeam_wf {t} (h : Memory.wf s.mem = true) : Memory.wf (s.restoreTeam t).mem = true := by
  unfold State.restoreTeam
  grind -ring -linarith [modTeam_mem, modGroup_mem, modCore_mem, regainArray_mem, endPoisoned_wf, resumeQueues_mem,
    foldl_wf]

@[simp] theorem partDone_mem {ctx result} : (s.partDone ctx result).mem = s.mem := by
  simp [State.partDone]

@[simp] theorem tryRestore_wf {ctx} (h : Memory.wf s.mem = true) : Memory.wf (s.tryRestore ctx).mem = true := by
  unfold State.tryRestore
  grind -ring -linarith [dispatchAt_mem, modPart_mem, partDone_mem, restoreTeam_wf, foldl_wf]

@[simp] theorem settleRestores_wf (h : Memory.wf s.mem = true) : Memory.wf (s.settleRestores).mem = true :=
  foldl_wf (fun _ _ ha => by simp [ha]) h

@[simp] theorem writePdCtl_mem {key v} : (s.writePdCtl key v).mem = s.mem := by
  unfold State.writePdCtl
  dsimp only
  repeat' split
  all_goals simp

@[simp] theorem writePdWake_mem {key v} : (s.writePdWake key v).mem = s.mem := by
  unfold State.writePdWake
  split <;> simp

theorem execPdCtl_wf {die pound value} (h : Memory.wf s.mem = true) : Out.Canonical (execPdCtl die pound value s) := by
  unfold execPdCtl
  split <;> simp [h]

theorem execPdWake_wf {die pound value} (h : Memory.wf s.mem = true) :
    Out.Canonical (execPdWake die pound value s) := by
  unfold execPdWake
  split <;> simp [h]

theorem execAutoidleExpiry_wf {die pound} (h : Memory.wf s.mem = true) :
    Out.Canonical (execAutoidleExpiry die pound s) := by
  unfold execAutoidleExpiry
  dsimp only
  split <;> simp [h]

theorem execPoundStateComplete_wf {die pound} (h : Memory.wf s.mem = true) :
    Out.Canonical (execPoundStateComplete die pound s) := by
  unfold execPoundStateComplete
  dsimp only
  repeat' split
  all_goals simp [h]

theorem execDroopFire_wf {die pound} (h : Memory.wf s.mem = true) : Out.Canonical (execDroopFire die pound s) := by
  unfold execDroopFire
  dsimp only
  split <;> simp [h]

theorem execDroopHoldExpiry_wf {die pound} (h : Memory.wf s.mem = true) :
    Out.Canonical (execDroopHoldExpiry die pound s) := by
  unfold execDroopHoldExpiry
  dsimp only
  split <;> simp [h]

end Sys2Proof.Proofs.Canonical
end

section
/-!
PROOFS. Memory stays canonical: the partitions.
-/

namespace Sys2Proof.Proofs.Canonical

open Sys2Proof Sys2Proof.Machine Sys2Proof.Laws Sys2Proof.Proofs

variable {s : State}

@[simp] theorem recordAt_mem {pa n} : (s.recordAt pa n).2.mem = s.mem := by
  unfold State.recordAt
  repeat' split
  all_goals simp

@[simp] theorem clearVault_wf {ctx} (h : Memory.wf s.mem = true) : Memory.wf (s.clearVault ctx).mem = true := by
  unfold State.clearVault
  grind -ring -linarith [zeroRange_wf, foldl_wf]

@[simp] theorem installPartition_wf {d map window} (h : Memory.wf s.mem = true) :
    Memory.wf (s.installPartition d map window).mem = true := by
  simp [State.installPartition, h]

@[simp] theorem createPartition_wf {ctx} (h : Memory.wf s.mem = true) :
    Memory.wf (s.createPartition ctx).mem = true := by
  unfold State.createPartition
  grind -ring -linarith [partDone_mem, recordAt_mem, installPartition_wf]

@[simp] theorem endHubGroups_mem {ctx} : (s.endHubGroups ctx).mem = s.mem := by
  simp [State.endHubGroups]

@[simp] theorem switchOut_mem {ctx} : (s.switchOut ctx).mem = s.mem := by
  unfold State.switchOut
  repeat' split
  all_goals simp

@[simp] theorem haltPartition_wf {ctx} (h : Memory.wf s.mem = true) : Memory.wf (s.haltPartition ctx).mem = true := by
  unfold State.haltPartition
  grind -ring -linarith [stopQueues_wf, modPart_mem, drainAll_wf, foldl_wf]

@[simp] theorem saveImage_mem {ctx} : (s.saveImage ctx).mem = s.mem := by
  simp [State.saveImage]

@[simp] theorem switchIn_wf {ctx} (h : Memory.wf s.mem = true) : Memory.wf (s.switchIn ctx).mem = true := by
  unfold State.switchIn
  repeat' split
  all_goals simp [h]

@[simp] theorem loseLaunches_mem {ctx} : (s.loseLaunches ctx).mem = s.mem := rfl

@[simp] theorem resetPartition_wf {ctx} (h : Memory.wf s.mem = true) : Memory.wf (s.resetPartition ctx).mem = true := by
  unfold State.resetPartition
  grind -ring -linarith [discardCheck_wf, removeTeam_mem, dropBlocks_mem, loseLaunches_mem, endHubGroups_mem,
    modPart_mem, clearVault_wf, partDone_mem, foldl_wf]

@[simp] theorem resetCommand_wf {ctx} (h : Memory.wf s.mem = true) : Memory.wf (s.resetCommand ctx).mem = true := by
  unfold State.resetCommand
  split <;> simp [h]

@[simp] theorem dropOwed_mem {ctx} : (s.dropOwed ctx).mem = s.mem := by
  simp [State.dropOwed]

@[simp] theorem destroyPartition_mem {ctx} : (s.destroyPartition ctx).mem = s.mem := by
  unfold State.destroyPartition
  dsimp only
  split <;> simp

@[simp] theorem partCommand_wf {op ctx} (h : Memory.wf s.mem = true) : Memory.wf (s.partCommand op ctx).mem = true := by
  unfold State.partCommand
  repeat' split
  all_goals simp [h]

theorem execCreate_wf {ctx} (h : Memory.wf s.mem = true) : Out.Canonical (execCreate ctx s) := by
  simp [execCreate, h]

theorem execSwitchout_wf {ctx} (h : Memory.wf s.mem = true) : Out.Canonical (execSwitchout ctx s) := by
  simp [execSwitchout, h]

theorem execSwitchin_wf {ctx} (h : Memory.wf s.mem = true) : Out.Canonical (execSwitchin ctx s) := by
  simp [execSwitchin, h]

theorem execReset_wf {ctx} (h : Memory.wf s.mem = true) : Out.Canonical (execReset ctx s) := by
  simp [execReset, h]

theorem execDestroy_wf {ctx} (h : Memory.wf s.mem = true) : Out.Canonical (execDestroy ctx s) := by
  simp [execDestroy, h]

theorem execPartitionImageSave_wf {ctx} (h : Memory.wf s.mem = true) :
    Out.Canonical (execPartitionImageSave ctx s) := by
  unfold execPartitionImageSave
  repeat' split
  all_goals simp [h]

theorem execSaveTimerExpiry_wf {ctx} (h : Memory.wf s.mem = true) : Out.Canonical (execSaveTimerExpiry ctx s) := by
  unfold execSaveTimerExpiry
  repeat' split
  all_goals simp [h]

theorem execHangWatchdogExpiry_wf {ctx} (h : Memory.wf s.mem = true) :
    Out.Canonical (execHangWatchdogExpiry ctx s) := by
  unfold execHangWatchdogExpiry
  repeat' split
  all_goals simp [h]

end Sys2Proof.Proofs.Canonical
end

section
/-!
PROOFS. Memory stays canonical: the placement of launches and the fences.
-/

namespace Sys2Proof.Proofs.Canonical

open Sys2Proof Sys2Proof.Machine Sys2Proof.Laws Sys2Proof.Proofs

variable {s : State}

@[simp] theorem failPlacement_mem {seq} : (s.failPlacement seq).mem = s.mem := by
  unfold State.failPlacement
  grind -ring -linarith [withdraw_mem, advanceLaunch_mem, modLaunch_mem, foldl_mem]

@[simp] theorem testPlacement_mem {seq} : (s.testPlacement seq).mem = s.mem := by
  unfold State.testPlacement
  repeat' split
  all_goals simp

@[simp] theorem retest_mem {d} : (s.retest d).mem = s.mem := by
  simp [State.retest]

theorem execFenceTakesEffect_wf {die site} (h : Memory.wf s.mem = true) :
    Out.Canonical (execFenceTakesEffect die site s) := by
  unfold execFenceTakesEffect
  split <;> simp [h]

end Sys2Proof.Proofs.Canonical
end

section
/-!
PROOFS. Memory stays canonical: resets and firmware.
-/

namespace Sys2Proof.Proofs.Canonical

open Sys2Proof Sys2Proof.Machine Sys2Proof.Laws Sys2Proof.Proofs

variable {s : State}

@[simp] theorem dieResetCheck_wf {d k} (h : Memory.wf s.mem = true) : Memory.wf (s.dieResetCheck d k).mem = true := by
  unfold State.dieResetCheck
  split <;> simp [h]

@[simp] theorem dieResetTeam_mem {t} : (s.dieResetTeam t).mem = s.mem := by
  unfold State.dieResetTeam
  repeat' split
  all_goals simp

@[simp] theorem dieResetCluster_mem {k} : (s.dieResetCluster k).mem = s.mem := by
  unfold State.dieResetCluster
  repeat' split
  all_goals simp

@[simp] theorem endTouching_wf {d} (h : Memory.wf s.mem = true) : Memory.wf (s.endTouching d).mem = true :=
  foldl_wf (fun _ _ ha => by simp [ha]) h

@[simp] theorem quiesceDie_wf {d} (h : Memory.wf s.mem = true) : Memory.wf (s.quiesceDie d).mem = true := by
  simp [State.quiesceDie, h]

@[simp] theorem beginWriteback_mem {d} : (s.beginWriteback d).mem = s.mem := by
  simp [State.beginWriteback]

@[simp] theorem completeAppends_wf {d} (h : Memory.wf s.mem = true) : Memory.wf (s.completeAppends d).mem = true := by
  unfold State.completeAppends
  grind -ring -linarith [setBytes_wf, sealNow_mem, publish_mem, foldl_wf]

@[simp] theorem clearDieVault_wf {d} (h : Memory.wf s.mem = true) : Memory.wf (s.clearDieVault d).mem = true := by
  unfold State.clearDieVault
  grind -ring -linarith [zeroRange_wf]

@[simp] theorem resetDie_wf {d} (h : Memory.wf s.mem = true) : Memory.wf (s.resetDie d).mem = true := by
  unfold State.resetDie
  grind -ring -linarith [clearDieVault_wf, completeAppends_wf, endTouching_wf, resetPartition_wf, modDie_mem, foldl_wf]

@[simp] theorem toStep_mem {d n} : (s.toStep d n).mem = s.mem := by
  simp [State.toStep]

theorem execDrStepEnd_wf {die} (h : Memory.wf s.mem = true) : Out.Canonical (execDrStepEnd die s) := by
  unfold execDrStepEnd
  grind -ring -linarith [toStep_mem, drainWhere_wf, beginWriteback_mem, resetDie_wf, modDie_mem, retest_mem,
    canonical_next]

@[simp] theorem writeDrCtl_wf {d v} (h : Memory.wf s.mem = true) : Memory.wf (s.writeDrCtl d v).mem = true := by
  unfold State.writeDrCtl
  split <;> simp [h]

theorem execDrCtl_wf {die value} (h : Memory.wf s.mem = true) : Out.Canonical (execDrCtl die value s) := by
  simp [execDrCtl, h]

@[simp] theorem imageAt_mem {pa len} : (s.imageAt pa len).2.mem = s.mem := by
  unfold State.imageAt
  split <;> simp

@[simp] theorem writeFwUpdate_mem {v} : (s.writeFwUpdate v).mem = s.mem := by
  unfold State.writeFwUpdate
  dsimp only
  repeat' split
  all_goals simp

theorem execFwUpdCmd_wf {value} (h : Memory.wf s.mem = true) : Out.Canonical (execFwUpdCmd value s) := by
  simp [execFwUpdCmd, h]

@[simp] theorem cleared_wf (h : Memory.wf s.mem = true) : Memory.wf (s.cleared).mem = true := by
  unfold State.cleared
  grind -ring -linarith [clearDieVault_wf]

@[simp] theorem bootFlash_mem : (s.bootFlash).mem = s.mem := by
  unfold State.bootFlash
  repeat' split
  all_goals rfl

theorem execColdReset_wf (h : Memory.wf s.mem = true) : Out.Canonical (execColdReset s) := by
  unfold execColdReset
  dsimp only
  split <;> simp [h]

@[simp] theorem endRecovery_mem : (s.endRecovery).mem = s.mem := by
  unfold State.endRecovery
  repeat' split
  all_goals simp

theorem execRcvGo_wf {write} (h : Memory.wf s.mem = true) : Out.Canonical (execRcvGo write s) := by
  unfold execRcvGo
  repeat' split
  all_goals simp [h]

@[simp] theorem startHubGroup_mem {h1 addr} : (s.startHubGroup h1 addr).mem = s.mem := by
  unfold State.startHubGroup
  dsimp only
  repeat' split
  all_goals rfl

theorem execHcGo_wf {hub addr} (h : Memory.wf s.mem = true) : Out.Canonical (execHcGo hub addr s) := by
  simp [execHcGo, h]

@[simp] theorem ringDoorbell_mem {h1 gid} : (s.ringDoorbell h1 gid).mem = s.mem := rfl

theorem execDoorbell_wf {hub gid} (h : Memory.wf s.mem = true) : Out.Canonical (execDoorbell hub gid s) := by
  unfold execDoorbell
  split <;> simp [h]

@[simp] theorem debugResume_mem : (s.debugResume).mem = s.mem := by
  unfold State.debugResume
  dsimp only
  repeat' split
  all_goals simp

@[simp] theorem debugEnd_wf (h : Memory.wf s.mem = true) : Memory.wf (s.debugEnd).mem = true := by
  unfold State.debugEnd
  split <;> simp [h]

theorem execDbgResumeGroup_wf (h : Memory.wf s.mem = true) : Out.Canonical (execDbgResumeGroup s) := by
  simp [execDbgResumeGroup, h]

theorem execDbgEndTeam_wf (h : Memory.wf s.mem = true) : Out.Canonical (execDbgEndTeam s) := by
  simp [execDbgEndTeam, h]

end Sys2Proof.Proofs.Canonical
end

section
/-!
PROOFS. Memory stays canonical: management space.
-/

namespace Sys2Proof.Proofs.Canonical

open Sys2Proof Sys2Proof.Machine Sys2Proof.Laws Sys2Proof.Proofs

variable {s : State}

@[simp] theorem addFrame_mem {d ctx big pa} : (s.addFrame d ctx big pa).mem = s.mem := by
  unfold State.addFrame
  dsimp only
  repeat' split
  all_goals rfl

theorem execFtp64_wf {die ctx addr} (h : Memory.wf s.mem = true) : Out.Canonical (execFtp64 die ctx addr s) := by
  simp [execFtp64, h]

theorem execFtp2m_wf {die ctx addr} (h : Memory.wf s.mem = true) : Out.Canonical (execFtp2m die ctx addr s) := by
  simp [execFtp2m, h]

@[simp] theorem bindQueue_mem {q v} : (s.bindQueue q v).mem = s.mem := by
  unfold State.bindQueue
  split <;> rfl

theorem execQBind_wf {queue value} (h : Memory.wf s.mem = true) : Out.Canonical (execQBind queue value s) := by
  unfold execQBind
  split <;> simp [h]

@[simp] theorem writeInject_mem {d v} : (s.writeInject d v).mem = s.mem := by
  unfold State.writeInject
  split <;> rfl

theorem execSlInject_wf {die value} (h : Memory.wf s.mem = true) : Out.Canonical (execSlInject die value s) := by
  simp [execSlInject, h]

@[simp] theorem writePound_mem {key i v} : (s.writePound key i v).mem = s.mem := by
  unfold State.writePound
  repeat' split
  all_goals simp

@[simp] theorem writeDieReg_wf {d off v} (h : Memory.wf s.mem = true) :
    Memory.wf (s.writeDieReg d off v).mem = true := by
  unfold State.writeDieReg
  repeat' split
  all_goals simp [h]

@[simp] theorem writeHubReg_wf {off v} (h : Memory.wf s.mem = true) : Memory.wf (s.writeHubReg off v).mem = true := by
  unfold State.writeHubReg
  repeat' with_reducible apply ite_wf
  all_goals simp [h]

@[simp] theorem writeReg_wf {pa v} (h : Memory.wf s.mem = true) : Memory.wf (s.writeReg pa v).mem = true := by
  unfold State.writeReg
  repeat' split
  all_goals simp [h]

theorem execMgmtRegisterWrite_wf {addr value} (h : Memory.wf s.mem = true) :
    Out.Canonical (execMgmtRegisterWrite addr value s) := by
  unfold execMgmtRegisterWrite
  split <;> simp [h]

end Sys2Proof.Proofs.Canonical
end

section
/-!
PROOFS. Memory stays canonical: the accesses of lanes.
-/

namespace Sys2Proof.Proofs.Canonical

open Sys2Proof Sys2Proof.Machine Sys2Proof.Laws Sys2Proof.Proofs

variable {s : State}

theorem run_wf {r : Routed} {perform : List Ready → State} (h : Memory.wf s.mem = true)
    (hp : Memory.wf (perform r.ready).mem = true) : Memory.wf (r.run s perform).state.mem = true := by
  unfold Routed.run
  repeat' split
  all_goals assumption

@[simp] theorem readPiece_mem {who p} : (s.readPiece who p).state.mem = s.mem := by
  unfold State.readPiece
  repeat' split
  all_goals simp

@[simp] theorem readPieces_mem {who ps} : (s.readPieces who ps).state.mem = s.mem := by
  refine foldl_keeps (fun a : Got => a.state.mem) _ (fun a p => ?_) ps _
  exact readPiece_mem

@[simp] theorem readLanes_mem {who rs} : (s.readLanes who rs).state.mem = s.mem :=
  foldl_keeps (fun a : LanesRead => a.state.mem) _ (fun _ r =>
    foldl_keeps (fun b : List (List Byte) × Option (Nat × Nat) × State => b.2.2.mem) _ (fun _ _ => readPieces_mem) r.accesses _)
    rs _

@[simp] theorem readLogged_wf {k g op rs} (h : Memory.wf s.mem = true) :
    Memory.wf (s.readLogged k g op rs).2.mem = true := by
  unfold State.readLogged
  grind -ring -linarith [readLanes_mem, readLog_mem, logFor_wf]

@[simp] theorem departLoad_mem {k w dests writes fault} : (s.departLoad k w dests writes fault).mem = s.mem := rfl

@[simp] theorem takeLines_wf {c r ls} (h : Memory.wf s.mem = true) : Memory.wf (s.takeLines c r ls).mem = true := by
  induction ls generalizing s with
  | nil => exact h
  | cons l ls ih =>
    refine ih ?_
    split <;> simp [h]

@[simp] theorem takeFresh_wf {c r lines} (h : Memory.wf s.mem = true) :
    Memory.wf (s.takeFresh c r lines).mem = true := by
  simp [State.takeFresh, h]

@[simp] theorem holdBytes_wf {who ws} {direct : State → State} (h : Memory.wf s.mem = true)
    (hd : ∀ t : State, Memory.wf t.mem = true → Memory.wf (direct t).mem = true) :
    Memory.wf (s.holdBytes who direct ws).mem = true := by
  unfold State.holdBytes
  dsimp only
  repeat' split
  all_goals simp [h, hd]

@[simp] theorem writeOut_wf {who so va ws} (h : Memory.wf s.mem = true) :
    Memory.wf (s.writeOut who so va ws).mem = true := by
  unfold State.writeOut
  extract_lets d buffered late now s1 s2 s3
  have hs1 : Memory.wf s1.mem = true := foldl_wf (fun a l ha => bufferStore_wf ha) h
  have hs2 : Memory.wf s2.mem = true := by
    refine foldl_wf (fun a l ha => ?_) hs1
    grind -ring -linarith [drainLine_wf, tokenHome_mem, tokenWrite_mem]
  have hs3 : Memory.wf s3.mem = true := by
    simp only [s3]
    split <;> simp [hs2]
  simpa using hs3

@[simp] theorem storePiece_wf {k p bs} (h : Memory.wf s.mem = true) : Memory.wf (s.storePiece k p bs).1.mem = true := by
  unfold State.storePiece
  dsimp only
  repeat' split
  all_goals simp [h]

@[simp] theorem storePieces_wf {k ps bs} (h : Memory.wf s.mem = true) :
    Memory.wf (s.storePieces k ps bs).1.mem = true := by
  induction ps generalizing s bs with
  | nil => exact h
  | cons p ps ih => exact ih (storePiece_wf h)

@[simp] theorem storeAll_wf {k g xs} (h : Memory.wf s.mem = true) : Memory.wf (s.storeAll k g xs).mem = true := by
  unfold State.storeAll
  extract_lets who so signed out direct
  have hsigned : Memory.wf signed.mem = true := by simpa [signed] using h
  have hout : Memory.wf out.1.mem = true := by
    refine foldl_holds (fun a : State × Writes => Memory.wf a.1.mem = true) _ (fun a x ha => ?_) xs _ hsigned
    exact storePieces_wf ha
  split
  · exact hout
  · exact holdBytes_wf hout fun t ht => writeOut_wf ht

@[simp] theorem releaseThen_wf {k g scope} {r : State → Result} (h : Memory.wf s.mem = true)
    (hr : ∀ t : State, Memory.wf t.mem = true → Memory.wf (r t).state.mem = true) :
    Memory.wf (s.releaseThen k g scope r).state.mem = true := by
  refine releasing_wf h ?_
  split
  · exact release_wf h
  · exact hr _ (release_wf h)

@[simp] theorem asStore_wf {k g rel scope} {r : State → Result} (h : Memory.wf s.mem = true)
    (hr : ∀ t : State, Memory.wf t.mem = true → Memory.wf (r t).state.mem = true) :
    Memory.wf (s.asStore k g rel scope r).state.mem = true := by
  unfold State.asStore
  split
  · exact releaseThen_wf h hr
  · exact hr s h

theorem storeForm_wf {k g w} {r : State → Result} (h : Memory.wf s.mem = true)
    (hr : ∀ t : State, Memory.wf t.mem = true → Memory.wf (r t).state.mem = true) :
    Memory.wf (s.storeForm k g w r).state.mem = true := asStore_wf h hr

@[simp] theorem foldLanes_mem {who op lanes a b c imm} : (s.foldLanes who op lanes a b c imm).mem = s.mem := by
  simp [State.foldLanes]

@[simp] theorem foldOnce_mem {who op a b c imm} : (s.foldOnce who op a b c imm).mem = s.mem := by
  simp [State.foldOnce]

@[simp] theorem differs_mem {k g} : (s.differs k g).state.mem = s.mem := by
  simp [State.differs]

end Sys2Proof.Proofs.Canonical
end

section
/-!
PROOFS. Memory stays canonical: control transfer, barriers and waits.
-/

namespace Sys2Proof.Proofs.Canonical

open Sys2Proof Sys2Proof.Machine Sys2Proof.Laws Sys2Proof.Proofs

variable {s : State}

@[simp] theorem takeBranch_mem {k g w target link} : (s.takeBranch k g w target link).state.mem = s.mem := by
  have hf := fetchLine_mem (s := s) (who := g.who k) (known := g.walkFaults) (va := lineOf target)
  unfold State.takeBranch
  grind -ring -linarith [modGroup_mem, branchTo_mem, Result.state_moved, Result.state_trap, Result.state_park]

theorem execBra_wf {w} (h : Memory.wf s.mem = true) : Out.Canonical (execBra w s) :=
  issue_wf h fun k g => by simpa using h

theorem execBrc_wf {w} (h : Memory.wf s.mem = true) : Out.Canonical (execBrc w s) := by
  unfold execBrc
  refine issue_wf h fun k g => ?_
  split <;> simpa using h

theorem execBrv_wf {w} (h : Memory.wf s.mem = true) : Out.Canonical (execBrv w s) := by
  unfold execBrv
  refine issue_wf h fun k g => ?_
  dsimp only
  repeat' split
  all_goals simp [h]

theorem execBri_wf {w} (h : Memory.wf s.mem = true) : Out.Canonical (execBri w s) :=
  issue_wf h fun k g => by simpa using h

theorem execRet_wf {w} (h : Memory.wf s.mem = true) : Out.Canonical (execRet w s) :=
  issue_wf h fun k g => by simpa using h

theorem execCall_wf {w} (h : Memory.wf s.mem = true) : Out.Canonical (execCall w s) := by
  unfold execCall
  grind -ring -linarith [issue_wf, takeBranch_mem]

theorem execNop_wf {w} (h : Memory.wf s.mem = true) : Out.Canonical (execNop w s) :=
  issue_wf h fun k g => by simpa using h

@[simp] theorem yieldOn_mem {k w} : (s.yieldOn k w).state.mem = s.mem := by
  simp [State.yieldOn]

theorem execYield_wf {w} (h : Memory.wf s.mem = true) : Out.Canonical (execYield w s) :=
  issue_wf h fun k g => by simpa using h

theorem execIfence_wf {w} (h : Memory.wf s.mem = true) : Out.Canonical (execIfence w s) :=
  issue_wf h fun k g => by simpa using h

theorem execSigf_wf {w} (h : Memory.wf s.mem = true) : Out.Canonical (execSigf w s) :=
  issue_wf h fun k g => by simpa using h

@[simp] theorem beginWait_mem {k g w kind} : (s.beginWait k g w kind).mem = s.mem := by
  simp [State.beginWait]

@[simp] theorem endWait_mem {k} : (s.endWait k).mem = s.mem := rfl

theorem execSleep_wf {w} (h : Memory.wf s.mem = true) : Out.Canonical (execSleep w s) :=
  issue_wf h fun k g => by
    dsimp only
    repeat' split
    all_goals simp [h]

theorem execSleepExpiry_wf {k} (h : Memory.wf s.mem = true) : Out.Canonical (execSleepExpiry k s) := by
  unfold execSleepExpiry
  repeat' split
  all_goals simp [h]

@[simp] theorem takeBarTrap_wf {k} (h : Memory.wf s.mem = true) : Memory.wf (s.takeBarTrap k).mem = true := by
  unfold State.takeBarTrap
  repeat' split
  all_goals simp [h]

@[simp] theorem settleBarTrap_wf {k} (h : Memory.wf s.mem = true) : Memory.wf (s.settleBarTrap k).mem = true := by
  unfold State.settleBarTrap
  repeat' split
  all_goals simp [h]

@[simp] theorem barDeadlock_wf {team} (h : Memory.wf s.mem = true) : Memory.wf (s.barDeadlock team).mem = true := by
  unfold State.barDeadlock
  grind -ring -linarith [takeBarTrap_wf, foldl_wf]

theorem execBar_wf {w} (h : Memory.wf s.mem = true) : Out.Canonical (execBar w s) :=
  issue_wf h fun k g => by simp [h]

theorem execBarrierComplete_wf {team b} (h : Memory.wf s.mem = true) :
    Out.Canonical (execBarrierComplete team b s) := by
  unfold execBarrierComplete
  grind -ring -linarith [endWait_mem, barDeadlock_wf, foldl_wf, canonical_next]

theorem execCbarArrive_wf {w} (h : Memory.wf s.mem = true) : Out.Canonical (execCbarArrive w s) := by
  unfold execCbarArrive
  extract_lets dest
  refine issue_wf h fun k g => releasing_wf h ?_
  refine ite_wf ?_ ?_ <;> simp [h]

theorem execCbarWait_wf {w} (h : Memory.wf s.mem = true) : Out.Canonical (execCbarWait w s) :=
  issue_wf h fun k g => by
    dsimp only
    repeat' split
    all_goals simp [h]

@[simp] theorem wakeCluster_mem {c phase} : (s.wakeCluster c phase).mem = s.mem := by
  refine foldl_mem (fun a t => ?_) _
  split
  · refine foldl_mem (fun b k => ?_) _
    repeat' split
    all_goals simp
  · rfl

theorem execCbarPhaseComplete_wf {cluster} (h : Memory.wf s.mem = true) :
    Out.Canonical (execCbarPhaseComplete cluster s) := by
  unfold execCbarPhaseComplete
  repeat' split
  all_goals simp [h]

@[simp] theorem takeArrayFault_wf {k g c slot} (h : Memory.wf s.mem = true) :
    Memory.wf (s.takeArrayFault k g c slot).mem = true := by
  unfold State.takeArrayFault
  split <;> simp [h]

@[simp] theorem takeEngineFault_wf {k g f} (h : Memory.wf s.mem = true) :
    Memory.wf (s.takeEngineFault k g f).mem = true := by
  unfold State.takeEngineFault
  split <;> simp [h]

@[simp] theorem seeCopies_mem {k n} : (s.seeCopies k n).mem = s.mem := by
  unfold State.seeCopies
  split <;> rfl

@[simp] theorem pokeWait_wf {k} (h : Memory.wf s.mem = true) : Memory.wf (s.pokeWait k).mem = true := by
  unfold State.pokeWait
  repeat' split
  all_goals simp [h]

theorem execWaitc_wf {w} (h : Memory.wf s.mem = true) : Out.Canonical (execWaitc w s) := by
  unfold execWaitc
  refine issue_wf h fun k g => ?_
  split
  · next r hr => rw [takeRefused_mem hr]; exact h
  · simp [h]

theorem execWaitb_wf {w} (h : Memory.wf s.mem = true) : Out.Canonical (execWaitb w s) := by
  unfold execWaitb
  extract_lets scope
  refine issue_wf h fun k g => ?_
  dsimp only
  split
  · exact h
  · split
    · next hr => rw [takeRefused_mem hr]; exact h
    · simp [h]

theorem execWaitcComplete_wf {k} (h : Memory.wf s.mem = true) : Out.Canonical (execWaitcComplete k s) := by
  unfold execWaitcComplete
  repeat' split
  all_goals simp [h]

theorem execWaitbComplete_wf {k} (h : Memory.wf s.mem = true) : Out.Canonical (execWaitbComplete k s) := by
  unfold execWaitbComplete
  repeat' split
  all_goals simp [h]

@[simp] theorem tryExit_wf {k} (h : Memory.wf s.mem = true) : Memory.wf (s.tryExit k).mem = true := by
  unfold State.tryExit
  repeat' split
  all_goals simp [h]

theorem execExit_wf {w} (h : Memory.wf s.mem = true) : Out.Canonical (execExit w s) :=
  issue_wf h fun k g => by
    repeat' split
    all_goals simp [h]

end Sys2Proof.Proofs.Canonical
end

section
/-!
PROOFS. Memory stays canonical: loads, stores, atomics and fences.
-/

namespace Sys2Proof.Proofs.Canonical

open Sys2Proof Sys2Proof.Machine Sys2Proof.Laws Sys2Proof.Proofs

variable {s : State}

@[simp] theorem loadLanes_wf {k g w op dests accesses place} (h : Memory.wf s.mem = true) :
    Memory.wf (s.loadLanes k g w op dests accesses place).state.mem = true := by
  unfold State.loadLanes
  dsimp only
  split
  · exact h
  · refine run_wf h ?_
    split
    · exact h
    · have hs1 : Memory.wf (if memAcq w then s.acquire (g.who k) (memScope w) else s).mem = true := by split <;> simp [h]
      split
      · next heq => simp [wf_of_snd (readLogged_wf hs1) heq]
      · next heq => simp [wf_of_snd (readLogged_wf hs1) heq]

@[simp] theorem storeLanes_wf {k g w accesses data} (h : Memory.wf s.mem = true) :
    Memory.wf (s.storeLanes k g w accesses data).state.mem = true := by
  refine storeForm_wf h fun t ht => ?_
  dsimp only
  split
  · exact ht
  · exact run_wf ht (storeAll_wf ht)

theorem execLd_wf {w} (h : Memory.wf s.mem = true) : Out.Canonical (execLd w s) :=
  issue_wf h fun k g => by simp [h]

theorem execSt_wf {w} (h : Memory.wf s.mem = true) : Out.Canonical (execSt w s) :=
  issue_wf h fun k g => by simp [h]

theorem execLdv_wf {w} (h : Memory.wf s.mem = true) : Out.Canonical (execLdv w s) :=
  issue_wf h fun k g => by simp [h]

theorem execStv_wf {w} (h : Memory.wf s.mem = true) : Out.Canonical (execStv w s) :=
  issue_wf h fun k g => by simp [h]

theorem execSld_wf {w} (h : Memory.wf s.mem = true) : Out.Canonical (execSld w s) := by
  unfold execSld
  refine issue_wf h fun k g => ?_
  dsimp only
  split
  · exact h
  · exact h
  · split
    · exact h
    · have hs1 : Memory.wf (if w.mod.getLsbD 3 then s.acquire (g.who k) (scalarScope w) else s).mem = true := by
        split <;> simp [h]
      split
      · next heq => simp [wf_of_snd (readLogged_wf hs1) heq]
      · next heq => simp [wf_of_snd (readLogged_wf hs1) heq]

theorem execSst_wf {w} (h : Memory.wf s.mem = true) : Out.Canonical (execSst w s) := by
  unfold execSst
  refine issue_wf h fun k g => asStore_wf h fun t ht => ?_
  split
  · exact ht
  · exact ht
  · split
    · exact ht
    · exact storeAll_wf ht

@[simp] theorem writePad_mem {team ws} : (s.writePad team ws).mem = s.mem := rfl

@[simp] theorem perturbPad_mem {team} : (s.perturbPad team).mem = s.mem := by
  unfold State.perturbPad
  split <;> rfl

theorem padRun_wf {r : PadRoute} (h : Memory.wf s.mem = true) : Memory.wf (r.run s).state.mem = true := by
  unfold PadRoute.run
  split <;> exact h

theorem execLdp_wf {w} (h : Memory.wf s.mem = true) : Out.Canonical (execLdp w s) := by
  unfold execLdp
  refine issue_wf h fun k g => ?_
  dsimp only
  split
  · exact h
  · next r _ =>
    have hs1 : Memory.wf (if memAcq w then s.acquire (g.who k) (memScope w) else s).mem = true := by
      split <;> simp [h]
    split
    · exact padRun_wf h
    · split
      · exact padRun_wf (by simpa using hs1)
      · split
        · next c run _ =>
          split
          · next heq => exact padRun_wf (by simp [wf_of_snd (by simp [hs1]) heq])
          · next heq => simp [wf_of_snd (by simp [hs1]) heq]
        · exact padRun_wf (by simp [hs1])

theorem execStp_wf {w} (h : Memory.wf s.mem = true) : Out.Canonical (execStp w s) := by
  unfold execStp
  refine issue_wf h fun k g => storeForm_wf h fun t ht => ?_
  dsimp only
  split
  · exact ht
  · split
    · exact padRun_wf (by simpa using ht)
    · split
      · exact padRun_wf (by simpa using ht)
      · refine padRun_wf ?_
        split <;> simpa using ht

@[simp] theorem atomLane_wf {who origin w l p y cmp} (h : Memory.wf s.mem = true) :
    Memory.wf (s.atomLane who origin w l p y cmp).state.mem = true := by
  unfold State.atomLane
  dsimp only
  repeat' split
  all_goals simp [h]

@[simp] theorem atomLanes_wf {who origin g w rs} (h : Memory.wf s.mem = true) :
    Memory.wf (s.atomLanes who origin g w rs).state.mem = true := by
  refine foldl_holds (fun a : AtomDone => Memory.wf a.state.mem = true) _ (fun a x ha => ?_) rs _ h
  dsimp only
  split
  · exact atomLane_wf ha
  · exact ha

@[simp] theorem atomFinish_mem {k w olds fault} : (s.atomFinish k w olds fault).mem = s.mem := by
  unfold State.atomFinish
  repeat' split
  all_goals rfl

@[simp] theorem atomFold_mem {who g w op lanes addr} : (s.atomFold who g w op lanes addr).mem = s.mem := by
  unfold State.atomFold
  split <;> simp

theorem atomLogged_wf {k g w op lanes addr} {perform : State → Option Nat → AtomDone} (h : Memory.wf s.mem = true)
    (hp : ∀ (t : State) o, Memory.wf t.mem = true → Memory.wf (perform t o).state.mem = true) :
    Memory.wf (s.atomLogged k g w op lanes addr perform).mem = true := by
  unfold State.atomLogged
  dsimp only
  split
  · simpa using hp s none h
  · next c _ =>
    have hx := hp (s.atomFold (g.who k) g w op lanes addr) (some c) (by simpa using h)
    split <;> simp [hx]
  · next c run _ =>
    split
    · simpa using h
    · split
      · next heq => simp [wf_of_snd (by simp [h]) heq]
      · next heq => simp [wf_of_snd (by simp [h]) heq]

theorem ordered_wf {k g w} {r : State → Result} (h : Memory.wf s.mem = true)
    (hr : ∀ t : State, Memory.wf t.mem = true → Memory.wf (r t).state.mem = true) :
    Memory.wf (s.ordered k g w r).state.mem = true := by
  refine storeForm_wf h fun t ht => hr _ ?_
  split <;> simp [ht]

theorem execAtom_wf {w} (h : Memory.wf s.mem = true) : Out.Canonical (execAtom w s) := by
  unfold execAtom
  refine issue_wf h fun k g => ordered_wf h fun t ht => ?_
  dsimp only
  split
  · exact foldl_wf (fun a x ha => by simp [ha]) ht
  · refine run_wf ht ?_
    split
    · exact ht
    · exact atomLogged_wf ht fun t o ht => atomLanes_wf ht

@[simp] theorem satomLane_mem {g w team l off} : (s.satomLane g w team l off).state.mem = s.mem := by
  unfold State.satomLane
  dsimp only
  repeat' split
  all_goals rfl

theorem execSatom_wf {w} (h : Memory.wf s.mem = true) : Out.Canonical (execSatom w s) := by
  unfold execSatom
  refine issue_wf h fun k g => ordered_wf h fun t ht => ?_
  dsimp only
  split
  · exact ht
  · next r _ =>
    have hperform : ∀ a : State, Memory.wf a.mem = true → Memory.wf (r.ready.foldl (fun (d : AtomDone) p =>
          let x := d.state.satomLane g w r.team p.1 p.2
          { olds := d.olds ++ x.olds, fault := firstFault d.fault x.fault, state := x.state })
          { olds := [], fault := none, state := a }).state.mem = true := fun a ha =>
      foldl_holds (fun d : AtomDone => Memory.wf d.state.mem = true) _ (fun d p hd => by simp [hd]) r.ready _ ha
    split
    · exact padRun_wf ht
    · split
      · exact padRun_wf (atomLogged_wf ht fun a _ ha => hperform a ha)
      · exact padRun_wf (by simpa using hperform t ht)

theorem execLdsx_wf {w} (h : Memory.wf s.mem = true) : Out.Canonical (execLdsx w s) :=
  issue_wf h fun k g => by simp [h]

theorem execFence_wf {w} (h : Memory.wf s.mem = true) : Out.Canonical (execFence w s) := by
  unfold execFence
  refine issue_wf h fun k g => ?_
  dsimp only
  split
  · refine releaseThen_wf h fun t ht => ?_
    split <;> simp [ht]
  · refine releasing_wf h ?_
    split <;> simp [h]

@[simp] theorem prefetch_mem {who va} : (s.prefetch who va).mem = s.mem := by
  unfold State.prefetch
  dsimp only
  repeat' split
  all_goals simp

theorem execPref_wf {w} (h : Memory.wf s.mem = true) : Out.Canonical (execPref w s) :=
  issue_wf h fun k g => by simpa using h

@[simp] theorem flushHalf_mem {inv half} : (s.flushHalf inv half).mem = s.mem := by
  unfold State.flushHalf
  dsimp only
  repeat' split
  all_goals rfl

@[simp] theorem flushLines_wf {pa len inv} (h : Memory.wf s.mem = true) :
    Memory.wf (s.flushLines pa len inv).mem = true := by
  unfold State.flushLines
  grind -ring -linarith [drainWhere_wf, setTokens_mem, flushHalf_mem, dropLine_mem, foldl_wf]

@[simp] theorem flushPage_wf {who va} (h : Memory.wf s.mem = true) : Memory.wf (s.flushPage who va).2.2.mem = true := by
  unfold State.flushPage
  repeat' split
  all_goals simp [h]

@[simp] theorem flushAll_wf {who inv first parts} (h : Memory.wf s.mem = true) :
    Memory.wf (s.flushAll who inv first parts).1.mem = true := by
  refine foldl_holds (fun a : State × Nat => Memory.wf a.1.mem = true) _ (fun a p ha => ?_) parts _ h
  have hp := flushPage_wf (who := who) (va := p.1) ha
  split
  · next heq => rw [heq] at hp; exact flushLines_wf hp
  · next heq => rw [heq] at hp; exact hp

theorem execCflush_wf {w} (h : Memory.wf s.mem = true) : Out.Canonical (execCflush w s) :=
  issue_wf h fun k g => by
    dsimp only
    repeat' split
    all_goals simp [h]

end Sys2Proof.Proofs.Canonical
end

section
/-!
PROOFS. Memory stays canonical: the append instructions.
-/

namespace Sys2Proof.Proofs.Canonical

open Sys2Proof Sys2Proof.Machine Sys2Proof.Laws Sys2Proof.Proofs

variable {s : State}

@[simp] theorem reserve_mem {e len check} : (s.reserve e len check).mem = s.mem := rfl

@[simp] theorem signLanes_mem {who va each bs} : (s.signLanes who va each bs).mem = s.mem := by
  simp [State.signLanes]

@[simp] theorem holdAppend_mem {who c r e o each bs} : (s.holdAppend who c r e o each bs).mem = s.mem := by
  simp [State.holdAppend]

@[simp] theorem departAppend_mem {k w lanes ans task} : (s.departAppend k w lanes ans task).mem = s.mem := rfl

@[simp] theorem append_wf {k g w lanes e va} (h : Memory.wf s.mem = true) :
    Memory.wf (s.append k g w lanes e va).mem = true := by
  unfold State.append
  grind -ring -linarith [readLog_mem, holdAppend_mem, takeFresh_wf, departAppend_mem, stopRun_mem, logFor_wf,
    reserve_mem, homeEnter_wf, countError_mem]

theorem execApnd_wf {w} (h : Memory.wf s.mem = true) : Out.Canonical (execApnd w s) :=
  issue_wf h fun k g => by
    dsimp only
    repeat' split
    all_goals simp [h]

theorem execAppendComplete_wf {frame offset} (h : Memory.wf s.mem = true) :
    Out.Canonical (execAppendComplete frame offset s) := by
  simp [execAppendComplete, h]

theorem execApst_wf {w} (h : Memory.wf s.mem = true) : Out.Canonical (execApst w s) := by
  unfold execApst
  refine issue_wf h fun k g => ?_
  dsimp only
  split
  · exact h
  · exact h
  · split
    · split
      · next heq => simp [wf_of_snd (by simp [h]) heq]
      · next heq => simp [wf_of_snd (by simp [h]) heq]
    · simp [h]

theorem execSeal_wf {w} (h : Memory.wf s.mem = true) : Out.Canonical (execSeal w s) := by
  unfold execSeal
  refine issue_wf h fun k g => ?_
  dsimp only
  split
  · exact h
  · exact h
  · split
    · split
      · split
        · next heq => simp [wf_of_snd (by simp [h]) heq]
        · next heq => simp [wf_of_snd (by simp [h]) heq]
      · simp [h]
    · repeat' split
      all_goals simp [h]

theorem execSealComplete_wf {frame} (h : Memory.wf s.mem = true) : Out.Canonical (execSealComplete frame s) := by
  simp [execSealComplete, h]

end Sys2Proof.Proofs.Canonical
end

section
/-!
PROOFS. Memory stays canonical: the system instructions.
-/

namespace Sys2Proof.Proofs.Canonical

open Sys2Proof Sys2Proof.Machine Sys2Proof.Laws Sys2Proof.Proofs

variable {s : State}

theorem execSrds_wf {w} (h : Memory.wf s.mem = true) : Out.Canonical (execSrds w s) := by
  unfold execSrds
  extract_lets vec n
  refine issue_wf h fun k g => ?_
  dsimp only
  repeat' split
  all_goals simpa using h

@[simp] theorem setSpecial_mem {k g n v} : (s.setSpecial k g n v).mem = s.mem := by
  unfold State.setSpecial
  repeat' split
  all_goals rfl

theorem execSwrs_wf {w} (h : Memory.wf s.mem = true) : Out.Canonical (execSwrs w s) := by
  unfold execSwrs
  extract_lets n
  refine issue_wf h fun k g => ?_
  split <;> simp [h]

theorem execTrap_wf {w} (h : Memory.wf s.mem = true) : Out.Canonical (execTrap w s) :=
  issue_wf h fun k g => by simpa using h

@[simp] theorem debugStop_mem {k g} : (s.debugStop k g).state.mem = s.mem := by
  unfold State.debugStop
  split <;> simp

theorem execDbrk_wf {w} (h : Memory.wf s.mem = true) : Out.Canonical (execDbrk w s) :=
  issue_wf h fun k g => by split <;> simp [h]

theorem execEret_wf {w} (h : Memory.wf s.mem = true) : Out.Canonical (execEret w s) :=
  issue_wf h fun k g => by
    dsimp only
    repeat' split
    all_goals simp [h]

@[simp] theorem zeroFrame_wf {pa len} (h : Memory.wf s.mem = true) : Memory.wf (s.zeroFrame pa len).mem = true := by
  unfold State.zeroFrame
  grind -ring -linarith [zeroRange_wf, perturb_mem, touchWatches_mem]

@[simp] theorem countWalk_mem {ctx va big} : (s.countWalk ctx va big).mem = s.mem := by
  unfold State.countWalk
  split <;> simp

@[simp] theorem mapPage_wf {ctx die attr big a e} (h : Memory.wf s.mem = true) :
    Memory.wf (s.mapPage ctx die attr big a e).2.2.mem = true := by
  unfold State.mapPage
  repeat' split
  all_goals simp [h]

theorem execPmap_wf {w} (h : Memory.wf s.mem = true) : Out.Canonical (execPmap w s) := by
  unfold execPmap
  refine issue_wf h fun k g => ?_
  dsimp only
  split
  · exact h
  · split
    · exact h
    · split
      · exact h
      · split
        · exact h
        · cases s.mapWalk g.ctx (s.scalarSource g w w.a).toNat (ptePS (s.scalarSource g w w.b).toNat) with
          | format => simp [h]
          | error a => simp [h]
          | absent => simp [h]
          | entry a e => simp [h]

theorem execPfree_wf {w} (h : Memory.wf s.mem = true) : Out.Canonical (execPfree w s) :=
  issue_wf h fun k g => by
    dsimp only
    repeat' split
    all_goals simp [h]

@[simp] theorem invalidate_wf {ctx va len scope die} (h : Memory.wf s.mem = true) :
    Memory.wf (s.invalidate ctx va len scope die).mem = true := by
  unfold State.invalidate
  grind -ring -linarith [dropTranslations_mem, drainAll_wf]

theorem execTlbi_wf {w} (h : Memory.wf s.mem = true) : Out.Canonical (execTlbi w s) := by
  unfold execTlbi
  extract_lets all scope wait named range
  refine issue_wf h fun k g => ?_
  dsimp only
  repeat' split
  all_goals simp [h]

@[simp] theorem pokeHalt_mem {k} : (s.pokeHalt k).mem = s.mem := by
  unfold State.pokeHalt
  repeat' split
  all_goals rfl

theorem execHaltc_wf {w} (h : Memory.wf s.mem = true) : Out.Canonical (execHaltc w s) :=
  issue_wf h fun k g => by
    dsimp only
    repeat' split
    all_goals simp [h]

theorem execHaltcWake_wf {k} (h : Memory.wf s.mem = true) : Out.Canonical (execHaltcWake k s) := by
  simp [execHaltcWake, h]

theorem execKlaunch_wf {w} (h : Memory.wf s.mem = true) : Out.Canonical (execKlaunch w s) := by
  unfold execKlaunch
  extract_lets byIndex
  refine issue_wf h fun k g => ?_
  refine ite_state_wf h ?_
  split
  · exact h
  · exact h
  · refine releasing_wf h ?_
    dsimp only
    split
    · split
      · next heq => simp [wf_of_snd (by simp [h]) heq]
      · next heq => simp [wf_of_snd (by simp [h]) heq]
    · simp [h]

end Sys2Proof.Proofs.Canonical
end

section
/-!
PROOFS. Memory stays canonical: the cross-lane instructions.
-/

namespace Sys2Proof.Proofs.Canonical

open Sys2Proof Sys2Proof.Machine Sys2Proof.Laws Sys2Proof.Proofs

variable {s : State}

theorem execShfl_wf {w} (h : Memory.wf s.mem = true) : Out.Canonical (execShfl w s) :=
  issue_wf h fun k g => by simpa using h

theorem execVrdl_wf {w} (h : Memory.wf s.mem = true) : Out.Canonical (execVrdl w s) :=
  issue_wf h fun k g => by
    dsimp only
    repeat' split
    all_goals simp [h]

theorem execVwrl_wf {w} (h : Memory.wf s.mem = true) : Out.Canonical (execVwrl w s) :=
  issue_wf h fun k g => by
    dsimp only
    repeat' split
    all_goals simp [h]

theorem execVred_wf {w} (h : Memory.wf s.mem = true) : Out.Canonical (execVred w s) :=
  issue_wf h fun k g => by simpa using h

theorem execVscan_wf {w} (h : Memory.wf s.mem = true) : Out.Canonical (execVscan w s) :=
  issue_wf h fun k g => by simpa using h

theorem execVote_wf {w} (h : Memory.wf s.mem = true) : Out.Canonical (execVote w s) := by
  unfold execVote
  extract_lets form
  exact issue_wf h fun k g => by simpa using h

theorem execQmov_wf {w} (h : Memory.wf s.mem = true) : Out.Canonical (execQmov w s) :=
  issue_wf h fun k g => by simpa using h

theorem execQlog_wf {w} (h : Memory.wf s.mem = true) : Out.Canonical (execQlog w s) :=
  issue_wf h fun k g => by simpa using h

theorem execQcnt_wf {w} (h : Memory.wf s.mem = true) : Out.Canonical (execQcnt w s) := by
  unfold execQcnt
  extract_lets mode
  exact issue_wf h fun k g => by simpa using h

end Sys2Proof.Proofs.Canonical
end

section
/-!
PROOFS. Memory stays canonical: the accesses of engines.
-/

namespace Sys2Proof.Proofs.Canonical

open Sys2Proof Sys2Proof.Machine Sys2Proof.Laws Sys2Proof.Proofs

variable {s : State}

@[simp] theorem basinWrite_mem {team b pos off bs marks} : (s.basinWrite team b pos off bs marks).mem = s.mem := by
  unfold State.basinWrite
  split <;> rfl

@[simp] theorem engineKeep_mem {core e} : (s.engineKeep core e).mem = s.mem := by
  unfold State.engineKeep
  split <;> rfl

@[simp] theorem engineWalk_wf {who va kind} (h : Memory.wf s.mem = true) :
    Memory.wf (s.engineWalk who va kind).2.mem = true := by
  unfold State.engineWalk
  grind -ring -linarith [walkFor_wf, engineKeep_mem]

@[simp] theorem engineXlat_wf {who va kind} (h : Memory.wf s.mem = true) :
    Memory.wf (s.engineXlat who va kind).2.mem = true := by
  unfold State.engineXlat
  repeat' split
  all_goals simp [h]

@[simp] theorem enginePieces_wf {who kind l} (h : Memory.wf s.mem = true) :
    Memory.wf (s.enginePieces who kind l).2.mem = true := by
  induction l generalizing s with
  | nil => exact h
  | cons p rest ih =>
    unfold State.enginePieces
    have hx : Memory.wf (s.engineXlat who p.1 kind).2.mem = true := by simp [h]
    split
    · next heq => exact wf_of_snd hx heq
    · next heq =>
      have hs1 := wf_of_snd hx heq
      dsimp only
      split
      · exact hs1
      · split
        · simpa using hs1
        · split
          · exact hs1
          · split
            · next hrest => exact wf_of_snd (ih hs1) hrest
            · exact ih hs1

@[simp] theorem engineRead_mem {who ps} : (s.engineRead who ps).state.mem = s.mem := by
  refine foldl_keeps (fun a : EngineGot => a.state.mem) _ (fun a p => ?_) ps _
  dsimp only
  split <;> simp

@[simp] theorem engineCommit_wf {who origin ws} (h : Memory.wf s.mem = true) :
    Memory.wf (s.engineCommit who origin ws).mem = true := by
  unfold State.engineCommit
  grind -ring -linarith [tokenHome_mem, drainLine_wf, commit_wf, foldl_wf]

@[simp] theorem taint_mem {who held lines} : (s.taint who held lines).mem = s.mem := by
  unfold State.taint
  grind -ring -linarith [modRun_mem, setPoison_mem, foldl_mem]

/-- The registers that an engine writes, one after another. -/
theorem writeRegs_wf {ps : List (Piece × List Byte)} (h : Memory.wf s.mem = true) :
    Memory.wf (ps.foldl (fun a p => a.writeReg p.1.pa (bytesWord p.2)) s).mem = true := by
  induction ps generalizing s with
  | nil => exact h
  | cons p ps ih =>
    rw [List.foldl_cons]
    exact ih (writeReg_wf h)

@[simp] theorem engineWrite_wf {who checked marks xs} (h : Memory.wf s.mem = true) :
    Memory.wf (s.engineWrite who checked marks xs).mem = true := by
  unfold State.engineWrite
  extract_lets parts isReg ws s0 origin signed s1 later
  have hs0 : Memory.wf s0.mem = true := writeRegs_wf h
  have hs1 : Memory.wf s1.mem = true := by
    unfold s1
    split
    · have hsigned : Memory.wf signed.mem = true := by simp [signed, hs0]
      exact ite_wf hsigned (holdBytes_wf hsigned fun t ht => by simp [ht])
    · split <;> simp [hs0]
  split <;> simp [hs1]

@[simp] theorem drainFor_wf {who ranges} (h : Memory.wf s.mem = true) :
    Memory.wf (s.drainFor who ranges).mem = true := by
  unfold State.drainFor
  split <;> simp [h]

end Sys2Proof.Proofs.Canonical
end

section
/-!
PROOFS. Memory stays canonical: the engine instructions and their steps.
-/

namespace Sys2Proof.Proofs.Canonical

open Sys2Proof Sys2Proof.Machine Sys2Proof.Laws Sys2Proof.Proofs

variable {s : State}

@[simp] theorem submit_mem {k g o} : (s.submit k g o).mem = s.mem := rfl

@[simp] theorem admitOp_wf {k g o touched} (h : Memory.wf s.mem = true) :
    Memory.wf (s.admitOp k g o touched).state.mem = true := by
  unfold State.admitOp
  split <;> simp [h]

@[simp] theorem rangeTrap_mem {g} : (rangeTrap s g).state.mem = s.mem := rfl

@[simp] theorem recordFault_mem {g} : (recordFault s g).state.mem = s.mem := rfl

theorem execTrec_wf {w} (h : Memory.wf s.mem = true) : Out.Canonical (execTrec w s) := by
  unfold execTrec
  refine issue_wf h fun k g => ?_
  dsimp only
  split
  · exact h
  · split
    · exact h
    · exact h
    · split
      · next heq => simp [wf_of_snd (readLogged_wf h) heq]
      · next heq =>
        have hs1 := wf_of_snd (readLogged_wf h) heq
        repeat' split
        all_goals simp [hs1]

theorem execBcfg_wf {w} (h : Memory.wf s.mem = true) : Out.Canonical (execBcfg w s) :=
  issue_wf h fun k g => by
    dsimp only
    repeat' split
    all_goals simp [h]

@[simp] theorem moveBasin_mem {k g w ok old b} : (s.moveBasin k g w ok old b).mem = s.mem := by
  unfold State.moveBasin
  split <;> rfl

@[simp] theorem basinLogged_wf {k g op n ok old} (h : Memory.wf s.mem = true) :
    Memory.wf (s.basinLogged k g op n ok old).2.mem = true := by
  unfold State.basinLogged
  grind -ring -linarith [logFor_wf, readLog_mem]

@[simp] theorem basinMove_wf {k g w op n ok release old moved} (h : Memory.wf s.mem = true) :
    Memory.wf (s.basinMove k g w op n ok release old moved).state.mem = true := by
  unfold State.basinMove
  have hb : Memory.wf (s.basinLogged k g op n ok old).2.mem = true := by simp [h]
  split
  · next heq => simp [wf_of_snd hb heq]
  · exact h
  · next heq =>
    have hs1 := wf_of_snd hb heq
    dsimp only
    split
    · exact releasing_wf hs1 (by simp [hs1])
    · simp [hs1]

theorem execBput_wf {w} (h : Memory.wf s.mem = true) : Out.Canonical (execBput w s) :=
  issue_wf h fun k g => by grind -ring -linarith [rangeTrap_mem, basinMove_wf]

theorem execBtake_wf {w} (h : Memory.wf s.mem = true) : Out.Canonical (execBtake w s) :=
  issue_wf h fun k g => by grind -ring -linarith [rangeTrap_mem, basinMove_wf]

theorem execCpyb_wf {w} (h : Memory.wf s.mem = true) : Out.Canonical (execCpyb w s) :=
  issue_wf h fun k g => by simp [h]

theorem execCpy_wf {w} (h : Memory.wf s.mem = true) : Out.Canonical (execCpy w s) := by
  unfold execCpy
  grind -ring -linarith [issue_wf, recordFault_mem, rangeTrap_mem, admitOp_wf]

theorem copyPair_refused_mem {g w ok r} (hr : s.copyPair g w ok = .inr r) : r.state.mem = s.mem := by
  unfold State.copyPair at hr
  dsimp only at hr
  split at hr
  · split at hr
    · cases hr
      rfl
    · cases hr
  · cases hr
    rfl

@[simp] theorem foldCopy_mem {k g op w a} : (s.foldCopy k g op w a).mem = s.mem := by
  simp [State.foldCopy]

theorem execCpyx_wf {w} (h : Memory.wf s.mem = true) : Out.Canonical (execCpyx w s) := by
  unfold execCpyx
  refine issue_wf h fun k g => ?_
  dsimp only
  split
  · next hr => rw [copyPair_refused_mem hr]; exact h
  · refine ite_state_wf h (ite_state_wf h ?_)
    simp [h]

theorem execCpyr_wf {w} (h : Memory.wf s.mem = true) : Out.Canonical (execCpyr w s) := by
  unfold execCpyr
  extract_lets peer port
  refine issue_wf h fun k g => ?_
  dsimp only
  split
  · next hr => rw [copyPair_refused_mem hr]; exact h
  · refine ite_state_wf h (ite_state_wf h ?_)
    simp [h]

theorem execGath_wf {w} (h : Memory.wf s.mem = true) : Out.Canonical (execGath w s) :=
  issue_wf h fun k g => by grind -ring -linarith [recordFault_mem, rangeTrap_mem, admitOp_wf]

@[simp] theorem queueFault_wf {o code} (h : Memory.wf s.mem = true) : Memory.wf (s.queueFault o code).mem = true := by
  simp [State.queueFault, h]

@[simp] theorem engineFault_wf {key o code va ends} (h : Memory.wf s.mem = true) :
    Memory.wf (s.engineFault key o code va ends).mem = true := by
  unfold State.engineFault
  grind -ring -linarith [modOp_mem, modGroup_mem, queueFault_wf, tryExit_wf, pokeWait_wf]

@[simp] theorem sizesDiffer_wf {g round} (h : Memory.wf s.mem = true) :
    Memory.wf (s.sizesDiffer g round).state.mem = true := by
  unfold State.sizesDiffer
  refine foldl_wf (fun a x ha => ?_) ?_
  · split <;> simp [ha]
  · simp [h]

theorem execColl_wf {w} (h : Memory.wf s.mem = true) : Out.Canonical (execColl w s) := by
  unfold execColl
  extract_lets op all
  refine issue_wf h fun k g => ?_
  extract_lets t who root size round takes outs s0
  split
  · refine ite_state_wf h (ite_state_wf (by simp [h]) (ite_state_wf h ?_))
    extract_lets s1 start
    have hs1 : Memory.wf s1.mem = true := ite_wf (by simp [s0, h]) (by simp [s0, h])
    have hstart : ∀ a logged tainted, Memory.wf a.mem = true → Memory.wf (start a logged tainted).state.mem = true :=
      fun a logged tainted ha => by simp [start, ha]
    split
    · refine ite_state_wf (hstart _ _ _ hs1) ?_
      split
      · next heq => exact hstart _ _ _ (wf_of_snd (by simp [hs1]) heq)
      · next heq => simp [wf_of_snd (by simp [hs1]) heq]
    · exact ite_state_wf (hstart _ _ _ hs1) (hstart _ _ _ (by simp [hs1]))
  · exact h

theorem stepRead_wf {o ps x} (h : Memory.wf s.mem = true) (hx : s.stepRead o ps = some x) :
    Memory.wf x.1.state.mem = true := by
  unfold State.stepRead at hx
  dsimp only at hx
  split at hx
  · cases hx; simp [h]
  · split at hx
    · cases hx; simp [h]
    · cases hx; simp [h]
    · split at hx
      · obtain ⟨e, -, rfl⟩ := Option.map_eq_some_iff.1 hx
        simp [h]
      · cases hx; simp [h]

@[simp] theorem stepDiffers_mem {o} : (s.stepDiffers o).state.mem = s.mem := by
  simp [State.stepDiffers]

/-- The state that a match on a read row names. -/
theorem wf_of_row {r r' : RowGot} (h : Memory.wf r.state.mem = true) (e : r = r') :
    Memory.wf r'.state.mem = true := e ▸ h

@[simp] theorem readRow_wf {o r units} (h : Memory.wf s.mem = true) :
    Memory.wf (s.readRow o r units).state.mem = true := by
  unfold State.readRow
  have hp : Memory.wf (s.enginePieces (s.opWho o) .read (unitParts units)).2.mem = true := enginePieces_wf h
  dsimp only
  split
  · next heq => exact wf_of_snd hp heq
  · next heq =>
    have hs1 := wf_of_snd hp heq
    split
    · exact hs1
    · next hread => exact stepRead_wf hs1 hread

/-- The state that a match on a written row names. -/
theorem wf_of_written {α β : Type} {x y : Sum (State × α) (State × β)}
    (h : Memory.wf (Sum.elim Prod.fst Prod.fst x).mem = true) (e : x = y) :
    Memory.wf (Sum.elim Prod.fst Prod.fst y).mem = true := e ▸ h

/-- The state that a written row, or the halt before it, carries. -/
@[simp] theorem writeRow_wf {o checked bound units ds marks} (h : Memory.wf s.mem = true) :
    Memory.wf (Sum.elim Prod.fst Prod.fst (s.writeRow o checked bound units ds marks)).mem = true := by
  unfold State.writeRow
  have hp : Memory.wf (s.enginePieces (s.opWho o) .write (unitParts units)).2.mem = true := enginePieces_wf h
  dsimp only
  split
  · next heq => exact wf_of_snd hp heq
  · next heq =>
    have hs1 := wf_of_snd hp heq
    split
    · exact hs1
    · exact engineWrite_wf hs1

@[simp] theorem checkRow_wf {o units} (h : Memory.wf s.mem = true) : Memory.wf (s.checkRow o units).2.mem = true := by
  unfold State.checkRow
  grind -ring -linarith [enginePieces_wf]

@[simp] theorem tensorRow_wf {o checked a b origin last} (h : Memory.wf s.mem = true) :
    Memory.wf (s.tensorRow o checked a b origin last).state.mem = true := by
  unfold State.tensorRow
  have hc : Memory.wf (s.checkRow o (b.row origin o.prog)).2.mem = true := checkRow_wf h
  split
  · next heq => exact wf_of_snd hc heq
  · next heq =>
    have hs1 := wf_of_snd hc heq
    split
    · next hread => exact wf_of_row (readRow_wf hs1) hread
    · next hread => simpa using wf_of_row (readRow_wf hs1) hread
    · next hread =>
      have hs2 := wf_of_row (readRow_wf hs1) hread
      split
      · next hwrite => exact wf_of_written (writeRow_wf hs2) hwrite
      · next hwrite => exact wf_of_written (writeRow_wf hs2) hwrite

@[simp] theorem cpyStep_wf {o t src dst origin} (h : Memory.wf s.mem = true) :
    Memory.wf (s.cpyStep o t src dst origin).state.mem = true := by
  unfold State.cpyStep
  split
  · split
    · exact tensorRow_wf h
    · exact h
  · split
    · next a _ =>
      split
      · next hread => exact wf_of_row (readRow_wf h) hread
      · next hread => simpa using wf_of_row (readRow_wf h) hread
      · next hread => simpa using wf_of_row (readRow_wf h) hread
    · exact h
  · split
    · next a _ =>
      dsimp only
      split
      · next hwrite => exact wf_of_written (writeRow_wf h) hwrite
      · next hwrite => exact wf_of_written (writeRow_wf h) hwrite
    · exact h
  · exact h

@[simp] theorem wordWrite_wf {o va x} (h : Memory.wf s.mem = true) :
    Memory.wf (Sum.elim id Prod.fst (s.wordWrite o va x)).mem = true := by
  unfold State.wordWrite
  have hp : Memory.wf (s.enginePieces (s.opWho o) .write (cutAtPages va 8)).2.mem = true := enginePieces_wf h
  split
  · next heq => exact wf_of_snd hp heq
  · next heq => exact engineWrite_wf (wf_of_snd hp heq)

theorem flagRelease_wf {o} {write : State → Stepped} (h : Memory.wf s.mem = true)
    (hw : ∀ t : State, Memory.wf t.mem = true → Memory.wf (write t).state.mem = true) :
    Memory.wf (s.flagRelease o write).state.mem = true := by
  unfold State.flagRelease
  have hr : Memory.wf (s.release (s.opWho o) 5).mem = true := release_wf h
  dsimp only
  split
  · exact hr
  · exact hw _ hr

@[simp] theorem cpyrStep_wf {o t x y origin flag value} (h : Memory.wf s.mem = true) :
    Memory.wf (s.cpyrStep o t x y origin flag value).state.mem = true := by
  unfold State.cpyrStep
  split
  · split
    · exact tensorRow_wf h
    · split
      · next va =>
        refine flagRelease_wf h fun a ha => ?_
        have hw := wordWrite_wf (o := o) (va := va) (x := value.zeroExtend 64) ha
        split
        · next hwrite => rw [hwrite] at hw; exact hw
        · next hwrite => rw [hwrite] at hw; exact hw
      · exact h
  · exact h

@[simp] theorem peerStep_wf {o t port x y origin flag value} (h : Memory.wf s.mem = true) :
    Memory.wf (s.peerStep o t port x y origin flag value).state.mem = true := by
  unfold State.peerStep
  split
  · next a b _ _ =>
    have hs0 : Memory.wf s.freeBool.2.mem = true := by simpa using h
    dsimp only
    split
    · exact hs0
    · split
      · split
        · next hread => exact wf_of_row (readRow_wf hs0) hread
        · next hread => simpa using wf_of_row (readRow_wf hs0) hread
        · next hread =>
          have hr := wf_of_row (readRow_wf hs0) hread
          split
          · exact hr
          · split
            · exact hr
            · exact foldl_wf (fun c p hc => by simpa using hc) hr
      · split
        · split
          · exact hs0
          · exact flagRelease_wf hs0 fun c hc => by simpa using hc
        · exact hs0
  · exact h

@[simp] theorem cpyxStep_wf {o t x y origin} (h : Memory.wf s.mem = true) :
    Memory.wf (s.cpyxStep o t x y origin).state.mem = true := by
  unfold State.cpyxStep
  split
  · next a b _ _ =>
    split
    · exact h
    · have hp : Memory.wf (s.enginePieces (s.opWho o) .read (unitParts (a.row origin o.prog))).2.mem = true :=
        enginePieces_wf h
      split
      · next heq => exact wf_of_snd hp heq
      · next s1 heq =>
        have hc : Memory.wf (s1.checkRow o (b.row origin o.prog)).2.mem = true := checkRow_wf (wf_of_snd hp heq)
        split
        · next hcheck => exact wf_of_snd hc hcheck
        · next hcheck => exact wf_of_snd hc hcheck
  · exact h

@[simp] theorem replayStep_wf {o writes status} (h : Memory.wf s.mem = true) :
    Memory.wf (s.replayStep o writes status).state.mem = true := by
  unfold State.replayStep
  extract_lets who s0 s1 ws s2
  have hs1 : Memory.wf s1.mem = true := by simpa [s1, s0] using h
  have hs2 : Memory.wf s2.mem = true := ite_wf hs1 (holdBytes_wf hs1 fun _ ht => ht)
  split
  · simpa using hs2
  · exact hs2

@[simp] theorem gathStep_wf {o t x n origin} (h : Memory.wf s.mem = true) :
    Memory.wf (s.gathStep o t x n origin).state.mem = true := by
  unfold State.gathStep
  split
  · next r i _ _ q _ _ _ _ _ =>
    dsimp only
    split
    · next hread => exact wf_of_row (readRow_wf h) hread
    · next hread => simpa using wf_of_row (readRow_wf h) hread
    · next hread => simpa using wf_of_row (readRow_wf h) hread
  · exact h

@[simp] theorem collStep_wf {o t op all ty root size logged} (h : Memory.wf s.mem = true) :
    Memory.wf (s.collStep o t op all ty root size logged).state.mem = true := by
  unfold State.collStep
  dsimp only
  split
  · next q _ _ _ =>
    have hs2 : ∀ b c bs ms, Memory.wf (if (b : Bool) = true then
        ((s.basinWrite o.team q (o.outAt 0) 0 bs ms).perturbPad c) else
        s.basinWrite o.team q (o.outAt 0) 0 bs ms).mem = true := fun b c bs ms => by split <;> simpa using h
    split
    · exact fillLog_wf (hs2 _ _ _ _)
    · exact hs2 _ _ _ _
  · exact h

@[simp] theorem collFire_mem {key o t round el marks} : (s.collFire key o t round el marks).mem = s.mem := by
  unfold State.collFire
  grind -ring -linarith [modOp_mem, foldl_mem]

end Sys2Proof.Proofs.Canonical
end

section
/-!
PROOFS. Memory stays canonical: the matrix instructions and their steps.
-/

namespace Sys2Proof.Proofs.Canonical

open Sys2Proof Sys2Proof.Machine Sys2Proof.Laws Sys2Proof.Proofs

variable {s : State}

@[simp] theorem giveArray_mem {core team} : (s.giveArray core team).mem = s.mem := rfl

theorem takeArray_mem {core team t} (ht : s.takeArray core team = some t) : t.mem = s.mem := by
  unfold State.takeArray at ht
  split at ht
  · split at ht
    · cases ht
    · cases ht; simp
  · split at ht
    · cases ht; rfl
    · split at ht
      · cases ht; simp
      · split at ht
        · cases ht
        · split at ht
          · cases ht; simp
          · cases ht

@[simp] theorem modArray_mem {core f} : (s.modArray core f).mem = s.mem := rfl

theorem matrixIssue_wf {k g w elected} {body : State → MatrixArray → Result} (h : Memory.wf s.mem = true)
    (hb : ∀ (t : State) a, Memory.wf t.mem = true → Memory.wf (body t a).state.mem = true) :
    Memory.wf (s.matrixIssue k g w elected body).state.mem = true := by
  unfold State.matrixIssue
  refine ite_state_wf h (ite_state_wf h ?_)
  split
  · exact takeArrayFault_wf h
  · refine ite_state_wf h ?_
    split
    · exact h
    · next ht => exact hb _ _ (by rw [takeArray_mem ht]; exact h)

theorem execTcfg_wf {w} (h : Memory.wf s.mem = true) : Out.Canonical (execTcfg w s) := by
  unfold execTcfg
  exact issue_wf h fun k g => matrixIssue_wf h fun t a ht => ite_state_wf ht (by simpa using ht)

theorem execMzero_wf {w} (h : Memory.wf s.mem = true) : Out.Canonical (execMzero w s) := by
  unfold execMzero
  exact issue_wf h fun k g => matrixIssue_wf h fun t a ht => ite_state_wf ht (by simpa using ht)

theorem execMldb_wf {w} (h : Memory.wf s.mem = true) : Out.Canonical (execMldb w s) := by
  unfold execMldb
  extract_lets basin side index sp desc
  refine issue_wf h fun k g => matrixIssue_wf h fun t a ht => ite_state_wf ht ?_
  split
  · exact ht
  · simpa using ht

@[simp] theorem evenFirst_mem {t} : (s.evenFirst t).mem = s.mem := by
  unfold State.evenFirst
  repeat' split
  all_goals rfl

theorem execMma_wf {w} (h : Memory.wf s.mem = true) : Out.Canonical (execMma w s) := by
  unfold execMma
  extract_lets tile side index pair desc
  refine issue_wf h fun k g => matrixIssue_wf h fun t a ht => ?_
  dsimp only
  split
  · refine ite_state_wf ht ?_
    split
    · exact ht
    · split <;> simpa using ht
  · exact ht

theorem execMsto_wf {w} (h : Memory.wf s.mem = true) : Out.Canonical (execMsto w s) := by
  unfold execMsto
  extract_lets tile out cv s32 desc
  refine issue_wf h fun k g => matrixIssue_wf h fun t a ht => ?_
  dsimp only
  split
  · exact ht
  · split
    · exact ht
    · split
      · exact ht
      · simpa using ht

theorem execMq4_wf {w} (h : Memory.wf s.mem = true) : Out.Canonical (execMq4 w s) := by
  unfold execMq4
  extract_lets tile fuse na nb
  refine issue_wf h fun k g => matrixIssue_wf h fun t a ht => ?_
  dsimp only
  split
  · exact ht
  · exact ite_state_wf ht (by simpa using ht)

@[simp] theorem mmaOn_mem {core tile index int xs n} : (s.mmaOn core tile index int xs n).mem = s.mem := rfl

@[simp] theorem countRetry_mem {core k} : (s.countRetry core k).mem = s.mem := rfl

@[simp] theorem residueFault_mem {core k} : (s.residueFault core k).mem = s.mem := by
  simp [State.residueFault]

@[simp] theorem mismatches_mem {l} : (s.mismatches l).2.mem = s.mem := by
  induction l generalizing s with
  | nil => rfl
  | cons p rest ih =>
    unfold State.mismatches
    dsimp only
    split <;> simp [ih]

@[simp] theorem retried_mem {l} : (s.retried l).2.mem = s.mem := by
  induction l generalizing s with
  | nil => rfl
  | cons p rest ih =>
    unfold State.retried
    dsimp only
    rw [ih]
    split <;> simp

theorem residueChecked_mem {o cores} {perform : State → Stepped} (hp : ∀ t : State, (perform t).state.mem = t.mem) :
    (s.residueChecked o cores perform).state.mem = s.mem := by
  unfold State.residueChecked
  dsimp only
  repeat' split
  all_goals simp [hp]

@[simp] theorem mmaStep_mem {o t tile index d} : (s.mmaStep o t tile index d).state.mem = s.mem := by
  unfold State.mmaStep
  dsimp only
  split
  · split
    · rfl
    · rfl
    · exact residueChecked_mem fun u => foldl_mem (fun a c => mmaOn_mem) _
  · rfl

@[simp] theorem mldbStep_mem {o t index p} : (s.mldbStep o t index p).state.mem = s.mem := by
  unfold State.mldbStep
  dsimp only
  split
  · rfl
  · rfl
  · split
    · rfl
    · simp

@[simp] theorem mstoStep_mem {o t tile cv s32 zero d stoch} :
    (s.mstoStep o t tile cv s32 zero d stoch).state.mem = s.mem := by
  unfold State.mstoStep
  dsimp only
  split
  · dsimp only [Stepped.state]
    split <;> simp
  · rfl

@[simp] theorem mq4Step_mem {o t tile fuse da db a b row col} :
    (s.mq4Step o t tile fuse da db a b row col).state.mem = s.mem := by
  unfold State.mq4Step
  dsimp only
  exact residueChecked_mem fun u => by simp

@[simp] theorem matrixStep_mem {o t} : (s.matrixStep o t).state.mem = s.mem := by
  unfold State.matrixStep
  split <;> simp

end Sys2Proof.Proofs.Canonical
end

section
/-!
PROOFS. Memory stays canonical: the events of engines.
-/

namespace Sys2Proof.Proofs.Canonical

open Sys2Proof Sys2Proof.Machine Sys2Proof.Laws Sys2Proof.Proofs

variable {s : State}

@[simp] theorem noteProg_mem {team c} : (s.noteProg team c).mem = s.mem := rfl

@[simp] theorem pokeTeam_wf {team} (h : Memory.wf s.mem = true) : Memory.wf (s.pokeTeam team).mem = true := by
  unfold State.pokeTeam
  grind -ring -linarith [tryExit_wf, pokeWait_wf, foldl_wf]

@[simp] theorem contribute_mem {key o t} : (s.contribute key o t).mem = s.mem := by
  unfold State.contribute
  repeat' split
  all_goals simp

theorem execEngineFire_wf {key} (h : Memory.wf s.mem = true) : Out.Canonical (execEngineFire key s) := by
  unfold execEngineFire
  repeat' split
  all_goals simp [h]

theorem drawEngine_mem {ctx l t} (ht : s.drawEngine ctx l = some t) : t.mem = s.mem := by
  induction l generalizing s with
  | nil => cases ht; rfl
  | cons p rest ih =>
    unfold State.drawEngine at ht
    split at ht
    · simpa using ih ht
    · split at ht
      · cases ht
      · simpa using ih ht

@[simp] theorem performStep_wf {o t} (h : Memory.wf s.mem = true) : Memory.wf (s.performStep o t).state.mem = true := by
  unfold State.performStep
  split
  · exact cpyStep_wf h
  · next x y origin _ _ _ =>
    have hx : Memory.wf (s.cpyxStep o t x y origin).state.mem = true := cpyxStep_wf h
    split
    · next hstep =>
      rw [hstep] at hx
      dsimp only
      repeat' split
      all_goals simpa using hx
    · exact hx
  · exact replayStep_wf h
  · exact peerStep_wf h
  · exact cpyrStep_wf h
  · exact h
  · exact gathStep_wf h
  · exact collStep_wf h
  all_goals simpa using h

@[simp] theorem stepped_mem {key o last} : (s.stepped key o last).mem = s.mem := by
  unfold State.stepped
  split <;> rfl

@[simp] theorem stopArray_wf {key o code va} (h : Memory.wf s.mem = true) :
    Memory.wf (s.stopArray key o code va).mem = true := by
  simp [State.stopArray, h]

@[simp] theorem parkOp_wf {key ctx entry va} (h : Memory.wf s.mem = true) :
    Memory.wf (s.parkOp key ctx entry va).mem = true := by
  unfold State.parkOp
  split
  · next ht =>
    have hs1 := (askHost_mem ht).symm ▸ h
    dsimp only
    split <;> simp [hs1]
  · exact h

/-- The state that a match on a performed step names. -/
theorem wf_of_stepped {x y : Stepped} (h : Memory.wf x.state.mem = true) (e : x = y) :
    Memory.wf y.state.mem = true := e ▸ h

@[simp] theorem afterStep_wf {key o t} (h : Memory.wf s.mem = true) : Memory.wf (s.afterStep key o t).mem = true := by
  unfold State.afterStep
  have hp : Memory.wf (s.performStep o t).state.mem = true := performStep_wf h
  split
  · next hstep => simpa using wf_of_stepped hp hstep
  · next hstep =>
    have hs1 := wf_of_stepped hp hstep
    split
    · exact stopArray_wf hs1
    · exact engineFault_wf hs1
  · next hstep => exact parkOp_wf (wf_of_stepped hp hstep)
  · next hstep => exact engineFault_wf (wf_of_stepped hp hstep)
  · next hstep => exact wf_of_stepped hp hstep
  · next hstep => exact wf_of_stepped hp hstep
  · next hstep => exact wf_of_stepped hp hstep

theorem pairReady_mem {o t} (ht : s.pairReady o = some t) : t.mem = s.mem := by
  unfold State.pairReady at ht
  split at ht
  · split at ht
    · split at ht
      · cases ht
      · exact takeArray_mem ht
    · cases ht; rfl
  · cases ht; rfl
  · cases ht

theorem readyOp_mem {key o t u} (hu : s.readyOp key o t = some u) : u.mem = s.mem := by
  unfold State.readyOp at hu
  split at hu
  · cases hu
  · split at hu
    · split at hu
      · cases hu; rfl
      · cases hu
    · split at hu
      · cases hu
      · cases hu; rfl
    · split at hu
      · cases hu; rfl
      · split at hu
        · cases hu
        · split at hu
          · cases hu
          · next ht =>
            split at hu
            · exact (pairReady_mem hu).trans (takeArray_mem ht)
            · cases hu; exact takeArray_mem ht

theorem execEngineStep_wf {key} (h : Memory.wf s.mem = true) : Out.Canonical (execEngineStep key s) := by
  unfold execEngineStep
  split
  · split
    · split
      · simpa using h
      · next ht =>
        have hs1 := (readyOp_mem ht).symm ▸ h
        dsimp only
        split
        · simpa using h
        · next s2 hdraw =>
          have hs2 : Memory.wf s2.mem = true := by
            split at hdraw
            · cases hdraw; exact hs1
            · exact (drawEngine_mem hdraw).symm ▸ hs1
          split
          · simpa using hs2
          · simpa using afterStep_wf hs2
    · simpa using h
  · simpa using h

theorem execEngineRetire_wf {key} (h : Memory.wf s.mem = true) : Out.Canonical (execEngineRetire key s) := by
  unfold execEngineRetire
  repeat' split
  all_goals simp [h]

theorem execPairArrival_wf {key} (h : Memory.wf s.mem = true) : Out.Canonical (execPairArrival key s) := by
  unfold execPairArrival
  split
  · split
    · split
      · simpa using h
      · split
        · simpa using h
        · next ht =>
          have hs1 := (takeArray_mem ht).symm ▸ h
          split
          · split <;> simp [hs1]
          · simp [hs1]
    · simpa using h
  · simpa using h

@[simp] theorem tilePieces_wf {o kind r origin l} (h : Memory.wf s.mem = true) :
    Memory.wf (s.tilePieces o kind r origin l).2.mem = true := by
  induction l generalizing s with
  | nil => exact h
  | cons n ns ih =>
    unfold State.tilePieces
    have hp : Memory.wf (s.enginePieces (s.opWho o) kind (unitParts (r.row origin n))).2.mem = true := enginePieces_wf h
    split
    · next heq => exact wf_of_snd hp heq
    · next heq =>
      have hns := ih (wf_of_snd hp heq)
      split
      · next hrest => exact wf_of_snd hns hrest
      · exact hns

@[simp] theorem tileRead_mem {o r origin rows} : (s.tileRead o r origin rows).2.2.mem = s.mem :=
  foldl_keeps (fun a : List Byte × Bool × State => a.2.2.mem) _ (fun _ _ => engineRead_mem) _ _

@[simp] theorem writeStatus_wf {who va status word} (h : Memory.wf s.mem = true) :
    Memory.wf (s.writeStatus who va status word).mem = true := by
  unfold State.writeStatus
  grind -ring -linarith [drainLine_wf, commitLate_wf, engineWrite_wf, foldl_wf]

@[simp] theorem endCpyx_wf {key o code slot block status poison xs} (h : Memory.wf s.mem = true) :
    Memory.wf (s.endCpyx key o code slot block status poison xs).mem = true := by
  unfold State.endCpyx
  dsimp only
  split <;> simp [h]

/-- The state that a settled copy, or the halt before it, carries. -/
@[simp] theorem settleCpyx_wf {key o t enc a b origin slot block} (h : Memory.wf s.mem = true) :
    Memory.wf (Sum.elim id Prod.fst (s.settleCpyx key o t enc a b origin slot block)).mem = true := by
  unfold State.settleCpyx
  dsimp only
  split
  · next heq => exact wf_of_snd (enginePieces_wf h) heq
  · next heq =>
    have hs1 := wf_of_snd (enginePieces_wf h) heq
    split
    · next heq => exact wf_of_snd (enginePieces_wf hs1) heq
    · next heq =>
      have hs2 := wf_of_snd (enginePieces_wf hs1) heq
      split
      · exact endCpyx_wf (by simpa using hs2)
      · split
        · next heq => exact wf_of_snd (tilePieces_wf (by simpa using hs2)) heq
        · next heq =>
          have hs4 := wf_of_snd (tilePieces_wf (by simpa using hs2)) heq
          split
          · next heq => exact wf_of_snd (tilePieces_wf hs4) heq
          · next heq =>
            have hs5 := wf_of_snd (tilePieces_wf hs4) heq
            split
            · next heq => exact wf_of_snd (by split <;> simp [hs5]) heq
            · next heq =>
              have hs6 := wf_of_snd (by split <;> simp [hs5]) heq
              split
              · exact endCpyx_wf (by simpa using hs6)
              · split <;> exact endCpyx_wf (by simpa using hs6)

/-- The state that a match on a settled copy names. -/
theorem wf_of_settled {x y : Sum State (State × Halt)}
    (h : Memory.wf (Sum.elim id Prod.fst x).mem = true) (e : x = y) :
    Memory.wf (Sum.elim id Prod.fst y).mem = true := e ▸ h

theorem execCpyxSettle_wf {key} (h : Memory.wf s.mem = true) : Out.Canonical (execCpyxSettle key s) := by
  unfold execCpyxSettle
  split
  · split
    · split
      · simpa using h
      · split
        · split
          · next hx => simpa using wf_of_settled (settleCpyx_wf h) hx
          · next hx => exact canonical_next.2 (engineFault_wf (wf_of_settled (settleCpyx_wf h) hx))
          · next hx => exact canonical_next.2 (parkOp_wf (wf_of_settled (settleCpyx_wf h) hx))
        · simpa using h
    · simpa using h
  · simpa using h

end Sys2Proof.Proofs.Canonical
end

section
/-!
PROOFS. Memory stays canonical: the watches.
-/

namespace Sys2Proof.Proofs.Canonical

open Sys2Proof Sys2Proof.Machine Sys2Proof.Laws Sys2Proof.Proofs

variable {s : State}

theorem execMonw_wf {w} (h : Memory.wf s.mem = true) : Out.Canonical (execMonw w s) :=
  issue_wf h fun k g => by
    dsimp only
    repeat' split
    all_goals simp [h]

@[simp] theorem mwaitGive_mem {k d0 d1 reason value} : (s.mwaitGive k d0 d1 reason value).mem = s.mem := by
  unfold State.mwaitGive
  repeat' split
  all_goals simp

@[simp] theorem mwaitLog_wf {k reason value} (h : Memory.wf s.mem = true) :
    Memory.wf (s.mwaitLog k reason value).mem = true := by
  unfold State.mwaitLog
  split <;> simp [h]

theorem execMwait_wf {w} (h : Memory.wf s.mem = true) : Out.Canonical (execMwait w s) := by
  unfold execMwait
  refine issue_wf h fun k g => ?_
  dsimp only
  split
  · split
    · next heq => simp [wf_of_snd (by simp [h]) heq]
    · next heq => simp [wf_of_snd (by simp [h]) heq]
  · split <;> simp [h]

@[simp] theorem mwaitEnd_wf {k reason value} (h : Memory.wf s.mem = true) :
    Memory.wf (s.mwaitEnd k reason value).mem = true := by
  unfold State.mwaitEnd
  split <;> simp [h]

@[simp] theorem mwaitPoke_wf {k} (h : Memory.wf s.mem = true) : Memory.wf (s.mwaitPoke k).mem = true := by
  unfold State.mwaitPoke
  repeat' split
  all_goals simp [h]

theorem execMwaitWake_wf {k early} (h : Memory.wf s.mem = true) : Out.Canonical (execMwaitWake k early s) := by
  unfold execMwaitWake
  repeat' split
  all_goals simp [h]

theorem execMwaitTimeout_wf {k} (h : Memory.wf s.mem = true) : Out.Canonical (execMwaitTimeout k s) := by
  unfold execMwaitTimeout
  split
  · split <;> simp [h]
  · simpa using h

@[simp] theorem recheck_mem {k} : (s.recheck k).mem = s.mem := rfl

theorem execWatchReread_wf {k} (h : Memory.wf s.mem = true) : Out.Canonical (execWatchReread k s) := by
  unfold execWatchReread
  split
  · split <;> simp [h]
  · simp [h]
  · simpa using h

theorem execWatchTableRecheck_wf {die} (h : Memory.wf s.mem = true) : Out.Canonical (execWatchTableRecheck die s) := by
  unfold execWatchTableRecheck
  grind -ring -linarith [mwaitPoke_wf, recheck_mem, foldl_wf, canonical_next]

end Sys2Proof.Proofs.Canonical
end

section
/-!
PROOFS. Memory stays canonical: launch packets and queues.
-/

namespace Sys2Proof.Proofs.Canonical

open Sys2Proof Sys2Proof.Machine Sys2Proof.Laws Sys2Proof.Proofs

variable {s : State}

@[simp] theorem frontParts_wf {ctx l} (h : Memory.wf s.mem = true) : Memory.wf (s.frontParts ctx l).2.mem = true := by
  induction l generalizing s with
  | nil => exact h
  | cons p rest ih =>
    unfold State.frontParts
    split
    · next heq =>
      have hrest := ih (wf_of_snd (frontRead_wf h) heq)
      split
      · next hr => exact wf_of_snd hrest hr
      · next hr => exact wf_of_snd hrest hr
    · next heq => exact wf_of_snd (frontRead_wf h) heq

@[simp] theorem frontBytes_wf {ctx va n} (h : Memory.wf s.mem = true) :
    Memory.wf (s.frontBytes ctx va n).2.mem = true := by
  simp [State.frontBytes, h]

@[simp] theorem frontWritable_wf {ctx l} (h : Memory.wf s.mem = true) :
    Memory.wf (s.frontWritable ctx l).2.mem = true := by
  induction l generalizing s with
  | nil => exact h
  | cons p rest ih =>
    unfold State.frontWritable
    split
    · next heq => exact ih (wf_of_snd (frontPhys_wf h) heq)
    · next heq => exact wf_of_snd (frontPhys_wf h) heq

@[simp] theorem readPacket_wf {ctx p} (h : Memory.wf s.mem = true) : Memory.wf (s.readPacket ctx p).2.mem = true := by
  unfold State.readPacket
  dsimp only
  repeat' split
  all_goals simp [h]

@[simp] theorem packetCode_wf {p x ctx bound} (h : Memory.wf s.mem = true) :
    Memory.wf (s.packetCode p x ctx bound).2.mem = true := by
  unfold State.packetCode
  split
  · exact h
  · split
    · split
      · exact frontWritable_wf h
      · exact h
    · exact h

@[simp] theorem leaveQueue_mem {q seq} : (s.leaveQueue q seq).mem = s.mem := rfl

@[simp] theorem reportFatal_mem {seq l} : (s.reportFatal seq l).mem = s.mem := by
  unfold State.reportFatal
  split <;> rfl

@[simp] theorem finishLaunch_wf {seq status arg} (h : Memory.wf s.mem = true) :
    Memory.wf (s.finishLaunch seq status arg).mem = true := by
  unfold State.finishLaunch
  split <;> simp [h]

@[simp] theorem dependenceMet_wf {l} (h : Memory.wf s.mem = true) : Memory.wf (s.dependenceMet l).2.mem = true := by
  unfold State.dependenceMet
  split
  · exact h
  · exact h
  · split
    · next heq => exact wf_of_snd (frontRead_wf h) heq
    · next heq => exact wf_of_snd (frontRead_wf h) heq
    · next heq =>
      have hs1 := wf_of_snd (frontRead_wf h) heq
      dsimp only
      cases hask : State.askHost _ l.ctx _ _ with
      | none => exact hs1
      | some t => exact (askHost_mem hask).symm ▸ hs1

@[simp] theorem watchDependence_wf {seq} (h : Memory.wf s.mem = true) :
    Memory.wf (s.watchDependence seq).mem = true := by
  unfold State.watchDependence
  grind -ring -linarith [frontPhys_wf, modLaunch_mem]

@[simp] theorem dependenceSeen_wf {l} (h : Memory.wf s.mem = true) : Memory.wf (s.dependenceSeen l).2.mem = true := by
  unfold State.dependenceSeen
  split <;> simp [h]

@[simp] theorem becomeReady_wf {seq} (h : Memory.wf s.mem = true) : Memory.wf (s.becomeReady seq).mem = true := by
  unfold State.becomeReady
  grind -ring -linarith [modLaunch_mem, testPlacement_mem, frontWrite_wf, drainAll_wf, finishLaunch_wf]

@[simp] theorem settleHeads_wf {fuel q} (h : Memory.wf s.mem = true) :
    Memory.wf (State.settleHeads fuel s q).mem = true := by
  induction fuel generalizing s with
  | zero => exact h
  | succ fuel ih =>
    unfold State.settleHeads
    split
    · split
      · split
        · next heq => exact ih (becomeReady_wf (wf_of_snd (dependenceMet_wf h) heq))
        · next heq => simp [wf_of_snd (dependenceMet_wf h) heq]
      · exact h
    · exact h

@[simp] theorem settleQueue_wf {q} (h : Memory.wf s.mem = true) : Memory.wf (s.settleQueue q).mem = true := by
  simp [State.settleQueue, h]

@[simp] theorem enqueue_wf {seq q ctx p x r} (h : Memory.wf s.mem = true) :
    Memory.wf (s.enqueue seq q ctx p x r).mem = true := by
  simp [State.enqueue, h]

@[simp] theorem changeEntry_mem {ctx p x} : (s.changeEntry ctx p x).2.mem = s.mem := by
  unfold State.changeEntry
  repeat' split
  all_goals rfl

@[simp] theorem judge_wf {q ctx bound p x} (h : Memory.wf s.mem = true) :
    Memory.wf (s.judge q ctx bound p x).2.mem = true := by
  unfold State.judge
  grind -ring -linarith [packetCode_wf, changeEntry_mem]

@[simp] theorem accept_wf {q ctx p} (h : Memory.wf s.mem = true) : Memory.wf (s.accept q ctx p).2.mem = true := by
  unfold State.accept
  grind -ring -linarith [modHub_mem, readPacket_wf, judge_wf, enqueue_wf, complete_wf]

@[simp] theorem dropAccess_mem {q} : (s.dropAccess q).mem = s.mem := rfl

@[simp] theorem windowPacket_wf {q pasid p} (h : Memory.wf s.mem = true) :
    Memory.wf (s.windowPacket q pasid p).mem = true := by
  unfold State.windowPacket
  split <;> simp [h]

theorem execLaunchByRecord_wf {queue pasid packet} (h : Memory.wf s.mem = true) :
    Out.Canonical (execLaunchByRecord queue pasid packet s) := by
  unfold execLaunchByRecord
  grind -ring -linarith [onLink_wf, windowPacket_wf, canonical_next]

theorem execLaunchByRegisteredEntry_wf {queue pasid packet} (h : Memory.wf s.mem = true) :
    Out.Canonical (execLaunchByRegisteredEntry queue pasid packet s) := by
  unfold execLaunchByRegisteredEntry
  grind -ring -linarith [onLink_wf, windowPacket_wf, canonical_next]

theorem execRegister_wf {queue pasid packet} (h : Memory.wf s.mem = true) :
    Out.Canonical (execRegister queue pasid packet s) := by
  unfold execRegister
  grind -ring -linarith [onLink_wf, windowPacket_wf, canonical_next]

theorem execEmptyAnEntry_wf {queue pasid packet} (h : Memory.wf s.mem = true) :
    Out.Canonical (execEmptyAnEntry queue pasid packet s) := by
  unfold execEmptyAnEntry
  grind -ring -linarith [onLink_wf, windowPacket_wf, canonical_next]

@[simp] theorem windowAccess_mem {queue access} : (s.windowAccess queue access).mem = s.mem := by
  unfold State.windowAccess
  dsimp only
  repeat' split
  all_goals rfl

theorem execLaunchWindowDrop_wf {queue access} (h : Memory.wf s.mem = true) :
    Out.Canonical (execLaunchWindowDrop queue access s) := by
  simp [execLaunchWindowDrop, h]

theorem execDependenceHolds_wf {seq} (h : Memory.wf s.mem = true) : Out.Canonical (execDependenceHolds seq s) := by
  unfold execDependenceHolds
  grind -ring -linarith [dependenceSeen_wf, settleQueue_wf, becomeReady_wf, canonical_next]

@[simp] theorem sendTo_wf {seq d l} (h : Memory.wf s.mem = true) : Memory.wf (s.sendTo seq d l).mem = true := by
  unfold State.sendTo
  split <;> simp [h]

theorem execClusterSend_wf {seq} (h : Memory.wf s.mem = true) : Out.Canonical (execClusterSend seq s) := by
  unfold execClusterSend
  repeat' split
  all_goals simp [h]

theorem execLaunchComplete_wf {seq} (h : Memory.wf s.mem = true) : Out.Canonical (execLaunchComplete seq s) := by
  unfold execLaunchComplete
  grind -ring -linarith [drainAll_wf, settleQueue_wf, finishLaunch_wf, canonical_next]

end Sys2Proof.Proofs.Canonical
end

section
/-!
PROOFS. Memory stays canonical: the admission of clusters.
-/

namespace Sys2Proof.Proofs.Canonical

open Sys2Proof Sys2Proof.Machine Sys2Proof.Laws Sys2Proof.Proofs

variable {s : State}

@[simp] theorem openCheck_mem {t x seq} : (s.openCheck t x seq).mem = s.mem := rfl

@[simp] theorem pairChecks_mem {teams} : (s.pairChecks teams).mem = s.mem := by
  unfold State.pairChecks
  refine (foldl_mem (fun a x => ?_) _).trans ?_
  · split <;> simp
  · simp

@[simp] theorem makeTeam_mem {t r gids} : (s.makeTeam t r gids).2.mem = s.mem := by
  unfold State.makeTeam
  simp only [modCore_mem, dropCopies_mem, displace_mem, setTeam_mem]
  refine (foldl_keeps (fun a : List Nat × State => a.2.mem) _ (fun a p => ?_) _ _).trans fresh_mem
  rfl

@[simp] theorem exitEmpty_mem {t} : (s.exitEmpty t).mem = s.mem := by
  unfold State.exitEmpty
  repeat' split
  all_goals simp

@[simp] theorem startCluster_mem {ck c l x y members} : (s.startCluster ck c l x y members).mem = s.mem := by
  unfold State.startCluster
  refine (foldl_mem (fun _ _ => exitEmpty_mem) _).trans ?_
  dsimp only
  split
  case' isTrue => rw [pairChecks_mem]
  all_goals
    refine (foldl_mem (fun a m => ?_) _).trans ?_
    · split <;> simp
    · rw [modCluster_mem]
      refine (foldl_keeps (fun a : List Nat × State => a.2.mem) _ (fun a m => ?_) _ _).trans unqueue_mem
      exact makeTeam_mem

@[simp] theorem startRun_mem {ck c l run core} : (s.startRun ck c l run core).2.mem = s.mem := by
  simp [State.startRun]

@[simp] theorem takeBack_wf {t x r} (h : Memory.wf s.mem = true) : Memory.wf (s.takeBack t x r).mem = true := by
  unfold State.takeBack
  dsimp only
  split <;> simp [h]

@[simp] theorem resumeRun_wf {t x l} (h : Memory.wf s.mem = true) : Memory.wf (s.resumeRun t x l).mem = true := by
  unfold State.resumeRun
  repeat' split
  all_goals simp [h]

theorem execReplicaPlace_wf {check core} (h : Memory.wf s.mem = true) :
    Out.Canonical (execReplicaPlace check core s) := by
  unfold execReplicaPlace
  dsimp only
  repeat' split
  all_goals simp [h]

@[simp] theorem queueAt_mem {ck d x y} : (s.queueAt ck d x y).mem = s.mem := rfl

@[simp] theorem offer_mem {ck c l x y} : (s.offer ck c l x y).mem = s.mem := by
  unfold State.offer
  dsimp only
  repeat' split
  all_goals simp

@[simp] theorem saveCluster_mem {ck c place ad} : (s.saveCluster ck c place ad).mem = s.mem := by
  unfold State.saveCluster
  grind -ring -linarith [saveTeam_mem, modTeam_mem, modCluster_mem, modPound_mem, foldl_mem]

@[simp] theorem stopCluster_wf {ck why} (h : Memory.wf s.mem = true) : Memory.wf (s.stopCluster ck why).mem = true := by
  unfold State.stopCluster
  grind -ring -linarith [modCluster_mem, stopQueues_wf, saveCluster_mem, foldl_wf]

@[simp] theorem requeueSwapped_mem : (s.requeueSwapped).mem = s.mem := by
  unfold State.requeueSwapped
  grind -ring -linarith [modPound_mem, foldl_mem]

@[simp] theorem resumeCluster_wf {ck c l} (h : Memory.wf s.mem = true) :
    Memory.wf (s.resumeCluster ck c l).mem = true := by
  unfold State.resumeCluster
  grind -ring -linarith [modCluster_mem, unqueue_mem, takeBack_wf, foldl_wf]

@[simp] theorem stopRunTeam_wf {t x} (h : Memory.wf s.mem = true) : Memory.wf (s.stopRunTeam t x).mem = true := by
  unfold State.stopRunTeam
  dsimp only
  repeat' split
  all_goals simp [h]

@[simp] theorem unstop_mem {ck c} : (s.unstop ck c).mem = s.mem := by
  unfold State.unstop
  grind -ring -linarith [resumeQueues_mem, modCluster_mem, foldl_mem]

theorem execTeamAdmit_wf {cluster x y} (h : Memory.wf s.mem = true) : Out.Canonical (execTeamAdmit cluster x y s) := by
  unfold execTeamAdmit
  repeat' split
  all_goals simp [h]

/-- Stopping clusters keeps memory canonical. -/
theorem stopClusters_wf {ks : List Nat} {why} (h : Memory.wf s.mem = true) :
    Memory.wf (ks.foldl (fun a k => a.stopCluster k why) s).mem = true :=
  foldl_wf (fun _ _ ha => stopCluster_wf ha) h

theorem execPartialEviction_wf {cluster x y} (h : Memory.wf s.mem = true) :
    Out.Canonical (execPartialEviction cluster x y s) := by
  unfold execPartialEviction
  dsimp only
  split
  · simpa using h
  · split
    · simpa using h
    · split
      · split
        · split
          · split <;> simp [stopClusters_wf h]
          · simpa using h
        · simpa using h
      · split <;> simp [stopClusters_wf h]
      · simpa using h

theorem execStealRequest_wf {thief victim offers} (h : Memory.wf s.mem = true) :
    Out.Canonical (execStealRequest thief victim offers s) := by
  unfold execStealRequest
  grind -ring -linarith [dispatchAt_mem, queueAt_mem, foldl_wf, canonical_next]

theorem execDispatchAtLock_wf {die pound} (h : Memory.wf s.mem = true) :
    Out.Canonical (execDispatchAtLock die pound s) := by
  unfold execDispatchAtLock
  dsimp only
  split <;> simp [h]

end Sys2Proof.Proofs.Canonical
end

section
/-!
PROOFS. Memory stays canonical: coherence and the host's accesses.
-/

namespace Sys2Proof.Proofs.Canonical

open Sys2Proof Sys2Proof.Machine Sys2Proof.Laws Sys2Proof.Proofs

variable {s : State}

theorem execTokenRequest_wf {core line write} (h : Memory.wf s.mem = true) :
    Out.Canonical (execTokenRequest core line write s) := by
  unfold execTokenRequest
  dsimp only
  repeat' split
  all_goals simp [h]

theorem execPersistentRequest_wf {core line write} (h : Memory.wf s.mem = true) :
    Out.Canonical (execPersistentRequest core line write s) := by
  unfold execPersistentRequest
  dsimp only
  repeat' split
  all_goals simp [h]

theorem execRemoteWriteDrain_wf {die line} (h : Memory.wf s.mem = true) :
    Out.Canonical (execRemoteWriteDrain die line s) := by
  simp [execRemoteWriteDrain, h]

@[simp] theorem markRegion_mem {line} : (s.markRegion line).mem = s.mem := by
  unfold State.markRegion
  dsimp only
  repeat' split
  all_goals simp

@[simp] theorem restoreLine_wf {line bs} (h : Memory.wf s.mem = true) :
    Memory.wf (s.restoreLine line bs).mem = true := by
  unfold State.restoreLine
  grind -ring -linarith [setBytes_wf]

@[simp] theorem revertLine_wf {line} (h : Memory.wf s.mem = true) : Memory.wf (s.revertLine line).mem = true := by
  unfold State.revertLine
  dsimp only
  repeat' split
  all_goals simp [h]

@[simp] theorem sendCompletions_mem : (s.sendCompletions).mem = s.mem :=
  foldl_mem (fun _ _ => by simp) _

@[simp] theorem settleOwed_wf (h : Memory.wf s.mem = true) : Memory.wf (s.settleOwed).mem = true := by
  unfold State.settleOwed
  grind -ring -linarith [homeEnter_wf, modHub_mem, frontWrite_wf, sendCompletions_mem, send_mem, foldl_wf]

@[simp] theorem takeHalf_wf {x} (h : Memory.wf s.mem = true) : Memory.wf (s.takeHalf x).mem = true := by
  unfold State.takeHalf
  grind -ring -linarith [settleOwed_wf, sendSnoop_mem, settle_wf]

theorem execLeaseExpiry_wf {line} (h : Memory.wf s.mem = true) : Out.Canonical (execLeaseExpiry line s) := by
  unfold execLeaseExpiry
  grind -ring -linarith [revertLine_wf, takeHalf_wf, markRegion_mem, setPoison_mem, foldl_wf, canonical_next]

theorem execBackInvalidateAnswer_wf {half data} (h : Memory.wf s.mem = true) :
    Out.Canonical (execBackInvalidateAnswer half data s) := by
  unfold execBackInvalidateAnswer
  repeat' split
  all_goals simp [h]

theorem execHostSnoop_wf {half invalidate after} (h : Memory.wf s.mem = true) :
    Out.Canonical (execHostSnoop half invalidate after s) := by
  unfold execHostSnoop
  grind -ring -linarith [send_mem, touchWatches_mem, setBytes_wf, canonical_next]

@[simp] theorem hostWrite_wf {pa bs} (h : Memory.wf s.mem = true) : Memory.wf (s.hostWrite pa bs).mem = true := by
  unfold State.hostWrite
  repeat' split
  all_goals simp [h]

/-- What the host is answered leaves memory as it is. -/
theorem answerHost_wf {pa m} (h : Memory.wf s.mem = true) : Memory.wf ((s.countError pa).send m).mem = true := by
  rw [send_mem, countError_mem]
  exact h

/-- Which halves the host holds says nothing about memory. -/
theorem hold_wf {held : Tab Bool} (h : Memory.wf s.mem = true) :
    Memory.wf ({ s with hostHeld := held } : State).mem = true := h

/-- Data that the host gives up with a half. -/
theorem hostGives_wf {pa} {data : Option (List Byte)} (h : Memory.wf s.mem = true) :
    Memory.wf (match data with
      | some bs => s.hostWrite pa (bs.take 64)
      | none => s).mem = true := by
  split
  · exact hostWrite_wf h
  · exact h

theorem execHostMemoryAccess_wf {offset access} (h : Memory.wf s.mem = true) :
    Out.Canonical (execHostMemoryAccess offset access s) := by
  unfold execHostMemoryAccess
  dsimp only
  generalize hdmAddress offset = pa
  split
  · exact canonical_next.2 (answerHost_wf h)
  · exact canonical_next.2 (hostWrite_wf h)
  · split
    · exact canonical_next.2 (answerHost_wf h)
    · split
      · exact canonical_next.2 h
      · refine canonical_next.2 ?_
        rw [send_mem]
        exact hold_wf (by rw [tokenHome_mem]; exact h)
  · split
    · split
      · exact canonical_next.2 (takeHalf_wf (hold_wf (hostGives_wf h)))
      · exact canonical_next.2 (hold_wf (hostGives_wf h))
    · exact canonical_next.2 h

@[simp] theorem atsInvalidate_wf {pasid va len} (h : Memory.wf s.mem = true) :
    Memory.wf (s.atsInvalidate pasid va len).mem = true := by
  unfold State.atsInvalidate
  grind -ring -linarith [invalidate_wf, sendCompletions_mem, foldl_wf]

theorem execAtsInvalidateRequest_wf {pasid va len} (h : Memory.wf s.mem = true) :
    Out.Canonical (execAtsInvalidateRequest pasid va len s) := by
  unfold execAtsInvalidateRequest
  grind -ring -linarith [onLink_wf, atsInvalidate_wf, canonical_next]

@[simp] theorem poisonImages_mem {line} : (s.poisonImages line).mem = s.mem := by
  unfold State.poisonImages
  grind -ring -linarith [freeBool_mem, modTeam_mem, foldl_mem]

@[simp] theorem chargeCore_mem {core} : (s.chargeCore core).mem = s.mem := by
  unfold State.chargeCore
  split <;> simp

theorem execUncorrectableError_wf {site} (h : Memory.wf s.mem = true) :
    Out.Canonical (execUncorrectableError site s) := by
  unfold execUncorrectableError
  repeat' split
  all_goals simp [h]

end Sys2Proof.Proofs.Canonical
end

section
/-!
PROOFS. Memory stays canonical: operations that land, purges and walks.
-/

namespace Sys2Proof.Proofs.Canonical

open Sys2Proof Sys2Proof.Machine Sys2Proof.Laws Sys2Proof.Proofs

variable {s : State}

@[simp] theorem afterLanding_wf {k} (h : Memory.wf s.mem = true) : Memory.wf (s.afterLanding k).mem = true := by
  simp [State.afterLanding, h]

@[simp] theorem endFlagWait_mem {before k} : (s.endFlagWait before k).mem = s.mem := by
  unfold State.endFlagWait
  split <;> rfl

@[simp] theorem landWith_wf {k f writes} (h : Memory.wf s.mem = true) :
    Memory.wf (s.landWith k f writes).mem = true := by
  simp [State.landWith, h]

@[simp] theorem landLaunch_wf {k g f q p ctx dest} (h : Memory.wf s.mem = true) :
    Memory.wf (s.landLaunch k g f q p ctx dest).mem = true := by
  unfold State.landLaunch
  grind -ring -linarith [accept_wf, fillLog_wf, landWith_wf]

@[simp] theorem finishFree_wf {ctx frame size pool} (h : Memory.wf s.mem = true) :
    Memory.wf (s.finishFree ctx frame size pool).mem = true := by
  unfold State.finishFree
  dsimp only
  repeat' split
  all_goals simp [h]

theorem execOperationComplete_wf {k op} (h : Memory.wf s.mem = true) :
    Out.Canonical (execOperationComplete k op s) := by
  unfold execOperationComplete
  split
  · simpa using h
  · split
    · simpa using h
    · split
      · simp [h]
      · split <;> simp [h]
      · simp [h]
      · split <;> simp [h]
      · simp [h]
      · split
        · simp [h]
        · split <;> simp [h]
      · split <;> simp [h]
      · split <;> simp [h]
      · split
        · simpa using h
        · dsimp only
          split <;> simp [h]
      · simp [h]

@[simp] theorem purgeDie_wf {die frame size pool} (h : Memory.wf s.mem = true) :
    Memory.wf (s.purgeDie die frame size pool).mem = true := by
  unfold State.purgeDie
  grind -ring -linarith [restoreLine_wf, foldl_wf]

theorem execPurgeAck_wf {frame die} (h : Memory.wf s.mem = true) : Out.Canonical (execPurgeAck frame die s) := by
  unfold execPurgeAck
  dsimp only
  repeat' split
  all_goals simp [h]

@[simp] theorem walkAll_wf {who l fs} (h : Memory.wf s.mem = true) : Memory.wf (s.walkAll who l fs).2.2.mem = true := by
  induction l generalizing s fs with
  | nil => exact h
  | cons p rest ih =>
    unfold State.walkAll
    split
    · exact ih h
    · split
      · next heq => exact ih (wf_of_snd (mtuWalk_wf h) heq)
      · next heq => exact ih (wf_of_snd (mtuWalk_wf h) heq)
      · next heq => exact wf_of_snd (mtuWalk_wf h) heq

@[simp] theorem unpark_mem {k p} : (s.unpark k p).mem = s.mem := by
  unfold State.unpark
  dsimp only
  repeat' split
  all_goals simp

theorem execMtuWalkComplete_wf {k} (h : Memory.wf s.mem = true) : Out.Canonical (execMtuWalkComplete k s) := by
  unfold execMtuWalkComplete
  split
  · simpa using h
  · next g _ =>
    split
    · simpa using h
    · next p _ =>
      split
      · simpa using h
      · have hw : Memory.wf (s.walkAll (g.who k) p.needs g.walkFaults).2.2.mem = true := walkAll_wf h
        split
        · next heq => rw [heq] at hw; simpa using hw
        · next heq =>
          rw [heq] at hw
          split
          · simpa using h
          · next ht => simpa using (askHost_mem ht).symm ▸ hw

@[simp] theorem answerOp_wf {ctx entry ok key} (h : Memory.wf s.mem = true) :
    Memory.wf (s.answerOp ctx entry ok key).mem = true := by
  unfold State.answerOp
  repeat' split
  all_goals simp [h]

@[simp] theorem pageResponse_wf {ctx page ok} (h : Memory.wf s.mem = true) :
    Memory.wf (s.pageResponse ctx page ok).mem = true := by
  unfold State.pageResponse
  grind -ring -linarith [requeueSwapped_mem, payOwed_wf, answerOp_wf, foldl_wf]

theorem execPageRequestGroupResponse_wf {ctx page ok} (h : Memory.wf s.mem = true) :
    Out.Canonical (execPageRequestGroupResponse ctx page ok s) := by
  unfold execPageRequestGroupResponse
  grind -ring -linarith [onLink_wf, pageResponse_wf, canonical_next]

theorem execTier3SwapOut_wf {team} (h : Memory.wf s.mem = true) : Out.Canonical (execTier3SwapOut team s) := by
  unfold execTier3SwapOut
  repeat' split
  all_goals simp [h]

end Sys2Proof.Proofs.Canonical
end

section
/-!
PROOFS. Memory stays canonical: the confidential interface, keys and the peer ports.
-/

namespace Sys2Proof.Proofs.Canonical

open Sys2Proof Sys2Proof.Machine Sys2Proof.Laws Sys2Proof.Proofs

variable {s : State}

@[simp] theorem eraseKeys_mem : (s.eraseKeys).mem = s.mem := rfl

@[simp] theorem loseContext_wf {ctx} (h : Memory.wf s.mem = true) : Memory.wf (s.loseContext ctx).mem = true := by
  unfold State.loseContext
  grind -ring -linarith [discardCheck_wf, removeTeam_mem, dropBlocks_mem, loseLaunches_mem, foldl_wf]

@[simp] theorem clearStores_wf {ctx} (h : Memory.wf s.mem = true) : Memory.wf (s.clearStores ctx).mem = true := by
  simp [State.clearStores, h]

@[simp] theorem toTdisp_mem {x} : (s.toTdisp x).mem = s.mem := by
  simp [State.toTdisp]

@[simp] theorem completeErased_wf {key} (h : Memory.wf s.mem = true) : Memory.wf (s.completeErased key).mem = true := by
  unfold State.completeErased
  split
  · split
    · split
      · exact h
      · split
        · split
          · next hx => exact wf_of_settled (settleCpyx_wf h) hx
          · next hx => exact wf_of_settled (settleCpyx_wf h) hx
        · exact h
    · exact h
  · exact h

@[simp] theorem enterError_wf (h : Memory.wf s.mem = true) : Memory.wf (s.enterError).mem = true := by
  unfold State.enterError
  grind -ring -linarith [eraseKeys_mem, completeErased_wf, toTdisp_mem, loseContext_wf, foldl_wf]

theorem execLockInterfaceRequest_wf (h : Memory.wf s.mem = true) : Out.Canonical (execLockInterfaceRequest s) := by
  unfold execLockInterfaceRequest
  split <;> simp [h]

theorem execStartInterfaceRequest_wf (h : Memory.wf s.mem = true) : Out.Canonical (execStartInterfaceRequest s) := by
  unfold execStartInterfaceRequest
  split <;> simp [h]

theorem execStopInterfaceRequest_wf (h : Memory.wf s.mem = true) : Out.Canonical (execStopInterfaceRequest s) := by
  unfold execStopInterfaceRequest
  grind -ring -linarith [toTdisp_mem, clearStores_wf, eraseKeys_mem, foldl_wf, canonical_next]

theorem execLinkDown_wf (h : Memory.wf s.mem = true) : Out.Canonical (execLinkDown s) := by
  unfold execLinkDown
  split <;> simp [h]

theorem execFrozenSettingsChange_wf (h : Memory.wf s.mem = true) : Out.Canonical (execFrozenSettingsChange s) := by
  unfold execFrozenSettingsChange
  split <;> simp [h]

@[simp] theorem setStream_mem {i x} : (s.setStream i x).mem = s.mem := rfl

theorem execIdeKm_wf {stream} (h : Memory.wf s.mem = true) : Out.Canonical (execIdeKm stream s) := by
  unfold execIdeKm
  split <;> simp [h]

theorem execIdeMacFailure_wf {stream} (h : Memory.wf s.mem = true) : Out.Canonical (execIdeMacFailure stream s) := by
  unfold execIdeMacFailure
  split <;> simp [h]

theorem execKeyLoad_wf {slot ctx key salt hwm} (h : Memory.wf s.mem = true) :
    Out.Canonical (execKeyLoad slot ctx key salt hwm s) := by
  unfold execKeyLoad
  split <;> simp [h]

theorem execSpdmRequest_wf {request} (h : Memory.wf s.mem = true) : Out.Canonical (execSpdmRequest request s) := by
  simp [execSpdmRequest, h]

@[simp] theorem failCopy_wf {key o base} (h : Memory.wf s.mem = true) :
    Memory.wf (s.failCopy key o base).mem = true := by
  unfold State.failCopy
  split <;> simp [h]

@[simp] theorem failArriving_mem {port} : (s.failArriving port).mem = s.mem := rfl

theorem execPeerPortStateChange_wf {port next} (h : Memory.wf s.mem = true) :
    Out.Canonical (execPeerPortStateChange port next s) := by
  unfold execPeerPortStateChange
  grind -ring -linarith [raiseIrq_mem, modHub_mem, failArriving_mem, failCopy_wf, foldl_wf, canonical_next]

@[simp] theorem poisonArrived_mem {poison pa n} : (s.poisonArrived poison pa n).mem = s.mem := by
  unfold State.poisonArrived
  grind -ring -linarith [setPoison_mem, foldl_mem]

@[simp] theorem peerWrite_wf {ctx p poison l} (h : Memory.wf s.mem = true) :
    Memory.wf (s.peerWrite ctx p poison l).2.mem = true := by
  induction l generalizing s with
  | nil => exact h
  | cons x rest ih =>
    unfold State.peerWrite
    split
    · exact h
    · split
      · next heq =>
        have hs1 := wf_of_snd (frontPhys_wf h) heq
        split
        · next hwrite => exact ih (by simpa using wf_of_snd (frontWrite_wf hs1) hwrite)
        · next hwrite => exact wf_of_snd (frontWrite_wf hs1) hwrite
      · next heq => exact wf_of_snd (frontPhys_wf h) heq

@[simp] theorem failPeer_mem {port copy} : (s.failPeer port copy).mem = s.mem := rfl

@[simp] theorem peerData_wf {port copy offset bs poison} (h : Memory.wf s.mem = true) :
    Memory.wf (s.peerData port copy offset bs poison).mem = true := by
  unfold State.peerData
  grind -ring -linarith [peerWrite_wf, failPeer_mem]

@[simp] theorem peerFlag_wf {port copy offset bs} (h : Memory.wf s.mem = true) :
    Memory.wf (s.peerFlag port copy offset bs).mem = true := by
  unfold State.peerFlag
  dsimp only
  repeat' split
  all_goals simp [h]

@[simp] theorem notePeer_mem {port copy} : (s.notePeer port copy).mem = s.mem := rfl

theorem execPeerCopyArrival_wf {port offset arrival flag} (h : Memory.wf s.mem = true) :
    Out.Canonical (execPeerCopyArrival port offset arrival flag s) := by
  unfold execPeerCopyArrival
  repeat' split
  all_goals simp [h]

end Sys2Proof.Proofs.Canonical
end

section
/-!
PROOFS. Memory stays canonical: the ends of checks and the health record.
-/

namespace Sys2Proof.Proofs.Canonical

open Sys2Proof Sys2Proof.Machine Sys2Proof.Laws Sys2Proof.Proofs

variable {s : State}

@[simp] theorem resolveMatch_wf {ck c} (h : Memory.wf s.mem = true) : Memory.wf (s.resolveMatch ck c).mem = true := by
  simp [State.resolveMatch, h]

@[simp] theorem resolveVote_wf {ck c win lose} (h : Memory.wf s.mem = true) :
    Memory.wf (s.resolveVote ck c win lose).mem = true := by
  unfold State.resolveVote
  dsimp only
  split <;> simp [h]

@[simp] theorem resolveNonRepro_wf {ck c} (h : Memory.wf s.mem = true) :
    Memory.wf (s.resolveNonRepro ck c).mem = true := by
  unfold State.resolveNonRepro
  grind -ring -linarith [addEvent_mem, freeCheck_wf, countHealth_mem, modLaunch_mem, advanceLaunch_mem, withdraw_mem,
    foldl_wf]

@[simp] theorem resolveThree_wf {ck c} (h : Memory.wf s.mem = true) : Memory.wf (s.resolveThree ck c).mem = true := by
  unfold State.resolveThree
  repeat' split
  all_goals simp [h]

@[simp] theorem toVote_mem {ck} : (s.toVote ck).mem = s.mem := rfl

@[simp] theorem resolveTwo_wf {ck c} (h : Memory.wf s.mem = true) : Memory.wf (s.resolveTwo ck c).mem = true := by
  unfold State.resolveTwo
  repeat' split
  all_goals simp [h]

theorem execCheckResolve_wf {check} (h : Memory.wf s.mem = true) : Out.Canonical (execCheckResolve check s) := by
  unfold execCheckResolve
  repeat' split
  all_goals simp [h]

theorem execTimeout_wf {check} (h : Memory.wf s.mem = true) : Out.Canonical (execTimeout check s) := by
  unfold execTimeout
  repeat' split
  all_goals simp [h]

theorem execDemeritDecay_wf (h : Memory.wf s.mem = true) : Out.Canonical (execDemeritDecay s) := by
  unfold execDemeritDecay
  split <;> simp [h]

@[simp] theorem maceSegmentDone_mem {core} : (s.maceSegmentDone core).mem = s.mem := by
  unfold State.maceSegmentDone
  dsimp only
  repeat' split
  all_goals rfl

@[simp] theorem maceResult_mem {core unit failed} : (s.maceResult core unit failed).mem = s.mem := by
  unfold State.maceResult
  split <;> simp

theorem execMaceSegment_wf {core unit outcome} (h : Memory.wf s.mem = true) :
    Out.Canonical (execMaceSegment core unit outcome s) := by
  unfold execMaceSegment
  repeat' split
  all_goals simp [h]

theorem execHealthRecordSign_wf (h : Memory.wf s.mem = true) : Out.Canonical (execHealthRecordSign s) := by
  simp [execHealthRecordSign, h]

theorem execHrLatch_wf (h : Memory.wf s.mem = true) : Out.Canonical (execHrLatch s) := by
  unfold execHrLatch
  grind -ring -linarith [onLink_wf, modHub_mem, canonical_next]

theorem execGetHealth_wf {lastSeq offset len} (h : Memory.wf s.mem = true) :
    Out.Canonical (execGetHealth lastSeq offset len s) := by
  unfold execGetHealth
  dsimp only
  split <;> simp [h]

theorem execClearFence_wf {die mask} (h : Memory.wf s.mem = true) : Out.Canonical (execClearFence die mask s) := by
  unfold execClearFence
  split <;> simp [h]

end Sys2Proof.Proofs.Canonical
end

section
/-!
PROOFS. Memory stays canonical: the special functions.
-/

namespace Sys2Proof.Proofs.Canonical

open Sys2Proof Sys2Proof.Machine Sys2Proof.Laws Sys2Proof.Proofs

variable {s : State}

theorem specialFn_wf {n mode w op} (h : Memory.wf s.mem = true) : Out.Canonical (specialFn n mode w s op) :=
  issue_wf h fun k g => by simpa using h

theorem execFdiv_wf {w} (h : Memory.wf s.mem = true) : Out.Canonical (execFdiv w s) :=
  specialFn_wf h

theorem execFsqrt_wf {w} (h : Memory.wf s.mem = true) : Out.Canonical (execFsqrt w s) :=
  specialFn_wf h

theorem execFrcp_wf {w} (h : Memory.wf s.mem = true) : Out.Canonical (execFrcp w s) :=
  specialFn_wf h

theorem execFrsq_wf {w} (h : Memory.wf s.mem = true) : Out.Canonical (execFrsq w s) :=
  specialFn_wf h

theorem execFlg2_wf {w} (h : Memory.wf s.mem = true) : Out.Canonical (execFlg2 w s) :=
  specialFn_wf h

theorem execFsin_wf {w} (h : Memory.wf s.mem = true) : Out.Canonical (execFsin w s) :=
  specialFn_wf h

theorem execFcos_wf {w} (h : Memory.wf s.mem = true) : Out.Canonical (execFcos w s) :=
  specialFn_wf h

theorem execFtanh_wf {w} (h : Memory.wf s.mem = true) : Out.Canonical (execFtanh w s) :=
  specialFn_wf h

theorem execFex2_wf {w} (h : Memory.wf s.mem = true) : Out.Canonical (execFex2 w s) :=
  specialFn_wf h

end Sys2Proof.Proofs.Canonical
end

section
/-!
PROOFS. Memory stays canonical: the control interval and the stations of a ring.
-/

namespace Sys2Proof.Proofs.Canonical

open Sys2Proof Sys2Proof.Machine Sys2Proof.Laws Sys2Proof.Proofs

variable {s : State}

theorem execControlInterval_wf {die measured} (h : Memory.wf s.mem = true) :
    Out.Canonical (execControlInterval die measured s) := by
  unfold execControlInterval
  dsimp only
  split <;> simp [h]

@[simp] theorem fillPurses_mem {ps n done} :
    (s.fillPurses ps n done).2.mem = s.mem := (Towpath.fillPurses_frame s ps n done).2

@[simp] theorem station_mem {claims die p n} : (s.station claims die p n).2.mem = s.mem := by
  unfold State.station
  dsimp only
  split
  · refine foldl_keeps (fun a : Nat × State => a.2.mem) _ (fun a c => ?_) _ _
    rfl
  · exact fillPurses_mem

@[simp] theorem stations_mem {claims die l} : (s.stations claims die l).2.mem = s.mem := by
  induction l generalizing s with
  | nil => rfl
  | cons p rest ih => exact ih.trans station_mem

theorem execStationDelivery_wf {die} (h : Memory.wf s.mem = true) : Out.Canonical (execStationDelivery die s) := by
  simp [execStationDelivery, h]

theorem execClaim_wf {core engine} (h : Memory.wf s.mem = true) : Out.Canonical (execClaim core engine s) := by
  unfold execClaim
  repeat' split
  all_goals simp [h]

theorem execEnergyUpdate_wf {ctx} (h : Memory.wf s.mem = true) : Out.Canonical (execEnergyUpdate ctx s) := by
  simp [execEnergyUpdate, h]

end Sys2Proof.Proofs.Canonical
end

section
/-!
PROOFS. Memory stays canonical: the dispatch.
-/

namespace Sys2Proof.Proofs.Canonical

open Sys2Proof Sys2Proof.Machine Sys2Proof.Laws Sys2Proof.Proofs

variable {s : State}

/-- Whatever is executed keeps memory canonical. -/
theorem exec_wf (h : Memory.wf s.mem = true) : ∀ i : Instr, Out.Canonical (exec i s)
  | .smov _ => execSmov_wf h
  | .smovi _ => execSmovi_wf h
  | .sadd _ => execSadd_wf h
  | .ssub _ => execSsub_wf h
  | .smul _ => execSmul_wf h
  | .smulh _ => execSmulh_wf h
  | .sdiv _ => execSdiv_wf h
  | .srem _ => execSrem_wf h
  | .smin _ => execSmin_wf h
  | .smax _ => execSmax_wf h
  | .sand _ => execSand_wf h
  | .sor _ => execSor_wf h
  | .sxor _ => execSxor_wf h
  | .sandn _ => execSandn_wf h
  | .sshl _ => execSshl_wf h
  | .sshr _ => execSshr_wf h
  | .ssra _ => execSsra_wf h
  | .sclz _ => execSclz_wf h
  | .spopc _ => execSpopc_wf h
  | .sbfx _ => execSbfx_wf h
  | .sbfi _ => execSbfi_wf h
  | .scmp _ => execScmp_wf h
  | .ssel _ => execSsel_wf h
  | .slea _ => execSlea_wf h
  | .sld _ => execSld_wf h
  | .sst _ => execSst_wf h
  | .clog _ => execClog_wf h
  | .nop _ => execNop_wf h
  | .bra _ => execBra_wf h
  | .brc _ => execBrc_wf h
  | .brv _ => execBrv_wf h
  | .bri _ => execBri_wf h
  | .call _ => execCall_wf h
  | .ret _ => execRet_wf h
  | .exit _ => execExit_wf h
  | .yield _ => execYield_wf h
  | .sleep _ => execSleep_wf h
  | .bar _ => execBar_wf h
  | .cbarArrive _ => execCbarArrive_wf h
  | .cbarWait _ => execCbarWait_wf h
  | .waitc _ => execWaitc_wf h
  | .waitb _ => execWaitb_wf h
  | .klaunch _ => execKlaunch_wf h
  | .sigf _ => execSigf_wf h
  | .ifence _ => execIfence_wf h
  | .vmov _ => execVmov_wf h
  | .vmovi _ => execVmovi_wf h
  | .vadd _ => execVadd_wf h
  | .vsub _ => execVsub_wf h
  | .vmul _ => execVmul_wf h
  | .vmulh _ => execVmulh_wf h
  | .vmad _ => execVmad_wf h
  | .vmin _ => execVmin_wf h
  | .vmax _ => execVmax_wf h
  | .vabs _ => execVabs_wf h
  | .vneg _ => execVneg_wf h
  | .vand _ => execVand_wf h
  | .vor _ => execVor_wf h
  | .vxor _ => execVxor_wf h
  | .vnot _ => execVnot_wf h
  | .vshl _ => execVshl_wf h
  | .vshr _ => execVshr_wf h
  | .vsra _ => execVsra_wf h
  | .vbfx _ => execVbfx_wf h
  | .vbfi _ => execVbfi_wf h
  | .vclz _ => execVclz_wf h
  | .vpopc _ => execVpopc_wf h
  | .vsel _ => execVsel_wf h
  | .vcmp _ => execVcmp_wf h
  | .vdot4 _ => execVdot4_wf h
  | .vidx _ => execVidx_wf h
  | .fadd _ => execFadd_wf h
  | .fsub _ => execFsub_wf h
  | .fmul _ => execFmul_wf h
  | .ffma _ => execFfma_wf h
  | .fmin _ => execFmin_wf h
  | .fmax _ => execFmax_wf h
  | .fcmp _ => execFcmp_wf h
  | .fcls _ => execFcls_wf h
  | .frndi _ => execFrndi_wf h
  | .fdiv _ => execFdiv_wf h
  | .fsqrt _ => execFsqrt_wf h
  | .frcp _ => execFrcp_wf h
  | .frsq _ => execFrsq_wf h
  | .fex2 _ => execFex2_wf h
  | .flg2 _ => execFlg2_wf h
  | .fsin _ => execFsin_wf h
  | .fcos _ => execFcos_wf h
  | .ftanh _ => execFtanh_wf h
  | .pkfma _ => execPkfma_wf h
  | .pkadd _ => execPkadd_wf h
  | .pkmul _ => execPkmul_wf h
  | .cvt _ => execCvt_wf h
  | .cvtb _ => execCvtb_wf h
  | .cvte _ => execCvte_wf h
  | .shfl _ => execShfl_wf h
  | .vrdl _ => execVrdl_wf h
  | .vwrl _ => execVwrl_wf h
  | .vred _ => execVred_wf h
  | .vscan _ => execVscan_wf h
  | .vote _ => execVote_wf h
  | .qmov _ => execQmov_wf h
  | .qlog _ => execQlog_wf h
  | .qcnt _ => execQcnt_wf h
  | .ld _ => execLd_wf h
  | .st _ => execSt_wf h
  | .ldp _ => execLdp_wf h
  | .stp _ => execStp_wf h
  | .ldv _ => execLdv_wf h
  | .stv _ => execStv_wf h
  | .atom _ => execAtom_wf h
  | .satom _ => execSatom_wf h
  | .apnd _ => execApnd_wf h
  | .apst _ => execApst_wf h
  | .seal _ => execSeal_wf h
  | .fence _ => execFence_wf h
  | .pref _ => execPref_wf h
  | .cflush _ => execCflush_wf h
  | .ldsx _ => execLdsx_wf h
  | .monw _ => execMonw_wf h
  | .mwait _ => execMwait_wf h
  | .trec _ => execTrec_wf h
  | .cpy _ => execCpy_wf h
  | .cpyx _ => execCpyx_wf h
  | .cpyr _ => execCpyr_wf h
  | .cpyb _ => execCpyb_wf h
  | .gath _ => execGath_wf h
  | .coll _ => execColl_wf h
  | .bcfg _ => execBcfg_wf h
  | .bput _ => execBput_wf h
  | .btake _ => execBtake_wf h
  | .tcfg _ => execTcfg_wf h
  | .mma _ => execMma_wf h
  | .mldb _ => execMldb_wf h
  | .msto _ => execMsto_wf h
  | .mzero _ => execMzero_wf h
  | .mq4 _ => execMq4_wf h
  | .srds _ => execSrds_wf h
  | .swrs _ => execSwrs_wf h
  | .trap _ => execTrap_wf h
  | .eret _ => execEret_wf h
  | .pmap _ => execPmap_wf h
  | .pfree _ => execPfree_wf h
  | .tlbi _ => execTlbi_wf h
  | .haltc _ => execHaltc_wf h
  | .dbrk _ => execDbrk_wf h
  | .clauseIssue _ => execClauseIssue_wf h
  | .operationComplete _ _ => execOperationComplete_wf h
  | .timerTrap _ => execTimerTrap_wf h
  | .sleepExpiry _ => execSleepExpiry_wf h
  | .barrierComplete _ _ => execBarrierComplete_wf h
  | .cbarPhaseComplete _ => execCbarPhaseComplete_wf h
  | .waitcComplete _ => execWaitcComplete_wf h
  | .waitbComplete _ => execWaitbComplete_wf h
  | .mwaitWake _ _ => execMwaitWake_wf h
  | .mwaitTimeout _ => execMwaitTimeout_wf h
  | .watchReread _ => execWatchReread_wf h
  | .watchTableRecheck _ => execWatchTableRecheck_wf h
  | .haltcWake _ => execHaltcWake_wf h
  | .stickyPriority _ => execStickyPriority_wf h
  | .controlInterval _ _ => execControlInterval_wf h
  | .claim _ _ => execClaim_wf h
  | .energyUpdate _ => execEnergyUpdate_wf h
  | .engineFire _ => execEngineFire_wf h
  | .engineStep _ => execEngineStep_wf h
  | .engineRetire _ => execEngineRetire_wf h
  | .pairArrival _ => execPairArrival_wf h
  | .cpyxSettle _ => execCpyxSettle_wf h
  | .tokenRequest _ _ _ => execTokenRequest_wf h
  | .persistentRequest _ _ _ => execPersistentRequest_wf h
  | .leaseExpiry _ => execLeaseExpiry_wf h
  | .remoteWriteDrain _ _ => execRemoteWriteDrain_wf h
  | .appendComplete _ _ => execAppendComplete_wf h
  | .sealComplete _ => execSealComplete_wf h
  | .purgeAck _ _ => execPurgeAck_wf h
  | .mtuWalkComplete _ => execMtuWalkComplete_wf h
  | .tier3SwapOut _ => execTier3SwapOut_wf h
  | .teamAdmit _ _ _ => execTeamAdmit_wf h
  | .launchComplete _ => execLaunchComplete_wf h
  | .clusterSend _ => execClusterSend_wf h
  | .dependenceHolds _ => execDependenceHolds_wf h
  | .stealRequest _ _ _ => execStealRequest_wf h
  | .partialEviction _ _ _ => execPartialEviction_wf h
  | .fenceTakesEffect _ _ => execFenceTakesEffect_wf h
  | .demeritDecay => execDemeritDecay_wf h
  | .maceSegment _ _ _ => execMaceSegment_wf h
  | .replicaPlace _ _ => execReplicaPlace_wf h
  | .checkResolve _ => execCheckResolve_wf h
  | .timeout _ => execTimeout_wf h
  | .healthRecordSign => execHealthRecordSign_wf h
  | .launchByRecord _ _ _ => execLaunchByRecord_wf h
  | .launchByRegisteredEntry _ _ _ => execLaunchByRegisteredEntry_wf h
  | .register _ _ _ => execRegister_wf h
  | .emptyAnEntry _ _ _ => execEmptyAnEntry_wf h
  | .launchWindowDrop _ _ => execLaunchWindowDrop_wf h
  | .atsInvalidateRequest _ _ _ => execAtsInvalidateRequest_wf h
  | .pageRequestGroupResponse _ _ _ => execPageRequestGroupResponse_wf h
  | .hostSnoop _ _ _ => execHostSnoop_wf h
  | .backInvalidateAnswer _ _ => execBackInvalidateAnswer_wf h
  | .hostMemoryAccess _ _ => execHostMemoryAccess_wf h
  | .ideKm _ => execIdeKm_wf h
  | .ideMacFailure _ => execIdeMacFailure_wf h
  | .lockInterfaceRequest => execLockInterfaceRequest_wf h
  | .startInterfaceRequest => execStartInterfaceRequest_wf h
  | .stopInterfaceRequest => execStopInterfaceRequest_wf h
  | .linkDown => execLinkDown_wf h
  | .keyLoad _ _ _ _ _ => execKeyLoad_wf h
  | .clearFence _ _ => execClearFence_wf h
  | .getHealth _ _ _ => execGetHealth_wf h
  | .spdmRequest _ => execSpdmRequest_wf h
  | .peerPortStateChange _ _ => execPeerPortStateChange_wf h
  | .peerCopyArrival _ _ _ _ => execPeerCopyArrival_wf h
  | .hrLatch => execHrLatch_wf h
  | .coldReset => execColdReset_wf h
  | .rcvGo _ => execRcvGo_wf h
  | .fwUpdCmd _ => execFwUpdCmd_wf h
  | .hcGo _ _ => execHcGo_wf h
  | .doorbell _ _ => execDoorbell_wf h
  | .dbgResumeGroup => execDbgResumeGroup_wf h
  | .dbgEndTeam => execDbgEndTeam_wf h
  | .create _ => execCreate_wf h
  | .switchout _ => execSwitchout_wf h
  | .partitionImageSave _ => execPartitionImageSave_wf h
  | .switchin _ => execSwitchin_wf h
  | .reset _ => execReset_wf h
  | .destroy _ => execDestroy_wf h
  | .hangWatchdogExpiry _ => execHangWatchdogExpiry_wf h
  | .saveTimerExpiry _ => execSaveTimerExpiry_wf h
  | .drCtl _ _ => execDrCtl_wf h
  | .drStepEnd _ => execDrStepEnd_wf h
  | .railCtl _ => execRailCtl_wf h
  | .railVoltageReached => execRailVoltageReached_wf h
  | .pdCtl _ _ _ => execPdCtl_wf h
  | .pdWake _ _ _ => execPdWake_wf h
  | .autoidleExpiry _ _ => execAutoidleExpiry_wf h
  | .poundStateComplete _ _ => execPoundStateComplete_wf h
  | .dispatchAtLock _ _ => execDispatchAtLock_wf h
  | .droopFire _ _ => execDroopFire_wf h
  | .droopHoldExpiry _ _ => execDroopHoldExpiry_wf h
  | .ftp64 _ _ _ => execFtp64_wf h
  | .ftp2m _ _ _ => execFtp2m_wf h
  | .qBind _ _ => execQBind_wf h
  | .slInject _ _ => execSlInject_wf h
  | .mgmtRegisterWrite _ _ => execMgmtRegisterWrite_wf h
  | .stationDelivery _ => execStationDelivery_wf h
  | .uncorrectableError _ => execUncorrectableError_wf h
  | .frozenSettingsChange => execFrozenSettingsChange_wf h

end Sys2Proof.Proofs.Canonical
end

section
/-!
PROOFS. Memory stays canonical: the step.
-/

namespace Sys2Proof.Proofs.Canonical

open Sys2Proof Sys2Proof.Machine Sys2Proof.Laws Sys2Proof.Proofs

variable {s : State}

theorem issueNext_wf {k} (h : Memory.wf s.mem = true) : Out.Canonical (issueNext k s) := by
  unfold issueNext
  have hcur : Memory.wf ({ s with cur := k } : State).mem = true := h
  split
  · simpa using h
  · split
    · exact exec_wf hcur _
    · exact canonical_next.2 (illegalSlot_wf hcur)

theorem step_wf (h : Memory.wf s.mem = true) : Out.Canonical (step s) := by
  unfold step
  have htick : Memory.wf s.tick.mem = true := by rwa [tick_mem]
  have hagenda : ∀ rest, Memory.wf ({ s.tick with agenda := rest } : State).mem = true := fun _ => htick
  have hretry : Memory.wf s.tick.retryHolding.mem = true := by rwa [retryHolding_mem]
  split
  · split
    · exact exec_wf (hagenda _) _
    · exact canonical_next.2 (hagenda _)
  · split
    · exact issueNext_wf htick
    · dsimp only
      split
      · exact exec_wf hretry _
      · exact canonical_next.2 hretry

/-- Settles O7: every instruction and event keeps memory canonical, and a step runs one of them after time has passed. -/
theorem stepsKeepMemoryCanonical : Obligations.StepsKeepMemoryCanonical := by
  unfold Obligations.StepsKeepMemoryCanonical
  exact fun s t h hstep => step_wf h t hstep

end Sys2Proof.Proofs.Canonical
end

section
/-!
PROOFS. The encoding: the fields of a slot, the opcode map, and the words that the spec writes out.
-/

namespace Sys2Proof.Proofs.Encoding

open Sys2Proof Sys2Proof.Machine Sys2Proof.Laws

/-! ## Fields -/

/-- R166: a TY is the one of its code. -/
theorem ty_decode_encode (t : Ty) : Ty.decode t.encode = some t := by cases t <;> rfl

theorem ty_encode_of_decode : ∀ {x : BitVec 4} {t : Ty}, Ty.decode x = some t → t.encode = x := by decide

/-- R164: an SF is the one of its code. -/
theorem flagSel_decode_encode (f : FlagSel) : FlagSel.decode f.encode = some f := by cases f <;> rfl

theorem flagSel_encode_of_decode : ∀ {x : BitVec 2} {f : FlagSel}, FlagSel.decode x = some f → f.encode = x := by decide

theorem bitOf_eq_one (b : Bool) : decide (bitOf b = 1#1) = b := by cases b <;> rfl

theorem bitOf_slotBit (x : BitVec 160) (i : Nat) : bitOf (slotBit x i) = x.extractLsb' i 1 := by
  have h : ∀ b : BitVec 1, bitOf (decide (b = 1#1)) = b := by decide
  exact h _

/-- An operand field is a kind and ten bits. -/
theorem operand_parts (k : BitVec 2) (n : BitVec 10) : (k ++ n).extractLsb' 10 2 = k ∧ (k ++ n).extractLsb' 0 10 = n :=
  ⟨(BitVec.extractLsb'_append_eq_of_le le_rfl).trans BitVec.extractLsb'_eq_self,
    (BitVec.extractLsb'_append_eq_of_add_le le_rfl).trans BitVec.extractLsb'_eq_self⟩

/-- R169: an operand is the one of its field. -/
theorem operand_decode_encode (o : Operand) : Operand.decode o.encode = some o := by
  cases o with
  | vec i =>
    have hkind : (0#4 ++ i).extractLsb' 10 2 = 0 := BitVec.extractLsb'_append_eq_of_le (by decide)
    have hzero : (0#4 ++ i).extractLsb' 8 2 = 0 := BitVec.extractLsb'_append_eq_of_le (by decide)
    have hnum : (0#4 ++ i).extractLsb' 0 8 = i :=
      (BitVec.extractLsb'_append_eq_of_add_le le_rfl).trans BitVec.extractLsb'_eq_self
    simp only [Operand.encode, Operand.decode, hkind, hzero, hnum, if_true]
  | scalar i =>
    obtain ⟨hkind, -⟩ := operand_parts 1#2 (0#4 ++ i)
    have hzero : (1#2 ++ (0#4 ++ i)).extractLsb' 6 4 = 0 :=
      (BitVec.extractLsb'_append_eq_of_add_le (by decide)).trans (BitVec.extractLsb'_append_eq_of_le (by decide))
    have hnum : (1#2 ++ (0#4 ++ i)).extractLsb' 0 6 = i :=
      (BitVec.extractLsb'_append_eq_of_add_le (by decide)).trans
        ((BitVec.extractLsb'_append_eq_of_add_le le_rfl).trans BitVec.extractLsb'_eq_self)
    simp only [Operand.encode, Operand.decode, hkind, hzero, hnum]
    rfl
  | special n =>
    obtain ⟨hkind, hnum⟩ := operand_parts 2#2 n
    simp only [Operand.encode, Operand.decode, hkind, hnum]
    rfl
  | imm v =>
    obtain ⟨hkind, hnum⟩ := operand_parts 3#2 v
    simp only [Operand.encode, Operand.decode, hkind, hnum]
    rfl

theorem operand_encode_of_decode {x : BitVec 12} {o : Operand} (h : Operand.decode x = some o) : o.encode = x := by
  have hx : x.extractLsb' 10 2 ++ x.extractLsb' 0 10 = x :=
    (BitVec.extractLsb'_append_extractLsb'_eq_extractLsb' rfl).trans BitVec.extractLsb'_eq_self
  have hvec : x.extractLsb' 8 2 ++ x.extractLsb' 0 8 = x.extractLsb' 0 10 :=
    BitVec.extractLsb'_append_extractLsb'_eq_extractLsb' rfl
  have hscalar : x.extractLsb' 6 4 ++ x.extractLsb' 0 6 = x.extractLsb' 0 10 :=
    BitVec.extractLsb'_append_extractLsb'_eq_extractLsb' rfl
  have hpad : ∀ i : BitVec 8, 0#4 ++ i = 0#2 ++ (0#2 ++ i) := by decide
  have hlast : ∀ a : BitVec 2, a ≠ 0 → a ≠ 1 → a ≠ 2 → a = 3 := by decide
  unfold Operand.decode at h
  dsimp only at h
  split at h
  · next h0 =>
    split at h
    · next hz =>
      cases h
      rw [hz] at hvec
      rw [h0, ← hvec] at hx
      exact (hpad _).trans hx
    · cases h
  · next h0 =>
    split at h
    · next h1 =>
      split at h
      · next hz =>
        cases h
        rw [hz] at hscalar
        rw [h1, ← hscalar] at hx
        exact hx
      · cases h
    · next h1 =>
      split at h
      · next h2 => cases h; rw [h2] at hx; exact hx
      · next h2 => cases h; rw [hlast _ h0 h1 h2] at hx; exact hx

/-! ## Slots -/

/-- R164: where the fields of a slot stand. -/
theorem encodeSlot_fields (op : BitVec 10) (w : Slot) :
    let x := encodeSlot op w
    x.extractLsb' 158 2 = 0 ∧ x.extractLsb' 156 2 = w.sf.encode ∧ x.extractLsb' 128 28 = w.mod ∧
    x.extractLsb' 127 1 = bitOf w.yld ∧ x.extractLsb' 124 3 = w.reuse ∧ x.extractLsb' 120 4 = w.stall ∧
    x.extractLsb' 119 1 = bitOf w.bnd ∧ x.extractLsb' 115 4 = w.hint ∧ x.extractLsb' 83 32 = w.imm ∧
    x.extractLsb' 71 12 = w.c.encode ∧ x.extractLsb' 59 12 = w.b.encode ∧ x.extractLsb' 47 12 = w.a.encode ∧
    x.extractLsb' 35 12 = w.d1.encode ∧ x.extractLsb' 23 12 = w.d0.encode ∧ x.extractLsb' 22 1 = bitOf w.lgNeg ∧
    x.extractLsb' 18 4 = w.lg ∧ x.extractLsb' 17 1 = bitOf w.sgNeg ∧ x.extractLsb' 14 3 = w.sg ∧
    x.extractLsb' 10 4 = w.ty.encode ∧ x.extractLsb' 0 10 = op := by
  intro x
  simp only [x, encodeSlot]
  refine ⟨?_, ?_, ?_, ?_, ?_, ?_, ?_, ?_, ?_, ?_, ?_, ?_, ?_, ?_, ?_, ?_, ?_, ?_, ?_, ?_⟩
  case refine_20 =>
    repeat rw [BitVec.extractLsb'_append_eq_of_add_le (by decide)]
    exact BitVec.extractLsb'_eq_self
  all_goals
    repeat rw [BitVec.extractLsb'_append_eq_of_add_le (by decide)]
    exact (BitVec.extractLsb'_append_eq_of_le le_rfl).trans BitVec.extractLsb'_eq_self

theorem encodeSlot_op (op : BitVec 10) (w : Slot) : (encodeSlot op w).extractLsb' 0 10 = op := by
  obtain ⟨-, -, -, -, -, -, -, -, -, -, -, -, -, -, -, -, -, -, -, hop⟩ := encodeSlot_fields op w
  exact hop

/-- R164: the slot of an instruction holds its fields. -/
theorem decodeSlot_encodeSlot (op : BitVec 10) (w : Slot) : decodeSlot (encodeSlot op w) = .ok w := by
  obtain ⟨hres, hsf, hmod, hyld, hreuse, hstall, hbnd, hhint, himm, hc, hb, ha, hd1, hd0, hlgn, hlg, hsgn, hsg, hty,
      -⟩ :=
    encodeSlot_fields op w
  simp only [decodeSlot, slotBit, hres, hsf, hmod, hyld, hreuse, hstall, hbnd, hhint, himm, hc, hb, ha, hd1, hd0,
      hlgn, hlg,
    hsgn, hsg, hty, flagSel_decode_encode, ty_decode_encode, operand_decode_encode, bitOf_eq_one, ne_eq,
        not_true_eq_false,
    if_false]

/-- R164: a slot whose fields decode is the slot of those fields. -/
theorem encodeSlot_of_decodeSlot {x : BitVec 160} {w : Slot} (h : decodeSlot x = .ok w) :
    encodeSlot (x.extractLsb' 0 10) w = x := by
  unfold decodeSlot at h
  split at h
  · cases h
  · next hres =>
    split at h
    · cases h
    · cases h
    · next hsf hty =>
      split at h
      · next hc hb ha hd1 hd0 =>
        cases h
        simp only [encodeSlot, flagSel_encode_of_decode hsf, ty_encode_of_decode hty, operand_encode_of_decode hc,
          operand_encode_of_decode hb, operand_encode_of_decode ha, operand_encode_of_decode hd1,
          operand_encode_of_decode hd0, bitOf_slotBit]
        rw [show (0#2) = x.extractLsb' 158 2 from (not_not.1 hres).symm]
        repeat rw [BitVec.extractLsb'_append_extractLsb'_eq_extractLsb' (by decide)]
        exact BitVec.extractLsb'_eq_self
      · cases h

/-! ## The opcode map -/

/-- R174: a well-formed instruction is the one of its opcode and slot; the two forms of CBAR differ in MOD[0] (R205). -/
theorem instrOf_opSlot {i : Instr} {op : BitVec 10} {w : Slot} (hwf : i.wf = true) (h : i.opSlot = some (op, w)) :
    instrOf op w = some i := by
  cases i with
  | cbarArrive x => exact Encoding.cbarArrive x hwf op w h
  | cbarWait x => exact Encoding.cbarWait x hwf op w h
  | _ => cases h <;> rfl

/-- R174: what the opcode map gives is well formed and has the opcode and the slot. -/
theorem opSlot_instrOf {i : Instr} {op : BitVec 10} {w : Slot} (h : instrOf op w = some i) :
    i.wf = true ∧ i.opSlot = some (op, w) := by
  have hop : ∀ {n}, op.toNat = n → op = BitVec.ofNat 10 n := fun hn => by rw [← hn, BitVec.ofNat_toNat,
      BitVec.setWidth_eq]
  have hbit : ∀ b : BitVec 1, b ≠ 0 → b = 1 := by decide
  unfold instrOf at h
  split at h
  case h_39 hn =>
    cases h
    split
    · next hm => exact ⟨by simpa [Instr.wf] using hm, by rw [hop hn]; rfl⟩
    · next hm => exact ⟨by simpa [Instr.wf] using hbit _ hm, by rw [hop hn]; rfl⟩
  case h_146 => cases h
  all_goals
    next hn =>
      cases h
      exact ⟨rfl, by rw [hop hn]; rfl⟩

/-! ## The statements -/

/-- Settles O2: a slot is its fields and its opcode, and the opcode map and its inverse agree. -/
theorem decodeAndEncodeAgree : Obligations.DecodeAndEncodeAgree := by
  unfold Obligations.DecodeAndEncodeAgree
  refine ⟨fun i x hwf h => ?_, fun x i h => ?_, fun i => ?_⟩
  · unfold encode at h
    split at h
    · next op w hs =>
      cases h
      simp only [decodeWord, decodeSlot_encodeSlot, encodeSlot_op, instrOf_opSlot hwf hs]
    · cases h
  · unfold decodeWord at h
    split at h
    · cases h
    · next w hw =>
      split at h
      · next j hj =>
        cases h
        obtain ⟨hwf, hs⟩ := opSlot_instrOf hj
        exact ⟨hwf, by simp only [encode, hs, encodeSlot_of_decodeSlot hw]⟩
      · cases h
  · unfold encode Instr.isEvent
    cases i.opSlot <;> rfl

/-- Settles O1: the decoder reads the six words. -/
theorem writtenOutWords : Obligations.WrittenOutWords := by
  unfold Obligations.WrittenOutWords
  decide

end Sys2Proof.Proofs.Encoding
end

section
/-!
PROOFS. What a step runs, the order of the checks at issue, register writes, and the condition bits.
-/

namespace Sys2Proof.Proofs.General

open Sys2Proof Sys2Proof.Machine Sys2Proof.Laws Sys2Proof.Proofs Sys2Proof.Proofs.Formats Sys2Proof.Proofs.Registers
  Sys2Proof.Proofs.Vector

/-! ## Steps -/

section Steps

variable (s : State)

/-- Before a step %clock, %cycles of the current core and the free index go on, and nothing else does. -/
@[simp] theorem tick_groups : s.tick.groups = s.groups := by unfold State.tick; split <;> rfl

@[simp] theorem tick_group (k : Nat) : s.tick.group k = s.group k := by unfold State.group; rw [tick_groups]

theorem now_le_tick : s.now ≤ s.tick.now := by unfold State.tick; split <;> exact Nat.le_add_right _ _

variable {s} {k : Nat} {g : Group} {c : ClausePos} {a : Nat} {x : BitVec 160} {rest : List (Nat × BitVec 160)}

/-- The slot that the running group issues is the first of the rest of its clause. -/
theorem tick_headSlot (hg : s.group k = some g) (hc : g.clause = some c) (hr : c.rest = (a, x) :: rest) :
    s.tick.headSlot k = some x := by
  simp only [State.headSlot, tick_group, hg, hc, hr]

theorem step_of_running (ha : s.agenda = []) (hk : s.running = some k) : step s = issueNext k s.tick := by
  simp only [step, ha, hk]

theorem step_of_agenda {e : Instr} {es : List Instr} (ha : s.agenda = e :: es) (he : e.isEvent = true) :
    step s = exec e { s.tick with agenda := es } := by
  simp only [step, ha, he, if_true]

theorem step_of_idle (ha : s.agenda = []) (hk : s.running = none) : step s = (let e := Config.nextEvent s.freeIx
    cond e.isEvent (exec e s.tick.retryHolding) (.next s.tick.retryHolding)) := by
  simp only [step, ha, hk]
  cases (Config.nextEvent s.freeIx).isEvent <;> rfl

theorem issueNext_decoded {i : Instr} (hx : s.headSlot k = some x) (hi : decodeWord x = .ok i) :
    issueNext k s = exec i { s with cur := k } := by
  simp only [issueNext, hx, hi]

theorem issueNext_undecoded {e : DecodeError} (hx : s.headSlot k = some x) (he : decodeWord x = .error e)
    (hg : s.group k = some g) : issueNext k s = .next ({ s with cur := k }.trapAt k (trapAll g 0x01 0)) := by
  have hg' : { s with cur := k }.group k = some g := hg
  simp only [issueNext, hx, he, State.illegalSlot, hg']

/-- Settles O3: by the agenda, then the running group. -/
theorem stepRunsDecoded : Obligations.StepRunsDecoded := by
  unfold Obligations.StepRunsDecoded
  intro s
  refine ⟨⟨tick_groups s, Canonical.tick_mem, now_le_tick s⟩, fun k g c a x rest ha hk hg hc hr => ?_,
    fun e rest ha he => step_of_agenda ha he, step_of_idle⟩
  have hx := tick_headSlot hg hc hr
  rw [step_of_running ha hk]
  exact ⟨fun i hi => issueNext_decoded hx hi, fun e he => issueNext_undecoded hx he (by rw [tick_group, hg])⟩

end Steps

/-! ## The checks at issue -/

/-- An outcome is an issue by the encoding rules `e`, whatever the instruction's own effect is. -/
inductive IssuesBy (e : Encoding) (s : State) : Out → Prop
  | issues (body : Nat → Group → Result) : IssuesBy e s (issue e.form e.ok e.more e.slot s body)

section Families

variable {f : Form} {ok : Group → Bool} {w : Slot} {s : State} {tys : List Ty} {n : Nat}

theorem issuesBy_scalarAlu {op : Int → Int → Int → Int} :
    IssuesBy { slot := w, form := f, ok := ok } s (scalarAlu f ok w s op) := .issues _

theorem issuesBy_vecInt {sat : Bool} {op : Int → Int → Int → Int} :
    IssuesBy { slot := w, form := f, ok := ok } s (vecInt f ok w s sat op) := .issues _

theorem issuesBy_fpArith {op : Bool → Exact → Exact → Exact → Exact × FpFlags} :
    IssuesBy (encFp w (fpForm tys n true true true)) s (fpArith tys n w s op) := .issues _

theorem issuesBy_fpMinMax {op : Fmt → Nat → Nat → Nat} :
    IssuesBy (encFp w (fpForm (.f32 :: packedTys) 2 false true true)) s (fpMinMax w s op) := .issues _

theorem issuesBy_specialFn {mode : Bool} {op : Nat → Nat → Nat → Nat × FpFlags} :
    IssuesBy (encSfu w n mode) s (specialFn n mode w s op) := .issues _

end Families

/-- R165, R175: every instruction that has an encoding issues by it. -/
theorem exec_issuesBy {i : Instr} {s : State} {e : Encoding} (h : encodingOf s i = some e) : IssuesBy e s (exec i s) := by
  cases i with
  | smov | sadd | ssub | smul | smulh | sdiv | srem | smin | smax | sand | sor | sxor | sandn | sshl | sshr | ssra |
  sclz | spopc | sbfx | sbfi | slea =>
    cases h
    dsimp only [exec, execSmov, execSadd, execSsub, execSmul, execSmulh, execSdiv, execSrem, execSmin, execSmax,
      execSand, execSor, execSxor, execSandn, execSshl, execSshr, execSsra, execSclz, execSpopc, execSbfx, execSbfi,
      execSlea]
    exact issuesBy_scalarAlu
  | vadd | vsub | vmul | vmad | vabs | vneg | vmulh | vmin | vmax | vand | vor | vxor | vnot | vshl | vshr | vsra |
  vbfx | vbfi | vclz | vpopc | vmov =>
    cases h
    dsimp only [exec, execVadd, execVsub, execVmul, execVmad, execVabs, execVneg, execVmulh, execVmin, execVmax,
      execVand, execVor, execVxor, execVnot, execVshl, execVshr, execVsra, execVbfx, execVbfi, execVclz, execVpopc,
      execVmov]
    exact issuesBy_vecInt
  | fadd | fsub | fmul | ffma | pkadd | pkmul | pkfma =>
    cases h
    dsimp only [exec, execFadd, execFsub, execFmul, execFfma, execPkadd, execPkmul, execPkfma]
    exact issuesBy_fpArith
  | fmin | fmax =>
    cases h
    dsimp only [exec, execFmin, execFmax]
    exact issuesBy_fpMinMax
  | fdiv | fsqrt | frcp | frsq | flg2 | fsin | fcos | ftanh | fex2 =>
    cases h
    dsimp only [exec, execFdiv, execFsqrt, execFrcp, execFrsq, execFlg2, execFsin, execFcos, execFtanh, execFex2]
    exact issuesBy_specialFn
  | scmp | brc | brv | call | cbarArrive | waitc | waitb | klaunch | vcmp | fcmp | cvt | cvte | vote | qcnt | cpy |
  cpyr | coll | mma | mldb | msto | mq4 | srds | swrs | tlbi =>
    cases h
    dsimp only [exec, execScmp, execBrc, execBrv, execCall, execCbarArrive, execWaitc, execWaitb, execKlaunch,
      execVcmp, execFcmp, execCvt, execCvte, execVote, execQcnt, execCpy, execCpyr, execColl, execMma, execMldb,
      execMsto, execMq4, execSrds, execSwrs, execTlbi]
    exact .issues _
  | _ => cases h <;> (dsimp only [exec]; exact .issues _)

/-- R175: an issue makes its checks in this order. -/
theorem IssuesBy.checks {e : Encoding} {s : State} {o : Out} {g : Group} (h : IssuesBy e s o)
    (hg : s.group s.cur = some g) :
    (e.legalIn g = false → o = .next (s.trapAt s.cur (trapAll g 0x01 0))) ∧
    (e.legalIn g = true → e.pendingIn g = true → o = .next (s.trapAt s.cur (trapAll g 0x03 0))) ∧
    (e.legalIn g = true → e.pendingIn g = false → g.guard e.slot = false → o = .next (s.advance s.cur e.slot)) := by
  obtain ⟨body⟩ := h
  exact ⟨fun hl => issue_illegal hg hl, fun hl hp => issue_pending hg hl hp, fun hl hp hn => issue_guarded hg hl hp hn⟩

theorem encodingOf_isSome (i : Instr) (s : State) : (encodingOf s i).isSome = !i.isEvent := by
  cases i <;> rfl

/-- Settles O4: every instruction with an encoding is an issue by it, and an issue makes its checks in order. -/
theorem checksAtIssue : Obligations.ChecksAtIssue := by
  unfold Obligations.ChecksAtIssue
  exact fun i s => ⟨encodingOf_isSome i s, fun g e hg he => (exec_issuesBy he).checks hg⟩

/-! ## Register writes -/

section Registers

variable {g : Group}

theorem setS_vecs_qregs (r : Nat) (v : Word) : (g.setS r v).vecs = g.vecs ∧ (g.setS r v).qregs = g.qregs := by
  unfold Group.setS; split <;> exact ⟨rfl, rfl⟩

theorem setQ_sregs (r : Nat) (v : BitVec 64) : (g.setQ r v).sregs = g.sregs := by
  unfold Group.setQ; split <;> rfl

/-- R171: lanes of two registers lie at different places. -/
theorem lane_place_ne {r r' l l' : Nat} (hl : l < 64) (hl' : l' < 64) (h : r' ≠ r ∨ l' ≠ l) :
    r' * 64 + l' ≠ r * 64 + l := by omega

/-- Settles O5: by the kind of register. -/
theorem registerWrites : Obligations.RegisterWrites := by
  unfold Obligations.RegisterWrites
  refine fun g v x => ⟨group_s_zero g, group_setS_zero g v, group_q_zero g, group_setQ_zero g v, fun r hr hw => ?s,
    fun r hr hw => ?q, fun r l hl hw => ?v⟩
  case s =>
    exact ⟨group_s_setS_self g hr hw, fun j hj => group_s_setS_ne g hj, setS_vecs_qregs r v⟩
  case q =>
    exact ⟨Registers.group_q_setQ_self hr hw, fun j hj => group_q_setQ_ne g hj, setQ_sregs r v⟩
  case v =>
    exact ⟨group_v_setV_self hw, rfl, fun r2 l2 hl2 hne => group_v_setV_ne g (lane_place_ne hl hl2 hne)⟩

end Registers

/-! ## Condition bits -/

/-- R171: a condition bit reads what was written to it. -/
theorem group_c_setC_self (g : Group) {i : Nat} (v : Bool) (hi : i < 7) : (g.setC i v).c i = v := by
  have h7 : ¬ 7 ≤ i := Nat.not_le.2 hi
  simp only [Group.c, Group.setC, h7, if_false]
  cases v <;> simp [hi]

theorem group_c_setC_ne (g : Group) {i j : Nat} (v : Bool) (hi : i < 7) (hj : j ≠ i) : (g.setC i v).c j = g.c j := by
  have h7 : ¬ 7 ≤ i := Nat.not_le.2 hi
  have hbit : (1#7 <<< i).getLsbD j = false := by
    have : j - i ≠ 0 ∨ j < i := by omega
    rcases this with h | h <;> simp [h]
  unfold Group.c
  split
  · rfl
  · next hj7 =>
    simp only [Group.setC, h7, if_false]
    cases v
    · rw [if_neg Bool.false_ne_true, BitVec.getLsbD_and, BitVec.getLsbD_not, hbit, decide_eq_true (Nat.not_le.1 hj7)]
      exact Bool.and_true _
    · rw [if_pos rfl, BitVec.getLsbD_or, hbit, Bool.or_false]

/-- R190: SCMP does not combine by 3. -/
theorem ready_scmp_comb {s : State} {k : Nat} {g : Group} {w : Slot} (h : ReadyTo (.scmp w) s k g) :
    (w.mod.extractLsb' 3 2).toNat ≠ 3 := by
  have hok := ready_ok h rfl
  simp only [Bool.and_eq_true, decide_eq_true_eq] at hok
  obtain ⟨⟨-, hcomb⟩, -⟩ := hok
  exact hcomb

/-- R190: SCMP writes its comparison, or what it gives with a condition bit. -/
theorem ready_scmp {s : State} {k : Nat} {g : Group} {w : Slot} (h : ReadyTo (.scmp w) s k g) :
    let r := compareInt (w.mod.extractLsb' 0 3).toNat (s.scalarInt g w w.a) (s.scalarInt g w w.b)
    let comb := (w.mod.extractLsb' 3 2).toNat
    exec (.scmp w) s = .next (s.retire k w (g.setC w.d0.specialIndex
      (if comb = 1 then r && g.c w.c.specialIndex else if comb = 2 then r || g.c w.c.specialIndex else r))) :=
  ready_done h rfl (execScmp.eq_def w s) rfl

/-- The ways of combining, in the order of their codes. -/
theorem combine_eq {comb : Nat} (h4 : comb < 4) (h3 : comb ≠ 3) (r c : Bool) :
    (if comb = 1 then r && c else if comb = 2 then r || c else r) =
      if comb = 0 then r else if comb = 1 then r && c else r || c := by
  have : comb = 0 ∨ comb = 1 ∨ comb = 2 := by omega
  rcases this with rfl | rfl | rfl <;> rfl

/-- Settles O10: the results of SCMP and CLOG, and what a condition bit reads after a write. -/
theorem conditionBits : Obligations.ConditionBits := by
  unfold Obligations.ConditionBits
  intro s k g w
  have hcomb : (w.mod.extractLsb' 3 2).toNat = w.mod.toNat / 8 % 4 := by
    rw [BitVec.extractLsb'_toNat, Nat.shiftRight_eq_div_pow]
  refine ⟨fun h => ?_, ready_clog, fun v => ⟨rfl, rfl⟩, fun i v hi => ⟨group_c_setC_self g v hi, fun j hj =>
    group_c_setC_ne g v hi hj⟩⟩
  have h3 := ready_scmp_comb h
  rw [hcomb] at h3
  rw [ready_scmp h, hcomb, modBits_eq, Registers.compareInt_eq, combine_eq (Nat.mod_lt _ (by decide)) h3]
  rfl

end Sys2Proof.Proofs.General
end

section
/-!
PROOFS. Loads and stores of virtual memory: scalar ones, those over lanes, and the checks on the lanes.
-/

namespace Sys2Proof.Proofs.Memory

open Sys2Proof Sys2Proof.Machine Sys2Proof.Laws Sys2Proof.Proofs Sys2Proof.Proofs.Formats Sys2Proof.Proofs.Registers
  Sys2Proof.Proofs.Vector

/-! ## What the checks on the lanes come to -/

section Routed

variable {r : Routed} {s : State} {perform : List Ready → State}

theorem routed_run_needs (h : r.needs ≠ []) : r.run s perform = .park s r.needs := by
  simp [Routed.run, h]

theorem routed_run_done (hn : r.needs = []) (hf : r.failed = []) : r.run s perform = .done (perform r.ready) := by
  simp [Routed.run, hn, hf]

theorem routed_run_trap (hn : r.needs = []) (hf : r.failed ≠ []) :
    r.run s perform = .trap (perform r.ready) (laneTrap r.failed) := by
  simp [Routed.run, hn, hf]

theorem routed_acts_iff : r.acts = true ↔ r.failed = [] ∨ r.ready ≠ [] := by
  simp [Routed.acts]

end Routed

section Ready

variable {i : Instr} {s t : State} {k : Nat} {g : Group} {w : Slot} {e : Encoding} {body : Nat → Group →
    Result} {c : Cause}

/-- R158, R161: the trap of an instruction whose trap entry need not wait. -/
theorem finish_trap (he : encodingOf s i = some e) (hw : s.trapWaits k = false) :
    finish s k e.form e.slot (.trap t c) = t.trapFrom s k i c := by
  simp only [finish, hw, State.trapFrom, he, Bool.false_eq_true, if_false]

/-! ## Loads and stores over lanes -/

/-- R264, R265: an instruction whose effect is a load over lanes. -/
theorem ready_loadsLanes {op : Nat} {dests : List DestReg} {accesses : Nat → List (Nat × Nat)}
    {place : Nat → List (List Byte) → List RegWrite} (h : ReadyTo i s k g) (he : encodingOf s i = some e)
    (hx : exec i s = issue e.form e.ok e.more e.slot s body)
    (hb : body k g = s.loadLanes k g e.slot op dests accesses place) :
    LoadsLanes i e.slot s k g op dests accesses place := by
  have hi := ready_issue h he hx
  rw [hb, State.loadLanes] at hi
  unfold LoadsLanes
  intro r s1
  refine ⟨fun hwait => ?waits, fun hwait => ?goes⟩
  case waits => rw [hi, if_pos hwait]; rfl
  case goes =>
    rw [if_neg (Bool.eq_false_iff.1 hwait)] at hi
    refine ⟨fun hn => ?_, fun hn hr hf ht => ?_, fun x s2 hn hact hread => ⟨fun hf => ?_, fun hf ht => ?_⟩⟩
    · rw [hi, routed_run_needs hn]; rfl
    · have hact : r.acts = false := Bool.eq_false_iff.2 fun ha => (routed_acts_iff.1 ha).elim hf (· hr)
      rw [hi, routed_run_trap hn hf, finish_trap he ht]
      dsimp only
      rw [if_pos (by rw [hact]; rfl)]
    all_goals
      have hact := routed_acts_iff.2 hact
      have hperform : (if !r.acts then s else match s1.readLogged k g op r.ready with
          | (some x, s2) => s2.departLoad k e.slot dests ((x.values.map (fun v => place v.1 v.2)).flatten) x.fault
          | (none, s2) => s2.stopRun k 0x31 g.pc) =
          s2.departLoad k e.slot dests ((x.values.map (fun v => place v.1 v.2)).flatten) x.fault := by
        rw [hact, hread]; rfl
    · rw [hi, routed_run_done hn hf]
      exact congrArg (fun a => Host.Outcome.next (a.advance k e.slot)) hperform
    · rw [hi, routed_run_trap hn hf, finish_trap he ht]
      exact congrArg (fun a => Host.Outcome.next (a.trapFrom s k i (laneTrap r.failed))) hperform

/-- R262, R265: an instruction whose effect is a store over lanes. -/
theorem ready_storesLanes {accesses : Nat → List (Nat × Nat)} {data : Nat → List (List Byte)} (h : ReadyTo i s k g)
    (he : encodingOf s i = some e) (hx : exec i s = issue e.form e.ok e.more e.slot s body)
    (hb : body k g = s.storeLanes k g e.slot accesses data) : StoresLanes i e.slot s k g accesses data := by
  refine ready_releases h he hx hb fun s1 hi => ?_
  dsimp only at hi ⊢
  refine ⟨fun hwait => ?_, fun hwait => ⟨fun hn => ?_, fun hn hf => ?_, fun hn hf ht => ?_⟩⟩
  · rw [hi, if_pos hwait]; rfl
  all_goals rw [hi, if_neg (Bool.eq_false_iff.1 hwait)]
  · rw [routed_run_needs hn]; rfl
  · rw [routed_run_done hn hf]; rfl
  · rw [routed_run_trap hn hf, finish_trap he ht]

end Ready

/-! ## Addresses -/

section Addresses

variable (g : Group) (w : Slot) (l : Nat)

theorem ofInt_signedOf {n : Nat} (x : BitVec n) (m : Nat) : BitVec.ofInt m (signedOf x.toNat n) = x.signExtend m := by
  rw [signedOf_toNat]; rfl

/-- R260: the index of a lane, as a word. -/
theorem ofInt_laneIndex : BitVec.ofInt 64 (g.laneIndex w l) = match w.c with
      | .vec r => if memIX w = 2 then g.v64 r.toNat l else if memIX w = 1 then (g.v r.toNat l).signExtend 64
          else (g.v r.toNat l).zeroExtend 64
      | .scalar i => g.s i.toNat
      | _ => 0 := by
  unfold Group.laneIndex
  cases w.c with
  | vec r =>
    dsimp only
    split
    · rw [BitVec.ofInt_natCast, BitVec.ofNat_toNat, BitVec.setWidth_eq]
    · split
      · exact ofInt_signedOf _ _
      · rw [BitVec.ofInt_natCast, BitVec.ofNat_toNat]
  | scalar i => exact (BitVec.ofInt_natCast ..).trans (by rw [BitVec.ofNat_toNat, BitVec.setWidth_eq])
  | special | imm => rfl

theorem ofInt_toNat (x : Word) : BitVec.ofInt 64 (x.toNat : Int) = x := by
  rw [BitVec.ofInt_natCast, BitVec.ofNat_toNat, BitVec.setWidth_eq]

/-- R260: the address of a lane. -/
theorem ofNat_laneAddress : BitVec.ofNat 64 (g.laneAddress w l) =
    g.s w.a.scalarIndex + BitVec.ofInt 64 (g.laneIndex w l) * BitVec.ofNat 64 (2 ^ (w.mod.toNat % 8)) +
      w.imm.signExtend 64 := by
  rw [Group.laneAddress, Group.address, ofNat_wrapInt, BitVec.ofInt_add, BitVec.ofInt_add, BitVec.ofInt_mul,
    ofInt_signedOf, ofInt_toNat, BitVec.ofInt_natCast, show memSC w = w.mod.toNat % 8 from modBits_eq w.mod 3]

/-- R194: the address of a scalar access. -/
theorem ofNat_scalarAddress : BitVec.ofNat 64 (g.scalarAddress w) =
    g.s w.a.scalarIndex + (match w.c with
      | .scalar i => g.s i.toNat
      | _ => 0) + w.imm.signExtend 64 := by
  unfold Group.scalarAddress
  rw [ofNat_wrapInt, BitVec.ofInt_add, BitVec.ofInt_add, ofInt_signedOf, ofInt_toNat]
  cases w.c with
  | scalar i => exact congrArg (g.s w.a.scalarIndex + · + w.imm.signExtend 64) (ofInt_toNat _)
  | vec | special | imm => rfl

end Addresses

/-! ## The checks on a lane -/

section Checks

variable {s : State} {g : Group} {k : Nat} {kind : AccessKind} {need : PageNeed} {accesses : Nat → List (Nat × Nat)}

/-- The routes of a lane's accesses. -/
def laneRoutes (s : State) (g : Group) (k : Nat) (kind : AccessKind) (need : PageNeed) (accesses : Nat →
    List (Nat × Nat))
    (l : Nat) : List Route :=
  (accesses l).map (fun p => s.routeOne (g.who k) g.walkFaults kind need p.1 p.2)

/-- Adding lanes one after another. -/
def addLanes (routes : Nat →
    List Route) (r : Routed) (ls : List Nat) : Routed := ls.foldl (fun a l => a.add l (routes l)) r

theorem routeLanes_eq (lanes : List Nat) :
    s.routeLanes g k kind need lanes noEarly accesses = addLanes (laneRoutes s g k kind need accesses) {} lanes := rfl

/-- Two routes that pass give their parts in order. -/
theorem route_and_eq_ok {a b : Route} {ps : List Piece} (h : a.and b = .ok ps) :
    ∃ p q, a = .ok p ∧ b = .ok q ∧ ps = p ++ q := by
  cases a <;> cases b <;> cases h
  exact ⟨_, _, rfl, rfl, rfl⟩

/-- The parts of a route, none where it does not pass. -/
def routeParts : Route → List Piece
  | .ok ps => ps
  | _ => []

/-- When all of a list of routes pass, together they give the parts of each. -/
theorem foldl_and_eq_ok {rs : List Route} {a : Route} {ps : List Piece} (h : rs.foldl Route.and a = .ok ps) :
    ∃ p, a = .ok p ∧ ps = p ++ (rs.map routeParts).flatten := by
  induction rs generalizing a with
  | nil => exact ⟨ps, h, (List.append_nil ps).symm⟩
  | cons r rs ih =>
    obtain ⟨p, hp, hps⟩ := ih h
    obtain ⟨q, q', rfl, rfl, rfl⟩ := route_and_eq_ok hp
    exact ⟨q, rfl, by rw [hps, List.append_assoc]; rfl⟩

section Add

variable {r : Routed} {l : Nat} {rs : List Route}

theorem add_of_ok {ps : List Piece} (h : rs.foldl Route.and (.ok []) = .ok ps) :
    r.add l rs = { r with ready := r.ready ++ [{ lane := l, accesses := rs.map routeParts }] } := by
  simp only [Routed.add, h]; rfl

theorem add_of_miss {n : List (Nat × AccessKind)} (h : rs.foldl Route.and (.ok []) = .miss n) :
    r.add l rs = { r with needs := r.needs ++ n } := by
  simp only [Routed.add, h]

theorem add_of_fault {c a : Nat} (h : rs.foldl Route.and (.ok []) = .fault c a) :
    r.add l rs = { r with failed := r.failed ++ [(l, c, a)] } := by
  simp only [Routed.add, h]

end Add

/-- Adding a lane keeps what the earlier lanes came to. -/
theorem add_grows (r : Routed) (l : Nat) (rs : List Route) :
    r.needs ⊆ (r.add l rs).needs ∧ r.ready ⊆ (r.add l rs).ready ∧ r.failed ⊆ (r.add l rs).failed := by
  cases h : rs.foldl Route.and (.ok []) with
  | ok ps => rw [add_of_ok h]; simp
  | miss n => rw [add_of_miss h]; simp
  | fault c a => rw [add_of_fault h]; simp

theorem addLanes_grows (routes : Nat → List Route) (r : Routed) (ls : List Nat) :
    r.needs ⊆ (addLanes routes r ls).needs ∧ r.ready ⊆ (addLanes routes r ls).ready ∧
      r.failed ⊆ (addLanes routes r ls).failed := by
  induction ls generalizing r with
  | nil => exact ⟨List.Subset.refl _, List.Subset.refl _, List.Subset.refl _⟩
  | cons l ls ih =>
    obtain ⟨hn, hr, hf⟩ := add_grows r l (routes l)
    obtain ⟨hn', hr', hf'⟩ := ih (r.add l (routes l))
    exact ⟨List.Subset.trans hn hn', List.Subset.trans hr hr', List.Subset.trans hf hf'⟩

/-- What a lane of the list comes to stands in the whole. -/
theorem addLanes_of_mem {routes : Nat → List Route} {ls : List Nat} {l : Nat} (h : l ∈ ls) (r : Routed) :
    ∃ r' : Routed, let a := r'.add l (routes l)
      a.needs ⊆ (addLanes routes r ls).needs ∧ a.ready ⊆ (addLanes routes r ls).ready ∧
        a.failed ⊆ (addLanes routes r ls).failed := by
  induction ls generalizing r with
  | nil => cases h
  | cons x xs ih =>
    rcases List.mem_cons.1 h with rfl | hx
    · exact ⟨r, addLanes_grows routes _ xs⟩
    · exact ih hx (r.add x (routes x))

/-- Settles O24: by what the lane's routes come to together. -/
theorem laneChecks : Obligations.LaneChecks := by
  unfold Obligations.LaneChecks
  intro s g k kind need lanes accesses l hl r routes
  obtain ⟨r', hneeds, hready, hfailed⟩ := addLanes_of_mem (routes := laneRoutes s g k kind need accesses) hl {}
  rw [← routeLanes_eq] at hneeds hready hfailed
  refine ⟨fun n p hn hp => hneeds ?_, fun c a hc => hfailed ?_, fun ps hps => ⟨⟨l, routes.map routeParts⟩, hready ?_,
      rfl, ?_⟩⟩
  · show p ∈ (r'.add l routes).needs
    rw [add_of_miss hn]; exact List.mem_append_right _ hp
  · show (l, c, a) ∈ (r'.add l routes).failed
    rw [add_of_fault hc]; exact List.mem_append_right _ (List.mem_singleton_self _)
  · show _ ∈ (r'.add l routes).ready
    rw [add_of_ok hps]; exact List.mem_append_right _ (List.mem_singleton_self _)
  · obtain ⟨p, hp, rfl⟩ := foldl_and_eq_ok hps
    cases hp
    rfl

end Checks

/-! ## Scalar accesses -/

section Scalar

variable {s : State} {k : Nat} {g : Group} {w : Slot}

theorem scalarSize_eq (w : Slot) : scalarSize w = 2 ^ (w.mod.toNat % 4) := by
  rw [scalarSize, modBits_eq]; rfl

/-- R194: the value that SLD writes. -/
theorem scalarLoaded_eq (w : Slot) (bs : List Byte) : scalarLoaded w bs =
    if w.mod.getLsbD 2 then BitVec.ofInt 64 (signedOf (leNat bs) (8 * bs.length)) else BitVec.ofNat 64 (leNat bs) := by
  simp only [scalarLoaded, ofNat_wrapInt, bytesWord]

/-- R193 to R195: SLD, by what its route comes to. -/
theorem ready_sld (h : ReadyTo (.sld w) s k g) : exec (.sld w) s =
    .next (finish s k { scalarMemForm with d0 := .scalarReg, long := true } w
      (match s.routeOne (g.who k) g.walkFaults .read .any (g.scalarAddress w) (scalarSize w) with
      | .miss needs => .park s needs
      | .fault c va => .trap s (trapAll g c (BitVec.ofNat 64 va))
      | .ok ps =>
        if (oneReady ps).waits s (g.who k) false then .stay s
        else
        let s1 := if w.mod.getLsbD 3 then s.acquire (g.who k) (scalarScope w) else s
        match s1.readLogged k g 0x018 [{ lane := 0, accesses := [ps] }] with
        | (some x, s2) =>
          let v := scalarLoaded w ((x.values.map (fun y => y.2.flatten)).flatten)
          .done (s2.departLoad k w [.scalar w.d0.scalarIndex] [.scalar w.d0.scalarIndex v] x.fault)
        | (none, s2) => .moved (s2.stopRun k 0x31 g.pc))) :=
  ready_issue h rfl (execSld.eq_def w s)

/-- R193 to R195: SLD whose access passes its checks puts one register write in flight. -/
theorem ready_sld_loads {ps : List Piece} {x : LanesRead} {t : State} (h : ReadyTo (.sld w) s k g)
    (hr : s.routeOne (g.who k) g.walkFaults .read .any (g.scalarAddress w) (scalarSize w) = .ok ps)
    (hw : (oneReady ps).waits s (g.who k) false = false)
    (hread : (if w.mod.getLsbD 3 then s.acquire (g.who k) (scalarScope w) else s).readLogged k g 0x018
      [{ lane := 0, accesses := [ps] }] = (some x, t)) :
    exec (.sld w) s = .next ((t.departLoad k w [.scalar w.d0.scalarIndex] [.scalar w.d0.scalarIndex
      (scalarLoaded w ((x.values.map (fun y => y.2.flatten)).flatten))] x.fault).advance k w) := by
  rw [ready_sld h, hr]
  dsimp only
  rw [if_neg (Bool.eq_false_iff.1 hw), hread]
  rfl

end Scalar

/-- Settles O22: each by what its route comes to, SST in the state that its release leaves. -/
theorem scalarLoadsAndStores : Obligations.ScalarLoadsAndStores := by
  unfold Obligations.ScalarLoadsAndStores
  intro s k g w who n scope ordered va d s1 index
  have hn : n = scalarSize w := (scalarSize_eq w).symm
  refine ⟨⟨wrapInt_lt _ _, ofNat_scalarAddress g w⟩, fun h => ?sld, fun h => ?sst⟩
  case sld =>
    have hi := ready_sld h
    rw [hn]
    refine ⟨fun needs hr => ?_, fun c a hr ht => ?_, fun ps hr hw => ?_, fun ps x t hr hw hread => ?_⟩
    · rw [hi, hr]; rfl
    · rw [hi, hr, finish_trap (i := .sld w) (e := ⟨w, _, _, _⟩) rfl ht]
    · rw [hi, hr]; dsimp only; rw [if_pos hw]; rfl
    · rw [ready_sld_loads h hr hw hread, scalarLoaded_eq]
  case sst =>
    refine ready_releases h rfl (execSst.eq_def w s) rfl fun s2 hi => ?_
    rw [hn]
    refine ⟨fun needs hr => ?_, fun c a hr ht => ?_, fun ps hr hw => ?_,
        fun ps hr hw => ?_⟩ <;> rw [hi] <;> dsimp only <;>
      rw [hr]
    · rfl
    · simp only [finish, ht, Bool.false_eq_true, if_false,
        issueTrap_short (f := { scalarMemForm with b := { scalar := true, imm := true } }) rfl]
    · dsimp only; rw [if_pos hw]; rfl
    · dsimp only; rw [if_neg (Bool.eq_false_iff.1 hw)]; rfl

/-- R266: a lane's accesses of LDV and STV. -/
theorem blockAccesses_eq (g : Group) (w : Slot) (l : Nat) :
    let e := if w.ty.wide then 2 else 1
    g.blockAccesses w l = (List.range (2 ^ memCnt w)).map (fun r =>
      ((g.laneAddress w 0 + (r * g.width + l) * (4 * e)) % 2 ^ 64, 4 * e)) := rfl

/-- Settles O23: each instruction is a load or a store over its lanes. -/
theorem laneAccesses : Obligations.LaneAccesses := by
  unfold Obligations.LaneAccesses
  refine ⟨fun s k g w => ⟨fun h => ?ld, fun h => ?ldv, fun h => ?ldsx⟩, fun s k g w => ⟨fun h => ?st, fun h => ?stv⟩,
    fun g w l => ⟨wrapInt_lt _ _, ?address⟩⟩
  case ld => have h1 := ready_loadsLanes h rfl (execLd.eq_def w s) rfl; exact h1
  case ldv => have h1 := ready_loadsLanes h rfl (execLdv.eq_def w s) rfl; exact h1
  case ldsx => have h1 := ready_loadsLanes h rfl (execLdsx.eq_def w s) rfl; exact h1
  case st => have h1 := ready_storesLanes h rfl (execSt.eq_def w s) rfl; exact h1
  case stv => have h1 := ready_storesLanes h rfl (execStv.eq_def w s) rfl; exact h1
  case address =>
    have h := ofNat_laneAddress g w l
    rw [ofInt_laneIndex] at h
    exact h

end Sys2Proof.Proofs.Memory
end

section
/-!
PROOFS. What loads and stores of virtual memory leave as it was.
-/

namespace Sys2Proof.Proofs.Memory

open Sys2Proof Sys2Proof.Machine Sys2Proof.Laws Sys2Proof.Proofs Sys2Proof.Proofs.Formats Sys2Proof.Proofs.Registers
  Sys2Proof.Proofs.Vector

/-! ## What a load reads and leaves -/

/-- The groups, teams and page-table roots of a state, and its memory. -/
def parties (s : State) : Tab Group × Tab Team × Tab Word × Tab Byte := (s.groups, s.teams, s.ptroots, s.mem)

section Load

variable (s : State) (who : Who)

@[simp] theorem countError_parties (pa : Nat) : parties (s.countError pa) = parties s := by
  unfold State.countError State.countReply
  split
  · split <;> rfl
  · rfl

@[simp] theorem tokenRead_parties (core pa : Nat) : parties (s.tokenRead core pa) = parties s := by
  unfold State.tokenRead
  split
  · split <;> rfl
  · rfl

@[simp] theorem keepReplica_parties (line : Nat) : parties (s.keepReplica who line) = parties s := by
  unfold State.keepReplica
  split
  · split <;> rfl
  · rfl

@[simp] theorem cacheLine_parties (stale : Tab (List Byte)) (halves : List Nat) (line : Nat) :
    parties (s.cacheLine who stale halves line) = parties s := by
  unfold State.cacheLine
  split
  · rw [keepReplica_parties]
    refine foldl_keeps parties _ (fun a h => ?_) _ s
    split <;> rfl
  · exact tokenRead_parties ..

@[simp] theorem agentRead_parties (stale : Tab (List Byte)) (pa n : Nat) :
    parties (s.agentRead stale pa n) = parties s := by
  unfold State.agentRead
  split
  · refine foldl_keeps parties _ (fun a h => ?_) _ s
    split <;> rfl
  · rfl

@[simp] theorem enterFilter_parties (lines : List Nat) : parties (s.enterFilter who lines) = parties s := by
  unfold State.enterFilter
  split <;> rfl

@[simp] theorem load_parties (cached : Bool) (pa n : Nat) : parties (s.load who cached pa n).state = parties s := by
  unfold State.load
  split
  · exact countError_parties s pa
  · dsimp only
    rw [enterFilter_parties, agentRead_parties, foldl_keeps parties _ (fun a l => cacheLine_parties a who ..)]
    obtain ⟨m, hm⟩ := staleHalves_state s who _
    rw [hm]
    rfl

@[simp] theorem readPiece_parties (p : Piece) : parties (s.readPiece who p).state = parties s := by
  unfold State.readPiece
  split
  · split
    · rfl
    · exact countError_parties s p.pa
  · exact load_parties ..

@[simp] theorem readPieces_parties (ps : List Piece) : parties (s.readPieces who ps).state = parties s := by
  unfold State.readPieces
  rw [foldl_keeps (fun a : Got => parties a.state)]
  exact fun a p => readPiece_parties a.state who p

@[simp] theorem readLanes_parties (rs : List Ready) : parties (s.readLanes who rs).state = parties s := by
  unfold State.readLanes
  rw [foldl_keeps (fun a : LanesRead => parties a.state)]
  intro a r
  dsimp only
  rw [foldl_keeps (fun b : List (List Byte) × Option (Nat × Nat) × State => parties b.2.2)]
  exact fun b ps => readPieces_parties b.2.2 who (wholeAccess ps)

@[simp] theorem acquire_parties (scope : Nat) : parties (s.acquire who scope) = parties s := by
  unfold State.acquire
  split <;> rfl

variable {s}

/-- A party's run rests on the teams alone. -/
theorem runOf_congr {t : State} (h : t.teams = s.teams) : t.runOf who = s.runOf who := by
  simp only [State.runOf, State.team, h]

theorem partOf_plain {who : Who} (h : s.runOf who = none) : s.partOf who = .plain := by
  simp only [State.partOf, h]

theorem parties_teams {t : State} (h : parties t = parties s) : t.teams = s.teams := congrArg (fun x => x.2.1) h

/-- R350: a load of a team that is not under check reads. -/
theorem readLogged_plain {k : Nat} {g : Group} {op : Nat} {rs : List Ready} (h : s.runOf (g.who k) = none) :
    ∃ x t, s.readLogged k g op rs = (some x, t) ∧ parties t = parties s := by
  have hr : parties (s.readLanes (g.who k) rs).state = parties s := readLanes_parties s (g.who k) rs
  unfold State.readLogged
  dsimp only
  split
  · exact ⟨_, _, rfl, hr⟩
  · rw [partOf_plain h]
    refine ⟨_, _, rfl, ?_⟩
    rw [State.logFor, partOf_plain ((runOf_congr _ (parties_teams hr)).trans h)]
    exact hr

end Load

/-! ## Accesses that all pass -/

section Pass

variable {s : State} {g : Group} {k : Nat} {kind : AccessKind} {need : PageNeed} {accesses : Nat → List (Nat × Nat)}

theorem foldl_and_ok {rs : List Route} (h : ∀ r ∈ rs, ∃ ps, r = .ok ps) (p : List Piece) :
    ∃ ps, rs.foldl Route.and (.ok p) = .ok ps := by
  induction rs generalizing p with
  | nil => exact ⟨p, rfl⟩
  | cons r rs ih =>
    obtain ⟨q, rfl⟩ := h r List.mem_cons_self
    exact ih (fun x hx => h x (List.mem_cons_of_mem _ hx)) (p ++ q)

/-- R102: when every access passes, no lane has failed and no translation is missing. -/
theorem addLanes_pass {routes : Nat → List Route} {ls : List Nat} (h : ∀ l ∈ ls, ∀ r ∈ routes l, ∃ ps, r = .ok ps)
    (r : Routed) : (addLanes routes r ls).needs = r.needs ∧ (addLanes routes r ls).failed = r.failed := by
  induction ls generalizing r with
  | nil => exact ⟨rfl, rfl⟩
  | cons l ls ih =>
    obtain ⟨ps, hps⟩ := foldl_and_ok (h l List.mem_cons_self) []
    have hadd := add_of_ok (r := r) (l := l) hps
    obtain ⟨hn, hf⟩ := ih (fun x hx => h x (List.mem_cons_of_mem _ hx)) (r.add l (routes l))
    rw [hadd] at hn hf
    exact ⟨by rw [← hn, ← hadd]; rfl, by rw [← hf, ← hadd]; rfl⟩

theorem routeLanes_pass {lanes : List Nat}
    (h : ∀ l ∈ lanes, ∀ q ∈ accesses l, ∃ ps, s.routeOne (g.who k) g.walkFaults kind need q.1 q.2 = .ok ps) :
    (s.routeLanes g k kind need lanes noEarly accesses).needs = [] ∧
      (s.routeLanes g k kind need lanes noEarly accesses).failed = [] := by
  rw [routeLanes_eq]
  refine addLanes_pass (fun l hl r hr => ?_) {}
  obtain ⟨q, hq, rfl⟩ := List.mem_map.1 hr
  exact h l hl q hq

end Pass

/-! ## Moving on -/

/-- A group that is not to end only moves past the instruction. -/
theorem advance_live {s : State} {k : Nat} {g : Group} {w : Slot} (hg : s.group k = some g) (hd : g.doomed = none) :
    s.advance k w = s.modGroup k (fun g => g.advance s.now w) := by
  have hd' : (g.advance s.now w).doomed = none := by
    unfold Group.advance Group.endClause
    split <;> exact hd
  have hg' : (s.modGroup k (fun g => g.advance s.now w)).group k = some (g.advance s.now w) := by
    rw [modGroup_group, hg]; rfl
  exact settle_live hg' hd'

/-! ## Loads -/

/-- What a load of a team that is not under check comes to when every access passes: it waits at issue, or its operation is
in flight and the group has passed on. -/
def LoadDone (s t : State) (k : Nat) (w : Slot) : Prop :=
  t = s.hold k ∨ ∃ s2 dests writes fault, parties s2 = parties s ∧
      t = (s2.departLoad k w dests writes fault).advance k w

section Loads

variable {i : Instr} {s t : State} {k : Nat} {g : Group} {w : Slot}

theorem loadsLanes_done {op : Nat} {dests : List DestReg} {accesses : Nat → List (Nat × Nat)}
    {place : Nat → List (List Byte) → List RegWrite} (h : LoadsLanes i w s k g op dests accesses place)
    (hrun : s.runOf (g.who k) = none)
    (hpass : ∀ l ∈ lanesOf (g.lanes w) g.width, ∀ q ∈ accesses l,
      ∃ ps, s.routeOne (g.who k) g.walkFaults .read .any q.1 q.2 = .ok ps) (ht : exec i s = .next t) :
    LoadDone s t k w := by
  obtain ⟨hneeds, hfailed⟩ := routeLanes_pass hpass
  obtain ⟨hwaits, hgoes⟩ := h
  cases hw : (s.routeLanes g k .read .any (lanesOf (g.lanes w) g.width) noEarly accesses).waits s (g.who k) false with
  | true => exact .inl (Host.Outcome.next.inj (ht.symm.trans (hwaits hw)))
  | false =>
    obtain ⟨-, -, hload⟩ := hgoes hw
    have hs1 : parties (if memAcq w then s.acquire (g.who k) (memScope w) else s) = parties s := by
      split
      · exact acquire_parties ..
      · rfl
    obtain ⟨x, s2, hread, hs2⟩ := readLogged_plain (op := op) (rs := (s.routeLanes g k .read .any
      (lanesOf (g.lanes w) g.width) noEarly accesses).ready) ((runOf_congr _ (parties_teams hs1)).trans hrun)
    obtain ⟨hdone, -⟩ := hload x s2 hneeds (.inl hfailed) hread
    exact .inr ⟨s2, _, _, _, hs2.trans hs1, Host.Outcome.next.inj (ht.symm.trans (hdone hfailed))⟩

theorem sld_done (h : ReadyTo (.sld w) s k g) (hrun : s.runOf (g.who k) = none) {ps : List Piece}
    (hr : s.routeOne (g.who k) g.walkFaults .read .any (g.scalarAddress w) (scalarSize w) = .ok ps)
    (ht : exec (.sld w) s = .next t) : LoadDone s t k w := by
  cases hw : (oneReady ps).waits s (g.who k) false with
  | true =>
    rw [ready_sld h, hr] at ht
    dsimp only at ht
    rw [if_pos hw] at ht
    exact .inl (Host.Outcome.next.inj ht).symm
  | false =>
    have hs1 : parties (if w.mod.getLsbD 3 then s.acquire (g.who k) (scalarScope w) else s) = parties s := by
      split
      · exact acquire_parties ..
      · rfl
    obtain ⟨x, s2, hread, hs2⟩ := readLogged_plain (op := 0x018) (rs := [{ lane := 0, accesses := [ps] }])
      ((runOf_congr _ (parties_teams hs1)).trans hrun)
    exact .inr ⟨s2, _, _, _, hs2.trans hs1, Host.Outcome.next.inj (ht.symm.trans (ready_sld_loads h hr hw hread))⟩

theorem departLoad_eq (s : State) (k : Nat) (w : Slot) (dests : List DestReg) (writes : List RegWrite)
    (fault : Option (Nat × Nat)) : ∃ ws, s.departLoad k w dests writes fault =
      s.modGroup k (fun g => g.depart w dests ws 0 (fault.map replyCause) .plain) := ⟨_, rfl⟩

/-- R158, R159: what such a load leaves of the machine. -/
theorem loadDone_frame (h : LoadDone s t k w) (hg : s.group k = some g) (hd : g.doomed = none) :
    t.mem = s.mem ∧ t.teams = s.teams ∧ t.ptroots = s.ptroots ∧ (∀ j, j ≠ k → t.group j = s.group j) ∧
      ∃ marks flags flights nextOp pc clause replay replayOps walkFaults holding age yielded, t.group k = some { g with
        marks := marks, flags := flags, flights := flights, nextOp := nextOp, pc := pc, clause := clause,
            replay := replay
        replayOps := replayOps, walkFaults := walkFaults, holding := holding, age := age, yielded := yielded } := by
  rcases h with rfl | ⟨s2, dests, writes, fault, hs2, rfl⟩
  · refine ⟨rfl, rfl, rfl, fun j hj => modGroup_other s hj, g.marks, g.flags, g.flights, g.nextOp, g.pc, g.clause,
      g.replay,
      g.replayOps, g.walkFaults, true, g.age, g.yielded, ?_⟩
    rw [State.hold, modGroup_group, hg]
    rfl
  · obtain ⟨hgroups, hteams, hroots, hmem⟩ : s2.groups = s.groups ∧ s2.teams = s.teams ∧ s2.ptroots = s.ptroots ∧
        s2.mem = s.mem := by
      simpa [parties] using hs2
    obtain ⟨ws, hws⟩ := departLoad_eq s2 k w dests writes fault
    have hg2 : s2.group k = some g := by rw [State.group, hgroups]; exact hg
    have hdep : (s2.departLoad k w dests writes fault).group k =
        some (g.depart w dests ws 0 (fault.map replyCause) .plain) := by
      rw [hws, modGroup_group, hg2]; rfl
    rw [advance_live hdep hd]
    refine ⟨hmem, hteams, hroots, fun j hj => ?_, ?_⟩
    · rw [modGroup_other _ hj, hws, modGroup_other _ hj, State.group, hgroups]; rfl
    · rw [modGroup_group, hdep]
      obtain ⟨clause, age, yielded, hadv⟩ := advance_eq (g.depart w dests ws 0 (fault.map replyCause) .plain) w
        (s2.departLoad k w dests writes fault).now
      rw [Option.map_some, hadv]
      exact ⟨_, _, _, _, _, _, _, _, _, _, _, _, rfl⟩

end Loads

/-! ## What is kept while bytes are stored -/

/-- While a party of die d stores bytes at places in `W`: a group changes at most its watch and the refusal that it owes, no
other byte of memory changes, and the die's remote-write buffer holds bytes at such places only. -/
structure Kept (s0 : State) (d : Nat) (W : Nat → Prop) (s : State) : Prop where
  groups : ∀ j x, s0.group j = some x → ∃ watch refused, s.group j = some { x with watch := watch, refused := refused }
  teams : s.teams = s0.teams
  roots : s.ptroots = s0.ptroots
  bytes : ∀ a, ¬ W a → s.byte a = s0.byte a
  buffer : ∀ l ∈ s.rwb d, ∀ p ∈ l.bytes, W (l.line * 128 + p.1)

/-- The tables in which a store leaves its traces, but memory and groups. -/
def holders (s : State) : Tab Team × Tab Word × Tab Die × Hub := (s.teams, s.ptroots, s.dies, s.hub)

section Kept

variable {s0 s t : State} {d : Nat} {W : Nat → Prop}

theorem rwb_congr (h : holders t = holders s) (d : Nat) : t.rwb d = s.rwb d := by
  obtain ⟨-, -, hdies, hhub⟩ : t.teams = s.teams ∧ t.ptroots = s.ptroots ∧ t.dies = s.dies ∧ t.hub = s.hub := by
    simpa [holders] using h
  simp only [State.rwb, State.die, hdies, hhub]

/-- A change of neither memory nor a group nor a buffer. -/
theorem Kept.congr (h : Kept s0 d W s) (hh : holders t = holders s) (hg : t.groups = s.groups) (hm : t.mem = s.mem) :
    Kept s0 d W t where
  groups j x hx := by simpa only [State.group, hg] using h.groups j x hx
  teams := (congrArg Prod.fst hh).trans h.teams
  roots := (congrArg (fun x => x.2.1) hh).trans h.roots
  bytes a ha := (byte_congr hm a).trans (h.bytes a ha)
  buffer := by rw [rwb_congr hh]; exact h.buffer

/-- R386: a refusal changes no more of its group than the refusal that it owes. -/
theorem refuse_eq (s : State) (k : Nat) (c : Cause) :
    ∃ f : Group → Group, s.refuse k c = s.modGroup k f ∧ ∀ x, ∃ r, f x = { x with refused := r } := by
  refine ⟨_, rfl, fun x => ?_⟩
  split
  · exact ⟨x.refused, rfl⟩
  · exact ⟨_, rfl⟩

/-- A change of one group's refusal. -/
theorem Kept.refuse (h : Kept s0 d W s) (k : Nat) (c : Cause) : Kept s0 d W (s.refuse k c) where
  groups j x hx := by
    obtain ⟨watch, refused, hj⟩ := h.groups j x hx
    obtain ⟨f, heq, hf⟩ := refuse_eq s k c
    by_cases hk : j = k
    · subst hk
      rw [heq, modGroup_group, hj, Option.map_some]
      obtain ⟨r, hr⟩ := hf { x with watch := watch, refused := refused }
      exact ⟨watch, r, congrArg some hr⟩
    · rw [heq, modGroup_other _ hk]
      exact ⟨watch, refused, hj⟩
  teams := h.teams
  roots := h.roots
  bytes := h.bytes
  buffer := h.buffer

theorem die_modDie_rwb (s : State) (d e : Nat) (f : Die → Die) (hf : ∀ x, (f x).rwb = x.rwb) :
    ((s.modDie e f).die d).rwb = (s.die d).rwb := by
  by_cases h : d = e
  · subst h
    simp only [State.modDie, State.die, Tab.read, tab_find_modify_self]
    cases Tab.find s.dies d with
    | none => rfl
    | some x => exact hf x
  · simp only [State.modDie, State.die, Tab.read, tab_find_modify_ne h]

theorem Kept.countError (h : Kept s0 d W s) (pa : Nat) : Kept s0 d W (s.countError pa) := by
  unfold State.countError State.countReply
  split
  · next e _ =>
    split
    · refine { groups := h.groups, teams := h.teams, roots := h.roots, bytes := h.bytes, buffer := ?_ }
      have hrwb : (s.modDie e (fun x => { x with resetErrors := x.resetErrors + 1 })).rwb d = s.rwb d := by
        simp only [State.rwb,
            die_modDie_rwb s d e (fun x => { x with resetErrors := x.resetErrors + 1 }) (fun _ => rfl)]
        rfl
      rw [hrwb]; exact h.buffer
    · exact h
  · exact h

/-- A change of the die's buffer, whose lines come from what it held. -/
theorem Kept.modRwb (h : Kept s0 d W s) {f : List RwLine → List RwLine}
    (hf : ∀ l ∈ f (s.rwb d), ∀ p ∈ l.bytes, W (l.line * 128 + p.1)) : Kept s0 d W (s.modRwb d f) := by
  have hcases : (s.modRwb d f).rwb d = f (s.rwb d) ∨ (s.modRwb d f).rwb d = s.rwb d := by
    unfold State.modRwb State.rwb
    split
    · simp only [State.modDie, State.die, Tab.read, tab_find_modify_self]
      cases Tab.find s.dies d with
      | none => exact .inr rfl
      | some x => exact .inl rfl
    · exact .inl rfl
  have hsame : (s.modRwb d f).groups = s.groups ∧ (s.modRwb d f).teams = s.teams ∧
      (s.modRwb d f).ptroots = s.ptroots ∧ (s.modRwb d f).mem = s.mem := by
    unfold State.modRwb
    split <;> exact ⟨rfl, rfl, rfl, rfl⟩
  obtain ⟨hgroups, hteams, hroots, hmem⟩ := hsame
  exact { groups := fun j x hx => by simpa only [State.group, hgroups] using h.groups j x hx
          teams := hteams.trans h.teams
          roots := hroots.trans h.roots
          bytes := fun a ha => (byte_congr hmem a).trans (h.bytes a ha)
          buffer := by rcases hcases with hc | hc <;> rw [hc]; exacts [hf, h.buffer] }

theorem snoopWrite_holders (s : State) (half : Nat) (ws : List (Nat × Byte)) :
    holders (s.snoopWrite half ws) = holders s ∧ (s.snoopWrite half ws).groups = s.groups := by
  unfold State.snoopWrite
  split <;> exact ⟨rfl, rfl⟩

/-- The tables that bytes entering their homes do not touch. -/
def untouched (s : State) : (Tab Team × Tab Word × Tab Die × Hub) × Tab Group := (holders s, s.groups)

theorem settle_untouched (s : State) (ws : List (Nat × Byte)) : untouched (s.settle ws) = untouched s := by
  unfold State.settle
  rw [foldl_keeps untouched]
  · rfl
  · intro a p
    split <;> rfl

theorem clearCovered_untouched (s : State) (ws : List (Nat × Byte)) : untouched (s.clearCovered ws) = untouched s := by
  unfold State.clearCovered
  rw [foldl_keeps untouched]
  intro a l
  split <;> rfl

theorem enter_untouched (s : State) (ws : List (Nat × Byte)) : untouched (s.enter ws) = untouched s := by
  unfold State.enter
  dsimp only
  rw [foldl_keeps untouched, clearCovered_untouched]
  · split
    · rfl
    · exact settle_untouched s _
  · intro a p
    obtain ⟨hh, hg⟩ := snoopWrite_holders a (halfOf p.1) [p]
    exact Prod.ext hh hg

/-- R117, R278: bytes that reach memory at places in `W`; watches on them are evaluated. -/
theorem Kept.commit (h : Kept s0 d W s) {ws : List (Nat × Byte)} (hw : ∀ p ∈ ws, W p.1) :
    Kept s0 d W (s.commit none ws) := by
  have hbytes : ∀ a, ¬ W a → (s.commit none ws).byte a = s.byte a := fun a ha =>
    commit_byte_other s fun p hp hpa => absurd (hpa ▸ hw p hp) ha
  by_cases he : ws.isEmpty
  · simpa only [State.commit, he, if_true] using h
  · have hcommit : s.commit none ws = (s.enter ws).announce none ws := by simp only [State.commit, he,
      Bool.false_eq_true, if_false]
    have hun := enter_untouched s ws
    have hhold : holders (s.commit none ws) = holders s := by
      rw [hcommit]; exact congrArg Prod.fst hun
    refine { groups := fun j x hx => ?_, teams := (congrArg Prod.fst hhold).trans h.teams
             roots := (congrArg (fun x => x.2.1) hhold).trans h.roots
             bytes := fun a ha => (hbytes a ha).trans (h.bytes a ha),
                 buffer := by rw [rwb_congr hhold]; exact h.buffer }
    obtain ⟨watch, refused, hj⟩ := h.groups j x hx
    have hgroups : (s.enter ws).groups = s.groups := congrArg Prod.snd hun
    have hfind : (s.commit none ws).group j = ((s.enter ws).group j).map
        (fun g => { g with watch := g.watch.map ((s.enter ws).touchWatch (ws.map Prod.fst)) }) := by
      rw [hcommit]; exact tab_find_mapWith _ _ _
    rw [hfind, State.group, hgroups]
    exact ⟨_, refused, by rw [State.group] at hj; rw [hj]; rfl⟩

theorem Kept.tokenHome (h : Kept s0 d W s) (pa : Nat) : Kept s0 d W (s.tokenHome pa) := by
  unfold State.tokenHome
  split
  · exact h.congr rfl rfl rfl
  · exact h

theorem Kept.tokenWrite (h : Kept s0 d W s) (core pa : Nat) : Kept s0 d W (s.tokenWrite core pa) := by
  unfold State.tokenWrite
  split
  · split <;> exact h.congr rfl rfl rfl
  · exact h

theorem Kept.homeCommit (h : Kept s0 d W s) {ws : List (Nat × Byte)} (hw : ∀ p ∈ ws, W p.1) :
    Kept s0 d W (s.homeCommit none ws) :=
  (foldl_holds (Kept s0 d W) _ (fun _ _ ha => ha.tokenHome _) _ s h).commit hw

/-- R115, R386: a line of the buffer arrives at its home, or its groups are refused. -/
theorem Kept.arrive (h : Kept s0 d W s) {l : RwLine} (hl : ∀ p ∈ l.bytes, W (l.line * 128 + p.1)) :
    Kept s0 d W (s.arrive l) := by
  unfold State.arrive
  dsimp only
  split
  · exact (foldl_holds (Kept s0 d W) _ (fun _ _ ha => ha.refuse _ _) _ s h).countError _
  · refine h.homeCommit fun p hp => ?_
    obtain ⟨q, hq, rfl⟩ := List.mem_map.1 hp
    exact hl q hq

theorem Kept.drainLine (h : Kept s0 d W s) (line : Nat) : Kept s0 d W (s.drainLine d line) := by
  unfold State.drainLine
  split
  · next l hl =>
    refine Kept.arrive (h.modRwb fun x hx => h.buffer x (List.mem_filter.1 hx).1) ?_
    exact h.buffer l (List.mem_of_find?_eq_some hl)
  · exact h

theorem Kept.drainAll (h : Kept s0 d W s) : Kept s0 d W (s.drainAll d) := by
  unfold State.drainAll State.drainWhere
  exact foldl_holds (Kept s0 d W) _ (fun _ l ha => ha.drainLine l) _ s h

/-- R115: a release of a team that is not under check. -/
theorem Kept.release (h : Kept s0 d W s) {who : Who} (hd : coreDie who.core = d) (hrun : s.runOf who = none) (scope : Nat) :
    Kept s0 d W (s.release who scope) := by
  subst hd
  unfold State.release
  split
  · rw [hrun]; exact h.drainAll
  · exact h

theorem mem_foldl_insert {ws : List (Nat × Byte)} {key : Nat → Nat} {m : Tab Byte} {q : Nat × Byte}
    (h : q ∈ ws.foldl (fun a p => Tab.insert a (key p.1) p.2) m) : q ∈ m ∨ ∃ p ∈ ws, q.1 = key p.1 := by
  induction ws generalizing m with
  | nil => exact .inl h
  | cons w ws ih =>
    rcases ih h with h | ⟨p, hp, hq⟩
    · rcases tab_mem_insert h with rfl | h
      · exact .inr ⟨w, List.mem_cons_self, rfl⟩
      · exact .inl h
    · exact .inr ⟨p, List.mem_cons_of_mem _ hp, hq⟩

/-- R115: stored bytes of one line enter the buffer. -/
theorem Kept.bufferStore (h : Kept s0 d W s) {ws : List (Nat × Byte)} {line : Nat} (hw : ∀ p ∈ ws, W p.1 ∧
    lineNo p.1 = line)
    (group : Option Nat) (va : Nat) : Kept s0 d W (s.bufferStore d group va line ws) := by
  have hnew : ∀ (m : Tab Byte), (∀ q ∈ m, W (line * 128 + q.1)) →
      ∀ q ∈ ws.foldl (fun a p => Tab.insert a (p.1 - line * 128) p.2) m, W (line * 128 + q.1) := by
    intro m hm q hq
    rcases mem_foldl_insert (key := (· - line * 128)) hq with hq | ⟨p, hp, hqp⟩
    · exact hm q hq
    · obtain ⟨hwp, hline⟩ := hw p hp
      have : line * 128 + q.1 = p.1 := by rw [hqp]; unfold lineNo at hline; omega
      rwa [this]
  unfold State.bufferStore
  dsimp only
  split
  · refine h.modRwb fun l hl => ?_
    obtain ⟨x, hx, rfl⟩ := List.mem_map.1 hl
    split
    · next heq => subst heq; exact hnew x.bytes (h.buffer x hx)
    · exact h.buffer x hx
  · have h1 : Kept s0 d W (if 64 ≤ (s.rwb d).length then (match s.rwb d with
        | l :: _ => s.drainLine d l.line
        | [] => s) else s) := by
      split
      · split
        · exact h.drainLine _
        · exact h
      · exact h
    refine h1.modRwb fun l hl => ?_
    rcases List.mem_append.1 hl with hl | hl
    · exact h1.buffer l hl
    · obtain rfl := List.mem_singleton.1 hl
      exact hnew [] (fun q hq => by cases hq)

theorem Kept.updateCopy (h : Kept s0 d W s) (core : Nat) (ws : Writes) : Kept s0 d W (s.updateCopy core ws) :=
  h.congr rfl rfl rfl

/-- R101, R112, R115: bytes go to their homes or into the buffer. -/
theorem Kept.writeOut (h : Kept s0 d W s) {who : Who} (hd : coreDie who.core = d) {ws : Writes} (hw : ∀ p ∈ ws, W p.1)
    (so : Nat → Bool) (va : Nat → Nat) : Kept s0 d W (s.writeOut who so va ws) := by
  subst hd
  unfold State.writeOut
  extract_lets d buffered late now s1 s2 s3
  have h1 : Kept s0 d W s1 := by
    refine foldl_holds (Kept s0 d W) _ (fun a l ha => Kept.bufferStore ha (fun p hp => ?_) _ _) _ s h
    obtain ⟨hp, hl⟩ := List.mem_filter.1 hp
    exact ⟨hw p (List.mem_filter.1 hp).1, by simpa using hl⟩
  have h2 : Kept s0 d W s2 := by
    refine foldl_holds (Kept s0 d W) _ (fun a l ha => ?_) _ s1 h1
    have hb : Kept s0 d W (if remote who.core (l * 128) then a.drainLine d l else a) := by
      split
      · exact ha.drainLine l
      · exact ha
    dsimp only
    split
    · exact hb.tokenHome _
    · exact hb.tokenWrite _ _
  have h3 : Kept s0 d W s3 := by
    show Kept s0 d W (if now.isEmpty then s2 else s2.commit none now)
    split
    · exact h2
    · exact h2.commit fun p hp => hw p (List.mem_filter.1 hp).1
  exact h3.updateCopy _ _

/-- A part of a store that meets no management register: its bytes lie in the part. -/
theorem Kept.storePiece (h : Kept s0 d W s) {p : Piece} (hp : region p.pa ≠ .management)
    (hw : ∀ a, p.pa ≤ a → a < p.pa + p.len → W a) (k : Nat) (bs : List Byte) :
    Kept s0 d W (s.storePiece k p (bs.take p.len)).1 ∧ ∀ q ∈ (s.storePiece k p (bs.take p.len)).2, W q.1 := by
  unfold State.storePiece
  simp only [hp, decide_false, Bool.false_and, Bool.or_false, Bool.false_eq_true, if_false]
  split
  · exact ⟨(h.refuse _ _).countError _, fun q hq => by cases hq⟩
  · refine ⟨h, fun q hq => ?_⟩
    obtain ⟨i, hi, rfl⟩ := List.mem_map.1 hq
    have hi := List.mem_range.1 hi
    rw [List.length_take] at hi
    exact hw _ (Nat.le_add_right ..) (by omega)

theorem Kept.storePieces {k : Nat} {ps : List Piece} (hm : ∀ p ∈ ps, region p.pa ≠ .management)
    (hw : ∀ p ∈ ps, ∀ a, p.pa ≤ a → a < p.pa + p.len → W a) (h : Kept s0 d W s) (bs : List Byte) :
    Kept s0 d W (s.storePieces k ps bs).1 ∧ ∀ q ∈ (s.storePieces k ps bs).2, W q.1 := by
  induction ps generalizing s bs with
  | nil => exact ⟨h, fun q hq => by cases hq⟩
  | cons p ps ih =>
    obtain ⟨h1, hw1⟩ := h.storePiece (hm p List.mem_cons_self) (hw p List.mem_cons_self) k bs
    obtain ⟨h2, hw2⟩ := ih (fun x hx => hm x (List.mem_cons_of_mem _ hx)) (fun x hx => hw x (List.mem_cons_of_mem _ hx)) h1
      (bs.drop p.len)
    exact ⟨h2, fun q hq => (List.mem_append.1 hq).elim (hw1 q) (hw2 q)⟩

theorem wholeAccess_of_memory {ps : List Piece} (hm : ∀ p ∈ ps, region p.pa ≠ .management) : wholeAccess ps = ps := by
  unfold wholeAccess
  split
  · rw [if_neg fun hp => hm _ List.mem_cons_self (of_decide_eq_true (Bool.and_eq_true_iff.1 hp).1)]
  · rfl

/-- R103, R115, R262: the stores of an instruction of a group that is not under check. -/
theorem Kept.storeAll (h : Kept s0 d W s) {k : Nat} {g : Group} {xs : Stores} (hd : coreDie g.core = d)
    (hrun : s0.runOf (g.who k) = none) (hm : ∀ x ∈ xs, ∀ p ∈ x.2.1, region p.pa ≠ .management)
    (hw : ∀ x ∈ xs, ∀ p ∈ x.2.1, ∀ a, p.pa ≤ a → a < p.pa + p.len → W a) : Kept s0 d W (s.storeAll k g xs) := by
  have hplain : ∀ {t}, Kept s0 d W t → t.runOf (g.who k) = none := fun ht => (runOf_congr _ ht.teams).trans hrun
  have hout : ∀ (ys : Stores) (a : State × Writes), (∀ y ∈ ys, y ∈ xs) → Kept s0 d W a.1 → (∀ q ∈ a.2, W q.1) →
      let out := ys.foldl (fun (a : State × Writes) x =>
        ((a.1.storePieces k (wholeAccess x.2.1) x.2.2).1, a.2 ++ (a.1.storePieces k (wholeAccess x.2.1) x.2.2).2)) a
      Kept s0 d W out.1 ∧ ∀ q ∈ out.2, W q.1 := by
    intro ys
    induction ys with
    | nil => exact fun a _ ha hq => ⟨ha, hq⟩
    | cons y ys ih =>
      intro a hy ha hq
      have hyx := hy y List.mem_cons_self
      obtain ⟨h1, hw1⟩ := Kept.storePieces (k := k) (hm y hyx) (hw y hyx) ha y.2.2
      rw [← wholeAccess_of_memory (hm y hyx)] at h1 hw1
      exact ih _ (fun z hz => hy z (List.mem_cons_of_mem _ hz)) h1 fun q hq' => (List.mem_append.1 hq').elim (hq q) (hw1 q)
  unfold State.storeAll
  extract_lets who so signed out direct
  have hsigned : signed = s := by
    refine foldl_holds (· = s) _ (fun a x ha => ?_) xs s rfl
    rw [ha, State.signBytes, hplain h]
    rfl
  obtain ⟨h1, hw1⟩ := hout xs (signed, []) (fun _ hx => hx) (hsigned ▸ h) (fun q hq => by cases hq)
  split
  · exact h1
  · have hnone : out.1.runOf (g.who k) = none := hplain h1
    rw [State.holdBytes, hnone]
    exact Kept.writeOut h1 hd hw1 _ _

/-- At first nothing has changed, and the buffer holds its own bytes. -/
theorem Kept.start (g : Group) (h : ∀ a, s.waits g a → W a) : Kept s (coreDie g.core) W s where
  groups _ x hx := ⟨x.watch, x.refused, hx⟩
  teams := rfl
  roots := rfl
  bytes _ _ := rfl
  buffer l hl p hp := h _ ⟨l, hl, p, hp, rfl⟩

theorem Kept.released (h : Kept s0 d W s) {k : Nat} {g : Group} (hd : coreDie g.core = d)
    (hrun : s0.runOf (g.who k) = none) (scope : Option Nat) : Kept s0 d W (s.released k g scope) := by
  cases scope with
  | none => exact h
  | some x => exact h.release hd ((runOf_congr _ h.teams).trans hrun) x

end Kept

/-! ## Stores -/

section Stores

variable {i : Instr} {s s1 t : State} {k : Nat} {g : Group} {w : Slot} {lanes : List Nat}
  {accesses : Nat → List (Nat × Nat)}

/-- What a store comes to in the state that its release leaves when every access passes: it waits at issue, or it stores where
its accesses are routed and the group has passed on. -/
def StoreDone (s1 t : State) (k : Nat) (g : Group) (w : Slot) (lanes : List Nat) (accesses : Nat →
    List (Nat × Nat)) : Prop :=
  t = s1.hold k ∨ ∃ xs : Stores, t = (s1.storeAll k g xs).advance k w ∧
    ∀ x ∈ xs, ∃ l ∈ lanes, ∃ q ∈ accesses l, ∃ ps,
        s1.routeOne (g.who k) g.walkFaults .write .ordinary q.1 q.2 = .ok ps ∧
      x.2.1 = ps

/-- A lane that is ready has the parts of its own accesses. -/
theorem addLanes_ready {routes : Nat → List Route} {ls : List Nat} {r : Routed} {x : Ready}
    (hx : x ∈ (addLanes routes r ls).ready) : x ∈ r.ready ∨ x.lane ∈ ls ∧
        x.accesses = (routes x.lane).map routeParts := by
  induction ls generalizing r with
  | nil => exact .inl hx
  | cons l ls ih =>
    rcases ih (r := r.add l (routes l)) hx with hx | ⟨hl, ha⟩
    · cases h : (routes l).foldl Route.and (.ok []) with
      | ok ps =>
        rw [add_of_ok h] at hx
        rcases List.mem_append.1 hx with hx | hx
        · exact .inl hx
        · obtain rfl := List.mem_singleton.1 hx
          exact .inr ⟨List.mem_cons_self, rfl⟩
      | miss n => rw [add_of_miss h] at hx; exact .inl hx
      | fault c a => rw [add_of_fault h] at hx; exact .inl hx
    · exact .inr ⟨List.mem_cons_of_mem _ hl, ha⟩

/-- An access of a list, with its parts and its data. -/
theorem mem_zip_accesses {f : Nat × Nat → List Piece} {qs : List (Nat × Nat)} {data : List (List Byte)}
    {y : (Nat × Nat) × List Piece × List Byte} (h : y ∈ qs.zip ((qs.map f).zip data)) : y.1 ∈ qs ∧ y.2.1 = f y.1 := by
  induction qs generalizing data with
  | nil => cases h
  | cons q qs ih =>
    cases data with
    | nil => cases h
    | cons b data =>
      rcases List.mem_cons.1 h with rfl | h
      · exact ⟨List.mem_cons_self, rfl⟩
      · obtain ⟨hq, hf⟩ := ih h
        exact ⟨List.mem_cons_of_mem _ hq, hf⟩

/-- R105, R115: a release that takes no refusal waits, or the store follows in the state that it leaves. -/
theorem releases_done {scope : Option Nat} {rest : State →
    Prop} (h : Releases i s k g scope rest) (hn : g.refused = none)
    (ht : exec i s = .next t) : t = (s.released k g scope).hold k ∨ rest (s.released k g scope) := by
  cases scope with
  | none => exact .inr h
  | some x =>
    obtain ⟨-, hhold, hrest⟩ := h
    by_cases hw : x = 5 ∧ (s.release (g.who k) x).snoopsOwed = true
    · exact .inl (Host.Outcome.next.inj (ht.symm.trans (hhold hn hw.1 hw.2)))
    · refine .inr (hrest hn ?_)
      by_cases h5 : x = 5
      · exact .inr (Bool.eq_false_iff.2 fun ho => hw ⟨h5, ho⟩)
      · exact .inl h5

theorem storesLanes_done {data : Nat →
    List (List Byte)} (h : StoresLanes i w s k g accesses data) (hn : g.refused = none)
    (hs1 : s1 = s.released k g (g.releaseScope (memRel w) (memScope w)))
    (hpass : ∀ l ∈ lanesOf (g.lanes w) g.width, ∀ q ∈ accesses l, ∃ ps,
      s1.routeOne (g.who k) g.walkFaults .write .ordinary q.1 q.2 = .ok ps) (ht : exec i s = .next t) :
    StoreDone s1 t k g w (lanesOf (g.lanes w) g.width) accesses := by
  subst hs1
  rcases releases_done h hn ht with hhold | ⟨hwaits, hgoes⟩
  · exact .inl hhold
  · cases hw : (State.routeLanes _ g k .write .ordinary (lanesOf (g.lanes w) g.width) noEarly accesses).waits
        (s.released k g (g.releaseScope (memRel w) (memScope w))) (g.who k) true with
    | true => exact .inl (Host.Outcome.next.inj (ht.symm.trans (hwaits hw)))
    | false =>
      obtain ⟨hneeds, hfailed⟩ := routeLanes_pass hpass
      obtain ⟨-, hdone, -⟩ := hgoes hw
      refine .inr ⟨_, Host.Outcome.next.inj (ht.symm.trans (hdone hneeds hfailed)), fun x hx => ?_⟩
      obtain ⟨ys, hys, hx⟩ := List.mem_flatten.1 hx
      obtain ⟨r, hr, rfl⟩ := List.mem_map.1 hys
      obtain ⟨y, hy, rfl⟩ := List.mem_map.1 hx
      rw [routeLanes_eq] at hr
      rcases addLanes_ready hr with hr | ⟨hl, ha⟩
      · cases hr
      · rw [ha, laneRoutes, List.map_map] at hy
        obtain ⟨hq, hp⟩ := mem_zip_accesses hy
        obtain ⟨ps, hps⟩ := hpass r.lane hl y.1 hq
        exact ⟨r.lane, hl, y.1, hq, ps, hps, by rw [hp, Function.comp_apply, hps]; rfl⟩

theorem sst_done (h : ReadyTo (.sst w) s k g) (hn : g.refused = none)
    (hs1 : s1 = s.released k g (g.releaseScope (w.mod.getLsbD 3) (scalarScope w))) {ps : List Piece}
    (hr : s1.routeOne (g.who k) g.walkFaults .write .ordinary (g.scalarAddress w) (scalarSize w) = .ok ps)
    (ht : exec (.sst w) s = .next t) : StoreDone s1 t k g w [0] (fun _ => [(g.scalarAddress w, scalarSize w)]) := by
  subst hs1
  have hrel : Releases (.sst w) s k g (g.releaseScope (w.mod.getLsbD 3) (scalarScope w)) (fun s1 => ∀ ps,
      s1.routeOne (g.who k) g.walkFaults .write .ordinary (g.scalarAddress w) (scalarSize w) = .ok ps →
      exec (.sst w) s = .next (if (oneReady ps).waits s1 (g.who k) true then s1.hold k else
        (s1.storeAll k g [(g.scalarAddress w, ps,
            wordBytes (scalarSize w) (s1.scalarSource g w w.b))]).advance k w)) := by
    refine ready_releases h rfl (execSst.eq_def w s) rfl fun s2 hi ps hps => ?_
    rw [hi]
    dsimp only
    rw [hps]
    dsimp only
    split <;> rfl
  rcases releases_done hrel hn ht with hhold | hgo
  · exact .inl hhold
  · have heq := Host.Outcome.next.inj (ht.symm.trans (hgo ps hr))
    split at heq
    · exact .inl heq
    · refine .inr ⟨_, heq, fun x hx => ?_⟩
      obtain rfl := List.mem_singleton.1 hx
      exact ⟨0, List.mem_singleton_self _, _, List.mem_singleton_self _, ps, hr, rfl⟩

/-- R103, R115, R262: what such a store leaves of the machine. -/
theorem storeDone_frame {W : Nat → Prop} (h : StoreDone s1 t k g w lanes accesses) (hs1 : Kept s (coreDie g.core) W s1)
    (hg : s.group k = some g) (hd : g.doomed = none) (hrun : s.runOf (g.who k) = none)
    (hm : ∀ l ∈ lanes, ∀ q ∈ accesses l, ∀ ps, s1.routeOne (g.who k) g.walkFaults .write .ordinary q.1 q.2 = .ok ps →
      ∀ p ∈ ps, region p.pa ≠ .management)
    (hw : ∀ l ∈ lanes, ∀ q ∈ accesses l, ∀ ps, s1.routeOne (g.who k) g.walkFaults .write .ordinary q.1 q.2 = .ok ps →
      ∀ p ∈ ps, ∀ a, p.pa ≤ a → a < p.pa + p.len → W a) :
    ∃ t1 f, Kept s (coreDie g.core) W t1 ∧ t = t1.modGroup k f ∧ (f = (fun x => { x with holding := true }) ∨
      f = (fun x => x.advance t1.now w)) := by
  rcases h with rfl | ⟨xs, rfl, hxs⟩
  · exact ⟨s1, _, hs1, rfl, .inl rfl⟩
  · have hkept : Kept s (coreDie g.core) W (s1.storeAll k g xs) := by
      refine hs1.storeAll rfl hrun (fun x hx => ?_) (fun x hx => ?_) <;> obtain ⟨l, hl, q, hq, ps, hps, rfl⟩ := hxs x hx
      · exact hm l hl q hq _ hps
      · exact hw l hl q hq _ hps
    obtain ⟨watch, refused, hgroup⟩ := hkept.groups k g hg
    exact ⟨_, _, hkept, advance_live hgroup hd, .inr rfl⟩

end Stores

/-- Settles O26: a load only puts its operation in flight, and a store writes where its accesses are routed or drains the
buffer. -/
theorem memoryFrames : Obligations.MemoryFrames := by
  unfold Obligations.MemoryFrames
  refine ⟨?loads, ?stores⟩
  case loads =>
    intro i w s t k g lanes accesses e active hi h hrun hpass ht
    have hdone : LoadDone s t k w := by
      rcases hi with ⟨rfl, rfl, rfl⟩ | ⟨rfl, rfl, rfl⟩ | ⟨rfl, rfl, rfl⟩ | ⟨rfl, rfl, rfl⟩
      · obtain ⟨ps, hps⟩ := hpass 0 (List.mem_singleton_self _) _ (List.mem_singleton_self _)
        rw [← scalarSize_eq] at hps
        exact sld_done h hrun hps ht
      · have h1 := ready_loadsLanes h rfl (execLd.eq_def w s) rfl
        exact loadsLanes_done h1 hrun hpass ht
      · have h1 := ready_loadsLanes h rfl (execLdv.eq_def w s) rfl
        exact loadsLanes_done h1 hrun hpass ht
      · have h1 := ready_loadsLanes h rfl (execLdsx.eq_def w s) rfl
        exact loadsLanes_done h1 hrun hpass ht
    obtain ⟨hmem, hteams, hroots, hothers, marks, flags, flights, nextOp, pc, clause, replay, replayOps, walkFaults,
        holding,
      age, yielded, hself⟩ := loadDone_frame hdone h.group h.live
    exact ⟨byte_congr hmem, hothers, hteams, hroots, _, hself, rfl, rfl, rfl, rfl, rfl, rfl, rfl, rfl, rfl, rfl, rfl,
        rfl, rfl,
      rfl⟩
  case stores =>
    intro i w s s1 t k g lanes accesses e stored hi h hrun hrefused hpass ht
    have hpass' : ∀ l ∈ lanes, ∀ q ∈ accesses l, ∃ ps,
        s1.routeOne (g.who k) g.walkFaults .write .ordinary q.1 q.2 = .ok ps := fun l hl q hq =>
      let ⟨ps, hps, _⟩ := hpass l hl q hq
      ⟨ps, hps⟩
    have hdone : StoreDone s1 t k g w lanes accesses ∧ ∃ scope, s1 = s.released k g scope := by
      rcases hi with ⟨rfl, rfl, rfl, hs1⟩ | ⟨rfl, rfl, rfl, hs1⟩ | ⟨rfl, rfl, rfl, hs1⟩
      · obtain ⟨ps, hps⟩ := hpass' 0 (List.mem_singleton_self _) _ (List.mem_singleton_self _)
        rw [← scalarSize_eq] at hps ⊢
        exact ⟨sst_done h hrefused hs1 hps ht, _, hs1⟩
      · have h1 := ready_storesLanes h rfl (execSt.eq_def w s) rfl
        exact ⟨storesLanes_done h1 hrefused hs1 hpass' ht, _, hs1⟩
      · have h1 := ready_storesLanes h rfl (execStv.eq_def w s) rfl
        exact ⟨storesLanes_done h1 hrefused hs1 hpass' ht, _, hs1⟩
    obtain ⟨hdone, scope, rfl⟩ := hdone
    have hstart : Kept s (coreDie g.core) (fun a => stored a ∨ s.waits g a) s := Kept.start g fun a ha => .inr ha
    obtain ⟨t1, f, hkept, rfl, hf⟩ := storeDone_frame hdone (hstart.released rfl hrun scope) h.group h.live hrun
      (fun l hl q hq ps hps => by
        obtain ⟨ps', hps', hm⟩ := hpass l hl q hq
        obtain rfl := Route.ok.inj (hps.symm.trans hps')
        exact hm)
      (fun l hl q hq ps hps p hp a ha hb => .inl ⟨l, hl, q, hq, ps, hps, p, hp, ha, hb⟩)
    refine ⟨fun a hs hw => hkept.bytes a fun h => h.elim hs hw, hkept.roots, fun j x hx => ?_⟩
    obtain ⟨watch, refused, hj⟩ := hkept.groups j x hx
    by_cases hk : j = k
    · subst hk
      rw [modGroup_group, hj]
      rcases hf with rfl | rfl
      · exact ⟨_, rfl, rfl, rfl, rfl, rfl, rfl, rfl, rfl, rfl, rfl, rfl, rfl, rfl, rfl, rfl, rfl, rfl,
          fun h => absurd rfl h⟩
      · obtain ⟨clause, age, yielded, hadv⟩ := advance_eq { x with watch := watch, refused := refused } w t1.now
        rw [Option.map_some, hadv]
        exact ⟨_, rfl, rfl, rfl, rfl, rfl, rfl, rfl, rfl, rfl, rfl, rfl, rfl, rfl, rfl, rfl, rfl, rfl,
            fun h => absurd rfl h⟩
    · rw [modGroup_other _ hk]
      exact ⟨_, hj, rfl, rfl, rfl, rfl, rfl, rfl, rfl, rfl, rfl, rfl, rfl, rfl, rfl, rfl, rfl, rfl, fun _ => rfl⟩

end Sys2Proof.Proofs.Memory
end

section
/-!
PROOFS. Control transfers: branches, calls and what a taken branch leaves.
-/

namespace Sys2Proof.Proofs.Control

open Sys2Proof Sys2Proof.Machine Sys2Proof.Laws Sys2Proof.Proofs Sys2Proof.Proofs.Formats Sys2Proof.Proofs.Registers
  Sys2Proof.Proofs.Vector Sys2Proof.Proofs.Memory

section Branch

variable {i : Instr} {s : State} {k : Nat} {g : Group} {w : Slot} {e : Encoding} {body : Nat → Group → Result}

/-- R163: the check of a branch target, by the bits of its line. -/
theorem targetOk_eq (target : Nat) (x : BitVec 512) : targetOk target x =
    ((target % 64 = 0 || target % 64 = 20 || target % 64 = 40) && x.getLsbD 487 && x.getLsbD (484 + target % 64 / 20)) := by
  have hslot : target % 64 / 20 < 28 := by omega
  have hC : headerC (lineWord x) = x.getLsbD 487 := by
    rw [headerC, lineWord, BitVec.getLsbD_extractLsb']; rfl
  have hT : (lineWord x).getLsbD (4 + slotIndex target) = x.getLsbD (484 + target % 64 / 20) := by
    rw [lineWord, BitVec.getLsbD_extractLsb', slotIndex, decide_eq_true (by omega), Bool.true_and]
    congr 1
    omega
  rw [targetOk, hC, hT, isSlotAddress]

/-- R163, R196, R199: what a taken branch comes to once its target's line is fetched. -/
def BranchTaken (i : Instr) (s : State) (k : Nat) (g : Group) (w : Slot) (target : Nat) (link : Bool) : Prop :=
  ∀ x s1, s.fetchLine (g.who k) g.walkFaults (lineOf target) = (.line x, s1) →
    (targetOk target x = true → exec i s = .next ((if link then
      s1.modGroup k (fun y => y.setS 62 (BitVec.ofNat 64 (nextLine g.pc))) else s1).branchTo k w target)) ∧
    (targetOk target x = false → s.trapWaits k = false →
      exec i s = .next (s1.trapAt k (trapAll g 0x04 (BitVec.ofNat 64 target))))

/-- An instruction whose effect is a taken branch. -/
theorem ready_takes {target : Nat} {link : Bool} (h : ReadyTo i s k g) (he : encodingOf s i = some e)
    (hx : exec i s = issue e.form e.ok e.more e.slot s body) (hf : e.form.long = false)
    (hb : body k g = s.takeBranch k g e.slot target link) : BranchTaken i s k g e.slot target link := by
  intro x s1 hline
  have hi := ready_issue h he hx
  rw [hb, State.takeBranch, hline] at hi
  dsimp only at hi
  refine ⟨fun hok => ?_, fun hok ht => ?_⟩
  · rw [hi, if_pos hok]; rfl
  · rw [hi, if_neg (Bool.eq_false_iff.1 hok), finish, ht, issueTrap_short hf]; rfl

/-- An instruction whose effect is to pass on. -/
theorem ready_falls (h : ReadyTo i s k g) (he : encodingOf s i = some e)
    (hx : exec i s = issue e.form e.ok e.more e.slot s body) (hb : body k g = .done s) :
    exec i s = .next (s.advance k e.slot) := by
  rw [ready_issue h he hx, hb]; rfl

/-- R196: after a taken branch the group stands at the target with no clause. -/
theorem branchTo_group {t : State} {h : Group} {target : Nat} (hg : t.group k = some h) (hd : h.doomed = none) :
    t.branchTo k w target = t.modGroup k (fun g => g.endClause t.now target w.yld) := by
  have hg' : (t.modGroup k (fun g => g.endClause t.now target w.yld)).group k = some (h.endClause t.now target w.yld) := by
    rw [modGroup_group, hg]; rfl
  exact settle_live hg' hd

end Branch

/-- Settles O31: each taken branch fetches its target's line and checks it, the others only pass on. -/
theorem controlTransfer : Obligations.ControlTransfer := by
  unfold Obligations.ControlTransfer
  intro s k g w relative indirect takes falls x y holds q set test
  have htakes : ∀ {i target link}, BranchTaken i s k g w target link → takes i target link := by
    intro i target link h x s1 hline good
    obtain ⟨hgood, hbad⟩ := h x s1 hline
    rw [targetOk_eq] at hgood hbad
    exact ⟨hgood, hbad⟩
  refine ⟨fun h => ?bra, fun h => ⟨fun hc => ?taken, fun hc => ?falls⟩, fun h => ?brv, fun h => ?bri, fun h => ?ret,
    fun h => ?call, fun t h target hg hd => ?after⟩
  case bra => exact htakes (ready_takes (e := ⟨w, _, _, _⟩) h rfl (execBra.eq_def w s) rfl rfl)
  case bri => exact htakes (ready_takes (e := ⟨w, _, _, _⟩) h rfl (execBri.eq_def w s) rfl rfl)
  case ret => exact htakes (ready_takes (e := ⟨w, _, _, _⟩) h rfl (execRet.eq_def w s) rfl rfl)
  case call =>
    refine htakes (ready_takes (e := ⟨w, _, _, _⟩) h rfl (execCall.eq_def w s) ?_ rfl)
    dsimp only
    split <;> rfl
  case after =>
    rw [branchTo_group hg hd, modGroup_group, hg]
    exact ⟨_, rfl, rfl, rfl, rfl, rfl, rfl, rfl, rfl⟩
  case taken =>
    have hb : compareInt (w.mod.extractLsb' 0 3).toNat x y = true := by rw [← hc, modBits_eq, compareInt_eq]; rfl
    refine htakes (ready_takes (e := ⟨w, _, _, _⟩) h rfl (execBrc.eq_def w s) rfl ?_)
    exact if_pos hb
  case falls =>
    have hb : compareInt (w.mod.extractLsb' 0 3).toNat x y = false := by rw [← hc, modBits_eq, compareInt_eq]; rfl
    refine ready_falls (e := ⟨w, _, _, _⟩) h rfl (execBrc.eq_def w s) ?_
    exact if_neg (Bool.eq_false_iff.1 hb)
  case brv =>
    have htest : (w.mod.extractLsb' 0 2).toNat = test := modBits_eq w.mod 2
    have htaken : (test = 2 && decide (set ≠ g.q0) && decide (set ≠ 0)) = false →
        (if test = 0 then decide (set ≠ 0) else decide (set = g.q0)) = true → takes (.brv w) relative false := by
      intro htrap htaken
      rw [← htest] at htrap htaken
      refine htakes (ready_takes (e := ⟨w, _, _, _⟩) h rfl (execBrv.eq_def w s) rfl ?_)
      exact (if_neg (Bool.eq_false_iff.1 htrap)).trans (if_pos htaken)
    have hfalls : (test = 2 && decide (set ≠ g.q0) && decide (set ≠ 0)) = false →
        (if test = 0 then decide (set ≠ 0) else decide (set = g.q0)) = false → falls (.brv w) := by
      intro htrap htaken
      rw [← htest] at htrap htaken
      refine ready_falls (e := ⟨w, _, _, _⟩) h rfl (execBrv.eq_def w s) ?_
      exact (if_neg (Bool.eq_false_iff.1 htrap)).trans (if_neg (Bool.eq_false_iff.1 htaken))
    refine ⟨fun ht => ⟨fun hset => ?_, fun hset => ?_⟩, fun ht => ⟨fun hset => ?_, fun hset => ?_⟩,
      fun ht => ⟨fun hset => ?_, fun hset hq0 => ?_, fun hset h0 _ => ?_⟩⟩
    · exact htaken (by simp [ht]) ((if_pos ht).trans (decide_eq_true hset))
    · exact hfalls (by simp [ht]) ((if_pos ht).trans (decide_eq_false (not_not_intro hset)))
    · exact htaken (by simp [ht]) ((if_neg (by omega)).trans (decide_eq_true hset))
    · exact hfalls (by simp [ht]) ((if_neg (by omega)).trans (decide_eq_false hset))
    · exact htaken (by simp [hset]) ((if_neg (by omega)).trans (decide_eq_true hset))
    · have hne : set ≠ g.q0 := fun h => hq0 (h ▸ hset)
      exact hfalls (by rw [decide_eq_false (not_not_intro hset), Bool.and_false])
        ((if_neg (by omega)).trans (decide_eq_false hne))
    · have htrap : (test = 2 && decide (set ≠ g.q0) && decide (set ≠ 0)) = true := by
        rw [decide_eq_true ht, decide_eq_true hset, decide_eq_true h0]; rfl
      rw [← htest] at htrap
      exact ready_trap h rfl (execBrv.eq_def w s) rfl (if_pos htrap)

end Sys2Proof.Proofs.Control
end

section
/-!
PROOFS. Boundaries, barriers, sleeping and the waits on engines: how they begin and how they end.
-/

namespace Sys2Proof.Proofs.Control

open Sys2Proof Sys2Proof.Machine Sys2Proof.Laws Sys2Proof.Proofs Sys2Proof.Proofs.Formats Sys2Proof.Proofs.Registers
  Sys2Proof.Proofs.Vector Sys2Proof.Proofs.Memory

section Begin

variable {i : Instr} {s : State} {k : Nat} {g : Group} {w : Slot} {e : Encoding} {body : Nat → Group → Result}

/-- An instruction whose effect is a state in which the group has moved already. -/
theorem ready_moved {t : State} (h : ReadyTo i s k g) (he : encodingOf s i = some e)
    (hx : exec i s = issue e.form e.ok e.more e.slot s body) (hb : body k g = .moved t) : exec i s = .next t := by
  rw [ready_issue h he hx, hb]; rfl

/-- An instruction that may take a refusal, of a group that owes none. -/
theorem releasing_none {r : Result} (hn : g.refused = none) : s.releasing k g r = r := by
  rw [State.releasing, State.takeRefused, hn]; rfl

/-- R58: a group that begins a wait has passed its boundary. -/
theorem beginWait_group (hg : s.group k = some g) (hd : g.doomed = none) (g0 : Group) (kind : WaitKind) :
    (s.beginWait k g0 w kind).group k = some (({ g with wait := some (g0.waitHere kind) } : Group).advance s.now w) := by
  have hw : (s.modGroup k (fun x => { x with wait := some (g0.waitHere kind) })).group k =
      some { g with wait := some (g0.waitHere kind) } := by rw [modGroup_group, hg]; rfl
  rw [State.beginWait, advance_live hw hd, modGroup_group, hw]
  rfl

/-- What the beginning of a wait leaves of the tables. -/
theorem beginWait_eq (hg : s.group k = some g) (hd : g.doomed = none) (g0 : Group) (kind : WaitKind) :
    ∃ gs, s.beginWait k g0 w kind = { s with groups := gs } := by
  have hw : (s.modGroup k (fun x => { x with wait := some (g0.waitHere kind) })).group k =
      some { g with wait := some (g0.waitHere kind) } := by rw [modGroup_group, hg]; rfl
  rw [State.beginWait, advance_live hw hd]
  exact ⟨_, rfl⟩

/-- The recorded fault of an array is the team's. -/
theorem arrayFault_congr {t : State} {h : Group} (ht : t.teams = s.teams) (hteam : h.team = g.team)
    (htaken : h.arrayFaultTaken = g.arrayFaultTaken) : t.arrayFault h = s.arrayFault g := by
  simp only [State.arrayFault, State.team, ht, hteam, htaken]

/-! ## Waits on engines -/

/-- R122, R207: WAITC goes on when its counter has fallen and the array has no fault for it. -/
theorem pokeWait_waitc {x : Wait} {cls n : Nat} {scope : BitVec 3} (hg : s.group k = some g) (hw : g.wait = some x)
    (hk : x.kind = .waitc cls n scope) (ha : cls ≠ 0 ∨ s.arrayFault g = none) (hc : g.counter cls ≤ n) :
    s.pokeWait k = (s.acquire (g.who k) scope.toNat).endWait k := by
  obtain ⟨slot, word, header, kind⟩ := x
  subst hk
  have hfault : (if cls = 0 then s.arrayFault g else none) = none := by
    rcases ha with ha | ha
    · exact if_neg ha
    · rw [ha, ite_self]
  simp only [State.pokeWait, hg, hw, hfault, hc, if_true]

/-- R122, R385: WAITC waits on while its counter is above and the group owes no engine fault. -/
theorem pokeWait_waitc_stays {x : Wait} {cls n : Nat} {scope : BitVec 3} (hg : s.group k = some g) (hw : g.wait = some x)
    (hk : x.kind = .waitc cls n scope) (ha : cls ≠ 0 ∨ s.arrayFault g = none) (hc : n < g.counter cls)
    (hf : g.engFaults = []) : s.pokeWait k = s := by
  obtain ⟨slot, word, header, kind⟩ := x
  subst hk
  have hfault : (if cls = 0 then s.arrayFault g else none) = none := by
    rcases ha with ha | ha
    · exact if_neg ha
    · rw [ha, ite_self]
  simp only [State.pokeWait, hg, hw, hfault, Nat.not_le.2 hc, if_false, Group.engineFaultFor, hf, List.find?_nil]

/-- R123, R208: WAITB goes on when its batch has completed. -/
theorem pokeWait_waitb {x : Wait} {n : Nat} {scope : BitVec 3} (hg : s.group k = some g) (hw : g.wait = some x)
    (hk : x.kind = .waitb n scope) (hc : n ≤ g.cbdone) :
    s.pokeWait k = ((s.acquire (g.who k) scope.toNat).seeCopies k n).endWait k := by
  obtain ⟨slot, word, header, kind⟩ := x
  subst hk
  simp only [State.pokeWait, hg, hw, hc, if_true]

/-- R123, R385: WAITB waits on while its batch has not completed and the group owes no engine fault. -/
theorem pokeWait_waitb_stays {x : Wait} {n : Nat} {scope : BitVec 3} (hg : s.group k = some g) (hw : g.wait = some x)
    (hk : x.kind = .waitb n scope) (hc : g.cbdone < n) (hf : g.engFaults = []) : s.pokeWait k = s := by
  obtain ⟨slot, word, header, kind⟩ := x
  subst hk
  simp only [State.pokeWait, hg, hw, Nat.not_le.2 hc, if_false, Group.engineFaultFor, hf, List.find?_nil]

theorem modGroup_of_group (hg : s.group k = some g) (f : Group → Group) : s.modGroup k f = s.setGroup k (f g) :=
  congrArg (fun gs => { s with groups := gs }) (Towpath.tab_modify_of_find f hg)

/-- The end of a wait, of a group that is there. -/
theorem endWait_eq (hg : s.group k = some g) : s.endWait k = s.setGroup k { g with wait := none, age := s.now } :=
  modGroup_of_group hg _

/-! ## The end of a group -/

/-- R374: the trap entry of a group with nothing in flight need not wait. -/
theorem trapWaits_of_flights {h : Group} {t : State} (hg : t.group k = some h) (hf : h.flights = []) :
    t.trapWaits k = false := by
  simp only [State.trapWaits, hg, Group.trapMustWait, hf, List.any_nil, Bool.and_false]

/-- R54, R201: a group at its EXIT with nothing outstanding ends. -/
theorem tryExit_ends {h : Group} {t : State} (hg : t.group k = some h) (hx : h.exiting.isSome) (hf : h.flights = [])
    (hr : h.refused = none) (hfaults : h.engFaults = []) (ho : h.owed = []) (ha : t.arrayFault h = none)
    (hops : ∀ p ∈ t.ops, p.2.group ≠ k) : t.tryExit k = (t.endGroup k).barDeadlock h.team := by
  have hany : t.ops.any (fun p => p.2.group = k) = false := by
    rw [List.any_eq_false]
    exact fun p hp => by simpa using hops p hp
  have hsome : h.exiting.isNone = false := by
    obtain ⟨x, hx⟩ := Option.isSome_iff_exists.1 hx
    rw [hx]; rfl
  simp only [State.tryExit, hg, hsome, trapWaits_of_flights hg hf, hr, ha, hfaults, ho, hf, hany]
  rfl

end Begin

/-- R200 to R203, R54: the plain boundaries, sleeping, the team barrier and EXIT. -/
theorem boundaries (s : State) (k : Nat) (g : Group) (w : Slot) :
    let yields : Out := .next (s.advance k { w with yld := true, bnd := true })
    let t := (s.scalarSource g w w.a).toNat
    (ReadyTo (.nop w) s k g → exec (.nop w) s = .next (s.advance k w)) ∧
    (ReadyTo (.yield w) s k g → exec (.yield w) s = yields) ∧
    (ReadyTo (.sleep w) s k g → exec (.sleep w) s =
      (if t = 0 then yields else .next (s.beginWait k g w (.sleep (s.now + t))))) ∧
    (ReadyTo (.ifence w) s k g → exec (.ifence w) s =
      .next ((s.modCore g.core (fun c => { c with icache := [] })).advance k w)) := by
  intro yields t
  refine ⟨fun h => ?nop, fun h => ?yield, fun h => ?sleep, fun h => ?ifence⟩
  case nop => exact ready_falls (e := ⟨w, _, _, _⟩) h rfl (execNop.eq_def w s) rfl
  case yield => exact ready_moved (e := ⟨w, _, _, _⟩) h rfl (execYield.eq_def w s) rfl
  case sleep =>
    have hi := ready_issue h rfl (execSleep.eq_def w s)
    rw [hi]
    dsimp only
    split <;> rfl
  case ifence =>
    have hi := ready_issue h rfl (execIfence.eq_def w s)
    exact hi

/-- R203, R386: BAR waits, or takes the refusal that the group owes. -/
theorem exec_bar {s : State} {k : Nat} {g : Group} {w : Slot} (h : ReadyTo (.bar w) s k g) :
    (g.refused = none → exec (.bar w) s =
      .next ((s.beginWait k g w (.bar (w.mod.toNat % 4))).barDeadlock g.team)) ∧
    (s.trapWaits k = false → ∀ c, g.refused = some c → exec (.bar w) s =
      .next ((s.modGroup k (fun x => { x with refused := none })).trapAt k { c with lanes := g.q0 })) := by
  have hi := ready_issue h rfl (execBar.eq_def w s)
  have hb : (w.mod.extractLsb' 0 2).toNat = w.mod.toNat % 4 := modBits_eq w.mod 2
  refine ⟨fun hn => ?_, fun ht c hc => ?_⟩
  · rw [hi, releasing_none hn, hb]; rfl
  · rw [hi, State.releasing, State.takeRefused, hc]
    simp only [Option.map_some, Option.getD_some, finish, ht, Bool.false_eq_true, if_false,
      issueTrap_short (f := { waitForm with mod := 0x3 }) rfl]

/-- R54, R201: a group outside handler state with nothing outstanding ends at EXIT. -/
theorem exec_exit {s : State} {k : Nat} {g : Group} {w : Slot} (h : ReadyTo (.exit w) s k g) (hh : g.handler = false)
    (hf : g.flights = []) (hr : g.refused = none) (he : g.engFaults = []) (ho : g.owed = []) (hb : g.batchUsed = false)
    (ha : s.arrayFault g = none) (hops : ∀ p, p ∈ s.ops → p.2.group ≠ k) :
    exec (.exit w) s = .next (((s.setGroup k { (g.endClause s.now (g.pc / 64 * 64 + 64) w.yld) with
      exiting := some (g.waitHere (.sleep 0)) }).endGroup k).barDeadlock g.team) := by
  have hi := ready_issue h rfl (execExit.eq_def w s)
  simp only [hh, hb, h.live, Bool.false_eq_true, if_false, finish] at hi
  rw [hi]
  congr 1
  exact tryExit_ends (h := { (g.endClause s.now (nextLine g.pc) w.yld) with exiting := some (g.waitHere (.sleep 0)) })
    (by rw [setGroup_group]) rfl hf hr he ho (ha ▸ arrayFault_congr rfl rfl rfl) hops

/-- R58: where a group stands that has begun a wait. -/
theorem beginWait_stands {s : State} {k : Nat} {h : Group} {w : Slot} (hg : s.group k = some h) (hd : h.doomed = none)
    (g : Group) (kind : WaitKind) : ∃ z, (s.beginWait k g w kind).group k = some z ∧ z.wait = some (g.waitHere kind) ∧
      z.sregs = h.sregs ∧ z.vecs = h.vecs ∧
      z.pc = (if w.bnd then h.pc / 64 * 64 + 64 else if h.pc % 64 = 40 then h.pc / 64 * 64 + 64 else h.pc + 20) := by
  obtain ⟨clause, age, yielded, hadv⟩ := advance_eq ({ h with wait := some (g.waitHere kind) } : Group) w s.now
  rw [beginWait_group hg hd, hadv]
  exact ⟨_, rfl, rfl, rfl, rfl, rfl⟩

/-! ## Cluster barriers and the waits on engines -/

section Arrive

variable {s : State} {k : Nat} {g : Group} {w : Slot}

/-- R205: the destination of CBAR.arrive. -/
def arriveDest (w : Slot) : Option Nat :=
  match w.d0 with
  | .scalar i => some i.toNat
  | _ => none

/-- R205: CBAR.arrive of a group that owes no refusal. -/
theorem exec_cbarArrive (h : ReadyTo (.cbarArrive w) s k g) (hn : g.refused = none) {p : Nat} (hp : s.phaseOf g = some p) :
    let a := s.beginWait k g w (.cbarArrive (arriveDest w))
    exec (.cbarArrive w) s = .next (if g.arrivals < p + 2 then a.modGroup k (fun x => x.arriveAt (arriveDest w) s.now) else a) := by
  have hi := ready_issue h rfl (execCbarArrive.eq_def w s)
  dsimp only at hi ⊢
  rw [hi, releasing_none hn, hp]
  simp only [finish, decide_eq_true_eq]
  rfl

/-- R206: CBAR.wait of a phase. -/
theorem exec_cbarWait (h : ReadyTo (.cbarWait w) s k g) {p : Nat} (hp : s.phaseOf g = some p) :
    let n := (s.scalarSource g w w.a).toNat
    (g.arrivals ≤ n → s.trapWaits k = false →
      exec (.cbarWait w) s = .next (s.trapAt k { trapAll g 0x06 0 with arg := n % 65536 })) ∧
    (n < g.arrivals → n < p → exec (.cbarWait w) s = .next (s.advance k w)) ∧
    (n < g.arrivals → p ≤ n → exec (.cbarWait w) s = .next (s.beginWait k g w (.cbarWait n))) := by
  have hi := ready_issue h rfl (execCbarWait.eq_def w s)
  intro n
  refine ⟨fun hle _ => ?_, fun hlt hp' => ?_, fun hlt hp' => ?_⟩
  · exact ready_trap h rfl (execCbarWait.eq_def w s) rfl (if_pos hle)
  · rw [hi]
    simp only [hp, n, Nat.not_le.2 hlt, if_false, hp', decide_true, if_true, finish]
  · rw [hi]
    simp only [hp, n, Nat.not_le.2 hlt, Nat.not_lt.2 hp', decide_false, Bool.false_eq_true, if_false, finish]

/-- R122, R207: WAITC of a group that owes no refusal begins its wait and looks at it at once. -/
theorem exec_waitc (h : ReadyTo (.waitc w) s k g) (hn : g.refused = none) : exec (.waitc w) s =
    .next ((s.beginWait k g w (.waitc (w.mod.toNat % 4) (s.scalarSource g w w.a).toNat (w.mod.extractLsb' 2 3))).pokeWait k) := by
  have hi := ready_issue h rfl (execWaitc.eq_def w s)
  have hcls : (w.mod.extractLsb' 0 2).toNat = w.mod.toNat % 4 := modBits_eq w.mod 2
  dsimp only at hi
  rw [hi, State.takeRefused, hn, hcls]
  rfl

/-- R123, R208: WAITB of a batch that is open, of a group that owes no refusal, does so too. -/
theorem exec_waitb (h : ReadyTo (.waitb w) s k g) (hn : g.refused = none)
    (hopen : (s.scalarSource g w w.a).toNat ≤ g.cbopen) : exec (.waitb w) s =
    .next ((s.beginWait k g w (.waitb (s.scalarSource g w w.a).toNat (w.mod.extractLsb' 2 3))).pokeWait k) := by
  have hi := ready_issue h rfl (execWaitb.eq_def w s)
  dsimp only at hi
  rw [hi, if_neg (Nat.not_lt.2 hopen), State.takeRefused, hn]
  rfl

/-- What a group that begins a wait keeps for it. -/
theorem beginWait_keeps (h : s.group k = some g) (hd : g.doomed = none) (kind : WaitKind) :
    let t := s.beginWait k g w kind
    ∃ z, t.group k = some z ∧ z.wait = some (g.waitHere kind) ∧ z.who k = g.who k ∧ z.mxcnt = g.mxcnt ∧
        z.gacnt = g.gacnt ∧
      z.cocnt = g.cocnt ∧ z.cbdone = g.cbdone ∧ z.engFaults = g.engFaults ∧ t.arrayFault z = s.arrayFault g := by
  obtain ⟨clause, age, yielded, hadv⟩ := advance_eq ({ g with wait := some (g.waitHere kind) } : Group) w s.now
  obtain ⟨gs, ht⟩ := beginWait_eq (w := w) h hd g kind
  refine ⟨_, beginWait_group h hd g kind, ?_⟩
  rw [hadv]
  exact ⟨rfl, rfl, rfl, rfl, rfl, rfl, rfl, arrayFault_congr (by rw [ht]) rfl rfl⟩

/-- R122, R207, R385: when WAITC ends at once. -/
theorem waitc_ends (h : ReadyTo (.waitc w) s k g) (hn : g.refused = none)
    (ha : w.mod.toNat % 4 = 0 → s.arrayFault g = none) :
    let n := (s.scalarSource g w w.a).toNat
    let t := s.beginWait k g w (.waitc (w.mod.toNat % 4) n (w.mod.extractLsb' 2 3))
    (g.counter (w.mod.toNat % 4) ≤ n →
      exec (.waitc w) s = .next ((t.acquire (g.who k) (w.mod.extractLsb' 2 3).toNat).endWait k)) ∧
    (n < g.counter (w.mod.toNat % 4) → g.engFaults = [] → exec (.waitc w) s = .next t) := by
  intro n t
  obtain ⟨z, hz, hwait, hwho, hmx, hga, hco, -, hfaults, harray⟩ := beginWait_keeps (w := w) h.group h.live
    (.waitc (w.mod.toNat % 4) n (w.mod.extractLsb' 2 3))
  have hcount : z.counter (w.mod.toNat % 4) = g.counter (w.mod.toNat % 4) := by simp only [Group.counter, hmx, hga, hco]
  have harray' : w.mod.toNat % 4 ≠ 0 ∨ t.arrayFault z = none := by
    by_cases h0 : w.mod.toNat % 4 = 0
    · exact .inr (harray.trans (ha h0))
    · exact .inl h0
  refine ⟨fun hc => ?_, fun hc hf => ?_⟩ <;> rw [exec_waitc h hn]
  · rw [pokeWait_waitc hz hwait rfl harray' (hcount.trans_le hc), hwho]
  · rw [pokeWait_waitc_stays hz hwait rfl harray' (hc.trans_eq hcount.symm) (hfaults.trans hf)]

/-- R123, R208, R385: when WAITB ends at once. -/
theorem waitb_ends (h : ReadyTo (.waitb w) s k g) (hn : g.refused = none) :
    let n := (s.scalarSource g w w.a).toNat
    let t := s.beginWait k g w (.waitb n (w.mod.extractLsb' 2 3))
    (g.cbopen < n → s.trapWaits k = false → exec (.waitb w) s = .next (s.trapAt k (trapAll g 0x07 0))) ∧
    (n ≤ g.cbopen → n ≤ g.cbdone → exec (.waitb w) s =
      .next (((t.acquire (g.who k) (w.mod.extractLsb' 2 3).toNat).seeCopies k n).endWait k)) ∧
    (n ≤ g.cbopen → g.cbdone < n → g.engFaults = [] → exec (.waitb w) s = .next t) := by
  intro n t
  obtain ⟨z, hz, hwait, hwho, -, -, -, hdone, hfaults, -⟩ := beginWait_keeps (w := w) h.group h.live
    (.waitb n (w.mod.extractLsb' 2 3))
  refine ⟨fun hlt _ => ?_, fun hopen hc => ?_, fun hopen hc hf => ?_⟩
  · exact ready_trap h rfl (execWaitb.eq_def w s) rfl (if_pos hlt)
  · rw [exec_waitb h hn hopen, pokeWait_waitb hz hwait rfl (hc.trans_eq hdone.symm), hwho]
  · rw [exec_waitb h hn hopen, pokeWait_waitb_stays hz hwait rfl (hdone.trans_lt hc) (hfaults.trans hf)]

end Arrive

/-! ## How waits end -/

section End

variable {s : State} {k : Nat} {g : Group} {x : Wait}

/-- R203: a barrier completes when every group of the team waits at it. -/
theorem exec_barrierComplete {t b : Nat} {team : Team} (ht : s.team t = some team) (hne : s.barriers t ≠ [])
    (hall : ∀ y ∈ s.barriers t, y = some b) (ho : s.owesBarTrap team = false) :
    exec (.barrierComplete t b) s = .next (team.groups.foldl State.endWait s) := by
  have hempty : (s.barriers t).isEmpty = false := by simpa using hne
  have hb : (s.barriers t).all (fun x => x = some b) = true := List.all_eq_true.2 fun y hy => decide_eq_true (hall y hy)
  dsimp only [exec, execBarrierComplete]
  simp only [ht, hempty, hb, ho, Bool.not_false, Bool.and_self, if_true]

/-- R205: a phase completes when every member team has arrived at it. -/
theorem exec_cbarPhaseComplete {c : Nat} {cluster : Cluster} (hc : s.cluster c = some cluster) (hne : cluster.teams ≠ [])
    (hall : ∀ t ∈ cluster.teams, s.teamArrived t cluster.phase = true) : exec (.cbarPhaseComplete c) s =
      .next ((s.modCluster c (fun y => { y with phase := cluster.phase + 1 })).wakeCluster cluster (cluster.phase + 1)) := by
  have hempty : cluster.teams.isEmpty = false := by simpa using hne
  have hmod : s.modCluster c (fun y => { y with phase := y.phase + 1 }) =
      s.modCluster c (fun y => { y with phase := cluster.phase + 1 }) := by
    simp only [State.modCluster, Tab.modify, show Tab.find s.clusters c = some cluster from hc]
  dsimp only [exec, execCbarPhaseComplete]
  simp only [hc, hempty, List.all_eq_true.2 hall, Bool.not_false, Bool.and_self, if_true, hmod]

/-- R202: a SLEEP ends at its deadline. -/
theorem exec_sleepExpiry {d : Nat} (hg : s.group k = some g) (hw : g.wait = some x) (hk : x.kind = .sleep d)
    (hd : d ≤ s.now) : exec (.sleepExpiry k) s = .next (s.setGroup k { g with wait := none, age := s.now }) := by
  obtain ⟨slot, word, header, kind⟩ := x
  subst hk
  dsimp only [exec, execSleepExpiry]
  simp only [hg, hw, hd, if_true, endWait_eq hg]

/-- R122: WAITC_COMPLETE looks at the wait again. -/
theorem exec_waitcComplete {cls n : Nat} {scope : BitVec 3} (hg : s.group k = some g) (hw : g.wait = some x)
    (hk : x.kind = .waitc cls n scope) : exec (.waitcComplete k) s = .next (s.pokeWait k) := by
  obtain ⟨slot, word, header, kind⟩ := x
  subst hk
  dsimp only [exec, execWaitcComplete]
  simp only [hg, hw]

/-- R123: WAITB_COMPLETE looks at the wait again. -/
theorem exec_waitbComplete {n : Nat} {scope : BitVec 3} (hg : s.group k = some g) (hw : g.wait = some x)
    (hk : x.kind = .waitb n scope) : exec (.waitbComplete k) s = .next (s.pokeWait k) := by
  obtain ⟨slot, word, header, kind⟩ := x
  subst hk
  dsimp only [exec, execWaitbComplete]
  simp only [hg, hw]

/-- R224: a HALTC whose event is latched, or whose time has passed, ends with what it returns. -/
theorem pokeHalt_ends {mask : BitVec 2} {deadline : Option Nat} {dest : Nat} {v : Word} (hg : s.group k = some g)
    (hw : g.wait = some x) (hk : x.kind = .haltc mask deadline (some dest)) (hv : g.haltValue s.now mask deadline = some v) :
    s.pokeHalt k = s.setGroup k
      ({ g with latch := g.latch &&& ~~~mask, wait := none, age := s.now }.setS dest v) := by
  obtain ⟨slot, word, header, kind⟩ := x
  subst hk
  simp only [State.pokeHalt, hg, hw, hv]

theorem haltValue_event {mask : BitVec 2} {now : Nat} {deadline : Option Nat} (h : g.latch &&& mask ≠ 0#2) :
    g.haltValue now mask deadline = some ((g.latch &&& mask).zeroExtend 64) := if_pos h

theorem haltValue_deadline {mask : BitVec 2} {now d : Nat} (h : g.latch &&& mask = 0#2) (hd : d ≤ now) :
    g.haltValue now mask (some d) = some 4 := (if_neg (not_not_intro h)).trans (if_pos hd)

end End

/-- Settles O32: each boundary and wait by its own rule, and each end of a wait by what the wait asks for. -/
theorem waits : Obligations.Waits := by
  unfold Obligations.Waits
  refine ⟨fun s k g w => ?begin, fun s k g w => ?counters, fun s => ⟨?barrier, ?phase, fun k g x hg hw => ?ends⟩⟩
  case begin =>
    obtain ⟨hnop, hyield, hsleep, hifence⟩ := boundaries s k g w
    exact ⟨hnop, hyield, hsleep, hifence, fun h => (exec_bar h).1, fun h => (exec_bar h).2, exec_exit,
      fun h hg hd kind => beginWait_stands hg hd g kind⟩
  case counters =>
    intro dest n cls scope a hn
    refine ⟨fun h p hp => ?arrive, fun h d => ⟨rfl, rfl, rfl⟩, fun h p hp => exec_cbarWait h hp, fun h ha => ?waitc,
      fun h => waitb_ends h hn⟩
    case arrive =>
      have hi := exec_cbarArrive h hn hp
      exact ⟨fun hlt => hi.trans (congrArg _ (if_pos hlt)),
          fun hle => hi.trans (congrArg _ (if_neg (Nat.not_lt.2 hle)))⟩
    case waitc => exact waitc_ends h hn ha
  case barrier => exact fun t team b => exec_barrierComplete
  case phase => exact fun c cluster => exec_cbarPhaseComplete
  case ends =>
    refine ⟨fun d => exec_sleepExpiry hg hw, fun cls n scope hk ha hc => ?_, fun n scope hk hc => ?_,
      fun mask deadline dest hk => ⟨fun hm => ?_, fun d hm hd hle => ?_⟩⟩
    · rw [exec_waitcComplete hg hw hk, pokeWait_waitc hg hw hk ha hc]
    · rw [exec_waitbComplete hg hw hk, pokeWait_waitb hg hw hk hc]
    · exact congrArg Host.Outcome.next (pokeHalt_ends hg hw hk (haltValue_event hm))
    · subst hd
      exact congrArg Host.Outcome.next (pokeHalt_ends hg hw hk (haltValue_deadline hm hle))


end Sys2Proof.Proofs.Control
end

section
/-!
PROOFS. Taking a trap and returning from one.
-/

namespace Sys2Proof.Proofs.Control

open Sys2Proof Sys2Proof.Machine Sys2Proof.Laws Sys2Proof.Proofs Sys2Proof.Proofs.Formats Sys2Proof.Proofs.Registers
  Sys2Proof.Proofs.Vector Sys2Proof.Proofs.Memory

/-! ## The registers that trap entry and return write -/

section Entry

variable {g : Group}

/-- Three scalar registers and q15, as trap entry and ERET write them. -/
def putTrapRegs (g : Group) (a b c : Word) (q : BitVec 64) : Group := (((g.setS 1 a).setS 2 b).setS 3 c).setQ 15 q

variable {a b c : Word} {q : BitVec 64}

theorem putTrapRegs_s (h : Tab.wf 0 g.sregs = true) :
    (putTrapRegs g a b c q).s 1 = a ∧ (putTrapRegs g a b c q).s 2 = b ∧ (putTrapRegs g a b c q).s 3 = c := by
  have h1 : Tab.wf 0 (g.setS 1 a).sregs = true := tab_wf_write h
  have h2 : Tab.wf 0 ((g.setS 1 a).setS 2 b).sregs = true := tab_wf_write h1
  have hs : ∀ r, (putTrapRegs g a b c q).s r = (((g.setS 1 a).setS 2 b).setS 3 c).s r := fun r => by
    rw [putTrapRegs, Group.s, group_setQ_sregs]; rfl
  refine ⟨?_, ?_, ?_⟩ <;> rw [hs]
  · rw [group_s_setS_ne _ (by decide), group_s_setS_ne _ (by decide), group_s_setS_self _ (by decide) h]
  · rw [group_s_setS_ne _ (by decide), group_s_setS_self _ (by decide) h1]
  · rw [group_s_setS_self _ (by decide) h2]

theorem putTrapRegs_s_ne {r : Nat} (h1 : r ≠ 1) (h2 : r ≠ 2) (h3 : r ≠ 3) : (putTrapRegs g a b c q).s r = g.s r := by
  have hs : (putTrapRegs g a b c q).s r = (((g.setS 1 a).setS 2 b).setS 3 c).s r := by
    rw [putTrapRegs, Group.s, group_setQ_sregs]; rfl
  rw [hs, group_s_setS_ne _ h3, group_s_setS_ne _ h2, group_s_setS_ne _ h1]

theorem putTrapRegs_q15 (h : Tab.wf 0 g.qregs = true) : (putTrapRegs g a b c q).q 15 = q &&& g.q0 :=
  group_q_setQ_self (g := ((g.setS 1 a).setS 2 b).setS 3 c) (by decide) h

theorem putTrapRegs_q_ne {r : Nat} (h : r ≠ 15) : (putTrapRegs g a b c q).q r = g.q r :=
  group_q_setQ_ne (((g.setS 1 a).setS 2 b).setS 3 c) h

/-- A group's lane predicates are those of its table, and q0 that of its width. -/
theorem q_congr {x y : Group} (hq : x.qregs = y.qregs) (hw : x.width = y.width) (r : Nat) : x.q r = y.q r := by
  simp only [Group.q, Group.q0, hq, hw]

/-- R187: the launch mask depends on the width alone. -/
theorem land_width (f : Flight) : (g.land f).width = g.width := by
  have happly : ∀ (x : Group) (r : RegWrite), (x.apply r).width = x.width := by
    intro x r
    cases r with
    | scalar i v => exact group_setS_width x i v
    | vec r l v => rfl
  unfold Group.land
  split
  · rfl
  · exact foldl_keeps Group.width _ happly _ g

theorem settleTrapRegs_q0 (g : Group) : g.settleTrapRegs.q0 = g.q0 :=
  congrArg (fun n => BitVec.ofNat 64 (2 ^ n - 1)) (foldl_keeps Group.width _ (fun _ f => land_width f) _ g)

end Entry

/-- R374: the registers at trap entry. -/
def entered (g : Group) (c : Cause) (slot : Nat) : Group :=
  putTrapRegs g.settleTrapRegs ((c.word false).zeroExtend 64) c.faddr (BitVec.ofNat 64 slot) c.lanes

/-- R374: what trap entry leaves in the group. -/
theorem enterHandler_fields (g : Group) (entry now slot : Nat) (c : Cause) (resume : Resume) :
    let h0 := g.settleTrapRegs
    let h := g.enterHandler entry now c slot resume
    h.hidden = some { s1 := h0.s 1, s2 := h0.s 2, s3 := h0.s 3, q15 := h0.q 15, resume := resume, slot := slot,
                      own := h0.replayOps, cause := c } ∧
    h.handler = true ∧ h.pc = entry ∧ h.clause = none ∧ h.sregs = (entered g c slot).sregs ∧
    h.qregs = (entered g c slot).qregs ∧ h.vecs = h0.vecs ∧ h.cregs = h0.cregs ∧ h.fpstat = h0.fpstat ∧
    h.gtimer = (if c.code = 0x0C then 0 else h0.gtimer) ∧ h.width = (entered g c slot).width := by
  unfold Group.enterHandler entered putTrapRegs
  generalize g.settleTrapRegs = h0
  refine ⟨rfl, rfl, rfl, rfl, rfl, rfl, ?_, ?_, ?_, ?_, rfl⟩
  all_goals simp

/-- Settles O34: trap entry is one record of the group, whose registers are read back; without an entry, or in handler state,
the trap is fatal. -/
theorem takingATrap : Obligations.TakingATrap := by
  unfold Obligations.TakingATrap
  intro s k g w c slot resume
  refine ⟨fun hg hd => ⟨fun entry he hh hw => ?enter, fun hh he => ?handler, fun he => ?none⟩, fun h ht => ?trap,
    fun h => ⟨fun hdbg ht => ?debugOff, fun hdbg hw => ?debugOn⟩⟩
  case enter =>
    intro t h0
    have ht : t = s.setGroup k (g.enterHandler entry s.now c slot resume) := by
      simp only [t, State.takeTrap, hg, hd, he, hh, hw, Bool.false_eq_true, if_false]
    rw [ht]
    obtain ⟨hhidden, hhandler, hpc, hclause, hsregs, hqregs, hvecs, hcregs, hfpstat, hgtimer, hwidth⟩ :=
      enterHandler_fields g entry s.now slot c resume
    have hs : ∀ r, (g.enterHandler entry s.now c slot resume).s r = (entered g c slot).s r := fun r => by
      rw [Group.s, hsregs]; rfl
    have hq : ∀ r, (g.enterHandler entry s.now c slot resume).q r = (entered g c slot).q r := q_congr hqregs hwidth
    refine ⟨fun a => rfl, fun j hj => setGroup_other _ hj, _, setGroup_group .., hhidden, hhandler, hpc, hclause, fun hwf => ?_,
      fun r h1 h2 h3 => ?_, fun hwf => ?_, fun r hr => ?_, hvecs, hcregs, hfpstat, hgtimer⟩
    · rw [hs, hs, hs]; exact putTrapRegs_s hwf
    · rw [hs]; exact putTrapRegs_s_ne h1 h2 h3
    · rw [hq]; exact (putTrapRegs_q15 hwf).trans (by rw [settleTrapRegs_q0])
    · rw [hq]; exact putTrapRegs_q_ne hr
  case handler =>
    obtain ⟨entry, he⟩ := Option.ne_none_iff_exists'.1 he
    simp only [State.takeTrap, hg, hd, he, hh, if_true]
  case none => simp only [State.takeTrap, hg, hd, he]
  case trap =>
    have hi := ready_issue h rfl (execTrap.eq_def w s)
    rw [hi]
    simp only [finish, ht, Bool.false_eq_true, if_false, issueTrap_short (f := codeForm) rfl]
  case debugOff =>
    have hi := ready_issue h rfl (execDbrk.eq_def w s)
    rw [hi]
    simp only [hdbg, finish, ht, Bool.false_eq_true, if_false, issueTrap_short (f := codeForm) rfl]
  case debugOn =>
    have hi := ready_issue h rfl (execDbrk.eq_def w s)
    rw [hi]
    simp only [hdbg, State.debugStop, hw, Bool.false_eq_true, if_false, if_true, finish]

/-! ## ERET -/

section Return

variable {g : Group} {h : Hidden} {now : Nat} {skip : Bool}

/-- R376: what ERET restores, before it chooses where the group goes on. -/
def returned (g : Group) (h : Hidden) (now : Nat) : Group :=
  { putTrapRegs g h.s1 h.s2 h.s3 h.q15 with hidden := none, handler := false, walkFaults := [], holding := false, age := now }

/-- R218, R376: ERET restores the registers, and where the group goes on touches none of them. -/
theorem returnFrom_eq : ∃ clause pc replay replayOps, g.returnFrom h now skip =
    { returned g h now with clause := clause, pc := pc, replay := replay, replayOps := replayOps } := by
  unfold Group.returnFrom
  dsimp only
  split
  · exact ⟨_, _, _, _, rfl⟩
  · split <;> split <;> exact ⟨_, _, _, _, rfl⟩

/-- R218, R376: where the group goes on. -/
theorem returnFrom_entry {slot : Nat} (hr : h.resume = .entrySlot slot) :
    g.returnFrom h now skip = { returned g h now with clause := none, pc := slot, replay := none } := by
  simp only [Group.returnFrom, hr, returned, putTrapRegs]

theorem returnFrom_replays {c : ClausePos} {a : Nat} {word : BitVec 160} {rest : List (Nat × BitVec 160)}
    (hr : h.resume = .instruction c false) (hc : c.rest = (a, word) :: rest) (hm : g.q 15 ≠ 0) :
    g.returnFrom h now false = { returned g h now with
      clause := some c, pc := a, replay := some (g.q 15), replayOps := h.own } := by
  obtain ⟨entry, header, _⟩ := c
  subst hc
  simp only [Group.returnFrom, hr, hm, Bool.or_self, decide_false, Bool.false_eq_true, if_false, returned, putTrapRegs]

theorem returnFrom_skips {c : ClausePos} {sk : Bool} {a : Nat} {word : BitVec 160} {rest : List (Nat × BitVec 160)}
    (hr : h.resume = .instruction c sk) (hc : c.rest = (a, word) :: rest)
    (hs : skip = true ∨ sk = true ∨ g.q 15 = 0) :
    (g.returnFrom h now skip).replay = none ∧ (g.returnFrom h now skip).pc = (match (generalizing := false) rest with
      | [] => a / 64 * 64 + 64
      | p :: _ => p.1) := by
  have hskip : (skip || sk || decide (g.q 15 = 0)) = true := by
    simpa [or_assoc] using hs
  unfold Group.returnFrom
  simp only [hr, hskip, if_true, hc]
  cases rest with
  | nil => exact ⟨rfl, rfl⟩
  | cons p rest => exact ⟨rfl, rfl⟩

end Return

/-- Settles O35: ERET in handler state is one record of the group; elsewhere it traps. -/
theorem returningFromATrap : Obligations.ReturningFromATrap := by
  unfold Obligations.ReturningFromATrap
  intro s k g w
  refine ⟨fun hr ht hh => ?refused, ?_⟩
  case refused =>
    have hi := ready_issue hr rfl (execEret.eq_def w s)
    rw [hi]
    cases g.hidden with
    | none => simp only [finish, ht, Bool.false_eq_true, if_false]; rfl
    | some h =>
      simp only [hh, Bool.not_false, if_true, finish, ht, Bool.false_eq_true, if_false]
      rfl
  intro h hhid x price
  obtain ⟨clause, pc, replay, replayOps, heq⟩ := returnFrom_eq (g := g) (h := h) (now := s.now) (skip := w.mod.getLsbD 0)
  have hx : x = ({ returned g h s.now with clause := clause, pc := pc, replay := replay, replayOps := replayOps } : Group).yields
      w := congrArg (Group.yields w) heq
  have hs : ∀ r, x.s r = (putTrapRegs g h.s1 h.s2 h.s3 h.q15).s r := fun r => by rw [hx]; rfl
  have hq : ∀ r, x.q r = (putTrapRegs g h.s1 h.s2 h.s3 h.q15).q r := fun r => by rw [hx]; rfl
  refine ⟨fun hr hh hdraw => ?goes, fun hr hh hdraw => ?waits, ?drawable, ?_, ?_, rfl, ?_, ?_, ?_, fun hwf => ?_, fun r h1 h2 h3 => ?_,
    fun r hne => ?_, fun hwf => ?_, fun slot hres => ?entry, fun c sk a word rest hres hrest => ⟨fun hskip hsk hm => ?replay,
      fun hskip => ?skip⟩⟩
  case goes =>
    have hi := ready_issue hr rfl (execEret.eq_def w s)
    rw [hi]
    simp only [hhid, hh, show s.drawable g.core (h.price g.width) = true from hdraw, Bool.not_true, Bool.false_eq_true, if_false]
    rfl
  case waits =>
    have hi := ready_issue hr rfl (execEret.eq_def w s)
    rw [hi]
    simp only [hhid, hh, show s.drawable g.core (h.price g.width) = false from hdraw, Bool.not_true, Bool.not_false,
      Bool.false_eq_true, if_false, if_true]
    rfl
  case drawable => simp [State.drawable, or_assoc]
  case entry =>
    have hx : x = (g.returnFrom h s.now (w.mod.getLsbD 0)).yields w := rfl
    rw [hx, returnFrom_entry hres]
    exact ⟨rfl, rfl, rfl⟩
  case replay =>
    subst hsk
    have hx : x = (g.returnFrom h s.now (w.mod.getLsbD 0)).yields w := rfl
    rw [hx, hskip, returnFrom_replays hres hrest hm]
    exact ⟨rfl, rfl, rfl, rfl⟩
  case skip =>
    obtain ⟨hreplay, hpc⟩ := returnFrom_skips (now := s.now) hres hrest hskip
    exact ⟨hreplay, hpc⟩
  · rw [hx]; rfl
  · rw [hx]; rfl
  · rw [hx]; exact (group_setQ_vecs ..).trans (by simp)
  · rw [hx]; exact (group_setQ_cregs ..).trans (by simp)
  · rw [hx]; exact (group_setQ_fpstat ..).trans (by simp)
  · rw [hs, hs, hs]; exact putTrapRegs_s hwf
  · rw [hs]; exact putTrapRegs_s_ne h1 h2 h3
  · rw [hq]; exact putTrapRegs_q_ne hne
  · rw [hq]; exact putTrapRegs_q15 hwf

end Sys2Proof.Proofs.Control
end

section
/-!
PROOFS. Special registers: SRDS, SWRS, SIGF and what each register reads.
-/

namespace Sys2Proof.Proofs.Special

open Sys2Proof Sys2Proof.Machine Sys2Proof.Laws Sys2Proof.Proofs Sys2Proof.Proofs.Formats Sys2Proof.Proofs.Registers
  Sys2Proof.Proofs.Vector Sys2Proof.Proofs.Memory Sys2Proof.Proofs.Control

section Instructions

variable {s : State} {k : Nat} {g : Group} {w : Slot}

/-- R214: SRDS of a register that the group may read, and a word that it has. -/
theorem exec_srds (h : ReadyTo (.srds w) s k g) (hp : w.a.specialIndex ≠ 0x80 ∨ g.system = true)
    (hw : (s.scalarSource g w w.b).toNat < specialWords w.a.specialIndex) :
    let word := (s.scalarSource g w w.b).toNat
    exec (.srds w) s = .next (s.retire k w (if isVecField w.d0 then
      (lanesOf (g.lanes w) g.width).foldl (fun a l =>
        a.setLane w.ty w.d0.vecIndex l (s.specialLane g w.a.specialIndex word l).toNat) g
      else g.setS w.d0.scalarIndex (s.special g w.a.specialIndex word))) := by
  have hi := ready_issue h rfl (execSrds.eq_def w s)
  have hpriv : (decide (w.a.specialIndex = 0x80) && !g.system) = false := by
    rcases hp with hp | hp <;> simp [hp]
  dsimp only at hi ⊢
  rw [hi, hpriv, if_neg Bool.false_ne_true, if_neg (Nat.not_le.2 hw)]
  split <;> rfl

/-- R185, R214: the traps of SRDS. -/
theorem exec_srds_traps (h : ReadyTo (.srds w) s k g) (ht : s.trapWaits k = false) :
    (w.a.specialIndex = 0x80 → g.system = false → exec (.srds w) s = .next (s.trapAt k (trapAll g 0x12 0))) ∧
    (w.a.specialIndex ≠ 0x80 ∨ g.system = true → specialWords w.a.specialIndex ≤ (s.scalarSource g w w.b).toNat →
      exec (.srds w) s = .next (s.trapAt k (trapAll g 0x07 0))) := by
  have hi := ready_issue h rfl (execSrds.eq_def w s)
  dsimp only at hi
  refine ⟨fun hn hs => ?_, fun hp hw => ?_⟩
  · have hpriv : (decide (w.a.specialIndex = 0x80) && !g.system) = true := by simp [hn, hs]
    rw [hi, hpriv, if_pos rfl, finish, ht]
    rfl
  · have hpriv : (decide (w.a.specialIndex = 0x80) && !g.system) = false := by
      rcases hp with hp | hp <;> simp [hp]
    rw [hi, hpriv, if_neg Bool.false_ne_true, if_pos hw, finish, ht]
    rfl

/-- R215: SWRS of a register that the group may write. -/
theorem exec_swrs (h : ReadyTo (.swrs w) s k g) (hp : w.d0.specialIndex ≠ 0x80 ∨ g.system = true) : exec (.swrs w) s =
    .next ((s.setSpecial k g w.d0.specialIndex (s.scalarSource g w w.a)).advance k w) := by
  have hi := ready_issue h rfl (execSwrs.eq_def w s)
  have hpriv : (decide (w.d0.specialIndex = 0x80) && !g.system) = false := by
    rcases hp with hp | hp <;> simp [hp]
  dsimp only at hi
  rw [hi, hpriv]
  rfl

/-- R185: %ptroot is refused outside system mode. -/
theorem exec_swrs_refused (h : ReadyTo (.swrs w) s k g) (hn : w.d0.specialIndex = 0x80) (hs : g.system = false)
    (ht : s.trapWaits k = false) : exec (.swrs w) s = .next (s.trapAt k (trapAll g 0x12 0)) := by
  have hi := ready_issue h rfl (execSwrs.eq_def w s)
  have hpriv : (decide (w.d0.specialIndex = 0x80) && !g.system) = true := by simp [hn, hs]
  dsimp only at hi
  rw [hi, hpriv, if_pos rfl, finish, ht]
  rfl

/-- R172, R215: what SWRS writes, register by register. -/
theorem setSpecial_eq (v : Word) (n : Nat) :
    (n < 7 → s.setSpecial k g n v = s.setGroup k (g.setC n (v.getLsbD 0))) ∧
    (0x10 < n → n < 0x20 → s.setSpecial k g n v = s.setGroup k (g.setQ (n - 0x10) v)) := by
  refine ⟨fun h => ?_, fun h1 h2 => ?_⟩ <;> unfold State.setSpecial
  · rw [if_neg (by omega), if_neg (by omega), if_neg (by omega), if_pos (by omega)]
  · rw [if_neg (by omega), if_neg (by omega), if_neg (by omega), if_neg (by omega)]

end Instructions

/-! ## What each register reads -/

section Reads

variable (s : State) (g : Group) (word l : Nat)

/-- R172: the condition bits. -/
theorem special_cbit {i : Nat} (h : i < 8) : s.special g i word = if g.c i then 1 else 0 := by
  have hk : specialKind i = .cbit i := if_pos h
  simp only [State.special, hk]

/-- R172: the lane predicates. -/
theorem specialKind_qreg {i : Nat} (h : i < 16) : specialKind (0x10 + i) = .qreg i := by
  rw [specialKind, if_neg (by omega), if_pos (by omega), Nat.add_sub_cancel_left]

theorem special_qreg {i : Nat} (h : i < 16) : s.special g (0x10 + i) word = g.q i := by
  simp only [State.special, specialKind_qreg h]

theorem specialLane_qreg {i : Nat} (h : i < 16) :
    s.specialLane g (0x10 + i) word l = if (g.q i).getLsbD l then 1 else 0 := by
  simp only [State.specialLane, specialKind_qreg h]

/-- R172, R214: any other register has one value for all lanes. -/
theorem specialLane_other {n : Nat} (h : n < 0x10 ∨ 0x20 ≤ n) (h0 : n ≠ 0x40) :
    s.specialLane g n word l = s.special g n word := by
  unfold State.specialLane
  cases hk : specialKind n with
  | laneid => grind [specialKind]
  | qreg i => grind [specialKind]
  | cbit | value | unassigned => rfl

/-- R158, R172: the counts of the flags. -/
theorem special_flag {i : Nat} (h : i < 12) : s.special g (0x20 + i) word = BitVec.ofNat 64 (g.flag i) := by
  have hk : specialKind (0x20 + i) = .value := by
    rw [specialKind, if_neg (by omega), if_neg (by omega), if_neg (by omega), if_pos (.inl ⟨by omega, by omega⟩)]
  simp only [State.special, hk]
  rw [if_pos (by omega), Nat.add_sub_cancel_left]

/-- R19: a word of a die's disabled sites. -/
theorem special_disabled {i : Nat} (h : i < 4) : s.special g (0x70 + i) word =
    BitVec.ofNat 64 ((s.die i).disabled.toNat / 2 ^ (64 * word) % 2 ^ 64) := by
  match i with
  | 0 | 1 | 2 | 3 => rfl
  | _ + 4 => omega

theorem maskWord_two (m : BitVec 144) : maskWord m 2 = m.extractLsb' 128 64 := by
  apply BitVec.eq_of_toNat_eq
  simp [maskWord, Nat.shiftRight_eq_div_pow]

theorem ofNat_shifted (x : BitVec 16) : BitVec.ofNat 64 (x.toNat * 2 ^ 48) = x.zeroExtend 64 <<< 48 := by
  apply BitVec.eq_of_toNat_eq
  simp [Nat.shiftLeft_eq]

/-- R19: the last word of %harvest4 holds the fenced sites from 128 on and the generation. -/
theorem fence_last (fenced : BitVec 144) (gen : BitVec 16) :
    (maskWord fenced 2 ||| BitVec.ofNat 64 (gen.toNat * 2 ^ 48)).extractLsb' 0 16 = fenced.extractLsb' 128 16 ∧
    (maskWord fenced 2 ||| BitVec.ofNat 64 (gen.toNat * 2 ^ 48)).extractLsb' 48 16 = gen.zeroExtend 16 := by
  rw [maskWord_two, ofNat_shifted]
  constructor <;> ext i hi
  · have h64 : i < 64 := by omega
    have h48 : i < 48 := by omega
    simp [h64, h48]
  · have hfield : 48 + i < 64 := by omega
    have hge : fenced.getLsbD (128 + (48 + i)) = false := BitVec.getLsbD_of_ge _ _ (by omega)
    simp [hi, hfield, hge]

/-- R24: the core number of a site in service, and of a hub core. -/
theorem coreId_eq : (∀ i, g.core < 576 → (s.die (coreDie g.core)).logicalId (coreSite g.core) = some i →
      s.coreId g.core = coreDie g.core * 128 + i) ∧
    (576 ≤ g.core → s.coreId g.core = 512 + (g.core - 576)) := by
  refine ⟨fun i hc hi => ?_, fun hc => ?_⟩
  · simp only [State.coreId, hc, hi, if_true]
  · exact if_neg (Nat.not_lt.2 hc)

/-- R24: the number of the partner of a site. -/
theorem pairId_eq (hc : g.core < 576) : (∀ i, (s.die (coreDie g.core)).unpaired (coreSite g.core) = false →
      (s.die (coreDie g.core)).logicalId (partnerSite (coreSite g.core)) = some i → s.pairId g.core = i) ∧
    ((s.die (coreDie g.core)).unpaired (coreSite g.core) = true → s.pairId g.core = 0xFF) := by
  refine ⟨fun i hp hi => ?_, fun hp => ?_⟩
  · simp only [State.pairId, hc, hp, hi, if_true, Bool.false_eq_true, if_false]
  · simp only [State.pairId, hc, hp, if_true]

/-- R340: %redund of a team of a launch. -/
theorem redund_eq {x : Team} {seq : Nat} {a : Launch} (ht : s.team g.team = some x) (hl : x.launch = some seq)
    (ha : s.launch seq = some a) :
    s.redund g = (a.record.redund.extractLsb' 0 6).zeroExtend 64 ||| (if x.checked then 0x40 else 0) := by
  simp only [State.redund, ht, hl, ha]
  rfl

end Reads

/-- Settles O33: the instructions by the register that they name, and each register by its row of R172. -/
theorem specialRegisters : Obligations.SpecialRegisters := by
  unfold Obligations.SpecialRegisters
  refine ⟨?instructions, ?reads⟩
  case instructions =>
    intro s k g w n word m v writes
    refine ⟨fun h hp hw => ?srds, fun h hp hw ht => (exec_srds_traps h ht).2 hp hw,
      fun h hn hs ht => (exec_srds_traps h ht).1 hn hs, fun h => ?swrs, fun h => ?sigf⟩
    case srds =>
      have hi := exec_srds h hp hw
      refine ⟨fun ⟨r, hr⟩ => ?_, fun ⟨r, hr⟩ => ?_⟩ <;> rw [hi, hr] <;> rfl
    case swrs =>
      have hne : ∀ {x : Nat}, x ≠ 0x80 → m = x → m ≠ 0x80 ∨ g.system = true := fun hx hm => .inl (hm ▸ hx)
      refine ⟨fun hm => ?_, fun h1 h2 => ?_, fun hm => ?_, fun hm => ?_, fun hm hs => ?_, fun hm hs ht => ?_⟩
      · have hi := exec_swrs h (.inl (by omega))
        rw [hi, (setSpecial_eq v m).1 hm]; rfl
      · have hi := exec_swrs h (.inl (by omega))
        rw [hi, (setSpecial_eq v m).2 h1 h2]; rfl
      · have hi := exec_swrs h (hne (by decide) hm)
        rw [hi, show w.d0.specialIndex = 0x53 from hm]; rfl
      · have hi := exec_swrs h (hne (by decide) hm)
        rw [hi, show w.d0.specialIndex = 0x58 from hm]; rfl
      · have hi := exec_swrs h (.inr hs)
        rw [hi, show w.d0.specialIndex = 0x80 from hm]; rfl
      · exact exec_swrs_refused h hm hs ht
    case sigf => exact ready_done (e := ⟨w, _, _, _⟩) h rfl (execSigf.eq_def w s) rfl
  case reads =>
    intro s g word l t gives
    refine ⟨fun i hi => special_cbit s g word (by omega), rfl, fun i hi => ⟨special_qreg s g word hi,
        specialLane_qreg s g word l hi⟩,
      rfl, fun n hn h0 => specialLane_other s g word l hn h0, fun i hi => special_flag s g word hi,
      rfl, rfl, rfl, rfl, rfl, rfl, rfl, rfl, rfl, rfl, rfl, rfl, fun i hc hi => ?_, fun hc => ?_, fun i hc hp hi => ?_,
      fun hc hp => ?_, rfl, rfl, fun hb => ?_, fun b hb => ?_, rfl, fun p hp => ?_, rfl, fun x seq a ht hl ha => ?_,
          rfl,
      fun i hi => special_disabled s g word hi, fun hd => ⟨fun hw => ?_, fun hw => ?_, ?_⟩, fun hd => ⟨?_, ?_⟩, rfl⟩
    · exact congrArg (BitVec.ofNat 64) ((coreId_eq s g).1 i hc hi)
    · exact congrArg (BitVec.ofNat 64) ((coreId_eq s g).2 hc)
    · exact congrArg (BitVec.ofNat 64) ((pairId_eq s g hc).1 i hp hi)
    · exact congrArg (BitVec.ofNat 64) ((pairId_eq s g hc).2 hp)
    · exact congrArg (BitVec.ofNat 64) (by rw [Group.gtime, hb])
    · exact congrArg (BitVec.ofNat 64) (by rw [Group.gtime, hb])
    · exact congrArg (BitVec.ofNat 64) (by rw [State.energyOf, hp])
    · exact redund_eq s g ht hl ha
    · exact (if_neg (Nat.not_le.2 hd)).trans (if_neg (by omega))
    · subst hw
      rw [show s.special g 0x74 2 = _ from (if_neg (Nat.not_le.2 hd)).trans (if_pos rfl), BitVec.zeroExtend_eq_setWidth]
      exact fence_last _ _
    · exact if_neg (Nat.not_le.2 hd)
    · exact if_pos hd
    · exact if_pos hd

end Sys2Proof.Proofs.Special
end

section
/-!
PROOFS. Mapping and freeing pages, invalidating translations, and HALTC.
-/

namespace Sys2Proof.Proofs.Control

open Sys2Proof Sys2Proof.Machine Sys2Proof.Laws Sys2Proof.Proofs Sys2Proof.Proofs.Formats Sys2Proof.Proofs.Registers
  Sys2Proof.Proofs.Vector Sys2Proof.Proofs.Memory

section Pages

variable {i : Instr} {s t : State} {k : Nat} {g : Group} {w : Slot} {e : Encoding} {body : Nat → Group →
    Result} {c : Cause}

/-- R158, R161: an instruction whose effect is a trap that need not wait. -/
theorem ready_trapFrom (h : ReadyTo i s k g) (he : encodingOf s i = some e)
    (hx : exec i s = issue e.form e.ok e.more e.slot s body) (ht : s.trapWaits k = false) (hb : body k g = .trap t c) :
    exec i s = .next (t.trapFrom s k i c) := by
  rw [ready_issue h he hx, hb, finish_trap he ht]

/-- An instruction that only changes the state before its group passes on. -/
theorem ready_passes (h : ReadyTo i s k g) (he : encodingOf s i = some e)
    (hx : exec i s = issue e.form e.ok e.more e.slot s body) (hb : body k g = .done t) :
    exec i s = .next (t.advance k e.slot) := by
  rw [ready_issue h he hx, hb]; rfl

/-- R185: whoever may not map is refused. -/
theorem map_refused (h : (g.handler || g.system) = false) : (!g.mayMap) = true := by
  rw [Group.mayMap, h]; rfl

theorem map_allowed (h : (g.handler || g.system) = true) : (!g.mayMap) = false := by
  rw [Group.mayMap, h]; rfl

theorem bit_eq_testBit (x i : Nat) : bit x i = x.testBit i := by
  rw [Nat.testBit_eq_decide_div_mod_eq, bit, Bool.beq_eq_decide_eq]

/-! ## PMAP (R219 to R221) -/

/-- R219: PMAP with a bad word of attributes. -/
theorem exec_pmap_attr (h : ReadyTo (.pmap w) s k g) (hm : (g.handler || g.system) = true) (ht : s.trapWaits k = false)
    (hattr : let attr := (s.scalarSource g w w.b).toNat
      attr &&& attributeMask ≠ attr ∨ attributeDie g.core attr = none) :
    exec (.pmap w) s = .next (s.trapFrom s k (.pmap w) (trapAll g 0x07 0)) := by
  refine ready_trapFrom (t := s) h rfl (execPmap.eq_def w s) ht ?_
  dsimp only
  rw [map_allowed hm, if_neg Bool.false_ne_true]
  by_cases ha : (s.scalarSource g w w.b).toNat &&& attributeMask ≠ (s.scalarSource g w w.b).toNat
  · exact if_pos ha
  · rw [if_neg ha, hattr.resolve_left ha]

/-- The body of PMAP once its word of attributes is good, at an address below 2^57. -/
def pmapBody (s : State) (k : Nat) (g : Group) (w : Slot) (die va attr : Nat) : Result :=
  let out : Sum Nat (Nat × Nat × State) := match s.mapWalk g.ctx va (ptePS attr) with
    | .format => .inl 0x13
    | .error _ => .inl 0x21
    | .absent => .inr (0, 4, s)
    | .entry a e => .inr (s.mapPage g.ctx die attr (ptePS attr) a e)
  match out with
  | .inl code => .trap (s.countWalk g.ctx va (ptePS attr)) (trapAll g code (BitVec.ofNat 64 va))
  | .inr (x, st, s1) =>
    .done (s1.modGroup k (fun y => y.depart w [.scalar w.d0.scalarIndex, .scalar w.d1.scalarIndex]
      (pairWrites2 w (BitVec.ofNat 64 x) (BitVec.ofNat 64 st)) 0 none .mapping))

/-- R220: PMAP with a good word of attributes goes by the address and by what its walk meets. -/
theorem exec_pmap (h : ReadyTo (.pmap w) s k g) (hm : (g.handler || g.system) = true)
    (ha : (s.scalarSource g w w.b).toNat &&& attributeMask = (s.scalarSource g w w.b).toNat) {die : Nat}
    (hd : attributeDie g.core (s.scalarSource g w w.b).toNat = some die) :
    let va := (s.scalarSource g w w.a).toNat
    exec (.pmap w) s =
      .next (finish s k { d0 := .scalarReg, d1 := .scalarReg, a := .scalarSrc, b := .scalarSrc, long := true } w
      (if 2 ^ 57 ≤ va then .trap s (trapAll g 0x10 (BitVec.ofNat 64 va))
        else pmapBody s k g w die va (s.scalarSource g w w.b).toNat)) := by
  have hi := ready_issue h rfl (execPmap.eq_def w s)
  dsimp only at hi ⊢
  rw [hi, map_allowed hm, if_neg Bool.false_ne_true, if_neg (not_not_intro ha), hd]
  rfl

variable {die va attr : Nat}

theorem pmapBody_format (h : s.mapWalk g.ctx va (ptePS attr) = .format) :
    pmapBody s k g w die va attr = .trap s (trapAll g 0x13 (BitVec.ofNat 64 va)) := by
  simp only [pmapBody, h, State.countWalk]

theorem pmapBody_error {a : Nat} (h : s.mapWalk g.ctx va (ptePS attr) = .error a) :
    pmapBody s k g w die va attr = .trap (s.countError a) (trapAll g 0x21 (BitVec.ofNat 64 va)) := by
  simp only [pmapBody, h, State.countWalk]

/-- R220: PMAP's registers go in flight and the group passes on. -/
theorem exec_pmap_gives {x st : Nat} {s1 : State} (h : ReadyTo (.pmap w) s k g) (hm : (g.handler || g.system) = true)
    (ha : (s.scalarSource g w w.b).toNat &&& attributeMask = (s.scalarSource g w w.b).toNat)
    (hd : attributeDie g.core (s.scalarSource g w w.b).toNat = some die) (hva : (s.scalarSource g w w.a).toNat < 2 ^ 57)
    (hw : match s.mapWalk g.ctx (s.scalarSource g w w.a).toNat (ptePS (s.scalarSource g w w.b).toNat) with
      | .absent => (0, 4, s) = (x, st, s1)
      | .entry a e => s.mapPage g.ctx die (s.scalarSource g w w.b).toNat (ptePS (s.scalarSource g w w.b).toNat) a e = (x, st, s1)
      | _ => False) :
    exec (.pmap w) s = .next ((s1.modGroup k (fun y => y.depart w [.scalar w.d0.scalarIndex, .scalar w.d1.scalarIndex]
      (pairWrites2 w (BitVec.ofNat 64 x) (BitVec.ofNat 64 st)) 0 none .mapping)).advance k w) := by
  rw [exec_pmap h hm ha hd, if_neg (Nat.not_le.2 hva), pmapBody]
  split at hw
  · next hwalk => cases hw; rw [hwalk]; rfl
  · next a e hwalk => rw [hwalk]; dsimp only; rw [hw]; rfl
  · exact hw.elim

/-- R220, R221: what PMAP gives at an entry. -/
theorem mapPage_eq {ctx a e : Nat} {big : Bool} :
    (pteV e = true → s.mapPage ctx die attr big a e = (e, 1, s)) ∧
    (pteV e = false → pteFT e = false → s.mapPage ctx die attr big a e = (0, 3, s)) ∧
    (pteV e = false → pteFT e = true → (s.die die).pool ctx big = [] → s.mapPage ctx die attr big a e = (0, 2, s)) ∧
    ∀ frame rest, pteV e = false → pteFT e = true → (s.die die).pool ctx big = frame :: rest →
      let s1 := (s.modDie die (fun d => d.setPool ctx big rest)).zeroFrame frame (pageBytes big)
      s.mapPage ctx die attr big a e = (mappedEntry attr die frame, 0,
        (if attr.testBit 9 then s1.bindFrames ctx frame (pageBytes big) else s1).homeCommit none
          (atAddr a (leBytes 8 (mappedEntry attr die frame)))) := by
  unfold State.mapPage
  refine ⟨fun hv => if_pos hv, fun hv hf => ?_, fun hv hf hp => ?_, fun frame rest hv hf hp => ?_⟩ <;>
    rw [if_neg (Bool.eq_false_iff.1 hv), hf]
  · rfl
  · rw [hp]; rfl
  · rw [hp, ← bit_eq_testBit]; rfl

end Pages

/-- Settles O36: each instruction by its permission, its operands and, for PMAP, what its walk meets. -/
theorem pagesAndHalt : Obligations.PagesAndHalt := by
  unfold Obligations.PagesAndHalt
  intro s k g w refuses may va attr page big size mask t all scope ctx base len
  have hsize : size = pageBytes (w.mod.getLsbD 0) := rfl
  refine ⟨fun ht hmay => ⟨fun h => ?_, fun h => ?_, fun h => ?_⟩, fun ht hs h => ?_, fun h hmay ha hva die hd => ?pmap,
    fun ht => ⟨fun h hmay ha => ?_, fun h hmay hp => ?_, fun h hs hm => ?_⟩, fun h hmay ha ht hd => ?walk,
    fun h hmay hal hin => ?_, fun h hmay => ⟨fun hw => ?_, fun hw => ?_⟩, fun h hs hm => ?_⟩
  case pmap =>
    intro gives
    refine ⟨fun hw => exec_pmap_gives h hmay ha hd hva (by rw [hw]), fun a e hw => ?_⟩
    obtain ⟨hvalid, hplain, hempty,
        hmaps⟩ := mapPage_eq (s := s) (die := die) (attr := attr) (ctx := g.ctx) (a := a) (e := e)
      (big := big)
    refine ⟨fun hv => ?_, fun hv hf => ?_, fun hv hf hp => ?_, fun frame rest hv hf hp => ?_⟩ <;>
      refine exec_pmap_gives h hmay ha hd hva ?_ <;> rw [hw]
    · exact hvalid hv
    · exact hplain hv hf
    · exact hempty hv hf hp
    · exact hmaps frame rest hv hf hp
  case walk =>
    intro traps
    obtain ⟨die, hd⟩ := Option.ne_none_iff_exists'.1 hd
    refine ⟨fun hva => ?_, fun hva hw => ?_, fun hva a hw => ?_⟩ <;> rw [exec_pmap h hmay ha hd]
    · rw [if_pos hva]; exact congrArg _ (finish_trap (i := .pmap w) rfl ht)
    · rw [if_neg (Nat.not_le.2 hva), pmapBody_format hw]; exact congrArg _ (finish_trap (i := .pmap w) rfl ht)
    · rw [if_neg (Nat.not_le.2 hva), pmapBody_error hw]; exact congrArg _ (finish_trap (i := .pmap w) rfl ht)
  · exact ready_trapFrom h rfl (execPmap.eq_def w s) ht (if_pos (map_refused hmay))
  · exact ready_trapFrom h rfl (execPfree.eq_def w s) ht (if_pos (map_refused hmay))
  · exact ready_trapFrom h rfl (execTlbi.eq_def w s) ht (if_pos (map_refused hmay))
  · exact ready_trapFrom h rfl (execHaltc.eq_def w s) ht (if_pos (by rw [hs]; rfl))
  · exact exec_pmap_attr h hmay ht ha
  · refine ready_trapFrom h rfl (execPfree.eq_def w s) ht ((if_neg (Bool.eq_false_iff.1 (map_allowed hmay))).trans (if_pos ?_))
    rw [← hsize]
    rcases hp with hp | hp
    · rw [decide_eq_true hp]; rfl
    · rw [hp, Bool.not_false, Bool.or_true]
  · exact ready_trapFrom h rfl (execHaltc.eq_def w s) ht ((if_neg (by rw [hs]; exact Bool.false_ne_true)).trans (if_pos hm))
  · refine ready_passes (e := ⟨w, _, _,
      _⟩) h rfl (execPfree.eq_def w s) ((if_neg (Bool.eq_false_iff.1 (map_allowed hmay))).trans
      (if_neg ?_))
    rw [← hsize, decide_eq_false (not_not_intro hal), hin]
    exact Bool.false_ne_true
  · exact ready_passes (e := ⟨w, _, _,
      _⟩) h rfl (execTlbi.eq_def w s) ((if_neg (Bool.eq_false_iff.1 (map_allowed hmay))).trans
      (if_pos hw))
  · exact ready_passes (e := ⟨w, _, _,
      _⟩) h rfl (execTlbi.eq_def w s) ((if_neg (Bool.eq_false_iff.1 (map_allowed hmay))).trans
      (if_neg (Bool.eq_false_iff.1 hw)))
  · exact ready_moved (e := ⟨w, _, _,
      _⟩) h rfl (execHaltc.eq_def w s) ((if_neg (by rw [hs]; exact Bool.false_ne_true)).trans
      (if_neg (Nat.not_lt.2 hm)))

end Sys2Proof.Proofs.Control
end

section
/-!
PROOFS. Copies, gathers and collectives enter their queues.
-/

namespace Sys2Proof.Proofs.Engines

open Sys2Proof Sys2Proof.Machine Sys2Proof.Laws Sys2Proof.Proofs Sys2Proof.Proofs.Formats Sys2Proof.Proofs.Registers
  Sys2Proof.Proofs.Vector Sys2Proof.Proofs.Memory Sys2Proof.Proofs.Control

section Admit

variable {i : Instr} {s : State} {k : Nat} {g : Group} {e : Encoding} {body : Nat → Group → Result}

/-- R294: an operation enters its queue, or its instruction waits at issue. -/
def Admits (i : Instr) (s : State) (k : Nat) (g : Group) (w : Slot) (o : EngineOp) (touched : List (Nat × Nat)) : Prop :=
  exec i s = (if 63 ≤ (s.unretired g.team o.cls).length then .next (s.hold k)
    else .next (((s.drainFor (g.who k) touched).submit k g o).advance k w))

/-- An instruction whose effect is that of `admitOp`. -/
theorem ready_admits {o : EngineOp} {touched : List (Nat × Nat)} (h : ReadyTo i s k g) (he : encodingOf s i = some e)
    (hx : exec i s = issue e.form e.ok e.more e.slot s body) (hb : body k g = s.admitOp k g o touched) :
    Admits i s k g e.slot o touched := by
  rw [Admits, ready_issue h he hx, hb, State.admitOp]
  split <;> rfl

/-! ## A team that is not under check folds and compares nothing -/

variable {who : Who}

theorem foldLanes_plain (h : s.runOf who = none) (op : Nat) (lanes : List Nat) (a b c : Nat → Word) (imm : Word) :
    s.foldLanes who op lanes a b c imm = s := by
  rw [State.foldLanes, State.addSignature, h]
  cases who.team with
  | none => rfl
  | some t => rfl

theorem compareEffect_plain (h : s.runOf who = none) (x : Effect) : s.compareEffect who x = s := by
  simp only [State.compareEffect, h]

theorem logFor_plain (h : s.runOf who = none) (gid : Nat) (x : LogItem) : s.logFor who gid x = s := by
  simp only [State.logFor, partOf_plain h]

end Admit

section Instructions

variable {s : State} {k : Nat} {g : Group} {w : Slot}

/-! ## TREC (R283) -/

/-- R283: TREC of an aligned record that reads without a fault and is well formed. -/
theorem exec_trec (h : ReadyTo (.trec w) s k g) (ha : g.pageAddress w % 64 = 0) {ps : List Piece} {x : LanesRead} {s1 : State}
    (hr : s.routeOne (g.who k) g.walkFaults .read .any (g.pageAddress w) 64 = .ok ps)
    (hread : s.readLogged k g 0x300 [{ lane := 0, accesses := [ps] }] = (some x, s1)) (hf : x.fault = none) :
    let r := BitVec.ofNat 512 (leNat ((x.values.map (fun y => y.2.flatten)).flatten))
    (s1.tensor (s1.teamOf g) r).isSome = true → exec (.trec w) s = .next ((s1.modGroup k (fun y =>
      y.depart w [] [] 0 none (.record (w.mod.toNat % 8) r))).advance k w) := by
  intro r hok
  have hbad : (s1.tensor (s1.teamOf g) r).isNone = false := by
    obtain ⟨y, hy⟩ := Option.isSome_iff_exists.1 hok
    rw [hy]; rfl
  have hslot : (w.mod.extractLsb' 0 3).toNat = w.mod.toNat % 8 := modBits_eq w.mod 3
  refine ready_passes h rfl (execTrec.eq_def w s) ?_
  simp only [ha, bne_self_eq_false, Bool.false_eq_true, if_false, hr, hread, hf, hslot]
  exact if_neg (Bool.eq_false_iff.1 hbad)

/-! ## CPYB (R289) -/

theorem advanceBatches_cbopen (fuel : Nat) (g : Group) : (Group.advanceBatches fuel g).cbopen = g.cbopen := by
  induction fuel generalizing g with
  | zero => rfl
  | succ n ih =>
    unfold Group.advanceBatches
    split
    · exact ih _
    · rfl

/-- R289: closing the open batch raises %cbopen by one. -/
theorem closeBatch_cbopen (g : Group) : g.closeBatch.cbopen = g.cbopen + 1 := advanceBatches_cbopen _ _

theorem exec_cpyb (h : ReadyTo (.cpyb w) s k g) : exec (.cpyb w) s = .next (((s.setGroup k
    (g.closeBatch.setS w.d0.scalarIndex (BitVec.ofNat 64 (g.cbopen + 1)))).pokeWait k).advance k w) := by
  rw [← closeBatch_cbopen]
  have hi := ready_passes (e := ⟨w, _, _, _⟩) h rfl (execCpyb.eq_def w s) rfl
  exact hi

/-! ## Copies between records and basins (R287, R288) -/

/-- R287: the copy of an instruction. -/
def cpyOp (k : Nat) (g : Group) (w : Slot) (a b : CopyEnd) (ins outs : List (Nat × Nat)) : EngineOp :=
  { cls := .copy, team := g.team, group := k, slot := g.pc, kind := .cpy a b (g.origin w w.imm.toNat), ins := ins,
      outs := outs }

section Sides

variable {x y : BitVec 512} {a b : TRec} {i n : Nat} {z : Basin}

theorem cpy_tensors (h : ReadyTo (.cpy w) s k g)
    (hsrc : s.copySide (s.teamOf g) (w.mod.getLsbD 0) (copySrc w) = .tensor x a)
    (hdst : s.copySide (s.teamOf g) (w.mod.getLsbD 1) (copyDst w) = .tensor y b) (hm : tilesMatch a b = true)
    (ho : a.originOk (g.origin w w.imm.toNat) = true) : Admits (.cpy w) s k g w (cpyOp k g w (.tensor x) (.tensor y) [] [])
      (a.ranges (g.origin w w.imm.toNat) ++ b.ranges (g.origin w w.imm.toNat)) := by
  refine ready_admits (e := ⟨w, _, _, _⟩) h rfl (execCpy.eq_def w s) ?_
  simp only [hsrc, hdst, hm, ho, Bool.not_true, Bool.false_eq_true, if_false, cpyOp]

theorem cpy_tensors_differ (h : ReadyTo (.cpy w) s k g)
    (hsrc : s.copySide (s.teamOf g) (w.mod.getLsbD 0) (copySrc w) = .tensor x a)
    (hdst : s.copySide (s.teamOf g) (w.mod.getLsbD 1) (copyDst w) = .tensor y b) (hm : tilesMatch a b = false) :
    exec (.cpy w) s = .next (s.trapAt k (trapAll g 0x1A 0)) := by
  refine ready_trap h rfl (execCpy.eq_def w s) rfl ?_
  simp only [hsrc, hdst, hm, Bool.not_false, if_true, recordFault]

theorem cpy_to_basin (h : ReadyTo (.cpy w) s k g)
    (hsrc : s.copySide (s.teamOf g) (w.mod.getLsbD 0) (copySrc w) = .tensor x a)
    (hdst : s.copySide (s.teamOf g) (w.mod.getLsbD 1) (copyDst w) = .basin i z)
    (ho : a.originOk (g.origin w w.imm.toNat) = true) (hn : z.elements a.tile = some n) :
    Admits (.cpy w) s k g w (cpyOp k g w (.tensor x) (.basin i) [] [(i, n)]) (a.ranges (g.origin w w.imm.toNat)) := by
  refine ready_admits (e := ⟨w, _, _, _⟩) h rfl (execCpy.eq_def w s) ?_
  simp only [hsrc, hdst, ho, hn, Bool.not_true, Bool.false_eq_true, if_false, cpyOp]

theorem cpy_from_basin (h : ReadyTo (.cpy w) s k g)
    (hsrc : s.copySide (s.teamOf g) (w.mod.getLsbD 0) (copySrc w) = .basin i z)
    (hdst : s.copySide (s.teamOf g) (w.mod.getLsbD 1) (copyDst w) = .tensor x a)
    (ho : a.originOk (g.origin w w.imm.toNat) = true) (hn : z.elements a.tile = some n) :
    Admits (.cpy w) s k g w (cpyOp k g w (.basin i) (.tensor x) [(i, n)] []) (a.ranges (g.origin w w.imm.toNat)) := by
  refine ready_admits (e := ⟨w, _, _, _⟩) h rfl (execCpy.eq_def w s) ?_
  simp only [hsrc, hdst, ho, hn, Bool.not_true, Bool.false_eq_true, if_false, cpyOp]

/-! ## Encrypting and releasing copies (R290, R291) -/

theorem copyPair_eq {ok : BitVec 512 → TRec → Bool} (hsrc : s.copySide (s.teamOf g) false (copySrc w) = .tensor x a)
    (hdst : s.copySide (s.teamOf g) false (copyDst w) = .tensor y b) (ha : ok x a = true) (hb : ok y b = true)
    (hm : tilesMatch a b = true) : s.copyPair g w ok = .inl (x, a, y, b) := by
  simp only [State.copyPair, hsrc, hdst, ha, hb, hm, Bool.not_true, Bool.or_self, Bool.false_eq_true, if_false]

theorem foldOnce_plain {who : Who} (h : s.runOf who = none) (op : Nat) (a b c imm : Word) :
    s.foldOnce who op a b c imm = s := foldLanes_plain h ..

theorem foldCopy_plain (h : s.runOf (g.who k) = none) (op v : Nat) : s.foldCopy k g op w v = s := foldLanes_plain h ..

/-- R294: the full queue is looked at before the operation is admitted. -/
theorem admitOp_twice (o : EngineOp) (touched : List (Nat × Nat)) :
    (if 63 ≤ (s.unretired g.team o.cls).length then Result.stay s else s.admitOp k g o touched) = s.admitOp k g o touched := by
  unfold State.admitOp
  split <;> rfl

theorem exec_cpyx (hrun : s.runOf (g.who k) = none) (h : ReadyTo (.cpyx w) s k g)
    (hsrc : s.copySide (s.teamOf g) false (copySrc w) = .tensor x a)
    (hdst : s.copySide (s.teamOf g) false (copyDst w) = .tensor y b)
    (hm : (isBytes x a && isBytes y b && tilesMatch a b) = true) (hv : (g.s w.a.scalarIndex).toNat % 8 = 0)
    (ho : a.originOk (g.origin w w.imm.toNat) = true) :
    let o := g.origin w w.imm.toNat
    let v := (g.s w.a.scalarIndex).toNat
    Admits (.cpyx w) s k g w { cls := .copy, team := g.team, group := k, slot := g.pc
                               kind := .cpyx (w.mod.getLsbD 10) x y o (w.mod.extractLsb' 11 5).toNat v }
      ((v, 32) :: a.ranges o ++ b.ranges o) := by
  obtain ⟨⟨ha, hb⟩, hm⟩ : (isBytes x a = true ∧ isBytes y b = true) ∧ tilesMatch a b = true := by
    simpa only [Bool.and_eq_true] using hm
  refine ready_admits (e := ⟨w, _, _, _⟩) h rfl (execCpyx.eq_def w s) ?_
  simp only [copyPair_eq hsrc hdst ha hb hm, hv, ho, foldCopy_plain hrun, partOf_plain hrun, bne_self_eq_false,
      Bool.not_true,
    Bool.or_self, Bool.false_eq_true, if_false]
  exact admitOp_twice { cls := .copy, team := g.team, group := k, slot := g.pc
                        kind := .cpyx (w.mod.getLsbD 10) x y (g.origin w w.imm.toNat) (w.mod.extractLsb' 11 5).toNat
                          (g.s w.a.scalarIndex).toNat } _

theorem exec_cpyr (hrun : s.runOf (g.who k) = none) (h : ReadyTo (.cpyr w) s k g)
    (hsrc : s.copySide (s.teamOf g) false (copySrc w) = .tensor x a)
    (hdst : s.copySide (s.teamOf g) false (copyDst w) = .tensor y b) (ha : a.rank ≤ 4) (hb : b.rank ≤ 4)
    (hm : tilesMatch a b = true) (hv : (g.s w.a.scalarIndex).toNat % 8 = 0) (ho : a.originOk (g.origin w 0) = true) :
    let o := g.origin w 0
    let v := (g.s w.a.scalarIndex).toNat
    Admits (.cpyr w) s k g w { cls := .copy, team := g.team, group := k, slot := g.pc
                               kind := .cpyr (if w.mod.getLsbD 10 then some (w.mod.extractLsb' 11 4).toNat else none) x y o
                                 (if w.a.scalarIndex = 0 then none else some v) w.imm
                               portDown := w.mod.getLsbD 10 &&
                                 Tab.read PortState.down s.hub.ports (w.mod.extractLsb' 11 4).toNat != .up }
      (a.ranges o ++ (if w.mod.getLsbD 10 then [] else b.ranges o)) := by
  have hpair : s.copyPair g w (fun _ r => decide (r.rank ≤ 4)) = .inl (x, a, y, b) :=
    copyPair_eq hsrc hdst (decide_eq_true ha) (decide_eq_true hb) hm
  refine ready_admits (e := ⟨w, _, _, _⟩) h rfl (execCpyr.eq_def w s) ?_
  simp only [hpair, hv, ho, foldCopy_plain hrun, compareEffect_plain hrun, partOf_plain hrun, bne_self_eq_false,
      Bool.not_true,
    Bool.or_self, Bool.false_eq_true, if_false]
  exact admitOp_twice { cls := .copy, team := g.team, group := k, slot := g.pc
                        kind := .cpyr (if w.mod.getLsbD 10 then some (w.mod.extractLsb' 11 4).toNat else none) x y
                          (g.origin w 0) (if w.a.scalarIndex = 0 then none else some (g.s w.a.scalarIndex).toNat) w.imm
                        portDown := w.mod.getLsbD 10 &&
                          Tab.read PortState.down s.hub.ports (w.mod.extractLsb' 11 4).toNat != .up } _

end Sides

/-! ## Gathers and collectives (R292, R293) -/

theorem exec_gath (h : ReadyTo (.gath w) s k g) {x : BitVec 512} {r : TRec} {i e : Nat}
    (hside : s.copySide (s.teamOf g) false (w.mod.extractLsb' 0 3).toNat = .tensor x r) (hrank : r.rank = 2) :
    let n := (s.scalarSource g w w.a).toNat
    let o := (s.scalarSource g w w.b).toNat % 2 ^ 32
    let bytes := r.extent 0 * r.ub
    let t := s.teamOf g
    (t.basin (inBasin w)).elements (4 * n) = some i → (t.basin (outBasin w)).elements (n * bytes) = some e → 1 ≤ n →
    n ≤ 65536 → (t.basin (outBasin w)).esize = bytes → r.originOk [o] = true →
    Admits (.gath w) s k g w { cls := .gather, team := g.team, group := k, slot := g.pc, kind := .gath x n o
                               ins := [(inBasin w, i)], outs := [(outBasin w, e)] } (r.gatherRanges o) := by
  intro n o bytes t hin hout h1 hn hsize ho
  refine ready_admits (e := ⟨w, _, _, _⟩) h rfl (execGath.eq_def w s) ?_
  have hrange : (decide (n = 0) || decide (65536 < n) || decide ((t.basin (outBasin w)).esize ≠ bytes) || !r.originOk [o]) =
      false := by
    simp only [decide_eq_false (show ¬ n = 0 by omega), decide_eq_false (Nat.not_lt.2 hn),
      decide_eq_false (not_not_intro hsize), ho, Bool.or_self, Bool.not_true]
  simp only [n, o, bytes, t] at hin hout hrange ⊢
  simp only [hside, hrank, ne_eq, not_true_eq_false, if_false, hin, hout]
  exact if_neg (Bool.eq_false_iff.1 hrange)

/-- R293: no matching operation contributes an element of another size. -/
theorem matching_sameSize {round size : Nat} (h : ∀ p c d e m z l, p ∈ s.matching g round →
    p.2.kind = .coll c d e m round z l →
        z = size) : (s.matching g round).any (fun p => p.2.otherSize size) = false := by
  rw [List.any_eq_false]
  intro p hp
  obtain ⟨-, hround⟩ := List.mem_filter.1 hp
  unfold EngineOp.otherSize
  split
  · next c d e m r z l hkind =>
    rw [hkind] at hround
    cases l with
    | some l => cases hround
    | none =>
      simp only [Bool.and_eq_true, decide_eq_true_eq] at hround
      obtain ⟨rfl, -⟩ := hround
      simp [h p c d e m z none hp hkind]
  · exact Bool.false_ne_true

theorem exec_coll (hrun : s.runOf (g.who k) = none) (h : ReadyTo (.coll w) s k g) :
    let t := s.teamOf g
    let root := (s.scalarSource g w w.a).toNat
    let all := w.mod.getLsbD 2
    let size := (t.basin (inBasin w)).esize
    ∀ i outs, (t.basin (inBasin w)).elements size = some i →
    (if receives all root t.member then ((t.basin (outBasin w)).elements size).map (fun n => [(outBasin w,
        n)]) else some []) =
      some outs →
    root < t.members → (∀ p c d e m z l, p ∈ s.matching g t.collCount → p.2.kind = .coll c d e m t.collCount z l →
        z = size) →
    exec (.coll w) s = if 63 ≤ (s.unretired g.team .coll).length then .next (s.hold k) else
      .next ((((s.modTeam g.team (fun x => { x with collCount := x.collCount + 1 })).drainFor (g.who k) []).submit k g
      { cls := .coll, team := g.team, group := k, slot := g.pc
        kind := .coll (w.mod.extractLsb' 0 2).toNat all w.ty root t.collCount size none, ins := [(inBasin w, 1)]
        outs := outs, names := [outBasin w] }).advance k w) := by
  intro t root all size i outs hin houts hroot hsame
  have hi := ready_issue h rfl (execColl.eq_def w s)
  rw [hi]
  simp only [t, root, all, size] at hin houts hroot hsame ⊢
  simp only [hin, houts, Nat.not_le.2 hroot, matching_sameSize hsame, Bool.false_eq_true, if_false, foldOnce_plain hrun,
    compareEffect_plain hrun, logFor_plain hrun, ite_self, partOf_plain hrun]
  by_cases hfull : 63 ≤ (s.unretired g.team .coll).length
  · rw [if_pos hfull, if_pos hfull]
    rfl
  · rw [if_neg hfull, if_neg hfull]
    simp only [State.admitOp]
    rw [if_neg (show ¬ 63 ≤ ((s.modTeam g.team (fun x => { x with collCount := x.collCount + 1 })).unretired g.team .coll).length
      from hfull)]
    rfl

end Instructions

/-- Settles O38: each instruction admits its operation, TREC puts its record in flight, and CPYB closes the batch. -/
theorem copies : Obligations.Copies := by
  unfold Obligations.Copies
  refine ⟨fun s k g w => ?_, fun s k g w => ?_⟩
  · intro t o src dst op enters
    refine ⟨fun h ha ps x s1 hr hread hf => exec_trec h ha hr hread hf, fun h ha ht => ?_, fun h =>
      ⟨fun x a y b hsrc hdst hm ho => cpy_tensors h hsrc hdst hm ho,
          fun x a i b n hsrc hdst ho hn => cpy_to_basin h hsrc hdst ho hn,
        fun i b x a n hsrc hdst ho hn => cpy_from_basin h hsrc hdst ho hn,
        fun x a y b hsrc hdst hm _ => cpy_tensors_differ h hsrc hdst hm⟩, exec_cpyb⟩
    exact ready_trapFrom h rfl (execTrec.eq_def w s) ht (if_pos (by simpa using ha))
  · intro t side v queued hrun
    exact ⟨fun h x a y b hsrc hdst hm hv ho => exec_cpyx hrun h hsrc hdst hm hv ho,
      fun h x a y b hsrc hdst ha hb hm hv ho => exec_cpyr hrun h hsrc hdst ha hb hm hv ho,
      fun h x r i e hside hrank hin hout h1 hn hsize ho => exec_gath h hside hrank hin hout h1 hn hsize ho,
      fun h => exec_coll hrun h⟩

end Sys2Proof.Proofs.Engines
end

section
/-!
PROOFS. Engine operations on their own: entering a queue, firing, stepping, retiring, pairs and the key engine.
-/

namespace Sys2Proof.Proofs.Engines

open Sys2Proof Sys2Proof.Machine Sys2Proof.Laws Sys2Proof.Proofs Sys2Proof.Proofs.Formats Sys2Proof.Proofs.Registers
  Sys2Proof.Proofs.Vector Sys2Proof.Proofs.Memory Sys2Proof.Proofs.Control

section Submit

variable {s : State} {k : Nat} {g : Group} {o : EngineOp}

/-- R122, R289: an operation at issue raises the counter of its class and leaves the registers. -/
theorem countOp_eq (g : Group) (c : EngineClass) : ∃ used batches, g.countOp c = { g with
    mxcnt := g.mxcnt + natOf (c = .matrix), gacnt := g.gacnt + natOf (c = .gather), cocnt := g.cocnt + natOf (c = .coll)
    batchUsed := used, batches := batches } := by
  cases c <;> exact ⟨_, _, rfl⟩

/-- R294: the operation that stands in the queue. -/
def queuedOp (g : Group) (o : EngineOp) : EngineOp :=
  { o with batch := (if o.cls = .copy then g.cbopen + 1 else 0), ordinal := g.copyPos }

theorem submit_frame (hg : s.group k = some g) :
    let t := s.submit k g o
    t.mem = s.mem ∧ (∀ j, j ≠ k → t.group j = s.group j) ∧ (∃ n, t.ops = Tab.insert s.ops n (queuedOp g o)) ∧
    ∃ copyPos, t.group k = some { g.countOp o.cls with copyPos := copyPos } := by
  refine ⟨rfl, fun j hj => modGroup_other (s := s.fresh.2) hj, ⟨_, rfl⟩,
    if o.cls = .copy || o.cls = .gather then g.copyPos + 1 else g.copyPos, ?_⟩
  exact (modGroup_group (s := s.fresh.2) k _).trans (congrArg (Option.map _) (show s.fresh.2.group k = some g from hg))

end Submit

/-! ## Firing and stepping -/

section Events

variable {s : State} {key : Nat} {o : EngineOp} {t : Team}

theorem exec_engineFire (ho : s.op key = some o) (ht : s.team o.team = some t) (hf : s.mayFire key o t = true) :
    let places := (o.ins.map (fun q => (t.basin q.1).cons.toNat), o.outs.map (fun q => (t.basin q.1).prod.toNat))
    exec (.engineFire key) s = .next ((s.modOp key (fun x => { x with fired := some places })).contribute key o t) := by
  dsimp only [exec, execEngineFire]
  simp only [ho, ht, hf, if_true]

variable {s1 : State}

/-- R303, R333: an operation without a pair owes the price of its step. -/
theorem stepNeed_single (hp : s1.pairArray o = none) : s1.stepNeed o t = s1.stepPrice o t := by
  simp only [State.stepNeed, State.stepPrices, hp, Option.toList_none, List.map_nil, List.map_cons, List.foldl_cons,
    List.foldl_nil, Nat.zero_max]

/-- R303: in a pair each array pays its own price. -/
theorem stepNeed_pair {c : Nat} (hp : s1.pairArray o = some c) :
    s1.stepNeed o t = max (s1.stepPrice o t) (s1.matrixPrice o c) ∧
    ∀ draw, s1.stepDraws o t draw =
      (if o.paid < s1.stepPrice o t then [(t.core, min draw (s1.stepPrice o t - o.paid))] else []) ++
        (if o.paid < s1.matrixPrice o c then [(c, min draw (s1.matrixPrice o c - o.paid))] else []) := by
  refine ⟨?_, fun draw => ?_⟩
  · simp only [State.stepNeed, State.stepPrices, hp, Option.toList_some, List.map_nil, List.map_cons, List.foldl_cons,
      List.foldl_nil, Nat.zero_max]
  · simp only [State.stepDraws, State.stepPrices, hp, Option.toList_some, List.map_nil, List.map_cons, List.filter_cons,
      List.filter_nil, decide_eq_true_eq]
    split <;> split <;> rfl

/-- R295, R303, R333: an operation that is ready draws towards its step, and takes the step once it has drawn it all. -/
theorem exec_engineStep (ho : s.op key = some o) (ht : s.team o.team = some t) (hr : s.readyOp key o t = some s1) :
    let need := s1.stepNeed o t
    let draw := min 96 (need - o.paid)
    let paid := { o with paid := o.paid + draw, hungry := none }
    let drawn := if draw = 0 then some s1 else s1.drawEngine t.ctx (s1.stepDraws o t draw)
    (drawn = none → exec (.engineStep key) s =
      .next (s.modOp key (fun x => { x with hungry := (if x.hungry.isNone then some s.now else x.hungry) }))) ∧
    (∀ s2, drawn = some s2 → exec (.engineStep key) s =
      if paid.paid < need then .next { s2 with ops := Tab.insert s2.ops key paid } else .next (s2.afterStep key paid t)) := by
  dsimp only [exec, execEngineStep]
  simp only [ho, ht, hr]
  refine ⟨fun h => ?_, fun s2 h => ?_⟩ <;> rw [h]

theorem exec_engineRetire (ho : s.op key = some o) (ht : s.team o.team = some t) (hruns : s.engineRuns t = true)
    (hm : s.mayRetire key o t = true) :
    let s1 := { s with ops := Tab.remove s.ops key }
    let s2 := (s1.modTeam o.team (fun x => x.modEngineQueue o.cls (fun q =>
      { q with retired := q.retired + 1 }))).noteProg o.team o.cls
    let s3 := (s2.modGroup o.group (fun g => g.retireOp o)).feedWatchdog t.ctx
    exec (.engineRetire key) s = .next ((s3.pokeWait o.group).tryExit o.group) := by
  dsimp only [exec, execEngineRetire]
  simp only [ho, ht, hruns, hm, Bool.and_self, if_true]

/-! ## Pairs and the key engine -/

/-- R311: a paired operation that may reach its follower. -/
theorem exec_pairArrival {tile index : Nat} {z : Word} (ho : s.op key = some o) (ht : s.team o.team = some t)
    (hk : o.kind = .mma tile index z true) (hruns : s.engineRuns t = true) (hdone : o.done = false) (harr : o.arrived = none)
    (hfired : o.fired ≠ none) (hstop : t.arrayStop = none) (hold : s.oldest key o = true) (hheld : s.pairHeld t = false)
    (hblocks : s.pairBlocks key o.team = false) (htake : s.takeArray t.core o.team = some s1) :
    (∀ f y, s1.followerOf t = some (f, y) → exec (.pairArrival key) s =
      if s1.pairFits t f y (s1.pairBound f) tile index then
        .next (s1.modOp key (fun x => { x with arrived := some (s1.pairBound f), follower := some f }))
      else .next (s1.stopArray key o 0x23 0)) ∧
    (s1.followerOf t = none → exec (.pairArrival key) s = .next (s1.stopArray key o 0x23 0)) := by
  have hfired' : o.fired.isNone = false := by
    obtain ⟨x, hx⟩ := Option.ne_none_iff_exists'.1 hfired
    rw [hx]; rfl
  dsimp only [exec, execPairArrival]
  simp only [ho, ht, hk, hruns, hdone, harr, hfired', hstop, hold, hheld, hblocks, htake, Option.isSome_none,
      Bool.not_true,
    Bool.or_self, Bool.false_eq_true, if_false]
  refine ⟨fun f y h => ?_, fun h => ?_⟩ <;> rw [h]

/-- R411: an encrypted copy that is first in line. -/
theorem exec_cpyxSettle {enc : Bool} {x y : BitVec 512} {origin : List Nat} {slot block : Nat} {a b : TRec}
    (ho : s.op key = some o) (ht : s.team o.team = some t) (hk : o.kind = .cpyx enc x y origin slot block)
    (hruns : s.engineRuns t = true) (hdone : o.done = false) (hstop : o.stopped = false) (hpark : o.parked = none)
    (harr : o.arrived ≠ none) (hq : s.keyQueued o slot = false) (ha : s.tensor t x = some a) (hb : s.tensor t y = some b) :
    (∀ s1, s.settleCpyx key o t enc a b origin slot block = .inl s1 → exec (.cpyxSettle key) s = .next s1) ∧
    (∀ s1 code va, s.settleCpyx key o t enc a b origin slot block = .inr (s1, .fault code va) →
      exec (.cpyxSettle key) s = .next (s1.engineFault key o code va false)) ∧
    (∀ s1 entry va, s.settleCpyx key o t enc a b origin slot block = .inr (s1, .host entry va) →
      exec (.cpyxSettle key) s = .next (s1.parkOp key t.ctx entry va)) := by
  have harr' : o.arrived.isNone = false := by
    obtain ⟨x, hx⟩ := Option.ne_none_iff_exists'.1 harr
    rw [hx]; rfl
  dsimp only [exec, execCpyxSettle]
  simp only [ho, ht, hk, hruns, hdone, hstop, hpark, harr', hq, ha, hb, Option.isSome_none, Bool.not_true,
    Bool.or_self, Bool.false_eq_true, if_false]
  refine ⟨fun s1 h => ?_, fun s1 code va h => ?_, fun s1 entry va h => ?_⟩ <;> rw [h]

end Events

/-- Settles O40: the frame of a queue's entry, and each event by its own rule. -/
theorem engineEvents : Obligations.EngineEvents := by
  unfold Obligations.EngineEvents
  refine ⟨fun s k g o hg => ?frame, fun s key o t ho ht => ⟨exec_engineFire ho ht, fun s1 hr => ?step,
      exec_engineRetire ho ht,
    ?pair, ?settle⟩⟩
  case frame =>
    intro t
    obtain ⟨hmem, hothers, hops, copyPos, hgroup⟩ := submit_frame (o := o) hg
    obtain ⟨used, batches, hcount⟩ := countOp_eq g o.cls
    refine ⟨hmem, hothers, hops, _, hgroup, ?_⟩
    rw [hcount]
    exact ⟨rfl, rfl, rfl, rfl, rfl, rfl, rfl, rfl, rfl, rfl, rfl⟩
  case step =>
    intro need draw paid drawn
    obtain ⟨hnone, hsome⟩ := exec_engineStep ho ht hr
    refine ⟨stepNeed_single, fun c hp => ⟨(stepNeed_pair hp).1, (stepNeed_pair hp).2 draw⟩, fun hd hn => ?_,
      fun s2 hd hn => ⟨fun hlt => ?_, fun hle => ?_⟩, fun hle => ?_⟩
    · exact hnone ((if_neg (Nat.ne_of_gt hd)).trans hn)
    · exact (hsome s2 ((if_neg (Nat.ne_of_gt hd)).trans hn)).trans (if_pos hlt)
    · exact (hsome s2 ((if_neg (Nat.ne_of_gt hd)).trans hn)).trans (if_neg (Nat.not_lt.2 hle))
    · have hd : draw = 0 := by
        show min 96 (need - o.paid) = 0
        rw [Nat.sub_eq_zero_of_le hle]; rfl
      exact (hsome s1 (if_pos hd)).trans (if_neg (Nat.not_lt.2 (Nat.le_trans hle (Nat.le_add_right ..))))
  case pair =>
    intro tile index z s1 hk hruns hdone harr hfired hstop hold hheld hblocks htake
    obtain ⟨hsome, hnone⟩ := exec_pairArrival ho ht hk hruns hdone harr hfired hstop hold hheld hblocks htake
    refine ⟨fun f y hf hfits => (hsome f y hf).trans (if_pos hfits), fun hbad => ?_⟩
    rcases hbad with hf | ⟨f, y, hf, hfits⟩
    · exact hnone hf
    · exact (hsome f y hf).trans (if_neg (Bool.eq_false_iff.1 hfits))
  case settle =>
    intro enc x y origin slot block a b hk hruns hdone hstop hpark harr hq ha hb
    exact exec_cpyxSettle ho ht hk hruns hdone hstop hpark harr hq ha hb

end Sys2Proof.Proofs.Engines
end

section
/-!
PROOFS. What predecode lets through is a clause, and when a clause issues.
-/

namespace Sys2Proof.Proofs.Clauses

open Sys2Proof Sys2Proof.Machine Sys2Proof.Laws Sys2Proof.Proofs Sys2Proof.Proofs.Memory Sys2Proof.Proofs.Control

/-! ## The slots of a clause -/

section Slots

theorem upToBoundary_head (l : List (Nat × BitVec 160)) : (upToBoundary l).head? = l.head? := by
  cases l with
  | nil => rfl
  | cons p ps =>
    rw [upToBoundary]
    split <;> rfl

/-- R155: no slot before the last carries BND. -/
theorem upToBoundary_dropLast (l : List (Nat × BitVec 160)) : ∀ p ∈ (upToBoundary l).dropLast, slotBnd p.2 = false := by
  induction l with
  | nil => exact fun p hp => absurd hp List.not_mem_nil
  | cons q qs ih =>
    intro p hp
    rw [upToBoundary] at hp
    split at hp
    · cases hp
    · next hq =>
      cases hrest : upToBoundary qs with
      | nil => rw [hrest] at hp; cases hp
      | cons r rs =>
        rw [hrest, List.dropLast_cons_of_ne_nil (List.cons_ne_nil r rs)] at hp
        rcases List.mem_cons.1 hp with rfl | hp
        · exact Bool.eq_false_iff.2 hq
        · exact ih p (hrest ▸ hp)

variable {s s1 : State} {who : Who} {known : List (Nat × AccessKind × Nat)}

/-- R155: the first line fetched is that of the entry slot. -/
theorem fetchClause_head {fuel va k n : Nat} {lines : List (Nat × BitVec 512)}
    (h : s.fetchClause (fuel + 1) who known va k n = (.inl lines, s1)) : ∃ x rest, lines = (va, x) :: rest := by
  rw [State.fetchClause] at h
  split at h
  · next x s2 _ =>
    dsimp only at h
    split at h
    · cases h; exact ⟨x, [], rfl⟩
    · split at h
      · cases h; exact ⟨x, _, rfl⟩
      · next hne => exact (hne _ _ h).elim
  · cases h

theorem lineSlots_head {va k : Nat} (x : BitVec 512) (hk : k < 3) :
    ∃ word rest, lineSlots va x k = (va + 20 * k, word) :: rest := by
  match k with
  | 0 => exact ⟨_, _, rfl⟩
  | 1 => exact ⟨_, _, rfl⟩
  | 2 => exact ⟨_, _, rfl⟩

/-- R150: the entry slot by its line and its number there. -/
theorem slotAddress_eq {a : Nat} (h : isSlotAddress a = true) : slotIndex a < 3 ∧ lineOf a + 20 * slotIndex a = a := by
  simp only [isSlotAddress, Bool.or_eq_true, decide_eq_true_eq] at h
  unfold slotIndex lineOf
  omega

/-- R155: lines that break no rule end with a boundary after at most 24 slots. -/
theorem badLine_none {lines : List (Nat × BitVec 512)} {body : List (Nat × BitVec 160)} {first : Nat}
    (h : badLine lines body first = none) : ∃ p, body.getLast? = some p ∧ slotBnd p.2 = true ∧ body.length ≤ 24 := by
  unfold badLine at h
  dsimp only at h
  split at h
  · cases h
  · split at h
    · next p l hp _ =>
      split at h
      · cases h
      · next hok =>
        simp only [Bool.or_eq_true, Bool.not_eq_true', decide_eq_true_eq, not_or, Bool.not_eq_false, Nat.not_lt] at hok
        obtain ⟨⟨hbnd, hlen⟩, -⟩ := hok
        exact ⟨p, hp, hbnd, hlen⟩
    · cases h

/-- R155, R156: what predecode has found when it lets a clause through. -/
theorem predecode_clause {entry width price : Nat} {c : ClausePos}
    (h : s.predecode who known entry width = (.clause c price, s1)) : isSlotAddress entry = true ∧
    ∃ lines s2 header, s.fetchClause 9 who known (lineOf entry) (slotIndex entry) 0 = (.inl lines, s2) ∧
      let body := upToBoundary
        ((lines.map (fun l => lineSlots l.1 l.2 (if l.1 = lineOf entry then slotIndex entry else 0))).flatten)
      badLine lines body (lineOf entry) = none ∧ c = { entry := entry, header := header, rest := body } ∧
        price = (body.map (fun p => slotPrice p.2 width)).foldl (· + ·) 0 := by
  unfold State.predecode at h
  dsimp only at h
  split at h
  · cases h
  · next hslot =>
    refine ⟨by simpa using hslot, ?_⟩
    split at h
    · cases h
    · cases h
    · cases h
    · next lines s2 hfetch =>
      split at h
      · cases h
      · cases h
      · next x rest hbad =>
        refine ⟨_, s2, lineWord x, hfetch, hbad, ?_⟩
        split at h
        · split at h
          · cases h; exact ⟨rfl, rfl⟩
          · split at h
            · split at h
              · cases h; exact ⟨rfl, rfl⟩
              · cases h
            · cases h; exact ⟨rfl, rfl⟩
        · cases h; exact ⟨rfl, rfl⟩

/-- R151, R155, R156: what predecode lets through is a clause. -/
theorem predecode_isClause {entry width price : Nat} {c : ClausePos}
    (h : s.predecode who known entry width = (.clause c price, s1)) :
    isSlotAddress entry = true ∧ c.entry = entry ∧ 1 ≤ c.rest.length ∧ c.rest.length ≤ 24 ∧
    (c.rest.head?).map Prod.fst = some entry ∧ (c.rest.getLast?).map (fun p => slotBnd p.2) = some true ∧
    (∀ p ∈ c.rest.dropLast, slotBnd p.2 = false) ∧ price = (c.rest.map (fun p => slotPrice p.2 width)).sum := by
  obtain ⟨hslot, lines, s2, header, hfetch, hbad, rfl, rfl⟩ := predecode_clause h
  obtain ⟨x, rest, rfl⟩ := fetchClause_head hfetch
  obtain ⟨hindex, hentry⟩ := slotAddress_eq hslot
  obtain ⟨p, hlast, hbnd, hlen⟩ := badLine_none hbad
  obtain ⟨word, slots, hslots⟩ := lineSlots_head (va := lineOf entry) x hindex
  refine ⟨hslot, rfl, ?_, hlen, ?_, ?_, upToBoundary_dropLast _, ?_⟩
  · exact List.length_pos_of_mem (List.mem_of_getLast? hlast)
  · rw [upToBoundary_head, List.map_cons, if_pos rfl, hslots, List.flatten_cons, List.cons_append, List.head?_cons]
    exact congrArg some hentry
  · rw [hlast, Option.map_some, hbnd]
  · exact List.sum_eq_foldl.symm

end Slots

/-! ## When a clause issues -/

section Issue

variable {s s1 : State} {k : Nat} {g : Group}

/-- R157, R327, R329: a clause whose group may issue and owes no trap starts when the arbiter chooses it. -/
theorem exec_clauseIssue {c : ClausePos} {price : Nat} (hg : s.group k = some g) (he : s.eligible g = true)
    (ht : s.timerDue g = false) (hf : g.engFaults = [])
    (hp : s.predecode (g.who k) g.walkFaults g.pc g.width = (.clause c price, s1)) (hc : g.flagsClear c.header = true)
    (ho : g.owedFor c.header = none) (hch : s1.chosen k g price = true) :
    exec (.clauseIssue k) s = .next (s1.startClause k g c price) := by
  dsimp only [exec, execClauseIssue]
  simp only [hg, he, ht, hf, hp, hc, ho, hch, Bool.not_true, Bool.or_self, Bool.false_eq_true, if_false, if_true]

/-- R216: a timer that is due traps at the entry slot. -/
theorem exec_timerTrap (hg : s.group k = some g) (he : s.eligible g = true) (ht : s.timerDue g = true)
    (hw : s.waitsFlags k g = false) (htrap : s.trapWaits k = false) :
    exec (.timerTrap k) s = .next (s.trapEntry k { code := 0x0C } g.pc) := by
  dsimp only [exec, execTimerTrap]
  simp only [hg, he, ht, hw, htrap, Bool.not_false, Bool.and_self, if_true]

/-- R328: a group that has lost 64 arbitrations becomes sticky. -/
theorem exec_stickyPriority (hg : s.group k = some g) (hl : 64 ≤ g.losses) :
    exec (.stickyPriority k) s = .next (s.setGroup k { g with sticky := true }) := by
  dsimp only [exec, execStickyPriority]
  simp only [hg, hl, if_true, modGroup_of_group hg]

end Issue

/-- Settles O41: the issue by its conditions, and the shape of a clause by what predecode checks. -/
theorem clausesIssue : Obligations.ClausesIssue := by
  unfold Obligations.ClausesIssue
  exact ⟨fun s k g hg => ⟨fun he ht hf c price s1 hp hc ho hch => exec_clauseIssue hg he ht hf hp hc ho hch,
    exec_timerTrap hg, exec_stickyPriority hg⟩, fun s s1 who known entry width c price => predecode_isClause⟩

end Sys2Proof.Proofs.Clauses
end

section
/-!
PROOFS. A refused page request may lead to a new one.
-/

namespace Sys2Proof.Proofs.Requests

open Sys2Proof Sys2Proof.Machine Sys2Proof.Laws Sys2Proof.Proofs

/-- The request for the page of address 0 of context 1, whose walk ends at the empty entry at physical address 0. -/
def asked : PageRequest := { ctx := 1, entry := 0, page := 0 }

/-- A team of context 1 has a copy that waits for this request. The context's page-table root is a valid node at physical
address 0, and its engine-queue area begins at virtual address 0, in the page that the request names. -/
def refusing : State := { State.reset with
  ptroots := [(1, 5)]
  parts := [(1, default)]
  teams := [(0, { core := 0, ctx := 1 })]
  ops := [(0, { cls := .copy, team := 0, group := 0, slot := 0, kind := .suppressed
                parked := some { needs := [(0, .read)], request := some 0, since := 0 } })]
  requests := [asked] }

/-- R294, R295, R383: the refusal stops the copy; the header of its queue, which is written then, lies in the same page, and the
host is asked for it again. -/
theorem refusing_asks : (refusing.pageResponse 1 0 false).requests = [asked] := by
  rfl

/-- Refutes O42: the host refuses the page of a stopped copy, whose queue's header then asks for the same page once more. -/
theorem not_operationsLand : ¬ Obligations.OperationsLand := by
  unfold Obligations.OperationsLand
  rintro ⟨-, hevents⟩
  obtain ⟨-, hresponse, -⟩ := hevents refusing
  obtain ⟨t, ht, hrequests, -⟩ := hresponse 1 0 false asked rfl (fun q hq => by cases hq) (fun w hw => by cases hw)
  obtain rfl : refusing.pageResponse 1 0 false = t := Host.Outcome.next.inj ht
  obtain ⟨-, hother⟩ := (hrequests asked).1 (by rw [refusing_asks]; exact List.mem_singleton_self _)
  exact hother.elim (fun h => h rfl) (fun h => h rfl)

end Sys2Proof.Proofs.Requests
end

section
/-!
PROOFS. The tokens of a line: their counts, the requests for them, drains and leases.
-/

namespace Sys2Proof.Proofs.Tokens

open Sys2Proof Sys2Proof.Machine Sys2Proof.Laws Sys2Proof.Proofs

/-! ## The sum of a table of counts -/

section Sums

/-- The sum of the counts of a table. -/
def total (t : Tab Nat) : Nat := (t.map Prod.snd).sum

theorem total_cons (k v : Nat) (t : Tab Nat) : total ((k, v) :: t) = v + total t := rfl

/-- Putting a count takes the place of the one that was there. -/
theorem total_insert {t : Tab Nat} {n : Nat} (h : Tab.sortedFrom n t = true) (i x : Nat) :
    total (Tab.insert t i x) + Tab.read 0 t i = total t + x := by
  induction t generalizing n with
  | nil => exact Nat.add_comm x 0
  | cons p t ih =>
    obtain ⟨k, v⟩ := p
    simp only [Tab.sortedFrom, Bool.and_eq_true, decide_eq_true_eq] at h
    obtain ⟨-, hrest⟩ := h
    rw [Tab.insert]
    split
    · next hlt =>
      have hread : Tab.read 0 ((k, v) :: t) i = 0 := by
        rw [Tab.read, Tab.find, if_neg (by omega), tab_find_below hrest (by omega)]; rfl
      rw [hread, total_cons]
      omega
    · split
      · next heq =>
        subst heq
        have hread : Tab.read 0 ((i, v) :: t) i = v := by rw [Tab.read, Tab.find, if_pos rfl]; rfl
        rw [hread, total_cons, total_cons]
        omega
      · next hne =>
        have hread : Tab.read 0 ((k, v) :: t) i = Tab.read 0 t i := by
          rw [Tab.read, Tab.find, if_neg (Ne.symm hne)]; rfl
        have hi := ih hrest
        rw [hread, total_cons, total_cons]
        omega

theorem tab_wf_insert {t : Tab Nat} (h : Tab.wf 0 t = true) (i : Nat) {x : Nat} (hx : x ≠ 0) :
    Tab.wf 0 (Tab.insert t i x) = true := by
  have hw := tab_wf_write (i := i) (x := x) h
  rwa [Tab.write, if_neg hx] at hw

theorem tab_wf_sorted {t : Tab Nat} (h : Tab.wf 0 t = true) : Tab.sortedFrom 0 t = true :=
  (Bool.and_eq_true_iff.1 h).1

/-- The keys of a table start where it says. -/
theorem le_key {t : Tab Nat} {n : Nat} (h : Tab.sortedFrom n t = true) {p : Nat × Nat} (hp : p ∈ t) : n ≤ p.1 := by
  induction t generalizing n with
  | nil => cases hp
  | cons q t ih =>
    simp only [Tab.sortedFrom, Bool.and_eq_true, decide_eq_true_eq] at h
    obtain ⟨hk, hrest⟩ := h
    rcases List.mem_cons.1 hp with rfl | hp
    · exact hk
    · exact Nat.le_trans (Nat.le_succ_of_le hk) (ih hrest hp)

/-- A pair of a table with rising keys is found at its key. -/
theorem read_of_mem {t : Tab Nat} {n k v : Nat} (h : Tab.sortedFrom n t = true) (hm : (k,
    v) ∈ t) : Tab.read 0 t k = v := by
  induction t generalizing n with
  | nil => cases hm
  | cons p t ih =>
    obtain ⟨j, x⟩ := p
    simp only [Tab.sortedFrom, Bool.and_eq_true, decide_eq_true_eq] at h
    obtain ⟨-, hrest⟩ := h
    rcases List.mem_cons.1 hm with heq | hm
    · cases heq
      rw [Tab.read, Tab.find, if_pos rfl]; rfl
    · have hne : j ≠ k := Nat.ne_of_lt (le_key hrest hm)
      have hi := ih hrest hm
      rw [Tab.read, Tab.find, if_neg hne]
      exact hi

end Sums

/-! ## What requests leave (R112) -/

section Counts

/-- R112: the table of the tokens held is canonical, and they are at most 256. -/
def Sound (t : LineTokens) : Prop := Tab.wf 0 t.held = true ∧ total t.held ≤ 256

/-- R112: the owner token is with a core, or with a token at home. -/
def Owned (t : LineTokens) : Prop := t.owner ≠ none ∨ 0 < t.atHome

variable {t : LineTokens}

theorem atHome_eq (t : LineTokens) : t.atHome = 256 - total t.held := by
  rw [LineTokens.atHome, ← List.sum_eq_foldl]; rfl

theorem forWrite_sound (t : LineTokens) (core : Nat) : Sound (t.forWrite core) ∧ Owned (t.forWrite core) :=
  ⟨⟨by simp [LineTokens.forWrite, Tab.wf, Tab.sortedFrom], Nat.le_refl 256⟩, .inl (Option.some_ne_none core)⟩

theorem home_sound (t : LineTokens) : Sound t.home ∧ Owned t.home := ⟨⟨rfl, Nat.zero_le _⟩, .inr (Nat.succ_pos 255)⟩

theorem serve_sound (h : Sound t) : Sound t.serve ∧ (Owned t → Owned t.serve) := by
  unfold LineTokens.serve
  split
  · next core w rest _ => exact ⟨(forWrite_sound t core).1, fun _ => (forWrite_sound t core).2⟩
  · exact ⟨h, id⟩

/-- R112: tokens from home raise what a core holds. -/
theorem gather_sound (h : Sound t) {core n : Nat} (h0 : n ≠ 0) (hle : n ≤ t.atHome) (hown : t.owner = none →
    n < t.atHome) :
    let u := { t with held := Tab.insert t.held core (Tab.read 0 t.held core + n) }
    Sound u ∧ (Owned t → Owned u) := by
  obtain ⟨hwf, hsum⟩ := h
  have hhome := atHome_eq t
  have htotal := total_insert (tab_wf_sorted hwf) core (Tab.read 0 t.held core + n)
  refine ⟨⟨tab_wf_insert hwf core (by omega), ?_⟩, fun _ => ?_⟩
  · show total (Tab.insert _ _ _) ≤ 256
    omega
  · by_cases ho : t.owner = none
    · have hlt := hown ho
      refine .inr ?_
      rw [atHome_eq]
      show 0 < 256 - total (Tab.insert _ _ _)
      omega
    · exact .inl ho

/-- R113: a part gathered leaves the last token at home while it is the owner token. -/
theorem partial_sound (h : Sound t) (core : Nat) : Sound (t.partial_ core) ∧ (Owned t → Owned (t.partial_ core)) := by
  unfold LineTokens.partial_
  dsimp only
  cases hown : t.owner with
  | some c =>
    rw [Option.isNone_some, if_neg Bool.false_ne_true]
    split
    · exact ⟨h, id⟩
    · next h0 => simpa only [hown] using gather_sound h (core := core) h0 (Nat.le_refl _) (fun hn => by rw [hown] at hn; cases hn)
  | none =>
    rw [Option.isNone_none, if_pos rfl]
    split
    · exact ⟨h, id⟩
    · next h0 => simpa only [hown] using gather_sound h (core := core) h0 (Nat.sub_le _ _) (fun _ => by omega)

/-- R112: a reader gets a token, and with the last one at home the owner token. -/
theorem forRead_sound (h : Sound t) (core : Nat) :
    Sound (t.forRead core) ∧ (Owned t → Owned (t.forRead core)) ∧ 0 < Tab.read 0 (t.forRead core).held core := by
  obtain ⟨hwf, hsum⟩ := h
  have hhome := atHome_eq t
  have hhome' : ({ t with tries := Tab.remove t.tries core } : LineTokens).atHome = t.atHome := rfl
  unfold LineTokens.forRead
  dsimp only
  rw [hhome']
  split
  · next hr => exact ⟨⟨hwf, hsum⟩, id, hr⟩
  · next hr =>
    split
    · next h0 =>
      have htotal := total_insert (tab_wf_sorted hwf) core 1
      refine ⟨⟨tab_wf_insert hwf core (by decide), ?_⟩, fun ho => ?_, ?_⟩
      · show total (Tab.insert _ _ _) ≤ 256
        omega
      · cases hown : t.owner with
        | some c => exact .inl (by simp)
        | none =>
          by_cases h1 : t.atHome = 1
          · exact .inl (by simp [h1])
          · refine .inr ?_
            rw [atHome_eq]
            show 0 < 256 - total (Tab.insert _ _ _)
            omega
      · rw [Tab.read, tab_find_insert_self]
        exact Nat.one_pos
    · next h0 =>
      split
      · next k n hfind =>
        have hn : 1 < n := by simpa using List.find?_some hfind
        have hk := read_of_mem (tab_wf_sorted hwf) (List.mem_of_find?_eq_some hfind)
        have hne : core ≠ k := by rintro rfl; omega
        have hwf1 := tab_wf_insert hwf k (x := n - 1) (by omega)
        have htotal1 := total_insert (tab_wf_sorted hwf) k (n - 1)
        have htotal2 := total_insert (tab_wf_sorted hwf1) core 1
        have hread : Tab.read 0 (Tab.insert t.held k (n - 1)) core = Tab.read 0 t.held core := by
          rw [Tab.read, tab_find_insert_ne hne]; rfl
        refine ⟨⟨tab_wf_insert hwf1 core (by decide), ?_⟩, fun ho => ?_, ?_⟩
        · show total (Tab.insert _ _ _) ≤ 256
          omega
        · exact .inl (ho.resolve_right h0)
        · rw [Tab.read, tab_find_insert_self]
          exact Nat.one_pos
      · refine ⟨⟨by simp [Tab.wf, Tab.sortedFrom], Nat.le_refl 256⟩, fun _ => .inl (Option.some_ne_none core), ?_⟩
        rw [Tab.read, Tab.find, if_pos rfl]
        exact Nat.succ_pos 255

end Counts

/-- Settles O46: each request by what it takes and from where. -/
theorem tokenCounts : Obligations.TokenCounts := by
  unfold Obligations.TokenCounts
  intro t core hwf hsum
  have h : Sound t := ⟨hwf, hsum⟩
  obtain ⟨hread, hreadOwned, hpos⟩ := forRead_sound h core
  refine ⟨fun u hu => ?_, hpos, ?_, rfl, fun c hc => ?_⟩
  · rcases hu with rfl | rfl | rfl | rfl | rfl
    · exact ⟨hread.1, hread.2, hreadOwned⟩
    · exact ⟨(forWrite_sound t core).1.1, (forWrite_sound t core).1.2, fun _ => (forWrite_sound t core).2⟩
    · exact ⟨(partial_sound h core).1.1, (partial_sound h core).1.2, (partial_sound h core).2⟩
    · exact ⟨(serve_sound h).1.1, (serve_sound h).1.2, (serve_sound h).2⟩
    · exact ⟨(home_sound t).1.1, (home_sound t).1.2, fun _ => (home_sound t).2⟩
  · exact congrArg (Option.getD · 0) (if_pos rfl)
  · exact congrArg (Option.getD · 0) (if_neg (Ne.symm hc))

/-! ## Requests, drains and leases (R113, R115, R119) -/

section Requests

variable {s : State} {core line : Nat} {write : Bool}

/-- R16, R17: a core of a disabled or fenced site reaches no line. -/
theorem tokenReach_down (h : (s.die (coreDie core)).siteUp (coreSite core) = false) : s.tokenReach core line = false := by
  rw [State.tokenReach, h, Bool.and_false, Bool.false_and]

theorem tokenReach_up (hd : homeDie (line * 128) = some (coreDie core)) (he : s.errorReply (line * 128) = false)
    (hg : s.gatedCore core = false) (hs : (s.die (coreDie core)).siteUp (coreSite core) = true) :
    s.tokenReach core line = true := by
  rw [State.tokenReach, he, hg, hs, decide_eq_true hd]; rfl

theorem requests_unreached (h : s.tokenReach core line = false) :
    exec (.tokenRequest core line write) s = .next s ∧ exec (.persistentRequest core line write) s = .next s := by
  dsimp only [exec, execTokenRequest, execPersistentRequest]
  rw [h]
  exact ⟨rfl, rfl⟩

/-- R112, R113: a request that no persistent request stands before gets its tokens or, as a free choice, a part. -/
theorem exec_tokenRequest (h : s.tokenReach core line = true) (hh : (s.lineTokens line).holds core write = false) :
    let t := s.lineTokens line
    (t.persistent = [] → exec (.tokenRequest core line write) s =
      .next (s.freeBool.2.setTokens line (if s.freeBool.1 then (if write then t.forWrite core else t.forRead core)
        else (t.partial_ core).failTry core))) ∧
    (t.persistent ≠ [] → exec (.tokenRequest core line write) s = .next (s.setTokens line (t.failTry core))) := by
  dsimp only [exec, execTokenRequest]
  rw [h, hh]
  refine ⟨fun hp => ?_, fun hp => ?_⟩
  · rw [hp]
    cases s.freeBool.1 <;> cases write <;> rfl
  · have hne : (s.lineTokens line).persistent.isEmpty = false := by simpa using hp
    rw [hne]; rfl

/-- R113: a request that is not queued: after five tries it is queued, and served when it is alone. -/
theorem exec_persistent_new (h : s.tokenReach core line = true) (hn : (core, write) ∉ (s.lineTokens line).persistent) :
    let t := s.lineTokens line
    exec (.persistentRequest core line write) s = if Tab.read 0 t.tries core < 5 then .next s else
      .next (s.setTokens line (if t.persistent.isEmpty then
        ({ t with persistent := t.persistent ++ [(core, write)] } : LineTokens).serve
        else { t with persistent := t.persistent ++ [(core, write)] })) := by
  have hc : (s.lineTokens line).persistent.contains (core, write) = false := by simpa using hn
  dsimp only [exec, execPersistentRequest]
  rw [h, hc]
  rfl

/-- R113: the request that is first completes, and the next is served. -/
theorem exec_persistent_first (h : s.tokenReach core line = true) {rest : List (Nat × Bool)}
    (hp : (s.lineTokens line).persistent = (core, write) :: rest) : exec (.persistentRequest core line write) s =
      .next (s.setTokens line ({ s.lineTokens line with persistent := rest } : LineTokens).serve) := by
  have hc : (s.lineTokens line).persistent.contains (core, write) = true := by simp [hp]
  dsimp only [exec, execPersistentRequest]
  rw [h, hc, hp]
  exact if_pos rfl

/-- R115: a line of a buffer drains. -/
theorem exec_remoteWriteDrain {die : Nat} {l : RwLine} (h : (s.rwb die).find? (fun x => x.line = line) = some l) :
    exec (.remoteWriteDrain die line) s =
      .next ((s.modRwb die (fun x => x.filter (fun y => y.line ≠ line))).arrive l) := by
  dsimp only [exec, execRemoteWriteDrain]
  rw [State.drainLine, h]

/-- R119: a recall that has run out brings the tokens home and the line back to its last write-back. -/
theorem revertLine_over {since : Nat} (hr : (s.lineTokens line).recalled = some since) (hd : since + 5000 ≤ s.now) :
    s.revertLine line = match (s.lineTokens line).clean with
      | some bs => (s.setTokens line (s.lineTokens line).home).restoreLine line bs
      | none => s.setTokens line (s.lineTokens line).home := by
  simp only [State.revertLine, hr, hd, if_true] <;> rfl

theorem exec_leaseExpiry {since : Nat} (hr : (s.lineTokens line).recalled = some since) (hd : since + 5000 ≤ s.now) :
    let reverted := s.revertLine line
    exec (.leaseExpiry line) s = .next
      ((reverted.snoops.filter (fun x => x.half / 2 = line && x.asked && decide (x.since + 20000 ≤ s.now))).foldl
        State.takeHalf ((reverted.setPoison line true).markRegion line)) := by
  have hover : s.leaseOver line = true := by
    simp only [State.leaseOver, hr, hd, decide_true, Bool.or_true]
  dsimp only [exec, execLeaseExpiry]
  rw [hover]
  rfl

end Requests

/-- Settles O45: each event by whether the line is reached, who stands before, and what has run out. -/
theorem tokensMove : Obligations.TokensMove := by
  unfold Obligations.TokensMove
  intro s core line write t
  refine ⟨fun hs => requests_unreached (tokenReach_down hs), fun hd he hg hs => ?requests,
      fun die l => exec_remoteWriteDrain,
    fun since hr hle => ?lease⟩
  case requests =>
    have h : s.tokenReach core line = true := tokenReach_up hd he hg hs
    have hnew := exec_persistent_new (write := write) h
    refine ⟨fun hh hp => (exec_tokenRequest h hh).1 hp, fun hh hp => (exec_tokenRequest h hh).2 hp, fun ht hn => ?_,
      fun ht hp => ?_, fun ht p rest hp hn => ?_, fun rest hp => exec_persistent_first h hp⟩
    · exact (hnew hn).trans (if_pos ht)
    · have hp' : (s.lineTokens line).persistent = [] := hp
      have hi := (hnew (by rw [hp']; exact List.not_mem_nil)).trans (if_neg (Nat.not_lt.2 ht))
      rw [hp'] at hi
      exact hi
    · have hp' : (s.lineTokens line).persistent.isEmpty = false := by
        rw [show (s.lineTokens line).persistent = p :: rest from hp]; rfl
      have hi := (hnew hn).trans (if_neg (Nat.not_lt.2 ht))
      rw [hp'] at hi
      exact hi
  case lease =>
    have hi := exec_leaseExpiry hr hle
    rw [revertLine_over hr hle] at hi
    exact hi

end Sys2Proof.Proofs.Tokens
end

section
/-!
PROOFS. The host's accesses, its snoops and invalidations, and uncorrectable errors.
-/

namespace Sys2Proof.Proofs.HostSide

open Sys2Proof Sys2Proof.Machine Sys2Proof.Laws Sys2Proof.Proofs

/-! ## Reads and writes of the host -/

section Accesses

variable {s : State} {offset pa' : Nat}

/-- R436: where no error reply is given none is counted. -/
theorem countError_of_answers {pa : Nat} (h : s.errorReply pa = false) : s.countError pa = s := by
  have hsilent : s.silent pa = false := (Bool.or_eq_false_iff.1 h).1
  unfold State.countError State.countReply
  unfold State.silent at hsilent
  cases hd : answeringDie pa with
  | none => rfl
  | some d =>
    rw [hd] at hsilent
    exact if_neg (Bool.eq_false_iff.1 hsilent)

/-- R412, R437: what the host reads of a half that is bound or answers nothing. -/
theorem hostRead_refused {half : Nat} (h : s.errorReply (half * 64) = true ∨ Tab.find s.bound (half * 64 / 65536) ≠ none) :
    s.hostRead half = .hostData (List.replicate 64 0) true := by
  have hr : ((Tab.find s.bound (half * 64 / 65536)).isSome || s.errorReply (half * 64)) = true := by
    rcases h with h | h
    · rw [h, Bool.or_true]
    · rw [Option.isSome_iff_ne_none.2 h, Bool.true_or]
  exact if_pos hr

/-- R133, R398: what the host reads of another half. -/
theorem hostRead_data {half : Nat} (h : ¬ (s.errorReply (half * 64) = true ∨ Tab.find s.bound (half * 64 / 65536) ≠ none)) :
    s.hostRead half = .hostData ((List.range 64).map (fun i =>
      if s.unpublished (half * 64 + i) then 0 else s.byte (half * 64 + i))) (s.poisoned (half * 64 / 128)) := by
  obtain ⟨he, hb⟩ := not_or.1 h
  have hr : ((Tab.find s.bound (half * 64 / 65536)).isSome || s.errorReply (half * 64)) = false := by
    rw [Bool.eq_false_iff.2 he, not_not.1 hb]; rfl
  exact if_neg (Bool.eq_false_iff.1 hr)

/-- R133, R412, R437: the host's bytes enter, or are discarded. -/
theorem hostWrite_eq {pa : Nat} {bs : List Byte} (he : s.errorReply pa = false) (hb : bs ≠ []) :
    (s.hostBarred pa = false → s.hostWrite pa bs = s.place (atAddr pa bs)) ∧ (s.hostBarred pa = true →
        s.hostWrite pa bs = s) := by
  have hne : bs.isEmpty = false := by simpa using hb
  unfold State.hostWrite
  rw [he, hne, if_neg Bool.false_ne_true]
  refine ⟨fun h => ?_, fun h => ?_⟩ <;> rw [h] <;> rfl

theorem tokenHome_hostHeld (s : State) (pa : Nat) : (s.tokenHome pa).hostHeld = s.hostHeld := by
  unfold State.tokenHome
  split <;> rfl

theorem any_half_false {snoops : List Snoop} {half : Nat} (h : ∀ x ∈ snoops, x.half ≠ half) :
    snoops.any (fun x => x.half = half) = false :=
  List.any_eq_false.2 fun x hx => by simpa using h x hx

theorem find_half_none {snoops : List Snoop} {half : Nat} (h : ∀ x ∈ snoops, x.half ≠ half) :
    snoops.find? (fun x => x.half = half) = none :=
  List.find?_eq_none.2 fun x hx => by simpa using h x hx

/-- The host holds a half no more. -/
def giveUp (s : State) (half : Nat) : State := { s with hostHeld := Tab.write false s.hostHeld half false }

theorem exec_hostAccess (access : HostAccess) :
    exec (.hostMemoryAccess offset access) s = execHostMemoryAccess offset access s := rfl

section Releases

variable {pa : Nat} (hpa : hdmAddress offset = pa) (hh : Tab.read false s.hostHeld (halfOf pa) = true)

include hpa hh

/-- R118: the host gives a half up without bytes. -/
theorem exec_release_none :
    ((∀ x ∈ s.snoops, x.half ≠ halfOf pa) →
      exec (.hostMemoryAccess offset (.release none)) s = .next (giveUp s (halfOf pa))) ∧
    (∀ x, s.snoops.find? (fun y => y.half = halfOf pa) = some x →
      exec (.hostMemoryAccess offset (.release none)) s = .next ((giveUp s (halfOf pa)).takeHalf x)) := by
  dsimp only [exec, execHostMemoryAccess]
  rw [hpa, if_pos hh]
  refine ⟨fun hs => ?_, fun x hx => ?_⟩
  · rw [find_half_none hs]; rfl
  · rw [hx]; rfl

/-- R118, R412: the host gives a half up with its bytes. -/
theorem exec_release_some {bs : List Byte} {s1 : State} (h1 : s.hostWrite (halfOf pa * 64) (bs.take 64) = s1) :
    ((∀ x ∈ s1.snoops, x.half ≠ halfOf pa) →
      exec (.hostMemoryAccess offset (.release (some bs))) s = .next (giveUp s1 (halfOf pa))) ∧
    (∀ x, s1.snoops.find? (fun y => y.half = halfOf pa) = some x →
      exec (.hostMemoryAccess offset (.release (some bs))) s = .next ((giveUp s1 (halfOf pa)).takeHalf x)) := by
  rw [exec_hostAccess, execHostMemoryAccess.eq_def, hpa]
  dsimp only
  rw [if_pos hh, h1]
  refine ⟨fun hs => ?_, fun x hx => ?_⟩
  · rw [find_half_none hs]; rfl
  · rw [hx]; rfl

end Releases

/-- R118: the host takes a half for which no snoop is out. -/
theorem exec_own (hpa : hdmAddress offset = pa') (he : s.errorReply pa' = false)
    (hs : ∀ x ∈ s.snoops, x.half ≠ halfOf pa') :
    exec (.hostMemoryAccess offset .own) s = .next
      ({ s.tokenHome pa' with hostHeld := Tab.write false s.hostHeld (halfOf pa') true }.send
        (s.hostRead (halfOf pa'))) := by
  rw [exec_hostAccess, execHostMemoryAccess.eq_def, hpa]
  dsimp only
  rw [if_neg (Bool.eq_false_iff.1 he), if_neg (Bool.eq_false_iff.1 (any_half_false hs)), tokenHome_hostHeld]

theorem exec_write {bs : List Byte} (hpa : hdmAddress offset = pa') (hb : bs ≠ []) (hl : bs.length ≤ 64 - pa' % 64)
    (he : s.errorReply pa' = false) :
    (s.hostBarred pa' = false → exec (.hostMemoryAccess offset (.write bs)) s = .next (s.place (atAddr pa' bs))) ∧
    (s.hostBarred pa' = true → exec (.hostMemoryAccess offset (.write bs)) s = .next s) := by
  obtain ⟨hin, hout⟩ := hostWrite_eq he hb
  rw [exec_hostAccess, execHostMemoryAccess.eq_def, hpa]
  dsimp only
  rw [List.take_of_length_le hl]
  exact ⟨fun h => congrArg _ (hin h), fun h => congrArg _ (hout h)⟩

theorem exec_read (hpa : hdmAddress offset = pa') :
    exec (.hostMemoryAccess offset .read) s = .next ((s.countError pa').send (s.hostRead (halfOf pa'))) := by
  rw [exec_hostAccess, execHostMemoryAccess.eq_def, hpa]

theorem exec_own_refused (hpa : hdmAddress offset = pa') (he : s.errorReply pa' = true) :
    exec (.hostMemoryAccess offset .own) s =
      .next ((s.countError pa').send (s.hostRead (halfOf pa'))) := by
  rw [exec_hostAccess, execHostMemoryAccess.eq_def, hpa]
  exact if_pos he

end Accesses

/-! ## Snoops, in both directions -/

section Snoops

variable {s : State} {half : Nat}

/-- R118: an answer within 20 us takes the half back. -/
theorem exec_answer_none {x : Snoop} (hx : s.snoops.find? (fun y => y.half = half) = some x)
    (hok : (!x.asked || decide (x.since + 20000 < s.now)) = false) :
    exec (.backInvalidateAnswer half none) s = .next (s.takeHalf x) := by
  dsimp only [exec, execBackInvalidateAnswer]
  rw [hx]
  dsimp only
  rw [hok]
  rfl

/-- R118, R133, R412: the bytes of an answer enter, or are discarded. -/
theorem exec_answer_some {x : Snoop} {bs : List Byte} (hx : s.snoops.find? (fun y => y.half = half) = some x)
    (hok : (!x.asked || decide (x.since + 20000 < s.now)) = false) (hl : bs.length = 64) :
    (s.hostBarred (half * 64) = false → exec (.backInvalidateAnswer half (some bs)) s =
      .next ((s.place (atAddr (half * 64) bs)).takeHalf x)) ∧
    (s.hostBarred (half * 64) = true → exec (.backInvalidateAnswer half (some bs)) s = .next (s.takeHalf x)) := by
  dsimp only [exec, execBackInvalidateAnswer]
  rw [hx]
  dsimp only
  rw [hok, List.take_of_length_le hl.le]
  refine ⟨fun h => ?_, fun h => ?_⟩ <;> rw [h] <;> rfl

theorem answer_in_time {x : Snoop} (ha : x.asked = true) (hn : s.now ≤ x.since + 20000) :
    (!x.asked || decide (x.since + 20000 < s.now)) = false := by
  simp [ha, hn]

/-- What the agent sends of a half that is snooped (R117). -/
def snoopData (s : State) (half : Nat) : Option (List Byte) :=
  if Tab.read CxlState.invalid s.agent half = .modified then some (s.bytes (half * 64) 64) else none

/-- The agent's half has a new state, and the host is answered (R117). -/
def snooped (s : State) (half : Nat) (st : CxlState) : State :=
  { s with agent := Tab.write .invalid s.agent half st }.send (.snoopAnswer half (snoopData s half))

/-- R117: a snoop that invalidates. -/
theorem exec_snoop_invalidate (h : region (half * 64) = .host) :
    exec (.hostSnoop half true none) s = .next (snooped s half .invalid) := by
  dsimp only [exec, execHostSnoop]
  rw [if_pos h]
  rfl

/-- R117: a snoop that invalidates, after which the host writes. -/
theorem exec_snoop_write (h : region (half * 64) = .host) {bs : List Byte} (hl : bs.length = 64) :
    exec (.hostSnoop half true (some bs)) s = .next
      (((snooped s half .invalid).setBytes (atAddr (half * 64) bs)).touchWatches
        ((atAddr (half * 64) bs).map Prod.fst)) := by
  dsimp only [exec, execHostSnoop]
  rw [if_pos h, List.take_of_length_le hl.le]
  rfl

/-- R117: a snoop that shares. -/
theorem exec_snoop_share (h : region (half * 64) = .host) :
    (Tab.read .invalid s.agent half ≠ .invalid →
      exec (.hostSnoop half false none) s = .next (snooped s half .shared)) ∧
    (Tab.read .invalid s.agent half = .invalid →
      exec (.hostSnoop half false none) s = .next (snooped s half .invalid)) := by
  dsimp only [exec, execHostSnoop]
  rw [if_pos h]
  refine ⟨fun hw => ?_, fun hw => ?_⟩
  · rw [if_neg hw]; rfl
  · rw [if_pos hw]; rfl

end Snoops

/-! ## ATS invalidations -/

section Invalidations

variable {s : State}

/-- R408: with no stream in the error state a TLP is taken. -/
theorem onLink_of_clear (h : ∀ q ∈ s.hub.ide, q.2.err = false) (act : State → State) : s.onLink act = act s :=
  if_neg (Bool.eq_false_iff.1 (List.any_eq_false.2 fun q hq => by rw [h q hq]; exact Bool.false_ne_true))

/-- R399: a request beyond the depth changes nothing. -/
theorem exec_ats_full {pasid : Option Nat} {va : BitVec 64} {len : Nat} (h : ∀ q ∈ s.hub.ide, q.2.err = false)
    (hd : 32 ≤ s.completions.length) : exec (.atsInvalidateRequest pasid va len) s = .next s := by
  dsimp only [exec, execAtsInvalidateRequest]
  rw [onLink_of_clear h]
  exact congrArg _ (if_pos hd)

theorem mappingGone_eq (s : State) (covered : List Nat) (va len page size : Nat) (m : Nat × Nat) :
    s.mappingGone covered va len page size m =
      (decide (m.1 ∈ covered ∧ m.2 < va + len ∧ va < m.2 + size) && !s.mapsTo m.1 m.2 page) := by
  unfold State.mappingGone
  rw [Bool.decide_and, Bool.decide_and, List.contains_eq_mem]
  congr 1
  rw [Bool.and_assoc, Bool.and_comm (decide (va < _))]

/-- R130, R138: the AP pages that an invalidation finds unmapped. -/
theorem unmappedPages_mem (s : State) (covered : List Nat) (va len page size : Nat) :
    (page, size) ∈ s.unmappedPages covered va len ↔ ∃ d, (page, d) ∈ s.appends ∧ d.size = size ∧
      ∃ m ∈ d.maps, s.mappingGone covered va len page size m = true := by
  unfold State.unmappedPages
  rw [List.mem_filterMap]
  constructor
  · rintro ⟨⟨p, d⟩, hp, he⟩
    split at he
    · next hany =>
      cases he
      exact ⟨d, hp, rfl, List.any_eq_true.1 hany⟩
    · cases he
  · rintro ⟨d, hd, rfl, hm⟩
    exact ⟨(page, d), hd, if_pos (List.any_eq_true.2 hm)⟩

/-- R399, R408: a request reaches the agent. -/
theorem exec_ats {pasid : Option Nat} {va : BitVec 64} {len : Nat} (h : ∀ q ∈ s.hub.ide, q.2.err = false) :
    exec (.atsInvalidateRequest pasid va len) s = .next (s.atsInvalidate pasid va.toNat len) := by
  dsimp only [exec, execAtsInvalidateRequest]
  rw [onLink_of_clear h]

theorem sendCompletions_none (h : s.completions.filter (fun c => !s.snoopsOwed &&
    c.frames.all (fun p => !s.purging p.1)) = []) : s.sendCompletions = s := by
  have hk : s.completions.filter (fun c => !(!s.snoopsOwed && c.frames.all (fun p => !s.purging p.1))) =
      s.completions :=
    List.filter_eq_self.2 fun c hc => by
      rw [Bool.eq_false_iff.2 (List.filter_eq_nil_iff.1 h c hc)]; rfl
  unfold State.sendCompletions
  dsimp only
  rw [h, hk]
  rfl

theorem sendCompletions_owed (h : s.snoopsOwed = true) : s.sendCompletions = s :=
  sendCompletions_none (List.filter_eq_nil_iff.2 fun c _ => by rw [h]; exact Bool.false_ne_true)

theorem purging_iff {frame : Nat} : s.purging frame = true ↔ Tab.read [] s.purges frame ≠ [] := by
  unfold State.purging
  cases Tab.read [] s.purges frame <;> simp

/-- R138, R146: the completion waits for the purges of its frames. -/
theorem sendCompletions_waits {c : PendingCompletion} (hc : s.completions = [c])
    (h : ∃ f ∈ c.frames, Tab.read [] s.purges f.1 ≠ []) : s.sendCompletions = s := by
  obtain ⟨f, hf, hp⟩ := h
  refine sendCompletions_none ?_
  rw [hc, List.filter_cons_of_neg, List.filter_nil]
  rw [Bool.and_eq_true, not_and]
  intro _ hall
  have := List.all_eq_true.1 hall f hf
  rw [purging_iff.2 hp] at this
  cases this

/-- R138, R146: the completion goes out. -/
theorem sendCompletions_sends {c : PendingCompletion} (hs : s.snoopsOwed = false) (hc : s.completions = [c])
    (h : ∀ f ∈ c.frames, Tab.read [] s.purges f.1 = []) : s.sendCompletions = ({ s with
      completions := []
      purges := ((c.frames.map Prod.fst).filter (fun f => (s.freesOf f).isEmpty)).foldl Tab.remove s.purges
      } : State).send (.invalidateCompletion c.pasid) := by
  have hr : c.frames.all (fun p => !s.purging p.1) = true := List.all_eq_true.2 fun f hf => by
    rw [Bool.eq_false_iff.2 fun hp => purging_iff.1 hp (h f hf), Bool.not_false]
  unfold State.sendCompletions
  simp only [hc, hs, hr, Bool.not_false, Bool.and_self, List.filter_cons, List.filter_nil, if_true, Bool.not_true,
    Bool.false_eq_true, if_false, List.flatMap_cons, List.flatMap_nil, List.append_nil, List.foldl_cons,
    List.foldl_nil]

end Invalidations

/-! ## Uncorrectable errors -/

section Errors

variable {s : State}

/-- R395: poison in an image changes neither memory, nor its marks, nor a group. -/
theorem poisonImages_keeps (s : State) (line : Nat) : (s.poisonImages line).poison = s.poison ∧
    (s.poisonImages line).mem = s.mem ∧ (s.poisonImages line).groups = s.groups := by
  refine foldl_holds (fun a : State => a.poison = s.poison ∧ a.mem = s.mem ∧ a.groups = s.groups) _ (fun a p ha => ?_)
    s.teams s ⟨rfl, rfl, rfl⟩
  split
  · dsimp only
    split <;> exact ha
  · exact ha

/-- R395: a line in which no image lies poisons none. -/
theorem poisonImages_none {line : Nat} (h : ∀ p ∈ s.teams, s.holdsImage line p.2 = false) :
    s.poisonImages line = s := by
  unfold State.poisonImages
  rw [List.foldl_ext _ (fun a _ => a) s fun a p hp => if_neg (Bool.eq_false_iff.1 (h p hp))]
  exact List.foldl_fixed s.teams

theorem exec_memory_error {line : Nat} {site : ErrorSite} (h : site = .hbm line ∨ site = .slice line) :
    exec (.uncorrectableError site) s = .next ((s.setPoison line true).poisonImages line) := by
  obtain rfl | rfl := h <;> rfl

theorem chargeCore_of_lt {core : Nat} (h : core < 576) (t : State) :
    t.chargeCore core = t.charge (core / 144) (core % 144) 1 false := by
  unfold State.chargeCore coreDie coreSite
  rw [if_pos h, if_pos h]

/-- R16: a core has power exactly when its site is not disabled. -/
theorem corePowered_of_lt {core : Nat} (h : core < 576) :
    s.corePowered core = !(s.die (core / 144)).disabled.getLsbD (core % 144) := by
  unfold State.corePowered coreDie coreSite
  rw [if_pos h, decide_eq_false (Nat.not_le.2 h), Bool.false_or]

/-- R16: a core without power has no error. -/
theorem exec_error_unpowered {core : Nat} (h : s.corePowered core = false) {site : ErrorSite}
    (hsite : (∃ line, site = .coreStore core line) ∨ (∃ k line, site = .scratchpad core k line) ∨
      (∃ k r l, site = .registerFile core k r l) ∨ (∃ i, site = .tileStore core i)) :
    exec (.uncorrectableError site) s = .next s := by
  obtain ⟨line, rfl⟩ | ⟨k, line, rfl⟩ | ⟨k, r, l, rfl⟩ | ⟨i, rfl⟩ := hsite <;>
    dsimp only [exec, execUncorrectableError] <;> simp only [h]
  case inl => rfl
  case inr.inl => cases s.team k <;> rfl
  case inr.inr.inl => cases s.group k <;> rfl
  case inr.inr.inr => rfl

end Errors

/-- Settles O47: the conjuncts are the lemmas above, one for each of the host's accesses and each site of an error. -/
theorem hostAccesses : Obligations.HostAccesses := by
  unfold Obligations.HostAccesses
  refine ⟨fun s => ⟨fun offset => ?accesses, fun half x hx ha hn => ?answers, fun half hh => ?snoops,
    fun pasid va len hi hd => exec_ats_full hi hd, fun pasid va len hi hd => ?ats, sendCompletions_owed,
    fun c hs hc => ⟨sendCompletions_waits hc, sendCompletions_sends hs hc⟩⟩,
    fun s => ⟨fun line site hsite => ?memory, fun core hc hd site => ?disabled, fun core hc hd => ?enabled⟩⟩
  case accesses =>
    generalize hpa : hdmAddress offset = pa
    intro _ half data refused
    refine ⟨fun he hr => ?_, fun he hr => ?_, fun hr => ?_, fun bs hb hl he => exec_write hpa hb hl he,
      fun he hr hs => ?_, ?_⟩
    · rw [exec_read hpa, countError_of_answers he]
      exact congrArg (fun m => Host.Outcome.next (s.send m)) (hostRead_data hr)
    · rw [exec_own_refused hpa he]
      exact congrArg (fun m => Host.Outcome.next ((s.countError pa).send m)) (hostRead_refused hr)
    · rw [exec_read hpa]
      exact congrArg (fun m => Host.Outcome.next ((s.countError pa).send m)) (hostRead_refused hr)
    · rw [exec_own hpa he hs, show s.hostRead (halfOf pa) = data from hostRead_data hr]
      rfl
    · intro hh gives written
      obtain ⟨halone, hsnooped⟩ := exec_release_none hpa hh
      refine ⟨halone, hsnooped, fun bs hl he hb => ?_⟩
      exact exec_release_some hpa hh (bs := bs) (by
        rw [List.take_of_length_le hl.le]
        exact (hostWrite_eq he (by rintro rfl; cases hl)).1 hb)
  case answers =>
    have hok := answer_in_time ha hn
    exact ⟨exec_answer_none hx hok, fun bs hl => exec_answer_some hx hok hl⟩
  case snoops =>
    exact ⟨exec_snoop_invalidate hh, fun bs hl => ⟨_, exec_snoop_write hh hl, rfl, rfl, rfl⟩,
      (exec_snoop_share hh).1, (exec_snoop_share hh).2⟩
  case ats =>
    intro covered t pages gone
    have hgone : ∀ page size m, s.mappingGone covered va.toNat len page size m = gone page size m :=
      fun page size m => mappingGone_eq s covered va.toNat len page size m
    refine ⟨?_, fun page size => ?_⟩
    · rw [exec_ats hi]
      unfold State.atsInvalidate
      rw [if_neg (show ¬ invalidateDepth ≤ _ from Nat.not_le.2 hd)]
      simp only [mappingGone_eq]
      rfl
    · simp only [← hgone]
      exact unmappedPages_mem s covered va.toNat len page size
  case memory =>
    refine ⟨⟨_, exec_memory_error hsite, poisonImages_keeps _ line⟩, fun h => ?_⟩
    rw [exec_memory_error hsite]
    exact congrArg _ (poisonImages_none h)
  case disabled =>
    exact exec_error_unpowered (by rw [corePowered_of_lt hc, hd]; rfl)
  case enabled =>
    have hp : s.corePowered core = true := by rw [corePowered_of_lt hc, hd]; rfl
    simp only [← chargeCore_of_lt hc]
    refine ⟨fun line => ?_, fun k t line ht htc hl => ?_, fun k g r l hg hgc hr hl => ?_, fun i => ?_⟩
    · exact if_pos hp
    · dsimp only [exec, execUncorrectableError]
      rw [ht]
      simp only [hp, htc, hl]
      rfl
    · refine ⟨BitVec.ofNat 32 s.freeNat.1, ?_⟩
      dsimp only [exec, execUncorrectableError]
      rw [hg]
      simp only [hp, hgc, hr, hl]
      rfl
    · exact ⟨BitVec.ofNat 32 s.freeNat.1, if_pos hp⟩

end Sys2Proof.Proofs.HostSide
end

section
/-!
PROOFS. Scratchpad accesses, fences, prefetches and flushes.
-/

namespace Sys2Proof.Proofs.Memory

open Sys2Proof Sys2Proof.Machine Sys2Proof.Laws Sys2Proof.Proofs Sys2Proof.Proofs.Formats Sys2Proof.Proofs.Registers
  Sys2Proof.Proofs.Vector Sys2Proof.Proofs.Control Sys2Proof.Proofs.Engines

/-! ## The lanes of a scratchpad access -/

/-- R264, R267: the lanes of a scratchpad access of n bytes, by whether their bytes pass the end. -/
def padLanes (s : State) (g : Group) (w : Slot) (n team member : Nat) : PadRoute where
  team := team
  member := member
  ready := ((lanesOf (g.lanes w) g.width).filter (fun l => decide (g.padOffset w l + n ≤ (s.teamOf g).scratchSize))).map
    (fun l => (l, g.padOffset w l))
  failed := ((lanesOf (g.lanes w) g.width).filter (fun l => decide ((s.teamOf g).scratchSize < g.padOffset w l + n))).map
    (fun l => (l, 0x08, g.padOffset w l))

/-- The route of a load or store of n bytes to a target (R53, R267). -/
def padRouteOf (s : State) (g : Group) (w : Slot) (n : Nat) : PadTarget → Sum PadRoute Cause
  | .own => .inl (padLanes s g w n g.team (s.teamOf g).member)
  | .member m => .inl (padLanes s g w n (s.memberTeam g m) m)
  | .trap c a => .inr { code := c, faddr := BitVec.ofNat 64 a, lanes := maskOf (lanesOf (g.lanes w) g.width) }

section Route

theorem filterMap_if {α β : Type} (p : α → Prop) [DecidablePred p] (f : α → β) (l : List α) :
    l.filterMap (fun x => if p x then some (f x) else none) = (l.filter (fun x => decide (p x))).map f := by
  induction l with
  | nil => rfl
  | cons x xs ih => by_cases h : p x <;> simp [h, ih]

variable {s : State} {g : Group} {w : Slot} {n : Nat}

/-- R97, R264: no lane of a load or store of the scratchpad has to be aligned. -/
theorem routePad_eq :
    s.routePad g w n false = padRouteOf s g w n (s.padTarget g w (lanesOf (g.lanes w) g.width)) := by
  have hready : (fun l => (if (s.teamOf g).scratchSize < g.padOffset w l + n then
      some ((l, 0x08, g.padOffset w l) : Nat × Nat × Nat) else none).isNone) =
      fun l => decide (g.padOffset w l + n ≤ (s.teamOf g).scratchSize) := by
    funext l
    by_cases h : (s.teamOf g).scratchSize < g.padOffset w l + n
    · rw [if_pos h, decide_eq_false (Nat.not_le.2 h)]; rfl
    · rw [if_neg h, decide_eq_true (Nat.not_lt.1 h)]; rfl
  unfold State.routePad
  simp only [Bool.false_and, Bool.false_eq_true, if_false, hready, filterMap_if]
  cases s.padTarget g w (lanesOf (g.lanes w) g.width) <;> rfl

theorem padTarget_own (h : memRmt w = false) (lanes : List Nat) : s.padTarget g w lanes = .own := by
  rw [State.padTarget, h]; rfl

theorem routePad_own (h : memRmt w = false) :
    s.routePad g w n false = .inl (padLanes s g w n g.team (s.teamOf g).member) := by
  rw [routePad_eq, padTarget_own h]
  rfl

theorem padOffset_own (h : memRmt w = false) (l : Nat) : g.padOffset w l = g.laneAddress w l % 2 ^ 32 := by
  rw [Group.padOffset, h]; rfl

/-- R53: the bits of sA above the offset. -/
theorem bits_extract (v : Word) (lo n : Nat) : bits v.toNat lo n = (v.extractLsb' lo n).toNat := by
  rw [BitVec.extractLsb'_toNat, Nat.shiftRight_eq_div_pow]; rfl

theorem bits_eq_zero (v : Word) (lo n : Nat) : bits v.toNat lo n = 0 ↔ v.extractLsb' lo n = 0 := by
  rw [bits_extract, ← BitVec.toNat_inj]; rfl

section Remote

variable (hr : memRmt w = true) {lanes : List Nat} (hl : lanes ≠ [])

include hr hl

/-- R267: what a remote operand gives. -/
theorem padTarget_remote :
    ((g.s w.a.scalarIndex).extractLsb' 32 24 ≠ 0 → s.padTarget g w lanes = .trap 0x08 (g.padOffset w (lanes.headD 0))) ∧
    ((g.s w.a.scalarIndex).extractLsb' 32 24 = 0 →
      ((s.teamOf g).members ≤ ((g.s w.a.scalarIndex).extractLsb' 56 8).toNat →
        s.padTarget g w lanes = .trap 0x09 ((g.s w.a.scalarIndex).extractLsb' 56 8).toNat) ∧
      (((g.s w.a.scalarIndex).extractLsb' 56 8).toNat < (s.teamOf g).members →
        s.padTarget g w lanes = .member ((g.s w.a.scalarIndex).extractLsb' 56 8).toNat)) := by
  cases lanes with
  | nil => exact absurd rfl hl
  | cons l ls =>
    simp only [State.padTarget, hr, Bool.not_true, Bool.false_eq_true, if_false, ← bits_extract, bne_iff_ne, ne_eq,
      bits_eq_zero]
    refine ⟨fun h => if_pos h, fun h => ⟨fun hm => ?_, fun hm => ?_⟩⟩
    · rw [if_neg (not_not.2 h), if_pos hm]
    · rw [if_neg (not_not.2 h), if_neg (Nat.not_le.2 hm)]

end Remote

end Route

/-! ## LDP and STP -/

section Instructions

variable {i : Instr} {s t : State} {k : Nat} {g : Group} {w : Slot} {e : Encoding} {r : PadRoute}

theorem padRoute_acts_iff : r.acts = true ↔ r.failed = [] ∨ r.ready ≠ [] := by
  simp [PadRoute.acts]

/-- R264, R381: the lanes that pass have performed; the others trap. -/
theorem padRun_ends (he : encodingOf s i = some e) (h : exec i s = .next (finish s k e.form e.slot (r.run t))) :
    (r.failed = [] → exec i s = .next (t.advance k e.slot)) ∧
    (r.failed ≠ [] → s.trapWaits k = false → exec i s = .next (t.trapFrom s k i (laneTrap r.failed))) := by
  unfold PadRoute.run at h
  refine ⟨fun hf => ?_, fun hf ht => ?_⟩
  · rw [hf] at h
    exact h
  · rw [if_neg (by simpa using hf), finish_trap he ht] at h
    exact h

/-- R267, R296: a load from a scratchpad, in a group that is not under check where it is a remote one. -/
theorem ldp_ends (h : ReadyTo (.ldp w) s k g) (hroute : s.routePad g w (accessSize w) false = .inl r) {s1 : State}
    (hs1 : s1 = if memAcq w then s.acquire (g.who k) (memScope w) else s)
    (hplain : memRmt w = true → s1.runOf (g.who k) = none) :
    let u := s1.departLoad k w (vecDests w.d0.vecIndex (valueRegs w))
      (((s1.readPad r (accessSize w)).1.map (fun v => loadWrites w w.d0.vecIndex v.1 v.2)).flatten)
      (s1.readPad r (accessSize w)).2
    ((r.failed = [] ∨ r.ready ≠ []) → (r.failed = [] → exec (.ldp w) s = .next (u.advance k w)) ∧
      (r.failed ≠ [] → s.trapWaits k = false →
        exec (.ldp w) s = .next (u.trapFrom s k (.ldp w) (laneTrap r.failed)))) ∧
    (r.failed ≠ [] → r.ready = [] → s.trapWaits k = false →
      exec (.ldp w) s = .next (s.trapFrom s k (.ldp w) (laneTrap r.failed))) := by
  intro u
  have hi := ready_issue h rfl (execLdp.eq_def w s)
  dsimp only at hi
  rw [hroute] at hi
  dsimp only at hi
  rw [← hs1] at hi
  refine ⟨fun hact => ?_, fun hf hn ht => ?_⟩
  · rw [padRoute_acts_iff.2 hact] at hi
    cases hr : memRmt w with
    | false =>
      rw [hr] at hi
      exact padRun_ends (e := ⟨w, _, _, _⟩) rfl hi
    | true =>
      have hp := hplain hr
      simp only [hr, foldLanes_plain hp, partOf_plain hp, logFor_plain hp] at hi
      exact padRun_ends (e := ⟨w, _, _, _⟩) rfl hi
  · have hact : r.acts = false := Bool.eq_false_iff.2 fun ha => (padRoute_acts_iff.1 ha).elim hf (· hn)
    rw [hact] at hi
    exact (padRun_ends (e := ⟨w, _, _, _⟩) rfl hi).2 hf ht

/-- R53, R267: a remote operand that names no scratchpad. -/
theorem ldp_trap {c : Cause} (h : ReadyTo (.ldp w) s k g) (hroute : s.routePad g w (accessSize w) false = .inr c)
    (ht : s.trapWaits k = false) : exec (.ldp w) s = .next (s.trapFrom s k (.ldp w) c) := by
  refine ready_trapFrom (e := ⟨w, _, _, _⟩) h rfl (execLdp.eq_def w s) ht ?_
  dsimp only
  rw [hroute]

theorem signBytes_plain {who : Who} (h : s.runOf who = none) (kind va : Nat) (bs : List Byte) :
    s.signBytes who kind va bs = s := by
  rw [State.signBytes, h]; rfl

/-- What follows a release may be weakened. -/
theorem Releases.imp {scope : Option Nat} {rest rest' : State → Prop} (h : Releases i s k g scope rest)
    (hr : ∀ t, rest t → rest' t) : Releases i s k g scope rest' := by
  cases scope with
  | none => exact hr s h
  | some x =>
    obtain ⟨howed, hstay, hgo⟩ := h
    exact ⟨howed, hstay, fun hn hx => hr _ (hgo hn hx)⟩

/-- The bytes that the lanes of a scratchpad store write. -/
def padWrites (s : State) (g : Group) (w : Slot) (r : PadRoute) : Writes :=
  (r.ready.map (fun p => atAddr p.2 (s.storeValue g w p.1 (accessSize w)))).flatten

/-- The lanes that pass have stored; a store to another team's scratchpad perturbs that team's check (R353). -/
def padStored (s : State) (g : Group) (w : Slot) (r : PadRoute) : State :=
  if memRmt w = true ∧ r.team ≠ g.team ∧ padWrites s g w r ≠ [] then
    (s.writePad r.team (padWrites s g w r)).perturbPad r.team
  else s.writePad r.team (padWrites s g w r)

/-- R267, R296, R353: a store to a scratchpad, in a group that is not under check where it is a remote one. -/
theorem stp_ends (h : ReadyTo (.stp w) s k g) :
    Releases (.stp w) s k g (g.releaseScope (memRel w) (memScope w)) (fun s2 =>
      (∀ c, s2.routePad g w (accessSize w) false = .inr c → s.trapWaits k = false →
        exec (.stp w) s = .next (s2.trapAt k c)) ∧
      ∀ r, s2.routePad g w (accessSize w) false = .inl r → (memRmt w = true → s2.runOf (g.who k) = none) →
        (r.failed = [] → exec (.stp w) s = .next ((padStored s2 g w r).advance k w)) ∧
        (r.failed ≠ [] → s.trapWaits k = false →
          exec (.stp w) s = .next ((padStored s2 g w r).trapAt k (laneTrap r.failed)))) := by
  refine ready_releases (e := ⟨w, _, _, _⟩) h rfl (execStp.eq_def w s) rfl fun s2 hi => ⟨fun c hroute ht => ?_,
    fun r hroute hplain => ?_⟩
  all_goals
    dsimp only at hi
    rw [hroute] at hi
    dsimp only at hi
  · rw [finish_trap (i := .stp w) (e := ⟨w, _, _, _⟩) rfl ht] at hi
    exact hi
  · have hsign : r.ready.foldl (fun a p => a.signBytes (g.who k) 2 (r.effective w p.2)
        (s2.storeValue g w p.1 (accessSize w))) s2 = s2 ∨ memRmt w = false := by
      cases hr : memRmt w with
      | false => exact .inr rfl
      | true => exact .inl (List.foldl_fixed' (fun p => signBytes_plain (hplain hr) ..) _)
    refine padRun_ends (e := ⟨w, _, _, _⟩) rfl (hi.trans (congrArg (fun x => Host.Outcome.next (finish s k _ w x)) ?_))
    unfold padStored padWrites
    cases hr : memRmt w with
    | false => exact congrArg r.run (if_neg fun hc => Bool.noConfusion hc.1).symm
    | true =>
      have hp := hplain hr
      rw [hsign.resolve_right (by rw [hr]; decide), compareEffect_plain hp, partOf_plain hp]
      refine congrArg r.run (if_congr ?_ rfl rfl)
      simp only [Bool.and_eq_true, bne_iff_ne, Bool.not_eq_true', List.isEmpty_eq_false_iff, true_and, ne_eq]

end Instructions

/-! ## Offsets, members and bytes -/

section Pads

variable (s : State) (g : Group) (w : Slot)

theorem extractLsb_low (x : Word) : x.extractLsb' 0 32 = x.setWidth 32 := by
  apply BitVec.eq_of_toNat_eq
  rw [BitVec.extractLsb'_toNat, BitVec.toNat_setWidth, Nat.shiftRight_zero]

/-- R267: the offset of a lane of a remote access. -/
theorem padOffset_remote (hr : memRmt w = true) (l : Nat) : g.padOffset w l < 2 ^ 32 ∧
    BitVec.ofNat 32 (g.padOffset w l) = (g.s w.a.scalarIndex).extractLsb' 0 32 +
      (BitVec.ofInt 64 (g.laneIndex w l) * BitVec.ofNat 64 (2 ^ (w.mod.toNat % 8))).extractLsb' 0 32 + w.imm := by
  rw [Group.padOffset, hr, if_pos rfl]
  refine ⟨Nat.mod_lt _ (by decide), ?_⟩
  have himm : (w.imm.signExtend 64).setWidth 32 = w.imm := by
    ext i hi
    simp [BitVec.getElem_signExtend, hi, Nat.lt_trans hi]
  have hbase : (BitVec.ofNat 64 ((g.s w.a.scalarIndex).toNat % 2 ^ 32)).setWidth 32 =
      (g.s w.a.scalarIndex).setWidth 32 := by
    apply BitVec.eq_of_toNat_eq
    simp
  rw [show ∀ x : Nat, BitVec.ofNat 32 (x % 2 ^ 32) = (BitVec.ofNat 64 x).setWidth 32 from fun x => by
      apply BitVec.eq_of_toNat_eq; simp, Group.address, ofNat_wrapInt, BitVec.ofInt_add, BitVec.ofInt_add,
    BitVec.ofInt_mul, ofInt_signedOf, BitVec.ofInt_natCast, BitVec.ofInt_natCast,
    show memSC w = w.mod.toNat % 8 from modBits_eq w.mod 3, BitVec.setWidth_add _ _ (by decide),
    BitVec.setWidth_add _ _ (by decide), himm, hbase, extractLsb_low, extractLsb_low]

variable {s g w}

/-- R53: the team of a member that the cluster has. -/
theorem memberTeam_mem {m c : Nat} {x : Cluster} (hm : (s.teamOf g).member ≠ m) (hc : (s.teamOf g).cluster = some c)
    (hx : s.cluster c = some x) (hi : ∃ i, i ∈ x.teams ∧ ∃ y, s.team i = some y ∧ y.member = m) :
    s.memberTeam g m ∈ x.teams ∧ ∃ y, s.team (s.memberTeam g m) = some y ∧ y.member = m := by
  obtain ⟨i, hi, y, hy, hym⟩ := hi
  unfold State.memberTeam
  rw [if_neg hm, hc]
  dsimp only
  rw [hx]
  dsimp only
  cases hf : x.teams.find? (fun t => match s.team t with
      | some y => decide (y.member = m)
      | none => false) with
  | none =>
    have := List.find?_eq_none.1 hf i hi
    rw [hy] at this
    exact absurd (decide_eq_true hym) this
  | some j =>
    have hj := List.find?_some hf
    refine ⟨List.mem_of_find?_eq_some hf, ?_⟩
    cases ht : s.team j with
    | none => rw [ht] at hj; cases hj
    | some z =>
      rw [ht] at hj
      exact ⟨z, ht, of_decide_eq_true hj⟩

/-- R97: a store to a scratchpad leaves its other bytes. -/
theorem writePad_other {team : Nat} {ws : Writes} {x : Team} {o : Nat} (hx : s.team team = some x)
    (ho : ∀ p, p ∈ ws → p.1 ≠ o) : (s.writePad team ws).mem = s.mem ∧
    ∃ y, (s.writePad team ws).team team = some y ∧ Tab.read 0 y.scratch o = Tab.read 0 x.scratch o := by
  refine ⟨rfl, _, (tab_find_modify_self ..).trans (congrArg (Option.map _) hx), ?_⟩
  dsimp only
  generalize x.scratch = m
  induction ws generalizing m with
  | nil => rfl
  | cons p ps ih =>
    rw [List.foldl_cons, ih fun q hq => ho q (List.mem_cons_of_mem _ hq)]
    exact tab_read_write_ne (ho p List.mem_cons_self).symm

end Pads

/-! ## FENCE, PREF and CFLUSH -/

section Order

variable {s : State} {k : Nat} {g : Group} {w : Slot}

/-- R105, R274: a releasing FENCE. -/
theorem fence_releases (h : ReadyTo (.fence w) s k g) (hr : memRel w = true) :
    Releases (.fence w) s k g (some (memScope w)) (fun s1 => exec (.fence w) s = .next
      (((if memAcq w then s1.acquire (g.who k) (memScope w) else s1).modGroup k (fun x =>
        { x with fenced := x.releaseScope true (memScope w) })).advance k w)) := by
  exact ready_releases (e := ⟨w, _, _, _⟩) (r := fun t => .done
    ((if memAcq w then t.acquire (g.who k) (memScope w) else t).modGroup k (fun x =>
      { x with fenced := x.releaseScope true (memScope w) }))) h rfl (execFence.eq_def w s) (if_pos hr) fun t hi => hi

/-- R106, R274: a FENCE that does not release. -/
theorem fence_acquires (h : ReadyTo (.fence w) s k g) (hr : memRel w = false) (hn : g.refused = none) :
    exec (.fence w) s = .next ((if memAcq w then s.acquire (g.who k) (memScope w) else s).advance k w) :=
  ready_passes (e := ⟨w, _, _, _⟩) h rfl (execFence.eq_def w s)
    ((if_neg (Bool.eq_false_iff.1 hr)).trans (releasing_none hn))

/-- R386: a FENCE takes the refusal that the group owes. -/
theorem fence_refused (h : ReadyTo (.fence w) s k g) (ht : s.trapWaits k = false) {c : Cause} (hc : g.refused = some c) :
    exec (.fence w) s =
      .next ((s.modGroup k (fun x => { x with refused := none })).trapAt k { c with lanes := g.q0 }) := by
  have howed : ∀ r, s.releasing k g r =
      .trap (s.modGroup k (fun x => { x with refused := none })) { c with lanes := g.q0 } := fun r => by
    rw [State.releasing, State.takeRefused, hc]; rfl
  refine ready_trapFrom (e := ⟨w, _, _, _⟩) h rfl (execFence.eq_def w s) ht ?_
  dsimp only
  split <;> exact howed _

/-- The groups, teams, partitions, hub and memory of a state. -/
def bystanders (s : State) : Tab Group × Tab Team × Tab Partition × Hub × Tab Byte :=
  (s.groups, s.teams, s.parts, s.hub, s.mem)

theorem cacheLine_bystanders (s : State) (who : Who) (stale : Tab (List Byte)) (halves : List Nat) (line : Nat) :
    bystanders (s.cacheLine who stale halves line) = bystanders s := by
  have hreplica : ∀ a : State, bystanders (a.keepReplica who line) = bystanders a := fun a => by
    unfold State.keepReplica
    split
    · split <;> rfl
    · rfl
  unfold State.cacheLine State.tokenRead
  split
  · rw [hreplica]
    refine foldl_keeps bystanders _ (fun a h => ?_) _ s
    split <;> rfl
  · split
    · split <;> rfl
    · rfl

theorem agentRead_bystanders (s : State) (stale : Tab (List Byte)) (pa n : Nat) :
    bystanders (s.agentRead stale pa n) = bystanders s := by
  unfold State.agentRead
  split
  · refine foldl_keeps bystanders _ (fun a h => ?_) _ s
    split <;> rfl
  · rfl

/-- R148, R275: a prefetch changes no architectural state. -/
theorem prefetch_bystanders (s : State) (who : Who) (va : Nat) : bystanders (s.prefetch who va) = bystanders s := by
  unfold State.prefetch
  split
  · rfl
  · dsimp only
    split
    · rfl
    · rw [agentRead_bystanders, cacheLine_bystanders]
      split
      · obtain ⟨n, hn⟩ := staleHalves_state s who _
        rw [hn]; rfl
      · rfl

theorem exec_pref (h : ReadyTo (.pref w) s k g) : exec (.pref w) s = .next
    (((lanesOf (g.lanes w) g.width).foldl (fun x l => x.prefetch (g.who k) (g.laneAddress w l)) s).advance k w) :=
  ready_passes (e := ⟨w, _, _, _⟩) h rfl (execPref.eq_def w s) rfl

/-- R276: a flush of a range below 2^57. -/
theorem cflush_done (h : ReadyTo (.cflush w) s k g) (ha : (g.s w.a.scalarIndex).toNat < 2 ^ 57)
    (hb : (g.s w.a.scalarIndex).toNat + (s.scalarSource g w w.b).toNat ≤ 2 ^ 57) {f : State × Nat}
    (hf : f = s.flushAll (g.who k) (memOpc w = 1) ((g.s w.a.scalarIndex).toNat / 128 * 128)
      (flushParts (g.s w.a.scalarIndex).toNat (s.scalarSource g w w.b).toNat)) :
    exec (.cflush w) s = .next ((f.1.modGroup k (fun x => x.depart w [.scalar w.d0.scalarIndex]
      [.scalar w.d0.scalarIndex (BitVec.ofNat 64 f.2)] 0 none .flush)).advance k w) := by
  refine ready_passes (e := ⟨w, _, _, _⟩) h rfl (execCflush.eq_def w s) ?_
  dsimp only
  rw [if_neg (Nat.not_le.2 ha), if_neg (Nat.not_lt.2 hb), hf]

/-- R128, R276: a flush that starts at 2^57 or above, or crosses it. -/
theorem cflush_faults (h : ReadyTo (.cflush w) s k g) (ht : s.trapWaits k = false) :
    (2 ^ 57 ≤ (g.s w.a.scalarIndex).toNat → exec (.cflush w) s = .next
      (s.trapFrom s k (.cflush w) (trapAll g 0x10 (BitVec.ofNat 64 (g.s w.a.scalarIndex).toNat)))) ∧
    ((g.s w.a.scalarIndex).toNat < 2 ^ 57 → 2 ^ 57 < (g.s w.a.scalarIndex).toNat + (s.scalarSource g w w.b).toNat →
      exec (.cflush w) s = .next (s.trapFrom s k (.cflush w) (trapAll g 0x10 (BitVec.ofNat 64 (2 ^ 57))))) := by
  refine ⟨fun ha => ?_, fun ha hb => ?_⟩ <;>
    refine ready_trapFrom (e := ⟨w, _, _, _⟩) h rfl (execCflush.eq_def w s) ht ?_ <;> dsimp only
  · rw [if_pos ha]
  · rw [if_neg (Nat.not_le.2 ha), if_pos hb]

end Order

/-! ## The remote-write buffer after a release -/

section Drained

variable {s : State} {d : Nat}

theorem rwb_modRwb {f : List RwLine → List RwLine} (hf : f [] = []) : (s.modRwb d f).rwb d = f (s.rwb d) := by
  unfold State.modRwb State.rwb
  split
  · simp only [State.modDie, State.die, Tab.read, tab_find_modify_self]
    cases Tab.find s.dies d with
    | none => exact hf.symm
    | some x => rfl
  · rfl

theorem rwb_countError (s : State) (d pa : Nat) : (s.countError pa).rwb d = s.rwb d := by
  unfold State.countError State.countReply
  split
  · next e _ =>
    split
    · simp only [State.rwb, die_modDie_rwb s d e (fun x => { x with resetErrors := x.resetErrors + 1 }) (fun _ => rfl)]
      rfl
    · rfl
  · rfl

theorem rwb_homeCommit (s : State) (d : Nat) (ws : List (Nat × Byte)) : (s.homeCommit none ws).rwb d = s.rwb d := by
  refine rwb_congr ?_ d
  have hhome : holders (s.homeLines ws) = holders s := foldl_keeps holders _ (fun a l => by
    unfold State.tokenHome
    split <;> rfl) _ s
  unfold State.homeCommit State.commit
  split
  · exact hhome
  · exact (congrArg Prod.fst (enter_untouched (s.homeLines ws) ws)).trans hhome

/-- R115, R386: where a line arrives no buffer is touched. -/
theorem rwb_arrive (s : State) (d : Nat) (l : RwLine) : (s.arrive l).rwb d = s.rwb d := by
  unfold State.arrive
  dsimp only
  split
  · rw [rwb_countError]
    exact foldl_keeps (fun a : State => a.rwb d) (fun (a : State) (g : Nat × Nat) => a.refuse g.1 _) (fun _ _ => rfl) _ s
  · exact rwb_homeCommit ..

/-- R115: a drain takes its line out of the buffer and leaves the others. -/
theorem rwb_drainLine (s : State) (d line : Nat) :
    (s.drainLine d line).rwb d = (s.rwb d).filter (fun y => decide (y.line ≠ line)) := by
  unfold State.drainLine
  split
  · rw [rwb_arrive, rwb_modRwb rfl]
  · next h =>
    refine (List.filter_eq_self.2 fun y hy => ?_).symm
    simpa using List.find?_eq_none.1 h y hy

theorem rwb_drainLines (lines : List Nat) : (lines.foldl (fun a l => a.drainLine d l) s).rwb d =
    (s.rwb d).filter (fun y => decide (y.line ∉ lines)) := by
  induction lines generalizing s with
  | nil => exact (List.filter_eq_self.2 fun y _ => by simp).symm
  | cons l ls ih =>
    rw [List.foldl_cons, ih, rwb_drainLine, List.filter_filter]
    exact List.filter_congr fun y _ => by simp [Bool.and_comm]

/-- R115: a release at DEV or SYS scope empties the buffer of its die. -/
theorem rwb_release {who : Who} (hrun : s.runOf who = none) {scope : Nat} (hs : scope = 4 ∨ scope = 5) :
    (s.release who scope).rwb (coreDie who.core) = [] := by
  unfold State.release
  rw [if_pos (by obtain rfl | rfl := hs <;> rfl), hrun]
  dsimp only
  unfold State.drainAll State.drainWhere
  rw [rwb_drainLines, List.filter_eq_nil_iff]
  intro y hy
  simpa using ⟨y, hy, rfl⟩

end Drained

/-- Settles O27: the conjuncts are the lemmas on scratchpad routes and on each instruction, assembled. -/
theorem scratchpadAndOrder : Obligations.ScratchpadAndOrder := by
  unfold Obligations.ScratchpadAndOrder
  refine ⟨?own, ?remote, ?order⟩
  case own =>
    intro s k g w r n d s1 hr
    refine ⟨fun l hroute hl => ?_, fun h hroute hact => (ldp_ends h hroute rfl (by rw [hr]; nofun)).1 hact,
      fun h hroute hf hn ht => (ldp_ends h hroute rfl (by rw [hr]; nofun)).2 hf hn ht,
      fun h => Releases.imp (stp_ends h) fun s2 hs2 hroute => ?_, fun team ws x o hx ho => writePad_other hx ho⟩
    · rw [routePad_own hr] at hroute
      obtain rfl := Sum.inl.inj hroute
      rw [← padOffset_own hr]
      exact ⟨fun hle => List.mem_map.2 ⟨l, List.mem_filter.2 ⟨hl, decide_eq_true hle⟩, rfl⟩,
        fun hlt => List.mem_map.2 ⟨l, List.mem_filter.2 ⟨hl, decide_eq_true hlt⟩, rfl⟩⟩
    · have hstored : padStored s2 g w r = s2.writePad r.team (padWrites s2 g w r) := if_neg fun hc => by
        rw [hr] at hc; cases hc.1
      have := hs2.2 r hroute (by rw [hr]; nofun)
      rw [hstored] at this
      exact this
  case remote =>
    intro s k g w who n d v m lanes offset ready failed beyond noMember s1 hr hl
    have hindex := fun l => padOffset_remote g w hr l
    have hroute : ∀ x : State, v.extractLsb' 32 24 = 0 → m < (x.teamOf g).members →
        x.routePad g w n false = .inl (padLanes x g w n (x.memberTeam g m) m) := fun x hv hm => by
      rw [routePad_eq, ((padTarget_remote hr hl).2 hv).2 hm]; rfl
    have hbeyond : ∀ x : State, v.extractLsb' 32 24 ≠ 0 → x.routePad g w n false = .inr beyond := fun x hv => by
      rw [routePad_eq, (padTarget_remote hr hl).1 hv]; rfl
    have hmember : ∀ x : State, v.extractLsb' 32 24 = 0 → (x.teamOf g).members ≤ m →
        x.routePad g w n false = .inr noMember := fun x hv hm => by
      rw [routePad_eq, ((padTarget_remote hr hl).2 hv).1 hm]; rfl
    refine ⟨fun l => ?_, fun c x hm hc hx hi => memberTeam_mem hm hc hx hi,
      fun h ht hv => ldp_trap h (hbeyond s hv) ht, fun h ht hv hm => ldp_trap h (hmember s hv hm) ht,
      fun h hv hm hp => ?_, fun h => Releases.imp (stp_ends h) fun s2 hs2 => ?_⟩
    · intro index
      rw [show index = BitVec.ofInt 64 (g.laneIndex w l) from (ofInt_laneIndex g w l).symm]
      exact hindex l
    · obtain ⟨hacts, hnone⟩ := ldp_ends h (hroute s hv hm) rfl fun _ => hp
      intro team t
      have ht : s1.departLoad k w (vecDests w.d0.vecIndex (valueRegs w))
          (((s1.readPad (padLanes s g w n team m) n).1.map (fun v => loadWrites w w.d0.vecIndex v.1 v.2)).flatten)
          (s1.readPad (padLanes s g w n team m) n).2 = t := by
        simp only [State.readPad, List.map_map]
        rfl
      rw [← ht]
      exact ⟨fun hf => (hacts (.inl hf)).1 hf, fun hf hn => (hacts (.inr hn)).2 hf, hnone⟩
    · intro team ws t
      have ht : padStored s2 g w (padLanes s2 g w n team m) = t := by
        refine if_congr ?_ rfl rfl
        rw [hr, eq_self_iff_true, true_and]
        rfl
      obtain ⟨htrap, hends⟩ := hs2
      rw [← ht]
      exact ⟨fun hw hv => htrap _ (hbeyond s2 hv) hw, fun hw hv hm => htrap _ (hmember s2 hv hm) hw,
        fun hv hm hp hf => (hends _ (hroute s2 hv hm) fun _ => hp).1 hf,
        fun hv hm hp hf => (hends _ (hroute s2 hv hm) fun _ => hp).2 hf⟩
  case order =>
    intro s k g w who a b d acq f
    exact ⟨fun h hr => fence_releases h hr, fun h hr hn => fence_acquires h hr hn,
      fun h ht c hc => fence_refused h ht hc, exec_pref, fun p va => by
        have hb := prefetch_bystanders s p va
        simp only [bystanders, Prod.mk.injEq] at hb
        obtain ⟨hgroups, hteams, hparts, hhub, hmem⟩ := hb
        exact ⟨hgroups, hteams, hparts, hhub, fun x => byte_congr hmem x⟩,
      fun h ha hb => cflush_done h ha hb rfl, fun h ht => (cflush_faults h ht).1, fun h ht => (cflush_faults h ht).2,
      fun hrun hs l => by
        have hempty : _ = _ := rwb_release hrun hs
        rw [show coreDie g.core = coreDie who.core from rfl, hempty]
        exact List.not_mem_nil⟩

end Sys2Proof.Proofs.Memory
end

section
/-!
PROOFS. Atomics: the values they store, and what becomes of their lanes.
-/

namespace Sys2Proof.Proofs.Memory

open Sys2Proof Sys2Proof.Machine Sys2Proof.Laws Sys2Proof.Proofs Sys2Proof.Proofs.Formats Sys2Proof.Proofs.Registers
  Sys2Proof.Proofs.Vector Sys2Proof.Proofs.Control Sys2Proof.Proofs.Engines

/-! ## New values -/

/-- The value of an operand of an atomic, as the TY reads it. -/
def atomValue (ty : Ty) (x : Nat) : Int := if ty.signed then signedOf x (opWidth ty) else (x : Int)

theorem wrapInt_atomValue {ty : Ty} {x : Nat} (h : x < 2 ^ opWidth ty) : wrapInt (atomValue ty x) (opWidth ty) = x := by
  have hn := ofNat_wrapInt (atomValue ty x) (opWidth ty)
  have hv : BitVec.ofInt (opWidth ty) (atomValue ty x) = BitVec.ofNat (opWidth ty) x := by
    unfold atomValue
    split
    · have hx : signedOf x (opWidth ty) = (BitVec.ofNat (opWidth ty) x).toInt := by
        rw [← signedOf_toNat, BitVec.toNat_ofNat, Nat.mod_eq_of_lt h]
      rw [hx, BitVec.ofInt_toInt]
    · exact BitVec.ofInt_natCast ..
  have := congrArg BitVec.toNat (hn.trans hv)
  rwa [BitVec.toNat_ofNat, BitVec.toNat_ofNat, Nat.mod_eq_of_lt (wrapInt_lt ..), Nat.mod_eq_of_lt h] at this

section Values

variable {ty : Ty} {old y cmp : Nat}

/-- R268: the arithmetic operations on integers. -/
theorem atomNew_add (h : ty ≠ .f32) :
    atomNew ty 0 old y cmp = ((atomValue ty old + atomValue ty y) % (2 ^ opWidth ty : Nat)).toNat := by
  rw [Int.natCast_pow]
  exact if_neg h

theorem atomNew_min (h : ty ≠ .f32) (ho : old < 2 ^ opWidth ty) (hy : y < 2 ^ opWidth ty) :
    atomNew ty 1 old y cmp = if atomValue ty old ≤ atomValue ty y then old else y := by
  have hn : atomNew ty 1 old y cmp = wrapInt (min (atomValue ty old) (atomValue ty y)) (opWidth ty) := if_neg h
  rw [hn, min_def, apply_ite (fun z => wrapInt z (opWidth ty)), wrapInt_atomValue ho, wrapInt_atomValue hy]

theorem atomNew_max (h : ty ≠ .f32) (ho : old < 2 ^ opWidth ty) (hy : y < 2 ^ opWidth ty) :
    atomNew ty 2 old y cmp = if atomValue ty old ≤ atomValue ty y then y else old := by
  have hn : atomNew ty 2 old y cmp = wrapInt (max (atomValue ty old) (atomValue ty y)) (opWidth ty) := if_neg h
  rw [hn, max_def, apply_ite (fun z => wrapInt z (opWidth ty)), wrapInt_atomValue ho, wrapInt_atomValue hy]

end Values

/-! ## Lanes -/

section Lanes

variable {s : State} {k : Nat} {g : Group} {w : Slot}

theorem atomLogged_plain (h : s.runOf (g.who k) = none) (op : Nat) (lanes : List Nat) (addr : Nat → Nat)
    (perform : State → Option Nat → AtomDone) : s.atomLogged k g w op lanes addr perform =
      (perform s none).state.atomFinish k w (perform s none).olds (perform s none).fault := by
  unfold State.atomLogged
  simp only [partOf_plain h]

/-- The checks of a lane of an ATOM before that of a write: its alignment, and a fault of a read (R268). -/
def atomEarly (s : State) (g : Group) (who : Who) (w : Slot) (l : Nat) : Option (Nat × Nat) :=
  if g.laneAddress w l % (opWidth w.ty / 8) != 0 then some (0x15, g.laneAddress w l)
  else match s.routeOne who g.walkFaults .read .any (g.laneAddress w l) (opWidth w.ty / 8) with
    | .fault c f => some (c, f)
    | _ => none

/-- The lanes of an ATOM (R268). -/
def atomRoute (s : State) (k : Nat) (g : Group) (w : Slot) : Routed :=
  s.routeLanes g k .write .ordinary (lanesOf (g.lanes w) g.width) (atomEarly s g (g.who k) w)
    (fun l => [(g.laneAddress w l, opWidth w.ty / 8)])

/-- The acquire of an atomic that is one (R105). -/
def acquired (s : State) (k : Nat) (g : Group) (w : Slot) : State :=
  if memAcq w then s.acquire (g.who k) (memScope w) else s

/-- R105, R118, R268, R269: an ATOM of a group that is not under check. -/
theorem atom_ends (h : ReadyTo (.atom w) s k g) :
    Releases (.atom w) s k g (g.releaseScope (memRel w) (memScope w)) (fun sr => ∀ s1, s1 = acquired sr k g w →
      s1.runOf (g.who k) = none → ∀ r, r = atomRoute s1 k g w →
      (r.needs ≠ [] → exec (.atom w) s = .next (s1.park k r.needs)) ∧
      (r.needs = [] → s1.hostHalves (g.who k) r ≠ [] → exec (.atom w) s =
        .next (((s1.hostHalves (g.who k) r).foldl (fun a h => a.snoopWrite h []) s1).hold k)) ∧
      (r.needs = [] → r.failed = [] → s1.hostHalves (g.who k) r = [] →
        let x := s1.atomLanes (g.who k) none g w r.ready
        exec (.atom w) s = .next ((x.state.atomFinish k w x.olds x.fault).advance k w)) ∧
      (r.needs = [] → r.failed ≠ [] → r.ready = [] → s.trapWaits k = false →
        exec (.atom w) s = .next (s1.trapFrom s k (.atom w) (laneTrap r.failed)))) := by
  refine ready_releases (e := ⟨w, _, _, _⟩) h rfl (execAtom.eq_def w s) rfl fun sr hi s1 hs1 hp r hr => ?_
  have hi' : exec (.atom w) s = .next (finish s k (atomForm w atomMods) w
      (if r.needs.isEmpty && !(s1.hostHalves (g.who k) r).isEmpty then
        .stay ((s1.hostHalves (g.who k) r).foldl (fun a h => a.snoopWrite h []) s1)
      else r.run s1 (fun ready => if !r.acts then s1
        else s1.atomLogged k g w 0x286 (ready.map Ready.lane) (g.laneAddress w)
          (fun a o => a.atomLanes (g.who k) o g w ready)))) := by
    subst hs1 hr
    exact hi
  refine ⟨fun hn => ?_, fun hn hh => ?_, fun hn hf hh => ?_, fun hn hf hready ht => ?_⟩
  · have hempty : r.needs.isEmpty = false := by simpa using hn
    rw [hi', hempty, Bool.false_and, if_neg Bool.false_ne_true, routed_run_needs hn]
    rfl
  · have hempty : (s1.hostHalves (g.who k) r).isEmpty = false := by simpa using hh
    rw [hi', hn, hempty]
    rfl
  · have hacts : r.acts = true := routed_acts_iff.2 (.inl hf)
    rw [hi', hh, List.isEmpty_nil, Bool.not_true, Bool.and_false, if_neg Bool.false_ne_true, routed_run_done hn hf,
      hacts, Bool.not_true, if_neg Bool.false_ne_true, atomLogged_plain hp]
    rfl
  · have hacts : r.acts = false := Bool.eq_false_iff.2 fun ha => (routed_acts_iff.1 ha).elim hf (· hready)
    have hhalves : s1.hostHalves (g.who k) r = [] := by
      unfold State.hostHalves
      simp only [partOf_plain hp, hready]
      rfl
    rw [hi', hhalves, List.isEmpty_nil, Bool.not_true, Bool.and_false, if_neg Bool.false_ne_true,
      routed_run_trap hn hf, finish_trap (i := .atom w) (e := ⟨w, _, _, _⟩) rfl ht, hacts, Bool.not_false, if_pos rfl]

/-- The lanes of a SATOM one after another (R268). -/
def satomLanes (s : State) (g : Group) (w : Slot) (r : PadRoute) : AtomDone :=
  r.ready.foldl (fun (d : AtomDone) p =>
    let y := d.state.satomLane g w r.team p.1 p.2
    { olds := d.olds ++ y.olds, fault := firstFault d.fault y.fault, state := y.state })
    { olds := [], fault := none, state := s }

/-- R105, R267, R268: a SATOM, all of whose lanes pass, of a group that is not under check. -/
theorem satom_ends (h : ReadyTo (.satom w) s k g) :
    Releases (.satom w) s k g (g.releaseScope (memRel w) (memScope w)) (fun sr => ∀ s1, s1 = acquired sr k g w →
      s1.runOf (g.who k) = none → ∀ r, s1.routePad g w (opWidth w.ty / 8) true = .inl r → r.failed = [] →
      let x := satomLanes s1 g w r
      exec (.satom w) s = .next ((x.state.atomFinish k w x.olds x.fault).advance k w)) := by
  refine ready_releases (e := ⟨w, _, _, _⟩) h rfl (execSatom.eq_def w s) rfl fun sr hi s1 hs1 hp r hroute hf => ?_
  dsimp only at hi
  rw [show (if memAcq w then sr.acquire (g.who k) (memScope w) else sr) = s1 from hs1.symm, hroute] at hi
  dsimp only at hi
  rw [padRoute_acts_iff.2 (.inl hf), Bool.not_true, if_neg Bool.false_ne_true, atomLogged_plain hp, ite_self] at hi
  exact (padRun_ends (e := ⟨w, _, _, _⟩) rfl hi).1 hf

theorem tokenHome_commit_mem (s : State) (pa : Nat) (ws : List (Nat × Byte)) :
    ((s.tokenHome pa).commit none ws).mem = (s.commit none ws).mem := by
  rw [commit_mem, commit_mem]
  unfold State.tokenHome
  split <;> rfl

/-- R120, R268, R269: one lane of an ATOM at its line's home. -/
theorem atomLane_performs {who : Who} {l : Nat} {p : Piece} {y cmp : Nat} (hr : region p.pa ≠ .management) {s0 : State}
    (h0 : s.drainLine (coreDie who.core) (lineNo p.pa) = s0) (he : s0.errorReply p.pa = false)
    (hp : s0.poisoned (lineNo p.pa) = false) :
    let n := opWidth w.ty / 8
    let old := leNat ((List.range n).map (fun i => s0.homeByte (p.pa + i)))
    let x := s.atomLane who none w l p y cmp
    x.olds = [(l, old)] ∧ x.fault = none ∧
      x.state.mem = (s0.commit none (atAddr p.pa (leBytes n (atomNew w.ty (memOpc w) old y cmp)))).mem := by
  intro n old x
  have hx : x = { olds := [(l, old)], fault := none
                  state := ((s0.tokenHome p.pa).commit none (atAddr p.pa (leBytes n (atomNew w.ty (memOpc w) old y
                    cmp)))).dropLines [lineNo p.pa] (fun k => k = who.core) } := by
    unfold x State.atomLane
    simp only [h0, he, hp, decide_eq_false hr, Bool.or_self, Bool.false_eq_true, if_false]
    rfl
  rw [hx]
  exact ⟨rfl, rfl, tokenHome_commit_mem ..⟩

end Lanes

/-- Settles O28: the new values by operation, the ends of both instructions, and one lane at its home. -/
theorem atomics : Obligations.Atomics := by
  unfold Obligations.Atomics
  refine ⟨fun ty old y cmp => ?values, fun s k g w => ?instructions⟩
  case values =>
    refine ⟨fun h => atomNew_add h, fun h ho hy => atomNew_min h ho hy, fun h ho hy => atomNew_max h ho hy, rfl,
      ⟨rfl, rfl⟩, ?_⟩
    rintro (rfl | rfl) <;> exact ⟨rfl, rfl, rfl, rfl, rfl⟩
  case instructions =>
    intro who n acq
    refine ⟨fun h => Releases.imp (atom_ends h) fun sr hsr => ?_, fun h => Releases.imp (satom_ends h) fun sr hsr => ?_,
      fun l p y cmp hr he hp => atomLane_performs hr rfl he hp⟩
    · exact fun hp r hr => hsr _ rfl hp r hr
    · exact fun hp r hroute hf => hsr _ rfl hp r hroute hf

end Sys2Proof.Proofs.Memory
end

section
/-!
PROOFS. Append pages and purges.
-/

namespace Sys2Proof.Proofs.Appending

open Sys2Proof Sys2Proof.Machine Sys2Proof.Laws Sys2Proof.Proofs Sys2Proof.Proofs.Memory Sys2Proof.Proofs.Engines
  Sys2Proof.Proofs.Control Sys2Proof.Proofs.HostSide

/-! ## The descriptor of a page -/

section Descriptor

variable (s : State) (page size : Nat) (m : Nat × Nat)

/-- R130: the first access makes the descriptor; no access changes its tails or its seal. -/
theorem ensureAppend_eq : ∃ t, s.ensureAppend page size m = { s with appends := t } := by
  unfold State.ensureAppend
  split
  · split
    · exact ⟨s.appends, rfl⟩
    · exact ⟨_, rfl⟩
  · exact ⟨_, rfl⟩

theorem ensureAppend_descriptor {e : TlbEntry} :
    ((s.ensureAppend e.pa e.size m).descriptor e).sealed = (s.descriptor e).sealed ∧
      ((s.ensureAppend e.pa e.size m).descriptor e).final = (s.descriptor e).final := by
  unfold State.ensureAppend State.descriptor
  cases h : Tab.find s.appends e.pa with
  | none =>
    dsimp only
    rw [tab_find_insert_self]
    exact ⟨rfl, rfl⟩
  | some d =>
    dsimp only
    split
    · rw [h]; exact ⟨rfl, rfl⟩
    · rw [tab_find_insert_self]; exact ⟨rfl, rfl⟩

end Descriptor

/-! ## APND, APST and SEAL -/

section Instructions

variable {s : State} {k : Nat} {g : Group} {w : Slot} {e : TlbEntry} (hp : s.runOf (g.who k) = none)

/-- R270: an APND with no active lane. -/
theorem apnd_idle (h : ReadyTo (.apnd w) s k g) (hl : lanesOf (g.lanes w) g.width = []) :
    exec (.apnd w) s = .next ((s.modGroup k (fun x => x.depart w (appendDests w)
      [.scalar w.d1.scalarIndex (BitVec.ofNat 64 (2 ^ 62))] 0 none .plain)).advance k w) := by
  refine ready_passes (e := ⟨w, _, _, _⟩) h rfl (execApnd.eq_def w s) ?_
  dsimp only
  rw [hl]
  rfl

theorem apnd_appends (h : ReadyTo (.apnd w) s k g) (hl : lanesOf (g.lanes w) g.width ≠ [])
    (hr : s.routePage (g.who k) g.walkFaults .write (g.pageAddress w) = .page e) (hs : e.sealed = false) :
    exec (.apnd w) s =
      .next ((s.append k g w (lanesOf (g.lanes w) g.width) e (g.pageAddress w)).advance k w) := by
  refine ready_passes (e := ⟨w, _, _, _⟩) h rfl (execApnd.eq_def w s) ?_
  dsimp only
  rw [if_neg (by simpa using hl), hr]
  dsimp only
  rw [hs]
  rfl

include hp

/-- R131, R134, R270: a reservation that fits, and one that does not. -/
theorem append_plain {lanes : List Nat} {va : Nat} (he : s.errorReply e.pa = false) (hs : (s.descriptor e).sealed = false)
    (ha : (s.descriptor e).arrived = false) :
    ((s.descriptor e).reserved + (g.appendData w lanes).length ≤ (s.descriptor e).size →
      s.append k g w lanes e va = ((s.reserve e (g.appendData w lanes).length none).homeEnter
        (atAddr (e.pa + (s.descriptor e).reserved) (g.appendData w lanes))).departAppend k w lanes
          (.at_ (s.descriptor e).reserved) (.append e.pa (s.descriptor e).reserved)) ∧
    ((s.descriptor e).size < (s.descriptor e).reserved + (g.appendData w lanes).length →
      s.append k g w lanes e va = s.departAppend k w lanes .refused .plain) := by
  have hanswer : s.appendAnswer e va (g.appendData w lanes).length =
      if (s.descriptor e).size < (s.descriptor e).reserved + (g.appendData w lanes).length then .refused
      else .at_ (s.descriptor e).reserved := by
    unfold State.appendAnswer
    simp only [he, hs, ha, Bool.or_self, Bool.false_eq_true, if_false]
  refine ⟨fun hfit => ?_, fun hfull => ?_⟩
  · rw [if_neg (Nat.not_lt.2 hfit)] at hanswer
    unfold State.append
    simp only [partOf_plain hp, logFor_plain hp, hanswer]
  · rw [if_pos hfull] at hanswer
    unfold State.append
    simp only [partOf_plain hp, logFor_plain hp, hanswer, countError_of_answers he]

theorem runOf_ensured (page size : Nat) (m : Nat × Nat) : (s.ensureAppend page size m).runOf (g.who k) = none := by
  obtain ⟨t, ht⟩ := ensureAppend_eq s page size m
  rw [ht]
  exact hp

/-- R272: APST. -/
theorem exec_apst (h : ReadyTo (.apst w) s k g)
    (hr : s.routePage (g.who k) g.walkFaults .read (g.pageAddress w) = .page e) (he : s.errorReply e.pa = false) :
    exec (.apst w) s = .next (((s.ensureAppend e.pa e.size (g.ctx, e.va)).departLoad k w
      [.scalar w.d0.scalarIndex, .scalar w.d1.scalarIndex]
      (pairWrites2 w (s.descriptor e).status.1 (s.descriptor e).status.2) none).advance k w) := by
  have hp0 := runOf_ensured hp (g := g) (k := k) e.pa e.size (g.ctx, e.va)
  have he0 : (s.ensureAppend e.pa e.size (g.ctx, e.va)).errorReply e.pa = false := by
    obtain ⟨t, ht⟩ := ensureAppend_eq s e.pa e.size (g.ctx, e.va)
    rw [ht]; exact he
  refine ready_passes (e := ⟨w, _, _, _⟩) h rfl (execApst.eq_def w s) ?_
  simp only [hr, partOf_plain hp, he, countError_of_answers he0, logFor_plain hp0]
  rfl

/-- R135, R273: SEAL. -/
theorem exec_seal (h : ReadyTo (.seal w) s k g)
    (hr : s.routePage (g.who k) g.walkFaults .write (g.pageAddress w) = .page e) (he : s.errorReply e.pa = false)
    {s0 : State} (h0 : s.ensureAppend e.pa e.size (g.ctx, e.va) = s0) :
    ((s.descriptor e).sealed = true → exec (.seal w) s = .next ((s0.departLoad k w [.scalar w.d0.scalarIndex]
      [.scalar w.d0.scalarIndex (BitVec.ofNat 64 (s.descriptor e).final)] none).advance k w)) ∧
    ((s.descriptor e).sealed = false → exec (.seal w) s = .next (((s0.sealArrive e.pa).modGroup k (fun y =>
      y.depart w [.scalar w.d0.scalarIndex] [] 0 none (.seal e.pa (some w.d0.scalarIndex)))).advance k w)) := by
  subst h0
  have hp0 := runOf_ensured hp (g := g) (k := k) e.pa e.size (g.ctx, e.va)
  have he0 : (s.ensureAppend e.pa e.size (g.ctx, e.va)).errorReply e.pa = false := by
    obtain ⟨t, ht⟩ := ensureAppend_eq s e.pa e.size (g.ctx, e.va)
    rw [ht]; exact he
  obtain ⟨hsealed, hfinal⟩ := ensureAppend_descriptor s (g.ctx, e.va) (e := e)
  refine ⟨fun hd => ?_, fun hd => ?_⟩ <;>
    refine ready_passes (e := ⟨w, _, _, _⟩) h rfl (execSeal.eq_def w s) ?_ <;>
    simp only [hr, hp0, he0, hsealed, hd, hfinal] <;> rfl

end Instructions

/-! ## Completions -/

section Completions

variable {s : State} {page offset : Nat} {d : AppendDesc}

/-- The published tail of a page whose first open reservation is `rest`'s head (R132). -/
def publishedTail (reserved : Nat) : List Reservation → Nat
  | q :: _ => q.offset
  | [] => reserved

theorem publish_first {r : Reservation} {rest : List Reservation} (hopen : d.open_ = r :: rest) (hr : r.written = true)
    (hc : r.check = none) (hrest : ∀ q ∈ rest, q.written = false) :
    d.open_.takeWhile (fun r => r.written && r.check.isNone) = [r] ∧
      d.publish = { d with open_ := rest, published := publishedTail d.reserved rest } := by
  have htake : rest.takeWhile (fun r => r.written && r.check.isNone) = [] := by
    cases rest with
    | nil => rfl
    | cons q qs => rw [List.takeWhile_cons, hrest q List.mem_cons_self]; rfl
  have hdrop : rest.dropWhile (fun r => r.written && r.check.isNone) = rest := by
    cases rest with
    | nil => rfl
    | cons q qs => rw [List.dropWhile_cons, hrest q List.mem_cons_self]; rfl
  have hfirst : (r.written && r.check.isNone) = true := by rw [hr, hc]; rfl
  refine ⟨?_, ?_⟩
  · rw [hopen, List.takeWhile_cons, if_pos hfirst, htake]
  · unfold AppendDesc.publish
    rw [hopen, List.dropWhile_cons, if_pos hfirst, hdrop]
    cases rest <;> rfl

/-- R131, R132: the first reservation of a page is accepted. -/
theorem exec_appendComplete (hd : Tab.find s.appends page = some d) {r : Reservation} {rest : List Reservation}
    (hopen : d.open_ = r :: rest) (ho : r.offset = offset) (hc : r.check = none)
    (hrest : ∀ q ∈ rest, q.offset ≠ offset ∧ q.written = false) {s1 : State}
    (hs1 : s1 = { s with appends := Tab.insert s.appends page { d with
      open_ := rest, published := publishedTail d.reserved rest } })
    {bytes : List Nat} (hb : bytes = (List.range r.len).map (fun i => page + offset + i)) :
    exec (.appendComplete page offset) s = .next ((s1.touchWatches bytes).perturb r.owner bytes) := by
  subst ho
  have hmap : d.open_.map (fun q => if q.offset = r.offset then { q with written := true } else q) =
      { r with written := true } :: rest := by
    rw [hopen, List.map_cons, if_pos rfl]
    refine congrArg _ ((List.map_congr_left fun q hq => if_neg (hrest q hq).1).trans (List.map_id rest))
  have hfind : Tab.find (s.acceptReservation page r.offset).appends page =
      some { d with open_ := { r with written := true } :: rest } := by
    unfold State.acceptReservation
    rw [tab_find_modify_self, hd, Option.map_some, hmap]
  obtain ⟨htake, hpub⟩ := publish_first (d := { d with open_ := { r with written := true } :: rest }) rfl rfl hc
    fun q hq => (hrest q hq).2
  dsimp only [exec, execAppendComplete]
  unfold State.publish
  rw [hfind]
  dsimp only
  rw [htake, hpub, List.foldl_cons, List.foldl_nil]
  have hinsert : Tab.insert (s.acceptReservation page r.offset).appends page
      { d with open_ := rest, published := publishedTail d.reserved rest } =
      Tab.insert s.appends page { d with open_ := rest, published := publishedTail d.reserved rest } := by
    unfold State.acceptReservation
    dsimp only
    rw [Towpath.tab_modify_of_find _ hd, tab_insert_insert]
  dsimp only
  rw [hinsert, hs1, hb]
  rfl

/-- R135: a SEAL that has arrived completes. -/
theorem exec_sealComplete (hd : Tab.find s.appends page = some d) (ha : d.arrived = true) (hs : d.sealed = false)
    (ho : d.open_ = []) (hh : s.pageHeld page d.size = false) : exec (.sealComplete page) s =
      .next { s with appends := Tab.insert s.appends page { d with sealed := true, final := d.published } } := by
  dsimp only [exec, execSealComplete]
  unfold State.sealNow
  rw [hd]
  dsimp only
  rw [ha, hs, ho, hh]
  rfl

end Completions

/-! ## Purges -/

section Purges

variable {s : State} {page die size : Nat} {pool : Bool}

/-- R138, R222: a die acknowledges. -/
theorem exec_purgeAck {dies : List Nat} (hd : Tab.find s.purges page = some dies) (hm : die ∈ dies)
    (hp : s.purgeOf page = some (size, pool)) {s1 : State}
    (h1 : (if (dies.filter (· != die)).isEmpty then (s.purgeDie die page size pool).purgeDie 4 page size pool
      else s.purgeDie die page size pool) = s1) :
    exec (.purgeAck page die) s =
      .next ({ s1 with purges := Tab.insert s1.purges page (dies.filter (· != die)) } : State).sendCompletions := by
  dsimp only [exec, execPurgeAck]
  rw [hd, hp]
  dsimp only
  rw [if_pos (List.contains_iff_mem.2 hm), h1]

theorem find_filter_none {α : Type} {t : Tab α} {p : Nat × α → Bool} {i : Nat} (h : ∀ x, p (i, x) = false) :
    Tab.find (t.filter p) i = none := by
  induction t with
  | nil => rfl
  | cons q qs ih =>
    obtain ⟨j, x⟩ := q
    rw [List.filter_cons]
    split
    · next hq =>
      have hj : j ≠ i := by rintro rfl; rw [h x] at hq; cases hq
      exact (if_neg hj).trans ih
    · exact ih

theorem mem_of_find {α : Type} {t : Tab α} {i : Nat} {x : α} (h : Tab.find t i = some x) : (i, x) ∈ t := by
  induction t with
  | nil => cases h
  | cons q qs ih =>
    obtain ⟨j, y⟩ := q
    by_cases hj : j = i
    · subst hj
      rw [Tab.find, if_pos rfl] at h
      cases h
      exact List.mem_cons_self
    · rw [Tab.find, if_neg hj] at h
      exact List.mem_cons_of_mem _ (ih h)

theorem mem_mapWith {α : Type} {f : Nat → α → α} {t : Tab α} {q : Nat × α} (h : q ∈ Tab.mapWith f t) :
    ∃ x, q = (q.1, f q.1 x) := by
  induction t with
  | nil => cases h
  | cons p ps ih =>
    obtain ⟨j, y⟩ := p
    rcases List.mem_cons.1 h with rfl | h
    · exact ⟨y, rfl⟩
    · exact ih h

/-- R138, R222: the copies of the frame in a die's core stores are gone. -/
theorem purgeDie_copies {c h : Nat} (hc : coreDie c = die)
    (hi : page ≤ h / 2 * 128 ∧ h / 2 * 128 < page + size) :
    Tab.find ((s.purgeDie die page size pool).core c).copies h = none := by
  unfold State.purgeDie State.core Tab.read
  dsimp only
  rw [tab_find_mapWith]
  cases Tab.find _ c with
  | none => rfl
  | some x =>
    rw [Option.map_some, Option.getD_some, if_pos hc]
    exact find_filter_none fun _ => by simp [hi]

/-- R138, R222: no core of the die holds a token of a line of the frame. -/
theorem purgeDie_tokens {line : Nat} {y : LineTokens} (hi : page ≤ line * 128 ∧ line * 128 < page + size)
    (hy : Tab.find (s.purgeDie die page size pool).tokens line = some y) : ∀ q ∈ y.held, coreDie q.1 ≠ die := by
  intro q hq
  unfold State.purgeDie at hy
  obtain ⟨x, hx⟩ := mem_mapWith (List.mem_filter.1 (mem_of_find hy)).1
  have hx := (Prod.mk.inj hx).2
  dsimp only at hx
  rw [if_pos (by simp [hi])] at hx
  rw [hx] at hq
  simpa using (List.mem_filter.1 hq).2

/-- R137, R138, R222: the replicas of the frame in the die's slices are gone. -/
theorem purgeDie_replicas {line : Nat} (hd : die < 4) (hi : page ≤ line * 128 ∧ line * 128 < page + size) :
    Tab.find (s.purgeDie die page size pool).replicas (line * 4 + die) = none := by
  unfold State.purgeDie
  refine find_filter_none fun _ => ?_
  have h4 : (line * 4 + die) / 4 = line := by omega
  have hm : (line * 4 + die) % 4 = die := by omega
  simp [h4, hm, hi]

end Purges

/-- Settles O29: the conjuncts are the lemmas above. -/
theorem appendPages : Obligations.AppendPages := by
  unfold Obligations.AppendPages
  refine ⟨fun s k g w e => ?instructions, fun s page => ?events⟩
  case instructions =>
    intro who va lanes bs d d0 hp
    refine ⟨fun h hl => apnd_idle h hl, fun h hl hr hs he hd ha => ?_, fun h hr he => exec_apst hp h hr he,
      fun h hr he => exec_seal hp h hr he rfl⟩
    obtain ⟨hfit, hfull⟩ := append_plain (k := k) (g := g) (w := w) (lanes := lanes) (va := va) hp he hd ha
    rw [apnd_appends h hl hr hs]
    exact ⟨fun h => congrArg (fun a : State => Host.Outcome.next (a.advance k w)) (hfit h),
      fun h => congrArg (fun a : State => Host.Outcome.next (a.advance k w)) (hfull h)⟩
  case events =>
    refine ⟨fun d offset hd => ⟨fun r rest hopen ho hc hrest => ?_,
        fun ha hs ho hh => exec_sealComplete hd ha hs ho hh⟩,
      fun dies die size pool hd hm hp => ⟨fun rest e he => ?_, fun he => ?_⟩, fun die dropsDirty size => ?_⟩
    · intro tail s1 bytes
      refine exec_appendComplete hd hopen ho hc hrest ?_ rfl
      cases rest <;> rfl
    · intro s1
      rw [← he]
      exact exec_purgeAck hd hm hp (by rw [he]; rfl)
    · intro s1
      have := exec_purgeAck hd hm hp (by rw [he]; rfl : _ = s1)
      rwa [he] at this
    · intro t inside
      exact ⟨fun c h hc hi => purgeDie_copies hc hi, fun line y hi hy => purgeDie_tokens hi hy,
        fun line hd hi => purgeDie_replicas hd hi, by rintro rfl; rfl⟩

end Sys2Proof.Proofs.Appending
end

section
/-!
PROOFS. Watches: how they are armed, waited for and woken.
-/

namespace Sys2Proof.Proofs.Watching

open Sys2Proof Sys2Proof.Machine Sys2Proof.Laws Sys2Proof.Proofs Sys2Proof.Proofs.Memory Sys2Proof.Proofs.Engines
  Sys2Proof.Proofs.Control

/-! ## MONW -/

section Monw

variable {s : State} {k : Nat} {g : Group} {w : Slot}

/-- R432: a partition whose WATCH flag is clear has no watch in a table. -/
theorem watchHome_clear {ctx pa : Nat} {p : Partition} (hp : s.part ctx = some p) (hw : p.watch = false) :
    s.watchHome ctx k pa = none := by
  unfold State.watchHome State.watchTables
  simp only [hp, hw, Bool.false_and, Bool.false_eq_true, if_false]
  cases homeDie pa <;> rfl

/-- The address of a MONW (R278). -/
def watchAddress (g : Group) (w : Slot) : Nat := wrapInt ((g.s w.a.scalarIndex).toNat + signedOf w.imm.toNat 32) 64

variable (h : ReadyTo (.monw w) s k g)

include h

theorem monw_misaligned (ht : s.trapWaits k = false) (ha : watchAddress g w % (if w.ty.wide then 8 else 4) ≠ 0) :
    exec (.monw w) s = .next (s.trapAt k (trapAll g 0x15 (BitVec.ofNat 64 (watchAddress g w)))) := by
  refine ready_trapFrom (e := ⟨w, _, _, _⟩) h rfl (execMonw.eq_def w s) ht ?_
  exact if_pos (bne_iff_ne.2 ha)

variable (ha : watchAddress g w % (if w.ty.wide then 8 else 4) = 0) {e : TlbEntry}
  (ht : s.translate (g.who k) g.walkFaults (watchAddress g w) .read = .ok e)

include ha ht

/-- R26, R386: a word that answers with the error reply. -/
theorem monw_refused (he : s.errorReply (e.phys (watchAddress g w)) = true) : exec (.monw w) s = .next
    ((((s.modGroup k (fun y => { y with watch := none, watchLost := false })).refuse k
      { code := 0x21, faddr := BitVec.ofNat 64 (watchAddress g w) }).countError (e.phys (watchAddress g w))).advance
        k w) := by
  refine ready_passes (e := ⟨w, _, _, _⟩) h rfl (execMonw.eq_def w s) ?_
  refine (if_neg (bne_iff_ne.not.2 (not_not.2 ha))).trans ?_
  rw [show wrapInt _ 64 = watchAddress g w from rfl, ht]
  exact if_pos he

/-- R278: the watch is armed and evaluated at once. -/
theorem monw_arms (he : s.errorReply (e.phys (watchAddress g w)) = false) : exec (.monw w) s = .next
    ((s.modGroup k (fun y => { y with
      watch := some (s.checkWatch
        { pa := e.phys (watchAddress g w), wide := w.ty.wide, cond := w.mod.extractLsb' 14 4
          ref := s.scalarSource g w w.b, scope := w.mod.extractLsb' 10 3
          home := s.watchHome g.ctx k (e.phys (watchAddress g w)), hit := none })
      watchLost := false })).advance k w) := by
  refine ready_passes (e := ⟨w, _, _, _⟩) h rfl (execMonw.eq_def w s) ?_
  refine (if_neg (bne_iff_ne.not.2 (not_not.2 ha))).trans ?_
  rw [show wrapInt _ 64 = watchAddress g w from rfl, ht]
  exact if_neg (Bool.eq_false_iff.1 he)

end Monw

/-! ## What a wait gives -/

section Now

variable {g : Group} {w : Watch}

theorem mwaitNow_lost (h : g.watchLost = true) : g.mwaitNow = some (2, 0) := if_pos h

theorem mwaitNow_none (h : g.watchLost = false) (hw : g.watch = none) : g.mwaitNow = some (3, 0) := by
  unfold Group.mwaitNow; rw [if_neg (Bool.eq_false_iff.1 h), hw]

theorem mwaitNow_hit (h : g.watchLost = false) (hw : g.watch = some w) {v : Word} (hv : w.hit = some v) :
    g.mwaitNow = some (0, v) := by
  obtain ⟨pa, wide, cond, ref, scope, home, hit⟩ := w
  dsimp only at hv
  subst hv
  unfold Group.mwaitNow
  rw [if_neg (Bool.eq_false_iff.1 h), hw]

theorem mwaitNow_open (h : g.watchLost = false) (hw : g.watch = some w) (hv : w.hit = none) : g.mwaitNow = none := by
  obtain ⟨pa, wide, cond, ref, scope, home, hit⟩ := w
  dsimp only at hv
  subst hv
  unfold Group.mwaitNow
  rw [if_neg (Bool.eq_false_iff.1 h), hw]

end Now

/-! ## MWAIT -/

section Mwait

variable {s : State} {k : Nat} {g : Group} {w : Slot}

theorem mwaitLog_plain (hg : s.group k = some g) (hp : s.runOf (g.who k) = none) (r v : Word) : s.mwaitLog k r v = s := by
  unfold State.mwaitLog
  rw [hg]
  exact logFor_plain hp _ _

variable (h : ReadyTo (.mwait w) s k g) (hp : s.runOf (g.who k) = none)

include h hp

/-- R279: an MWAIT that has its result at once. -/
theorem mwait_gives {r v : Word} (hn : g.mwaitNow = some (r, v)) : exec (.mwait w) s =
    .next ((s.mwaitGive k (destOf w.d0) (destOf w.d1) r v).advance k w) := by
  refine ready_passes (e := ⟨w, _, _, _⟩) h rfl (execMwait.eq_def w s) ?_
  simp only [partOf_plain hp, hn, mwaitLog_plain h.group hp]

/-- R279: an MWAIT that waits. -/
theorem mwait_waits (hn : g.mwaitNow = none) {t : Nat} (ht : (s.scalarSource g w w.a).toNat = t) :
    exec (.mwait w) s = .next
      (s.beginWait k g w (.mwait (if t = 0 then none else some (s.now + t)) (destOf w.d0) (destOf w.d1))) := by
  have hi := ready_issue (e := ⟨w, _, _, _⟩) h rfl (execMwait.eq_def w s)
  rw [hi]
  simp only [partOf_plain hp, hn, ht]
  rfl

end Mwait

/-! ## How waits end -/

section Ends

variable {s : State} {k : Nat} {g : Group} {x : Wait} {deadline d0 d1 : Option Nat}

/-- A scalar register, if one is named, receives a value. -/
def putOpt (y : Group) (d : Option Nat) (v : Word) : Group :=
  match d with
  | some i => y.setS i v
  | none => y

/-- R279: a wait has ended with its reason and value, and the watch is disarmed. -/
def waitEnded (s : State) (k : Nat) (d0 d1 : Option Nat) (reason value : Word) : State :=
  (s.modGroup k (fun y =>
    putOpt (putOpt { y with watch := none, watchLost := false } d0 reason) d1 value)).endWait k

section Waiting

variable (hg : s.group k = some g) (hx : g.wait = some x) (hk : x.kind = .mwait deadline d0 d1)
  (hp : s.runOf (g.who k) = none)

include hg hx hk hp

theorem mwaitEnd_eq (r v : Word) : s.mwaitEnd k r v = (s.mwaitGive k d0 d1 r v).endWait k := by
  obtain ⟨kind, _⟩ := x
  dsimp only at hk
  subst hk
  unfold State.mwaitEnd
  cases g
  dsimp only at hx
  subst hx
  rw [hg]
  dsimp only
  rw [mwaitLog_plain hg hp]

/-- R279: a reason other than 0 acquires nothing. -/
theorem mwaitEnd_other {r : Word} (hr : r ≠ 0) (v : Word) : s.mwaitEnd k r v = waitEnded s k d0 d1 r v := by
  rw [mwaitEnd_eq hg hx hk hp]
  unfold State.mwaitGive
  rw [hg]
  dsimp only
  rw [if_neg hr]
  rfl

/-- R279: reason 0 is an acquire at the watch's scope. -/
theorem mwaitEnd_held {w : Watch} (hw : g.watch = some w) (v : Word) :
    s.mwaitEnd k 0 v = waitEnded (s.acquire (g.who k) w.scope.toNat) k d0 d1 0 v := by
  rw [mwaitEnd_eq hg hx hk hp]
  unfold State.mwaitGive
  rw [hg]
  dsimp only
  rw [if_pos rfl, hw]
  rfl

end Waiting

theorem mwaitPoke_eq (hg : s.group k = some g) {r v : Word} (hn : g.mwaitNow = some (r, v)) :
    s.mwaitPoke k = s.mwaitEnd k r v := by
  unfold State.mwaitPoke
  rw [hg]
  dsimp only
  rw [hn]

theorem exec_wake (hg : s.group k = some g) (early : Bool) :
    (∀ r v, g.mwaitNow = some (r, v) → exec (.mwaitWake k early) s = .next (s.mwaitEnd k r v)) ∧
    (g.mwaitNow = none → exec (.mwaitWake k true) s = .next (s.mwaitEnd k 2 0)) := by
  dsimp only [exec, execMwaitWake]
  rw [hg]
  dsimp only
  refine ⟨fun r v hn => ?_, fun hn => ?_⟩
  · rw [hn, ← mwaitPoke_eq hg hn]
  · rw [hn]; rfl

/-- R279: the time-out has come. -/
theorem exec_timeout (hg : s.group k = some g) (hx : g.wait = some x) {d : Nat} (hk : x.kind = .mwait (some d) d0 d1)
    (hd : d ≤ s.now) : exec (.mwaitTimeout k) s = .next (s.mwaitEnd k 1 0) := by
  obtain ⟨kind, _⟩ := x
  dsimp only at hk
  subst hk
  cases g
  dsimp only at hx
  subst hx
  dsimp only [exec, execMwaitTimeout]
  rw [hg]
  exact if_pos hd

end Ends

/-! ## Evaluations -/

section Evaluations

variable {s : State} {k : Nat} {g : Group} {w : Watch} {v : Word}

/-- R278: a satisfied watch is left alone. -/
theorem satisfied_kept (s : State) (hv : w.hit = some v) (as : List Nat) :
    s.checkWatch w = w ∧ s.evalWatch w = w ∧ s.touchWatch as w = w := by
  have heval : s.evalWatch w = w := by unfold State.evalWatch; rw [hv]
  refine ⟨?_, heval, ?_⟩
  · unfold State.checkWatch; rw [hv]
  · unfold State.touchWatch; rw [heval, ite_self]

/-- R278: a comparison that holds is recorded with its word. -/
theorem checkWatch_records (hw : w.hit = none) (hv : s.watchValue w = some v) (hh : watchHolds w.cond w.wide v w.ref = true) :
    s.checkWatch w = { w with hit := some v } := by
  unfold State.checkWatch
  rw [hw, hv]
  exact if_pos hh

theorem errorReply_of_value (hv : s.watchValue w = some v) : s.errorReply w.pa = false := by
  refine Bool.eq_false_iff.2 fun he => ?_
  unfold State.watchValue at hv
  rw [if_pos he] at hv
  cases hv

theorem recheck_eq (hg : s.group k = some g) (hw : g.watch = some w) :
    s.recheck k = s.modGroup k (fun y => { y with watch := some (s.checkWatch w) }) := by
  unfold State.recheck
  rw [modGroup_of_group hg, modGroup_of_group hg, hw]
  rfl

/-- R278: the re-read of a watch that no table holds. -/
theorem exec_reread (hg : s.group k = some g) (hw : g.watch = some w) (hh : w.home = none) (hv : w.hit = none) :
    (s.errorReply w.pa = true → exec (.watchReread k) s = .next
      (((s.countError w.pa).modGroup k (fun y => { y with watch := none, watchLost := true })).mwaitPoke k)) ∧
    (s.errorReply w.pa = false → exec (.watchReread k) s = .next ((s.recheck k).mwaitPoke k)) := by
  obtain ⟨pa, wide, cond, ref, scope, home, hit⟩ := w
  dsimp only at hh hv
  subst hh hv
  cases g
  dsimp only at hw
  subst hw
  dsimp only [exec, execWatchReread]
  rw [hg]
  exact ⟨fun he => if_pos he, fun he => if_neg (Bool.eq_false_iff.1 he)⟩

theorem mapWith_id {α : Type} {f : Nat → α → α} {t : Tab α} (h : ∀ q ∈ t, f q.1 q.2 = q.2) : Tab.mapWith f t = t := by
  induction t with
  | nil => rfl
  | cons q qs ih =>
    obtain ⟨i, x⟩ := q
    rw [Tab.mapWith, ih fun p hp => h p (List.mem_cons_of_mem _ hp), h (i, x) List.mem_cons_self]

/-- R59: the tables of a die that hold one group's watch evaluate it again. -/
theorem exec_recheck {die : Nat} (hl : ∀ q ∈ s.launches, q.2.watch = none)
    (hks : (s.groups.filter (fun p => (p.2.watch.map (Watch.onDie die)).getD false)).map Prod.fst = [k]) :
    exec (.watchTableRecheck die) s = .next ((s.recheck k).mwaitPoke k) := by
  have hlaunches : Tab.mapWith (fun _ (l : Launch) =>
      { l with watch := l.watch.map (fun w => if w.onDie die then s.checkWatch w else w) }) s.launches = s.launches :=
    mapWith_id fun q hq => by rw [hl q hq, Option.map_none, ← hl q hq]
  dsimp only [exec, execWatchTableRecheck]
  rw [hks, hlaunches]
  rfl

end Evaluations

/-- Settles O30: the conjuncts are the lemmas above, one for each way in which a watch is armed and a wait ends. -/
theorem watches : Obligations.Watches := by
  unfold Obligations.Watches
  refine ⟨fun s k g w => ?instructions, fun s k g x deadline d0 d1 hg hx hk hp => ?events⟩
  case instructions =>
    intro who va t
    exact ⟨fun p pa hpart hw => watchHome_clear hpart hw, fun h e ha ht he => monw_refused h ha ht he,
      fun h e ha ht he => monw_arms h ha ht he, fun h ht ha => monw_misaligned h ht ha,
      fun h hp => ⟨fun hl => mwait_gives h hp (mwaitNow_lost hl), fun hl hw => mwait_gives h hp (mwaitNow_none hl hw),
        fun x v hl hw hv => mwait_gives h hp (mwaitNow_hit hl hw hv),
        fun x hl hw hv => mwait_waits h hp (mwaitNow_open hl hw hv) rfl⟩⟩
  case events =>
    intro put ends
    have hends : ∀ a r v, ends a r v = .next (waitEnded a k d0 d1 r v) := fun _ _ _ => rfl
    have hother : ∀ {r : Word}, r ≠ 0 → ∀ v, Host.Outcome.next (s.mwaitEnd k r v) = ends s r v := fun hr v => by
      rw [hends, mwaitEnd_other hg hx hk hp hr]
    refine ⟨fun w v as hv => satisfied_kept s hv as, fun early hl => ?_, fun early w v hl hw hv => ?_,
      fun w hl hw hv => ⟨?_, fun hh he => (exec_reread hg hw hh hv).1 he, fun v hval hholds => ?_⟩, fun d hd hnow => ?_⟩
    · rw [(exec_wake hg early).1 _ _ (mwaitNow_lost hl)]
      exact hother (by decide) 0
    · rw [(exec_wake hg early).1 _ _ (mwaitNow_hit hl hw hv), hends, mwaitEnd_held hg hx hk hp hw]
    · rw [(exec_wake hg true).2 (mwaitNow_open hl hw hv)]
      exact hother (by decide) 0
    · have hcheck := checkWatch_records hv hval hholds
      have hre : s.recheck k = s.modGroup k (fun y => { y with watch := some { w with hit := some v } }) := by
        rw [recheck_eq hg hw, hcheck]
      refine ⟨hcheck, fun hh => ?_, fun h hh hl hks => ?_⟩
      · rw [(exec_reread hg hw hh hv).2 (errorReply_of_value hval), hre]
      · rw [exec_recheck (k := k) hl ?_, hre]
        rw [← hks]
        refine congrArg _ (List.filter_congr fun p _ => ?_)
        cases p.2.watch with
        | none => rfl
        | some y => obtain ⟨pa, wide, cond, ref, scope, home, hit⟩ := y; cases home <;> rfl
    · subst hd
      rw [exec_timeout hg hx hk hnow]
      exact hother (by decide) 0

end Sys2Proof.Proofs.Watching
end

section
/-!
PROOFS. The launch front end: packets and records, and the life of a launch.
-/

namespace Sys2Proof.Proofs.FrontEnd

open Sys2Proof Sys2Proof.Machine Sys2Proof.Laws Sys2Proof.Proofs Sys2Proof.Proofs.Memory Sys2Proof.Proofs.Engines
  Sys2Proof.Proofs.Control Sys2Proof.Proofs.HostSide

/-! ## KLAUNCH (R209, R210) -/

section Klaunch

theorem extract_toNat {n : Nat} (x : BitVec n) (lo len : Nat) : (x.extractLsb' lo len).toNat = x.toNat / 2 ^ lo % 2 ^ len := by
  rw [BitVec.extractLsb'_toNat, Nat.shiftRight_eq_div_pow]

/-- R210: the fields of a dependence word, as numbers. -/
theorem dependenceOk_eq (dep : Word) : dependenceOk dep =
    (decide (dep.toNat / 2 ^ 57 % 32 = 0) && decide (dep.toNat / 2 ^ 62 < 3) &&
      (decide (dep.toNat / 2 ^ 62 ≠ 0) || decide (dep.toNat % 2 ^ 57 = 0)) &&
      (decide (dep.toNat / 2 ^ 62 ≠ 2) || decide (dep.toNat % 2 ^ 57 % 16 = 0))) := by
  have hlt : dep.toNat / 2 ^ 62 < 4 := by have := dep.isLt; omega
  have hkind : (dep.extractLsb' 62 2).toNat = dep.toNat / 2 ^ 62 :=  
    (extract_toNat ..).trans (Nat.mod_eq_of_lt hlt)
  have harg : (dep.extractLsb' 0 57).toNat = dep.toNat % 2 ^ 57 := by rw [extract_toNat, Nat.pow_zero, Nat.div_one]
  have hzero : (dep.extractLsb' 57 5).toNat = dep.toNat / 2 ^ 57 % 32 := extract_toNat ..
  have hbeq : ∀ {n : Nat} (x y : BitVec n), (x == y) = decide (x.toNat = y.toNat) := fun x y => by
    rw [Bool.eq_iff_iff, beq_iff_eq, decide_eq_true_iff, BitVec.toNat_inj]
  unfold dependenceOk
  simp only [bne, hbeq, hkind, harg, hzero, Nat.reducePow]
  generalize dep.toNat / 4611686018427387904 = kind at hlt
  generalize dep.toNat % 144115188075855872 = arg
  rw [Bool.eq_iff_iff]
  simp
  omega

variable {s : State} {k : Nat} {g : Group} {w : Slot}

/-- A release of a party that is not under check leaves the teams. -/
theorem release_teams {who : Who} (hp : s.runOf who = none) (scope : Nat) : (s.release who scope).teams = s.teams := by
  have hkept : Kept s (coreDie who.core) (fun _ => True) s :=
    { groups := fun j x hx => ⟨x.watch, x.refused, hx⟩, teams := rfl, roots := rfl, bytes := fun _ _ => rfl
      buffer := fun _ _ _ _ => trivial }
  exact (hkept.release rfl hp scope).teams

/-- The ranges that KLAUNCH translates (R209). -/
theorem launchReads_eq (byIndex : Bool) (a cw dep : Word) : launchReads byIndex a cw dep =
    (if byIndex then [] else [(a.toNat, 256)]) ++ (if cw = 0 then [] else [(cw.toNat, 8)]) ++
      (if dep.toNat / 2 ^ 62 = 2 then [(dep.toNat % 2 ^ 57, 16)] else []) := by
  have hlt : dep.toNat / 2 ^ 62 < 4 := by have := dep.isLt; omega
  have hkind : (dep.extractLsb' 62 2).toNat = dep.toNat / 2 ^ 62 :=
    (extract_toNat ..).trans (Nat.mod_eq_of_lt hlt)
  have harg : (dep.extractLsb' 0 57).toNat = dep.toNat % 2 ^ 57 := by rw [extract_toNat, Nat.pow_zero, Nat.div_one]
  unfold launchReads
  rw [harg, ← hkind]
  refine congrArg _ (if_congr ?_ rfl rfl)
  rw [← BitVec.toNat_inj]
  rfl

/-- The operands of a KLAUNCH are as R209 and R210 allow. -/
def launchGood (byIndex : Bool) (a cw dep : Word) : Bool :=
  (if byIndex then decide (a.toNat ≤ 63) else decide (a.toNat % 64 = 0)) && decide (cw.toNat % 8 = 0) && dependenceOk dep

theorem launchBad_eq (byIndex : Bool) (a cw dep : Word) :
    ((if byIndex then decide (63 < a.toNat) else a.toNat % 64 != 0) || cw.toNat % 8 != 0 || !dependenceOk dep) =
      !launchGood byIndex a cw dep := by
  unfold launchGood
  rw [Bool.not_and, Bool.not_and]
  refine congrArg₂ _ (congrArg₂ _ ?_ ?_) rfl
  · cases byIndex
    · rfl
    · exact (decide_eq_decide.2 Nat.not_le.symm).trans (decide_not ..)
  · rfl

section Issue

variable (h : ReadyTo (.klaunch w) s k g) {a cw dep : Word} (ha : s.scalarSource g w w.a = a)
  (hcw : s.scalarSource g w w.b = cw) (hdep : s.scalarSource g w w.c = dep)

include h ha hcw hdep

/-- R210: operands that are not allowed. -/
theorem klaunch_bad (ht : s.trapWaits k = false) (hg : launchGood (w.mod.getLsbD 0) a cw dep = false) :
    exec (.klaunch w) s = .next (s.trapFrom s k (.klaunch w) (trapAll g 0x07 0)) := by
  refine ready_trapFrom (e := ⟨w, _, _, _⟩) h rfl (execKlaunch.eq_def w s) ht ?_
  dsimp only
  rw [ha, hcw, hdep, launchBad_eq, hg]
  rfl

variable (hg : launchGood (w.mod.getLsbD 0) a cw dep = true) {routes : Route}
  (hr : ((launchReads (w.mod.getLsbD 0) a cw dep).map (fun p =>
    s.routeOne (g.who k) g.walkFaults .read .any p.1 p.2)).foldl Route.and (.ok []) = routes)

include hg hr

theorem klaunch_parks {needs : List (Nat × AccessKind)} (hroutes : routes = .miss needs) :
    exec (.klaunch w) s = .next (s.park k needs) := by
  have hi := ready_issue (e := ⟨w, _, _, _⟩) h rfl (execKlaunch.eq_def w s)
  dsimp only at hi
  rw [ha, hcw, hdep, launchBad_eq, hg, hr, hroutes] at hi
  exact hi

theorem klaunch_faults {c va : Nat} (hroutes : routes = .fault c va) (ht : s.trapWaits k = false) :
    exec (.klaunch w) s = .next (s.trapFrom s k (.klaunch w) (trapAll g c (BitVec.ofNat 64 va))) := by
  refine ready_trapFrom (e := ⟨w, _, _, _⟩) h rfl (execKlaunch.eq_def w s) ht ?_
  dsimp only
  rw [ha, hcw, hdep, launchBad_eq, hg, hr, hroutes]
  rfl

/-- R63, R209, R211: the launch packet goes to its queue's front end with the operation in flight. -/
theorem klaunch_launches {ps : List Piece} (hroutes : routes = .ok ps) (hn : g.refused = none)
    (hp : s.runOf (g.who k) = none) : exec (.klaunch w) s = .next (((s.release (g.who k) 4).modGroup k (fun y =>
      y.depart w [.scalar w.d0.scalarIndex] [] 0 none (.klaunch (w.imm.extractLsb' 0 6).toNat
        (launchPacket (w.mod.getLsbD 0) a cw dep) g.ctx (some w.d0.scalarIndex)))).advance k w) := by
  have hp1 : (s.release (g.who k) 4).runOf (g.who k) = none := (runOf_congr _ (release_teams hp 4)).trans hp
  refine ready_passes (e := ⟨w, _, _, _⟩) h rfl (execKlaunch.eq_def w s) ?_
  dsimp only
  rw [ha, hcw, hdep, launchBad_eq, hg, hr, hroutes, Bool.not_true, if_neg Bool.false_ne_true]
  dsimp only
  rw [releasing_none hn, foldOnce_plain hp1, partOf_plain hp1]
  dsimp only
  rw [logFor_plain hp1]

end Issue

end Klaunch

/-! ## Launch windows (R401, R406) -/

section Windows

variable {s : State} {q pasid : Nat} {p : LaunchPacket}

theorem windowCtx_eq {ctx : Nat} {c : Partition} (hq : (s.queue q).ctx = some ctx) (hc : s.part ctx = some c) :
    s.windowCtx q pasid = if c.pasid = pasid then some ctx else none := by
  unfold State.windowCtx
  rw [hq]
  dsimp only
  rw [hc]

theorem windowCtx_unbound (hq : (s.queue q).ctx = none) : s.windowCtx q pasid = none := by
  unfold State.windowCtx
  rw [hq]

/-- R401: the four packets reach the window alike. -/
theorem exec_packet (hi : ∀ i ∈ s.hub.ide, i.2.err = false) {o : Out} (ho : .next (s.windowPacket q pasid p) = o) :
    exec (.launchByRecord q pasid p) s = o ∧ exec (.launchByRegisteredEntry q pasid p) s = o ∧
      exec (.register q pasid p) s = o ∧ exec (.emptyAnEntry q pasid p) s = o := by
  have hlink : Host.Outcome.next (s.onLink (fun a => a.windowPacket q pasid p)) = o :=
    (congrArg _ (onLink_of_clear hi _)).trans ho
  exact ⟨hlink, hlink, hlink, hlink⟩

theorem windowPacket_some {ctx : Nat} (h : s.windowCtx q pasid = some ctx) :
    s.windowPacket q pasid p = (s.accept q ctx p).2 := by
  unfold State.windowPacket
  rw [h]

theorem windowPacket_none (h : s.windowCtx q pasid = none) : s.windowPacket q pasid p = s.dropAccess q := by
  unfold State.windowPacket
  rw [h]

theorem exec_window (hi : ∀ i ∈ s.hub.ide, i.2.err = false) (access : WindowAccess) :
    exec (.launchWindowDrop q access) s = .next (s.windowAccess q access) :=
  congrArg _ (onLink_of_clear hi _)

/-- R401: a write that is no packet is counted where it touches the first 64 bytes. -/
theorem windowAccess_write {off len : Nat} {split : Bool} (ho : off < 64) (hl : 0 < len)
    (hp : off ≠ 0 ∨ len ≠ 64 ∨ split = true ∨ s.windowCtx q pasid = none) :
    s.windowAccess q (.write pasid off len split) = s.dropAccess q := by
  unfold State.windowAccess
  refine if_pos ?_
  rcases hp with hp | hp | hp | hp <;> simp [ho, hl, hp]

theorem windowAccess_above {off len : Nat} {split : Bool} (ho : 64 ≤ off) :
    s.windowAccess q (.write pasid off len split) = s := by
  unfold State.windowAccess
  exact if_neg (by simp [Nat.not_lt.2 ho])

theorem windowAccess_read {off len : Nat} : s.windowAccess q (.read off len) =
    if off < 64 ∧ 0 < len then (s.send (.hostData (List.replicate len 0) false)).dropAccess q
    else s.send (.hostData (List.replicate len 0) false) := by
  unfold State.windowAccess
  exact if_congr (by simp) rfl rfl

end Windows

/-! ## Acceptance (R319, R402, R405) -/

section Accept

variable {s : State} {q ctx : Nat} {p : LaunchPacket}

/-- The state in which an accepted packet is read: it has taken its sequence number (R319). -/
def numbered (s : State) : State := s.modHub (fun h => { h with nextSeq := (s.hub.nextSeq + 1) % 2 ^ 57 })

/-- What the front end reads for a packet of a context, and the queue's binding (R402). -/
def judged (s : State) (q ctx : Nat) (p : LaunchPacket) : Verdict × State :=
  ((numbered s).readPacket ctx p).2.judge q ctx ((s.queue q).ctx == some ctx) p ((numbered s).readPacket ctx p).1

/-- R405: a packet that completes at once. -/
theorem accept_done {a : State} {st arg : Nat} (h : judged s q ctx p = (.done st arg, a)) :
    s.accept q ctx p = (s.hub.nextSeq, a.complete ctx (if p.cw.toNat % 8 = 0 then p.cw else 0) p.irq q
      (BitVec.ofNat 64 (st * 2 ^ 56 + min arg 0xFFFF * 2 ^ 40 + s.hub.nextSeq % 2 ^ 40))) := by
  unfold judged at h
  unfold State.accept
  dsimp only
  rw [show (s.modHub fun h => { h with nextSeq := (s.hub.nextSeq + 1) % 2 ^ 57 }) = numbered s from rfl, h]
  rfl

/-- R319, R321: a packet whose launch enters the queue. -/
theorem accept_queued {a : State} {r : LaunchRecord} (h : judged s q ctx p = (.queued r, a)) :
    s.accept q ctx p =
      (s.hub.nextSeq, a.enqueue s.hub.nextSeq q ctx p ((numbered s).readPacket ctx p).1 r) := by
  unfold judged at h
  unfold State.accept
  dsimp only
  rw [show (s.modHub fun h => { h with nextSeq := (s.hub.nextSeq + 1) % 2 ^ 57 }) = numbered s from rfl, h]

variable {x : PacketRead} {bound : Bool} (hp : p.launches = true)

include hp

theorem judge_lost (h : s.contextLostNow ctx = true) : s.judge q ctx bound p x = (.done 0x08 0, s) := by
  unfold State.judge
  rw [hp, h]
  rfl

variable (hl : s.contextLostNow ctx = false)

include hl

theorem judge_full (hf : ¬ (s.queue q).fifo.length < 256) : s.judge q ctx bound p x = (.done 0x05 0, s) := by
  unfold State.judge
  rw [hp, hl, decide_eq_true (Nat.not_lt.1 hf)]
  rfl

variable (hf : (s.queue q).fifo.length < 256)

include hf

theorem judge_unnamed (hn : ¬ (p.type = 1 ∨ 63 < p.index.toNat ∨ x.entry.isSome = true)) :
    s.judge q ctx bound p x = (.done 0x04 0, s) := by
  obtain ⟨htype, hindex, hentry⟩ := not_or.1 hn |>.imp id not_or.1
  have h2 : (p.type == 2) = true := by
    unfold LaunchPacket.launches at hp
    rw [Bool.or_eq_true, beq_iff_eq] at hp
    exact hp.resolve_left htype
  have hnone : x.entry.isNone = true := by cases hx : x.entry <;> simp_all
  unfold State.judge
  rw [hp, hl, decide_eq_false (Nat.not_le.2 hf), h2, decide_eq_true (Nat.not_lt.1 hindex), hnone]
  rfl

/-- R402, R405: with the entry named, the packet checks come next. -/
theorem judge_named (hn : p.type = 1 ∨ 63 < p.index.toNat ∨ x.entry.isSome = true) {s3 : State} :
    (∀ c, s.packetCode p x ctx bound = (some c, s3) → s.judge q ctx bound p x = (.done 0x03 c, s3)) ∧
    (s.packetCode p x ctx bound = (none, s3) → ∀ r, x.record = some r →
      (∀ c, s3.launchCode ctx p r = some c → s.judge q ctx bound p x = (.done 0x02 c, s3)) ∧
      (s3.launchCode ctx p r = none → s.judge q ctx bound p x = (.queued r, s3))) := by
  have hentry : (p.type == 2 && decide (p.index.toNat ≤ 63) && x.entry.isNone) = false := by
    rcases hn with hn | hn | hn
    · rw [hn]; rfl
    · rw [decide_eq_false (Nat.not_le.2 hn), Bool.and_false, Bool.false_and]
    · cases hx : x.entry with
      | none => rw [hx] at hn; cases hn
      | some e => rw [Option.isNone_some, Bool.and_false]
  unfold State.judge
  rw [hp, hl, decide_eq_false (Nat.not_le.2 hf), hentry]
  refine ⟨fun c hc => ?_, fun hc r hr => ⟨fun c hcode => ?_, fun hcode => ?_⟩⟩
  · rw [hc]; rfl
  all_goals
    rw [hc]
    dsimp only
    rw [hr]
    dsimp only
    rw [hcode]
    rfl

end Accept

/-! ## The checks of a record (R40 to R42) -/

section Records

variable {cs : List (Nat × Bool)}

theorem firstFailing_none : firstFailing cs = none ↔ ∀ p ∈ cs, p.2 = true := by
  unfold firstFailing
  rw [Option.map_eq_none_iff, List.find?_eq_none]
  exact forall₂_congr fun p _ => by simp

/-- R42: of a list of checks in the order of their codes the first that fails has the least code. -/
theorem firstFailing_least (hs : cs.Pairwise (fun a b => a.1 ≤ b.1)) {c : Nat} (h : firstFailing cs = some c) :
    (c, false) ∈ cs ∧ ∀ d, (d, false) ∈ cs → c ≤ d := by
  induction cs with
  | nil => cases h
  | cons p ps ih =>
    obtain ⟨e, b⟩ := p
    obtain ⟨hle, hps⟩ := List.pairwise_cons.1 hs
    cases b with
    | true =>
      obtain ⟨hmem, hleast⟩ := ih hps h
      refine ⟨List.mem_cons_of_mem _ hmem, fun d hd => hleast d ?_⟩
      simpa using hd
    | false =>
      obtain rfl : e = c := Option.some.inj h
      refine ⟨List.mem_cons_self, fun d hd => ?_⟩
      rcases List.mem_cons.1 hd with hd | hd
      · exact (congrArg Prod.fst hd).ge
      · exact hle _ hd

end Records

section Record

variable {s : State} {ctx : Nat} {r : LaunchRecord}

/-- R40 to R42: a record that passes the checks 0x01 to 0x0B, field by field. -/
theorem checks_pass : firstFailing r.checks = none ↔
    (r.fmtver = 1 ∧ r.width.toNat ≤ 2 ∧ 4 ≤ r.vregs.toNat ∧ r.vregs.toNat ≤ 32 ∧
      shapeOk r.clw.toNat r.clh.toNat = true ∧ 1 ≤ r.gpc.toNat ∧ r.gpc.toNat ≤ 64 * (r.clw.toNat * r.clh.toNat) ∧
      (∀ n ∈ [r.gridx.toNat, r.gridy.toNat, r.gridz.toNat], 1 ≤ n) ∧
      r.gridx.toNat * r.gridy.toNat * r.gridz.toNat < 2 ^ 32 ∧
      r.scratch.toNat % 128 = 0 ∧ r.scratch.toNat ≤ 786432 ∧ r.registersFit r.sites = true ∧
      (r.paired = true → r.clw.toNat % 2 = 0) ∧ r.reservedOk = true ∧
      r.entry.toNat % 64 = 0 ∧ r.param.toNat % 64 = 0 ∧ (∀ t ∈ r.trecs, t.toNat % 64 = 0) ∧
      (∀ v ∈ r.slots, slotValid v = true)) := by
  have hpaired : (!r.paired || r.clw.toNat % 2 == 0) = true ↔ (r.paired = true → r.clw.toNat % 2 = 0) := by
    cases r.paired <;> simp
  rw [firstFailing_none]
  unfold LaunchRecord.checks
  simp only [List.forall_mem_cons, Bool.and_eq_true, decide_eq_true_iff, beq_iff_eq, List.all_eq_true, hpaired,
    List.not_mem_nil, false_imp_iff, implies_true, and_true, and_assoc]
  rfl

/-- R42: the codes of the checks rise. -/
theorem checks_rise (r : LaunchRecord) : r.checks.Pairwise (fun a b => a.1 ≤ b.1) := by
  have h : (r.checks.map Prod.fst).Pairwise (· ≤ ·) :=
    show ([1, 2, 3, 4, 5, 6, 7, 8, 9, 10, 11] : List Nat).Pairwise (· ≤ ·) by decide
  exact List.pairwise_map.1 h

theorem recordCode_of_failing {c : Nat} (h : firstFailing r.checks = some c) : s.recordCode ctx r = some c := by
  unfold State.recordCode
  rw [h]

theorem recordCode_of_passing (h : firstFailing r.checks = none) :
    s.recordCode ctx r = if s.placeable ctx r then none else some 0x0C := by
  unfold State.recordCode
  rw [h]

end Record

/-- Settles O48: KLAUNCH by its cases, packets at a window, acceptance by precedence, and the record's checks. -/
theorem launchAcceptance : Obligations.LaunchAcceptance := by
  unfold Obligations.LaunchAcceptance
  refine ⟨fun s k g w => ?klaunch, fun s q pasid p hi => ?windows, fun s q ctx p hp => ?accept, fun s ctx r => ?records⟩
  case klaunch =>
    intro byIndex a cw dep d kind arg good ranges routes h hp
    have hgood : good = launchGood byIndex a cw dep := by
      unfold launchGood
      rw [dependenceOk_eq]
      simp only [← Bool.and_assoc]
      rfl
    have hr : ((launchReads byIndex a cw dep).map (fun p =>
        s.routeOne (g.who k) g.walkFaults .read .any p.1 p.2)).foldl Route.and (.ok []) =
        routes.foldl Route.and (.ok []) := by
      rw [launchReads_eq]
    refine ⟨fun hbad ht => klaunch_bad h rfl rfl rfl ht (hgood ▸ hbad), fun hok => ?_⟩
    rw [hgood] at hok
    refine ⟨fun needs hm => klaunch_parks h rfl rfl rfl hok hr hm,
      fun c va hf ht => klaunch_faults h rfl rfl rfl hok hr hf ht, fun ps hps hn => ?_⟩
    rw [klaunch_launches h rfl rfl rfl hok hr hps hn hp, extract_toNat, Nat.pow_zero, Nat.div_one]
    rfl
  case windows =>
    intro drop dropped gives
    refine ⟨fun ctx c hq hc => ⟨fun hm => ?_, fun hm => ?_⟩, fun hq => ⟨?_, fun off len split ho hl => ?_⟩,
      fun off len => ?_, fun off len split ho => ?_, fun off len split ho hl hw => ?_⟩
    · refine exec_packet hi (congrArg _ (windowPacket_some ?_))
      rw [windowCtx_eq hq hc, if_pos hm]
    · refine exec_packet hi (congrArg _ (windowPacket_none ?_))
      rw [windowCtx_eq hq hc, if_neg hm]
    · exact exec_packet hi (congrArg _ (windowPacket_none (windowCtx_unbound hq)))
    · rw [exec_window hi, windowAccess_write ho hl (.inr (.inr (.inr (windowCtx_unbound hq))))]
      rfl
    · rw [exec_window hi, windowAccess_read]
      rfl
    · rw [exec_window hi, windowAccess_above ho]
    · rw [exec_window hi, windowAccess_write ho hl (hw.imp id (Or.imp id Or.inl))]
      rfl
  case accept =>
    intro seq s1 x s2 room named code s3 done
    refine ⟨fun hl => accept_done (judge_lost hp hl), fun hl hf => accept_done (judge_full hp hl hf),
      fun hl hf hn => accept_done (judge_unnamed hp hl hf hn), fun hl hf hn => ?_⟩
    obtain ⟨hcode, hrecord⟩ := judge_named (bound := (s.queue q).ctx == some ctx) hp hl hf hn (s3 := s3)
    refine ⟨fun c hc => accept_done (hcode c (Prod.ext hc rfl)), fun r hc hr => ?_⟩
    obtain ⟨hfails, hpasses⟩ := hrecord (Prod.ext hc rfl) r hr
    exact ⟨fun c hcode => accept_done (hfails c hcode), fun hcode => accept_queued (hpasses hcode)⟩
  case records =>
    refine ⟨checks_pass, fun c hc => ⟨recordCode_of_failing hc, firstFailing_least (checks_rise r) hc⟩, fun hn => ?_⟩
    rw [recordCode_of_passing hn]
    cases s.placeable ctx r <;> simp

/-! ## The life of a launch (R55, R321 to R323) -/

section Life

variable {s : State} {seq : Nat} {l : Launch}

theorem dependenceSeen_hit {w : Watch} (hw : l.watch = some w) (hh : w.hit ≠ none) : s.dependenceSeen l = (true,
    s) := by
  obtain ⟨v, hv⟩ := Option.ne_none_iff_exists'.1 hh
  obtain ⟨pa, wide, cond, ref, scope, home, hit⟩ := w
  dsimp only at hv
  subst hv
  unfold State.dependenceSeen
  rw [hw]

theorem dependenceSeen_open (h : ∀ w, l.watch = some w → w.hit = none) : s.dependenceSeen l = s.dependenceMet l := by
  unfold State.dependenceSeen
  cases hw : l.watch with
  | none => rfl
  | some w =>
    have hh := h w hw
    obtain ⟨pa, wide, cond, ref, scope, home, hit⟩ := w
    dsimp only at hh
    subst hh
    rfl

theorem exec_dependenceHolds (hs : s.launch seq = some l) (hw : l.state = .waiting) {s1 : State}
    (hd : s.dependenceSeen l = (true, s1)) :
    exec (.dependenceHolds seq) s = .next ((s1.becomeReady seq).settleQueue l.queue) := by
  dsimp only [exec, execDependenceHolds]
  rw [hs]
  dsimp only
  rw [if_pos hw, hd]

theorem exec_clusterSend (hs : s.launch seq = some l) (hn : s.servesNow seq l = true) {d n : Nat}
    (hc : s.chooseDie l.record (s.sendDies l.ctx) = some (d, n)) :
    exec (.clusterSend seq) s = .next (s.sendTo seq d l) := by
  dsimp only [exec, execClusterSend]
  rw [hs]
  dsimp only
  rw [if_pos hn, hc]

/-- R55, R118: a launch whose clusters have exited and whose checks are resolved. -/
theorem exec_launchComplete (hs : s.launch seq = some l) (hr : l.state = .resolving)
    (hc : ∀ p ∈ s.clusters, p.2.launch ≠ seq) (hk : ∀ p ∈ s.checks, p.2.launch ≠ seq) {s1 : State}
    (h1 : ((((s.drainAll 0).drainAll 1).drainAll 2).drainAll 3).drainAll 4 = s1) :
    (s1.snoopsOwed = true → exec (.launchComplete seq) s = .next s1) ∧
    (s1.snoopsOwed = false → exec (.launchComplete seq) s =
      .next ((s1.finishLaunch seq l.outcome.1 l.outcome.2).settleQueue l.queue)) := by
  have hclusters : s.clusters.any (fun p => p.2.launch = seq) = false := List.any_eq_false.2 fun p hp => by
    simpa using hc p hp
  have hchecks : s.checks.any (fun p => p.2.launch = seq) = false := List.any_eq_false.2 fun p hp => by
    simpa using hk p hp
  dsimp only [exec, execLaunchComplete]
  rw [hs]
  dsimp only
  rw [hr, hclusters, hchecks]
  simp only [List.foldl_cons, List.foldl_nil, h1]
  exact ⟨fun h => if_pos h, fun h => if_neg (Bool.eq_false_iff.1 h)⟩

/-- R323: a die is chosen where there is one. -/
theorem chooseDie_some (r : LaunchRecord) {ds : List Nat} (h : ds ≠ []) : ∃ d n, s.chooseDie r ds = some (d, n) := by
  cases ds with
  | nil => exact absurd rfl h
  | cons d ds =>
    unfold State.chooseDie
    split
    · split <;> exact ⟨_, _, rfl⟩
    · exact ⟨_, _, rfl⟩

/-- R323: of the dies considered none has more free placements than the one chosen, and those before it have fewer. -/
theorem chooseDie_best (r : LaunchRecord) {ds : List Nat} (hs : ds.Pairwise (· < ·)) {d n : Nat}
    (h : s.chooseDie r ds = some (d, n)) : d ∈ ds ∧ n = s.freePlacements d r ∧
      ∀ e ∈ ds, s.freePlacements e r ≤ n ∧ (e < d → s.freePlacements e r < n) := by
  induction ds generalizing d n with
  | nil => cases h
  | cons x xs ih =>
    obtain ⟨hlt, hxs⟩ := List.pairwise_cons.1 hs
    unfold State.chooseDie at h
    split at h
    · next y m hy =>
      obtain ⟨hmem, hm, hbest⟩ := ih hxs hy
      split at h
      · next hle =>
        cases h
        refine ⟨List.mem_cons_self, rfl, fun e he => ?_⟩
        rcases List.mem_cons.1 he with rfl | he
        · exact ⟨Nat.le_refl _, fun h => absurd h (Nat.lt_irrefl _)⟩
        · exact ⟨(hbest e he).1.trans hle, fun h => absurd h (Nat.lt_asymm (hlt e he))⟩
      · next hle =>
        cases h
        refine ⟨List.mem_cons_of_mem _ hmem, hm, fun e he => ?_⟩
        rcases List.mem_cons.1 he with rfl | he
        · exact ⟨(Nat.not_le.1 hle).le, fun _ => Nat.not_le.1 hle⟩
        · exact hbest e he
    · next hnone =>
      cases h
      have hnil : xs = [] := by
        by_contra hne
        obtain ⟨d, n, hd⟩ := chooseDie_some (s := s) r hne
        rw [hnone] at hd
        cases hd
      subst hnil
      refine ⟨List.mem_cons_self, rfl, fun e he => ?_⟩
      obtain rfl := List.mem_singleton.1 he
      exact ⟨Nat.le_refl _, fun h => absurd h (Nat.lt_irrefl _)⟩

end Life

/-- Settles O49: the moves of a launch, and the choice of the die by induction on the dies. -/
theorem launchesMove : Obligations.LaunchesMove := by
  unfold Obligations.LaunchesMove
  refine ⟨fun s seq l hs => ⟨fun s1 hw hd hopen => ?_, fun w hw hwatch hhit => ?_,
      fun d n hn hc => exec_clusterSend hs hn hc,
    fun hr hc hk => ?_⟩, fun s r ds hds => ⟨chooseDie_some r, fun d n h => chooseDie_best r hds h⟩⟩
  · exact exec_dependenceHolds hs hw ((dependenceSeen_open hopen).trans hd)
  · exact exec_dependenceHolds hs hw (dependenceSeen_hit hwatch hhit)
  · intro s1
    obtain ⟨howed, hdone⟩ := exec_launchComplete hs hr hc hk (s1 := s1) rfl
    refine ⟨howed, fun h => ?_⟩
    rw [hdone h]
    unfold Launch.outcome
    refine congrArg (fun a : State => Host.Outcome.next (a.settleQueue l.queue)) ?_
    repeat' (split; · rfl)
    rfl

end Sys2Proof.Proofs.FrontEnd
end

section
/-!
PROOFS. The registers of management space that are written with an effect.
-/

namespace Sys2Proof.Proofs.Registering

open Sys2Proof Sys2Proof.Machine Sys2Proof.Laws Sys2Proof.Proofs Sys2Proof.Proofs.Platform

/-! ## Groups of hub cores (R425, R426) -/

section Hub

variable {s : State} {hub : Nat} {addr : BitVec 64}

/-- R426: the group that HC_GO starts. -/
def hubGroup (s : State) (hub ctx gid pc : Nat) : Group :=
  { core := 576 + hub, team := s.nextKey + 1, ctx := ctx, gid := gid, tindex := gid, width := 16, vregs := 64
    system := true, pc := pc, gtSince := some s.now, age := s.now }

/-- R426: HC_GO starts a group with the lowest free index. -/
theorem hcGo_starts {ctx gid : Nat} (hh : hub < 4) (hctx : (Tab.read 0 s.hub.hcCtx hub).toNat = ctx)
    (hr : ctx = 0 ∨ ∃ p, s.part ctx = some p ∧ p.state = .switchedIn)
    (hg : (List.range 16).find? (fun i => !((s.hubGroups hub).map (fun p => p.2.gid)).contains i) = some gid) :
    ∃ t, exec (.hcGo hub addr) s = .next t ∧
      t.groups = Tab.insert s.groups s.nextKey (hubGroup s hub ctx gid addr.toNat) := by
  have hle : decide (4 ≤ hub) = false := decide_eq_false (Nat.not_le.2 hh)
  dsimp only [exec, execHcGo]
  unfold State.startHubGroup
  rcases hr with h0 | ⟨p, hp, hs⟩
  · simp only [hctx, hg, h0, hle, decide_true, Bool.true_or, Bool.not_true, Bool.or_self, Bool.false_eq_true, if_false]
    exact ⟨_, rfl, rfl⟩
  · simp only [hctx, hg, hp, hs, hle, decide_true, Bool.or_true, Bool.not_true, Bool.or_self, Bool.false_eq_true,
      if_false]
    exact ⟨_, rfl, rfl⟩

/-- R426: a context that is not switched in starts none. -/
theorem hcGo_ignored {p : Partition} (hc : Tab.read 0 s.hub.hcCtx hub ≠ 0)
    (hp : s.part (Tab.read 0 s.hub.hcCtx hub).toNat = some p) (hs : p.state ≠ .switchedIn) :
    exec (.hcGo hub addr) s = .next s := by
  have hne : (Tab.read 0 s.hub.hcCtx hub).toNat ≠ 0 := fun h => hc (BitVec.eq_of_toNat_eq h)
  dsimp only [exec, execHcGo]
  unfold State.startHubGroup
  simp only [hp, decide_eq_false hne, decide_eq_false hs, Bool.or_self, Bool.not_false, Bool.true_or, if_true]
  split <;> rfl

end Hub

/-! ## Debugging (R427) -/

section Debug

variable {s : State} {k slot : Nat} {rest : List (Nat × Nat)} (h : s.hub.stopped = (k,
    slot) :: rest) {g : Group} {w : Slot}
  (hg : s.group k = some g)

include h hg

theorem debug_resumes (hw : { g with debugStop := false }.hereSlot = some w) : exec .dbgResumeGroup s =
    .next (((s.modHub (fun h => { h with stopped := rest })).modGroup k (fun x => { x with debugStop := false })).advance
      k w) := by
  dsimp only [exec, execDbgResumeGroup]
  unfold State.debugResume
  rw [h]
  dsimp only
  rw [modGroup_group, show (s.modHub (fun h => { h with stopped := rest })).group k = some g from hg, Option.map_some]
  dsimp only
  rw [hw]

theorem debug_ends (hw : g.hereSlot = some w) : exec .dbgEndTeam s =
    .next ((s.modHub (fun h => { h with stopped := rest })).fatalTrap k { code := 0x0B, arg := w.imm.toNat % 65536 }
      false slot) := by
  dsimp only [exec, execDbgEndTeam]
  unfold State.debugEnd
  rw [h]
  dsimp only
  rw [hg]
  dsimp only
  rw [hw]

end Debug

/-! ## First-touch pools (R434, R436) -/

section Pools

variable {s : State} {die ctx : Nat} {addr : BitVec 64}

/-- R436: a die in steps 4 and 5 of its warm reset counts an error reply. -/
theorem dieWrite_down (h : s.dieDown die = true) (act : State → State) :
    s.dieWrite die act = s.modDie die (fun x => { x with resetErrors := x.resetErrors + 1 }) :=
  (if_pos h).trans (if_pos h)

theorem dieWrite_up (h : s.dieDown die = false) (act : State → State) : s.dieWrite die act = act s :=
  if_neg (Bool.eq_false_iff.1 h)

variable {d : Die} (hd : Tab.find s.dies die = some d) (hr : region addr.toNat = .hbm die)

include hd hr

/-- R434: a frame that suits the pool joins it. -/
theorem addFrame_joins :
    (addr.toNat % 65536 = 0 → (Tab.read [] d.pool64 ctx).length < 65536 → s.addFrame die ctx false addr.toNat =
      s.modDie die (fun x => { x with pool64 := Tab.insert x.pool64 ctx (Tab.read [] d.pool64 ctx ++ [addr.toNat]) })) ∧
    (addr.toNat % 2097152 = 0 → (Tab.read [] d.pool2m ctx).length < 65536 → s.addFrame die ctx true addr.toNat =
      s.modDie die (fun x => { x with
        pool2m := Tab.insert x.pool2m ctx (Tab.read [] d.pool2m ctx ++ [addr.toNat]) })) := by
  have hdie : s.die die = d := by rw [State.die, Tab.read, hd]; rfl
  unfold State.addFrame
  rw [hdie, hr, bne_self_eq_false]
  refine ⟨fun ha hl => ?_, fun ha hl => ?_⟩
  · exact if_neg (by simp [ha, hl])
  · exact (if_neg (by simp [ha, hl])).trans (if_pos rfl)

end Pools

/-- R28: a write of a register is that of its block and offset, where one answers. -/
theorem exec_registerWrite {s : State} {addr : Nat} (v : BitVec 64) (hr : region addr = .management) (ha : addr % 8 = 0) :
    (s.errorReply addr = true → exec (.mgmtRegisterWrite addr v) s = .next (s.countError addr)) ∧
    (s.errorReply addr = false → exec (.mgmtRegisterWrite addr v) s = .next (s.writeReg addr v)) := by
  dsimp only [exec, execMgmtRegisterWrite]
  rw [decide_eq_true hr, decide_eq_true ha]
  exact ⟨fun h => by rw [h]; rfl, fun h => by rw [h]; rfl⟩

/-- Settles O56: the conjuncts are the lemmas above, one for each register. -/
theorem managementWrites : Obligations.ManagementWrites := by
  unfold Obligations.ManagementWrites
  refine fun s => ⟨fun hub addr gid hh => ?hcGo, fun hub addr p hc hp hs => hcGo_ignored hc hp hs,
    fun hub gid hh => if_pos hh, fun k slot rest h => ⟨fun g w hg hw => debug_resumes h hg hw,
    fun g w hg hw => debug_ends h hg hw⟩, fun die ctx addr hd i hi => ?down, fun die d ctx addr hdown hd hr => ?pools,
    fun q v hq hf => qBind_of_empty s hq hf, fun addr v hr ha => exec_registerWrite v hr ha⟩
  case hcGo =>
    intro ctx hr hg
    obtain ⟨t, ht, hgroups⟩ := hcGo_starts (addr := addr) hh rfl hr hg
    refine ⟨t, hubGroup s hub ctx gid addr.toNat, ht, ?_, rfl, rfl, rfl, rfl, rfl, rfl, rfl, fun j hj => ?_⟩
    · rw [State.group, hgroups, tab_find_insert_self]
    · rw [State.group, hgroups, tab_find_insert_ne hj]; rfl
  case down =>
    rcases List.mem_cons.1 hi with rfl | hi
    · exact congrArg _ (dieWrite_down hd _)
    · obtain rfl := List.mem_singleton.1 hi
      exact congrArg _ (dieWrite_down hd _)
  case pools =>
    obtain ⟨hsmall, hbig⟩ := addFrame_joins (ctx := ctx) hd hr
    exact ⟨fun ha hl => congrArg _ ((dieWrite_up hdown _).trans (hsmall ha hl)),
      fun ha hl => congrArg _ ((dieWrite_up hdown _).trans (hbig ha hl))⟩

end Sys2Proof.Proofs.Registering
end

section
/-!
PROOFS. Fault injection and the health of the device.
-/

namespace Sys2Proof.Proofs.HealthLife

open Sys2Proof Sys2Proof.Machine Sys2Proof.Laws Sys2Proof.Proofs Sys2Proof.Proofs.HostSide Sys2Proof.Proofs.Appending
  Sys2Proof.Proofs.Registering

/-! ## Injection (R362) -/

section Injection

variable {s : State} {k : Nat} {w : Slot} {g h : Group}

theorem putVec_clear (hi : s.injectionFor g w = none) : s.putVec k w g h = s.setGroup k h := by
  unfold State.putVec; rw [hi]

variable {i : Inject} (hi : s.injectionFor g w = some i)

include hi

/-- R362: an injection that strikes changes the result's group, its die's counter and the mark of the team's check. -/
theorem putVec_struck : ∃ checks, s.putVec k w g h = { (s.setGroup k (i.strike w h)).modDie (coreDie g.core)
      (fun d => { d with inject := d.inject.fire }) with checks := checks } ∧
    ∀ c r, (s.teamOf g).run = some (c, r) → checks = Tab.modify s.checks c (fun x => { x with injected := true }) := by
  unfold State.putVec
  rw [hi]
  dsimp only
  cases hr : (s.teamOf g).run with
  | none => exact ⟨s.checks, rfl, fun c r h => by cases h⟩
  | some p =>
    refine ⟨_, rfl, fun c r h => ?_⟩
    obtain rfl := Option.some.inj h
    rfl

theorem putVec_group (hf : w.sf = .none) : (s.putVec k w g h).group k = some (h.setV w.d0.vecIndex i.lane.toNat
    (h.v w.d0.vecIndex i.lane.toNat ^^^ (1#32 <<< i.bit.toNat))) := by
  obtain ⟨checks, hp, -⟩ := putVec_struck (k := k) (h := h) hi
  have hs : i.strike w h = h.setV w.d0.vecIndex i.lane.toNat
      (h.v w.d0.vecIndex i.lane.toNat ^^^ (1#32 <<< i.bit.toNat)) := by
    unfold Inject.strike
    rw [hf]
  rw [hp, hs]
  exact tab_find_insert_self ..

theorem putVec_counts {x : Die} (hx : Tab.find s.dies (coreDie g.core) = some x) :
    Tab.find (s.putVec k w g h).dies (coreDie g.core) = some { x with inject := x.inject.fire } := by
  obtain ⟨checks, hp, -⟩ := putVec_struck (k := k) (h := h) hi
  rw [hp]
  exact tab_find_modify_self.trans (congrArg (Option.map _) hx)

theorem putVec_marks {c r : Nat} (hr : (s.teamOf g).run = some (c, r)) {x : Check} (hx : s.check c = some x) :
    (s.putVec k w g h).check c = some { x with injected := true } := by
  obtain ⟨checks, hp, hc⟩ := putVec_struck (k := k) (h := h) hi
  rw [hp, State.check, hc c r hr]
  exact tab_find_modify_self.trans (congrArg (Option.map _) hx)

end Injection

/-! ## Decay (R358) -/

/-- A site's demerits fall by one, where it has any. -/
def decayed (h : SiteHealth) : SiteHealth := { h with demerits := if h.demerits = 0 then 0 else h.demerits - 1 }

theorem decayed_demerits (h : SiteHealth) : (decayed h).demerits.toNat = h.demerits.toNat - 1 := by
  unfold decayed
  dsimp only
  split
  · next h0 => rw [h0]; rfl
  · next h0 =>
    have hpos : h.demerits.toNat ≠ 0 := fun hz => h0 (BitVec.eq_of_toNat_eq hz)
    have hlt := h.demerits.isLt
    rw [BitVec.toNat_sub]
    change (2 ^ 4 - 1 + h.demerits.toNat) % 2 ^ 4 = _
    omega

theorem find_filter_sorted {α : Type} {t : Tab α} {n i : Nat} {p : Nat × α → Bool} (h : Tab.sortedFrom n t = true) :
    Tab.find (t.filter p) i = (Tab.find t i).filter (fun x => p (i, x)) := by
  induction t generalizing n with
  | nil => rfl
  | cons q qs ih =>
    obtain ⟨j, x⟩ := q
    rw [Tab.sortedFrom, Bool.and_eq_true] at h
    have hrest := ih h.2
    by_cases hj : j = i
    · subst hj
      rw [Tab.find, if_pos rfl, List.filter_cons, Option.filter_some]
      split
      · exact if_pos rfl
      · rw [hrest, tab_find_below h.2 (Nat.lt_succ_self j)]; rfl
    · rw [Tab.find, if_neg hj, List.filter_cons]
      split
      · exact (if_neg hj).trans hrest
      · exact hrest

theorem sorted_mapWith {α : Type} {f : Nat → α → α} {t : Tab α} {n : Nat} (h : Tab.sortedFrom n t = true) :
    Tab.sortedFrom n (Tab.mapWith f t) = true := by
  induction t generalizing n with
  | nil => rfl
  | cons q qs ih =>
    rw [Tab.sortedFrom, Bool.and_eq_true] at h
    rw [Tab.mapWith, Tab.sortedFrom, h.1, ih h.2]
    rfl

/-- R358: what the canonical table of sites reads after the decay. -/
theorem read_decayed {sites : Tab SiteHealth} (h : Tab.wf {} sites = true) (site : Nat) :
    (Tab.read {} ((Tab.mapWith (fun _ => decayed) sites).filter (fun p => p.2 != {})) site).demerits.toNat =
      (Tab.read {} sites site).demerits.toNat - 1 := by
  have hs : Tab.sortedFrom 0 sites = true := (Bool.and_eq_true _ _ ▸ h).1
  unfold Tab.read
  rw [find_filter_sorted (sorted_mapWith hs), tab_find_mapWith]
  cases Tab.find sites site with
  | none => rfl
  | some x =>
    rw [Option.map_some, Option.filter_some, Option.getD_some, ← decayed_demerits x]
    split
    · rfl
    · next hx =>
      have hx : decayed x = {} := by simpa using hx
      rw [hx]; rfl

section Events

variable {s : State}

/-- R358: after another 604,800 s of powered time every nonzero count falls by one. -/
theorem exec_decay (h : (s.hub.decays + 1) * 604800 ≤ s.poweredSeconds) : ∃ t, exec .demeritDecay s = .next t ∧
    t.hub.decays = s.hub.decays + 1 ∧ t.dies = Tab.mapWith (fun _ d => { d with
      sites := (Tab.mapWith (fun _ => decayed) d.sites).filter (fun p => p.2 != {}) }) s.dies :=
  ⟨_, if_pos h, rfl, rfl⟩

/-- R358: a die after the decay. -/
theorem decay_die {t : State} (ht : t.dies = Tab.mapWith (fun _ d => { d with
      sites := (Tab.mapWith (fun _ => decayed) d.sites).filter (fun p => p.2 != {}) }) s.dies)
    {die : Nat} {d : Die} (hd : Tab.find s.dies die = some d) (hw : Tab.wf {} d.sites = true) (site : Nat) :
    ((t.die die).health site).demerits.toNat = (d.health site).demerits.toNat - 1 ∧ (t.die die).fenced = d.fenced := by
  have hdie : t.die die = { d with
      sites := (Tab.mapWith (fun _ => decayed) d.sites).filter (fun p => p.2 != {}) } := by
    rw [State.die, Tab.read, ht, tab_find_mapWith, hd]; rfl
  rw [hdie]
  exact ⟨read_decayed hw site, rfl⟩

/-! ## Mace (R360) -/

theorem mace_starts {core unit : Nat} {outcome : MaceOutcome} (hm : (s.core core).mace = none)
    (hi : s.maceIdle core = true) (hn : s.maceNext core = true) : exec (.maceSegment core unit outcome) s =
      .next (s.modCore core (fun c => { c with mace := some unit })) := by
  dsimp only [exec, execMaceSegment]
  rw [hm]
  exact if_pos (by rw [hi, hn]; rfl)

/-- R357, R360, R367: a running segment ends. -/
theorem mace_ends {core unit u : Nat} (hm : (s.core core).mace = some u) :
    exec (.maceSegment core unit .aborted) s = .next (s.modCore core (fun c => { c with mace := none })) ∧
    exec (.maceSegment core unit .passed) s = .next (s.maceResult core u false) ∧
    exec (.maceSegment core unit .failed) s = .next (s.maceResult core u true) := by
  dsimp only [exec, execMaceSegment]
  rw [hm]
  exact ⟨rfl, rfl, rfl⟩

/-! ## Snapshots (R416) -/

theorem getHealth_newest {x : Snapshot} {rest : List Snapshot} (h : s.hub.snapshots = x :: rest) (offset len : Nat) :
    exec (.getHealth 0 offset len) s =
      .next (s.send (.health x.lastSeq ((x.bytes.drop offset).take (min len 64)))) := by
  dsimp only [exec, execGetHealth]
  rw [h]
  rfl

theorem hrLatch_shows {x : Snapshot} {rest : List Snapshot} (h : s.hub.snapshots = x :: rest)
    (hi : ∀ i ∈ s.hub.ide, i.2.err = false) :
    exec .hrLatch s = .next (s.modHub (fun h => { h with latched := some x })) := by
  dsimp only [exec, execHrLatch]
  rw [onLink_of_clear hi]
  unfold State.modHub
  dsimp only
  rw [h]
  rfl

end Events

/-- Settles O52: the conjuncts are the lemmas above; the decay goes by the canonical table of sites. -/
theorem healthEvents : Obligations.HealthEvents := by
  unfold Obligations.HealthEvents
  refine ⟨fun s k w g h => ⟨putVec_clear, fun i hi => ?strike⟩, fun s => ⟨fun die site hp hb => ?fence, fun h => ?decay,
    fun core unit outcome hm hi hn => mace_starts hm hi hn, fun core unit u hm => ?mace,
    fun x rest h => ⟨hrLatch_shows h, getHealth_newest h⟩, fun die mask h => if_pos h, fun die mask h => ?clear,
    fun die v hd => congrArg _ (dieWrite_down hd _), fun die v hd hi => ?inject⟩⟩
  case strike =>
    intro t
    refine ⟨fun hf => ⟨_, putVec_group hi hf, rfl⟩, fun x hx => ⟨_, putVec_counts hi hx, rfl, fun h1 => ?_⟩,
      fun c r hr x hx => ⟨_, putVec_marks hi hr hx, rfl⟩⟩
    unfold Inject.fire
    rw [h1, bne_self_eq_false, Bool.and_false]
  case fence => exact if_pos (by rw [hp, hb]; rfl)
  case decay =>
    obtain ⟨t, ht, hdecays, hdies⟩ := exec_decay h
    exact ⟨t, ht, hdecays, fun die d site hd hw => decay_die hdies hd hw site⟩
  case mace =>
    obtain ⟨haborted, hpassed, hfailed⟩ := mace_ends (unit := unit) hm
    exact ⟨haborted, hpassed, hfailed⟩
  case clear => exact if_neg (not_not.2 h)
  case inject => exact congrArg _ ((dieWrite_up hd _).trans (if_pos hi))

end Sys2Proof.Proofs.HealthLife
end

section
/-!
PROOFS. The confidential interface and the links.
-/

namespace Sys2Proof.Proofs.LinkLife

open Sys2Proof Sys2Proof.Machine Sys2Proof.Laws Sys2Proof.Proofs Sys2Proof.Proofs.HostSide

/-! ## The interface (R407, R408) -/

section Interface

variable {s : State}

/-- R407: what locked and RUN do on a failure. -/
theorem frozen_iff {x : TdispState} : x.frozen = true ↔ x = .locked ∨ x = .run := by
  unfold TdispState.frozen
  simp only [Bool.or_eq_true, decide_eq_true_iff]

theorem exec_stopInterface (h : s.hub.tdisp = .run ∨ s.hub.tdisp = .error) : exec .stopInterfaceRequest s =
    .next ((s.confidentialContexts.foldl State.clearStores s.eraseKeys).toTdisp .unlocked) := by
  refine if_pos ?_
  rcases h with h | h <;> rw [h] <;> rfl

theorem exec_ideKm (i : Nat) :
    (s.hub.tdisp = .unlocked → exec (.ideKm i) s = .next (s.setStream i { programmed := true, err := false })) ∧
    (s.hub.tdisp = .locked ∨ s.hub.tdisp = .run → exec (.ideKm i) s = .next s.enterError) := by
  dsimp only [exec, execIdeKm]
  refine ⟨fun h => by rw [h], fun h => ?_⟩
  rcases h with h | h <;> rw [h]

/-- R408: a failure on a stream. -/
theorem exec_macFailure (i : Nat) {s1 : State}
    (h1 : s1 = s.setStream i { (Tab.read {} s.hub.ide i) with err := true }) :
    (s.hub.tdisp = .unlocked ∨ s.hub.tdisp = .error → exec (.ideMacFailure i) s = .next s1) ∧
    (s.hub.tdisp = .locked ∨ s.hub.tdisp = .run → exec (.ideMacFailure i) s = .next s1.enterError) := by
  subst h1
  refine ⟨fun h => if_neg ?_, fun h => if_pos (frozen_iff.2 h)⟩
  rcases h with h | h <;> rw [h] <;> decide

/-- R409, R415: a key is loaded in RUN and inside a session only. -/
theorem exec_keyLoad (slot ctx : Nat) (key : BitVec 256) (salt : BitVec 32) (hwm : BitVec 64) :
    (s.hub.tdisp = .run → s.hub.session = .established → exec (.keyLoad slot ctx key salt hwm) s =
      .next (s.modHub (fun h => { h with
        keys := Tab.insert h.keys slot { key := key, salt := salt, ctx := ctx, hwm := hwm } }))) ∧
    (s.hub.tdisp ≠ .run ∨ s.hub.session ≠ .established → exec (.keyLoad slot ctx key salt hwm) s = .next s) := by
  refine ⟨fun hr hs => if_pos (by rw [hr, hs]; rfl), fun h => if_neg fun hc => ?_⟩
  rw [Bool.and_eq_true, decide_eq_true_iff, decide_eq_true_iff] at hc
  exact h.elim (· hc.1) (· hc.2)

/-- R408: a TLP of a stream in the error state is discarded. -/
theorem onLink_discards {p : Nat × IdeStream} (hp : p ∈ s.hub.ide) (he : p.2.err = true)
    (hn : (Tab.read {} s.hub.ide (s.freeNat.1 % 5)).err = true) (act : State → State) : s.onLink act = s.freeNat.2 := by
  unfold State.onLink
  rw [if_pos (List.any_eq_true.2 ⟨p, hp, he⟩)]
  exact if_pos hn

/-- R415: what a request makes of the session. -/
theorem session_after (x : SpdmSession) (r : SpdmRequest) :
    (r = .keyExchange → x.after r = .exchanged) ∧ (r = .finish → x = .exchanged → x.after r = .established) ∧
      (r = .endSession → x.after r = .closed) ∧
      (r ≠ .keyExchange → r ≠ .finish → r ≠ .endSession → x.after r = x) := by
  refine ⟨fun h => by rw [h]; rfl, fun h hx => by rw [h, hx]; rfl, fun h => by rw [h]; cases x <;> rfl,
      fun h1 h2 h3 => ?_⟩
  cases r with
  | keyExchange => exact absurd rfl h1
  | finish => exact absurd rfl h2
  | endSession => exact absurd rfl h3
  | getVersion | getCapabilities | negotiateAlgorithms | getDigests | getCertificate | challenge | getMeasurements =>
    cases x <;> rfl

end Interface

/-! ## Peer ports (R413, R414) -/

section Ports

variable {s : State} {port offset : Nat}

/-- R413, R414: a port changes its state. -/
theorem exec_portChange {next : PortState} (h : Tab.read PortState.down s.hub.ports port ≠ next) {s1 : State}
    (h1 : s1 = (s.modHub (fun h => { h with ports := Tab.write .down h.ports port next })).raiseIrq 5) :
    (Tab.read PortState.down s.hub.ports port ≠ .up → exec (.peerPortStateChange port next) s = .next s1) ∧
    (Tab.read PortState.down s.hub.ports port = .up → exec (.peerPortStateChange port next) s =
      .next (((s1.portCopies port).foldl (fun a p => a.failCopy p.1 p.2 (s1.peerBase p.2)) s1).failArriving port)) := by
  subst h1
  exact ⟨fun hu => (if_neg h).trans (if_neg hu), fun hu => (if_neg h).trans (if_pos hu)⟩

theorem peerData_eq {ctx : Nat} {p : Partition} (ho : s.portOwner port = some (ctx, p)) (copy : Nat) (bs : List Byte)
    (poison : Bool) {w : Bool × State}
    (hw : w = s.peerWrite ctx p poison ((peerPieces offset bs).filter (fun x => !x.2.isEmpty))) :
    s.peerData port copy offset bs poison = if w.1 then w.2 else w.2.failPeer port copy := by
  unfold State.peerData
  rw [ho]
  dsimp only
  rw [← hw]
  obtain ⟨b, t⟩ := w
  cases b <;> rfl

variable (hu : Tab.read PortState.down s.hub.ports port = .up) (bytes : List Byte) (copy : Nat) (poison : Bool)

include hu

theorem exec_arrival (flag : Bool) : exec (.peerCopyArrival port offset ⟨bytes, copy, poison⟩ flag) s =
    .next (if flag then s.peerFlag port copy offset bytes
      else (s.notePeer port copy).peerData port copy offset bytes poison) := by
  dsimp only [exec, execPeerCopyArrival]
  rw [if_neg (not_not.2 hu)]
  cases flag <;> rfl

omit hu

/-- R414: the copy has been noted as over. -/
def peerOver (s : State) (port copy : Nat) : State :=
  s.modHub (fun h => { h with
    peerArriving := h.peerArriving.filter (· != (port, copy)), peerFailed := h.peerFailed.filter (· != (port, copy)) })

theorem peerFlag_failed (h : s.hub.peerFailed.contains (port, copy) = true) :
    s.peerFlag port copy offset bytes = peerOver s port copy := if_pos h

/-- R118, R414: the flag of a copy that has not failed. -/
theorem peerFlag_arrives (h : s.hub.peerFailed.contains (port, copy) = false) {s1 : State}
    (h1 : (peerOver s port copy).drainAll 4 = s1) :
    (s1.snoopsOwed = false → s.peerFlag port copy offset bytes = s1.peerData port copy offset bytes false) ∧
    (∀ ctx p va, s1.snoopsOwed = true → s1.portOwner port = some (ctx, p) → p.windowAddress offset = some va →
      s.peerFlag port copy offset bytes =
        s1.modHub (fun h => { h with heldFlags := h.heldFlags ++ [(ctx, va, bytes)] })) := by
  unfold State.peerFlag
  rw [if_neg (Bool.eq_false_iff.1 h)]
  dsimp only
  rw [show (s.modHub fun h => { h with
    peerArriving := h.peerArriving.filter (· != (port, copy))
    peerFailed := h.peerFailed.filter (· != (port, copy)) }).drainAll 4 = s1 from h1]
  refine ⟨fun hs => ?_, fun ctx p va hs ho hv => ?_⟩
  · rw [hs]
  · rw [hs, ho, Option.bind_some, hv]
    rfl

end Ports

/-- Settles O54: the conjuncts are the lemmas above, one for each move of the interface, of a stream and of a port. -/
theorem linksAndInterface : Obligations.LinksAndInterface := by
  unfold Obligations.LinksAndInterface
  intro s moved failed
  have hfailed : ∀ a : State, Host.Outcome.next a.enterError = failed a := fun _ => rfl
  refine ⟨fun h => ⟨if_pos h, fun i => (exec_ideKm i).1 h⟩, fun h => if_pos h, exec_stopInterface,
    fun h => ⟨(if_pos h).trans (hfailed s),
        fun slot ctx key salt hwm hs => (exec_keyLoad slot ctx key salt hwm).1 h hs⟩,
    fun h slot ctx key salt hwm => (exec_keyLoad slot ctx key salt hwm).2 h,
    fun h => ⟨(if_pos (frozen_iff.2 h)).trans (hfailed s), fun i => ((exec_ideKm i).2 h).trans (hfailed s)⟩,
    fun i => ?stream, fun p hp he hn q n va len x a i hi => ?discard, fun r => ?spdm, fun port next h => ?port,
    fun port offset a flag h => if_pos h, fun port offset bytes copy hu => ?arrival⟩
  case stream =>
    intro s1
    obtain ⟨hopen, hfrozen⟩ := exec_macFailure (s := s) i (s1 := s1) rfl
    exact ⟨hopen, fun h => (hfrozen h).trans (hfailed s1)⟩
  case discard =>
    have hlink := fun act => congrArg (Host.Outcome.next (φ := Fault) (ρ := Refusal)) (onLink_discards hp he hn act)
    simp only [List.mem_cons, List.not_mem_nil, or_false] at hi
    rcases hi with rfl | rfl | rfl | rfl | rfl | rfl | rfl <;> exact hlink _
  case spdm => exact ⟨_, rfl, session_after s.hub.session r⟩
  case port =>
    intro s1
    exact exec_portChange h rfl
  case arrival =>
    intro pieces s0 noted s1 put
    refine ⟨fun ctx p poison ho => ?_, fun poison hf => ?_, fun ctx p poison hf ho => ⟨fun hs => ?_,
        fun va hs hv => ?_⟩⟩
    · rw [exec_arrival hu]
      exact congrArg _ (peerData_eq (s := noted) ho copy bytes poison rfl)
    · rw [exec_arrival hu]
      exact congrArg _ (peerFlag_failed bytes copy hf)
    · rw [exec_arrival hu]
      exact congrArg _ (((peerFlag_arrives bytes copy hf rfl).1 hs).trans (peerData_eq (s := s1) ho copy bytes false rfl))
    · rw [exec_arrival hu]
      exact congrArg _ ((peerFlag_arrives bytes copy hf rfl).2 ctx p va hs ho hv)

end Sys2Proof.Proofs.LinkLife
end

section
/-!
PROOFS. The placement of clusters, partial eviction, work donation and later runs.
-/

namespace Sys2Proof.Proofs.Placing

open Sys2Proof Sys2Proof.Machine Sys2Proof.Laws Sys2Proof.Proofs

variable {s : State} {ck x y : Nat} {c : Cluster} {l : Launch}

/-! ## A rectangle offered to an unstarted cluster (R44, R48, R61) -/

section Offer

/-- A cluster that stands in no queue, or whose own rectangle is the one offered or is not legal any more, takes offers. -/
def TakesOffers (s : State) (c : Cluster) (l : Launch) (x y : Nat) : Prop :=
  c.state = .distributor ∨ ((∃ k, c.state = .pound k) ∧ ∀ o, c.origin = some o →
    o = (x, y) ∨ (s.die c.die).placement l.record o.1 o.2 = none)

/-- TEAM_ADMIT of a cluster that has not started offers it the rectangle. -/
theorem exec_teamAdmit_offer (hc : s.cluster ck = some c) (hl : s.launch c.launch = some l)
    (hs : TakesOffers s c l x y) : exec (.teamAdmit ck x y) s = .next (s.offer ck c l x y) := by
  dsimp only [exec, execTeamAdmit]
  rw [hc]
  dsimp only
  rw [hl]
  rcases hs with hs | ⟨⟨k, hs⟩, -⟩ <;> simp only [hs]

/-- The test by which an offer keeps a queued cluster's own rectangle lets a cluster that takes offers through. -/
theorem offer_of_takesOffers {ms : List Nat} (hs : TakesOffers s c l x y)
    (hp : (s.die c.die).placement l.record x y = some ms) : s.offer ck c l x y =
      if s.admits c l ms [] && !s.runAhead c.launch l (ms.map (fun i => c.die * 144 + i)) then
        s.startCluster ck c l x y ms
      else if c.origin = some (x, y) || 64 < memberGroups l.record.gpc.toNat 0 ms.length ||
          (s.pound (originPound c.die x y)).lock then s
      else (s.dispatchAt (originPound c.die x y)).queueAt ck c.die x y := by
  unfold State.offer
  dsimp only
  rw [hp]
  dsimp only
  rcases hs with hs | ⟨⟨k, hs⟩, ho⟩
  · rw [hs]
    rfl
  · rw [hs]
    cases horigin : c.origin with
    | none => rfl
    | some o =>
      rcases ho o horigin with rfl | hnone
      · simp
      · simp [hnone]

theorem offer_starts {ms : List Nat} (hs : TakesOffers s c l x y)
    (hp : (s.die c.die).placement l.record x y = some ms)
    (hmay : (s.admits c l ms [] && !s.runAhead c.launch l (ms.map (fun i => c.die * 144 + i))) = true) :
    s.offer ck c l x y = s.startCluster ck c l x y ms :=
  (offer_of_takesOffers hs hp).trans (if_pos hmay)

theorem offer_queues {ms : List Nat} (hs : TakesOffers s c l x y)
    (hp : (s.die c.die).placement l.record x y = some ms)
    (hmay : (s.admits c l ms [] && !s.runAhead c.launch l (ms.map (fun i => c.die * 144 + i))) = false)
    (ho : c.origin ≠ some (x, y)) (hlock : (s.pound (originPound c.die x y)).lock = false)
    (hg : memberGroups l.record.gpc.toNat 0 ms.length ≤ 64) :
    s.offer ck c l x y = (s.dispatchAt (originPound c.die x y)).queueAt ck c.die x y := by
  rw [offer_of_takesOffers hs hp, hmay, if_neg Bool.false_ne_true, hlock]
  refine if_neg ?_
  rw [decide_eq_false ho, decide_eq_false (Nat.not_lt.mpr hg)]
  exact Bool.false_ne_true

end Offer

/-! ## Saved and stopped clusters (R326, R384, R388) -/

section Saved

theorem exec_teamAdmit_resume (hc : s.cluster ck = some c) (hl : s.launch c.launch = some l)
    (ho : c.origin = some (x, y)) (hs : c.state = .evicted ∨ (c.state = .swapped ∧ s.unanswered c = false)) :
    exec (.teamAdmit ck x y) s = .next (s.resumeCluster ck c l) := by
  dsimp only [exec, execTeamAdmit]
  rw [hc]
  dsimp only
  rw [hl]
  rcases hs with hs | ⟨hs, -⟩ <;> simp only [hs] <;> exact if_pos ho

/-- An evicted cluster, or a swapped one whose accesses are answered, may resume when it can be admitted again. -/
theorem resumable_of_takes (hs : c.state = .evicted ∨ (c.state = .swapped ∧ s.unanswered c = false))
    (ht : s.takes c.die l.ctx [] ((s.clusterTeams c).map (fun p => s.askAgain l.record p.2)) = true) :
    s.resumable c l = true := by
  unfold State.resumable
  rw [ht, Bool.and_true]
  rcases hs with hs | ⟨hs, hu⟩
  · rw [hs]
    rfl
  · rw [hu, Bool.and_false]
    rfl

theorem resumeCluster_of_takes (hs : c.state = .evicted ∨ (c.state = .swapped ∧ s.unanswered c = false))
    (ht : s.takes c.die l.ctx [] ((s.clusterTeams c).map (fun p => s.askAgain l.record p.2)) = true) :
    s.resumeCluster ck c l = (s.clusterTeams c).foldl (fun a p => a.takeBack p.1 p.2 l.record)
      ((s.unqueue ck).modCluster ck (fun z => { z with state := .started })) :=
  if_pos (resumable_of_takes hs ht)

/-- A cluster stopped for a swap goes on once it is answered, one stopped for an eviction once the evictor has started. -/
def MayGoOn (s : State) (c : Cluster) : Prop :=
  (c.stopped = some .swap ∧ s.unanswered c = false) ∨
    (∃ k, c.stopped = some (.evict k) ∧ ∀ z, s.cluster k = some z → z.state.unstarted = false)

theorem unstop_of_mayGoOn (h : MayGoOn s c) : s.unstop ck c =
    c.teams.foldl State.resumeQueues (s.modCluster ck (fun z => { z with stopped := none })) := by
  unfold State.unstop
  rcases h with ⟨hs, hu⟩ | ⟨k, hs, hk⟩
  · rw [hs]
    dsimp only
    rw [hu]
    rfl
  · rw [hs]
    dsimp only
    cases hz : s.cluster k with
    | none => rfl
    | some z => exact if_pos (congrArg not (hk z hz))

theorem exec_teamAdmit_started (hc : s.cluster ck = some c) (hl : s.launch c.launch = some l)
    (ho : c.origin = some (x, y)) (hs : c.state = .started) :
    exec (.teamAdmit ck x y) s = .next (s.unstop ck c) := by
  dsimp only [exec, execTeamAdmit]
  rw [hc]
  dsimp only
  rw [hl]
  simp only [hs]
  exact if_pos ho

end Saved

/-! ## Partial eviction (R326) -/

section Eviction

/-- The cluster waits for a rectangle as R326 asks: of priority 3, on its die, and for 2 µs. -/
def Waits (s : State) (c : Cluster) (l : Launch) : Prop :=
  c.state.unstarted = true ∧ c.state ≠ .frontEnd ∧ l.record.prio = 3 ∧ c.since + 2000 ≤ s.now

/-- The state with an eviction's victims stopped. -/
def evicting (s : State) (ck : Nat) (out : List Nat) : State :=
  out.foldl (fun a k => a.stopCluster k (.evict ck)) s

/-- The rectangle at an origin is legal and meets R48 and R325 for the cluster. -/
def takesAt (s : State) (c : Cluster) (l : Launch) (o : Nat × Nat) : Bool :=
  match (s.die c.die).placement l.record o.1 o.2 with
  | some ms => s.rectTakes c l ms []
  | none => false

/-- Where no legal rectangle meets R48 and R325 for the cluster, the event's own test finds none. -/
theorem no_rectangle (h : ∀ o ∈ origins, ∀ m, (s.die c.die).placement l.record o.1 o.2 = some m →
      s.siteTakes [] (l.record.asks c.die m) = false) :
    (!origins.any (takesAt s c l)) = true := by
  rw [Bool.not_eq_true', List.any_eq_false]
  intro o ho
  unfold takesAt
  cases hp : (s.die c.die).placement l.record o.1 o.2 with
  | none => exact Bool.false_ne_true
  | some m =>
    show ¬ s.siteTakes [] (l.record.asks c.die m) = true
    rw [h o ho m hp]
    exact Bool.false_ne_true

theorem exec_partialEviction {ms out : List Nat} (hc : s.cluster ck = some c) (hl : s.launch c.launch = some l)
    (hw : Waits s c l) (hp : (s.die c.die).placement l.record x y = some ms) (h0 : s.stoppedFor ck = [])
    (hn : ∀ o ∈ origins, ∀ m, (s.die c.die).placement l.record o.1 o.2 = some m →
      s.siteTakes [] (l.record.asks c.die m) = false)
    (hout : s.evictionFor c l ms = some out) : exec (.partialEviction ck x y) s =
      if ((evicting s ck out).stoppedFor ck).isEmpty && (evicting s ck out).admits c l ms [] then
        .next ((evicting s ck out).startCluster ck c l x y ms)
      else .next (evicting s ck out) := by
  obtain ⟨hu, hf, hprio, hsince⟩ := hw
  dsimp only [exec, execPartialEviction]
  rw [hc]
  dsimp only
  rw [hl]
  dsimp only
  rw [hp, h0]
  dsimp only
  rw [hout, if_pos]
  · rfl
  · refine (Bool.and_eq_true _ _).mpr ⟨?_, no_rectangle hn⟩
    simp only [Bool.and_eq_true, bne_iff_ne, ne_eq, decide_eq_true_iff]
    exact ⟨⟨⟨hu, hf⟩, hprio⟩, hsince⟩

end Eviction

/-! ## Work donation (R61, R62) -/

/-- STEAL_REQUEST between two open pounds of a die, the thief without work that it could take up. -/
theorem exec_stealRequest {thief victim : Nat} {offers : List (Nat × Nat)} (ht : thief < 64)
    (hd : victim / 16 = thief / 16) (hne : thief ≠ victim) (hlt : s.lockOpen thief = true)
    (hlv : s.lockOpen victim = true) (ha : s.dieAccepts (thief / 16) = true) (hw : s.hasAdmissible thief = false) :
    exec (.stealRequest thief victim offers) s = .next
      ((s.shipment (thief / 16) thief victim offers).foldl (fun a p => a.queueAt p.1 (thief / 16) p.2.1 p.2.2)
        (if (s.shipment (thief / 16) thief victim offers).isEmpty then s else s.dispatchAt thief)) := by
  refine if_pos ?_
  rw [hlt, hlv, ha, hw]
  simp only [Bool.and_true, Bool.not_false, Bool.and_eq_true, decide_eq_true_iff, bne_iff_ne, ne_eq]
  exact ⟨⟨ht, hd⟩, hne⟩

/-! ## Later runs of a check (R344, R345) -/

/-- REPLICA_PLACE of a check of no pair, none of whose runs stands stopped on the core. -/
theorem exec_replicaPlace {check core run : Nat} {k : Check} (hk : s.check check = some k)
    (hl : s.launch k.launch = some l) (hs : s.stoppedRun k core = none) (hr : k.wantsRun = some run)
    (ha : s.laterAllowed k l run core = true) (hp : k.pair = none) : exec (.replicaPlace check core) s =
      .next ((s.startRun check k l run core).2.exitEmpty (s.startRun check k l run core).1) := by
  dsimp only [exec, execReplicaPlace]
  rw [hk]
  dsimp only
  rw [hl, hs, hr]
  dsimp only [Option.isSome_none, Bool.false_eq_true, if_false]
  rw [if_neg Bool.false_ne_true]
  dsimp only
  rw [if_pos ha, hp]
  rfl

/-- Settles O50: each event under the conditions that its clause names. -/
theorem clustersPlaced : Obligations.ClustersPlaced := by
  unfold Obligations.ClustersPlaced
  intro s
  refine ⟨fun ck c l x y hc hl => ⟨?offer, ?resume, ?goOn, ?evict⟩, ?steal, ?later⟩
  case offer =>
    intro ms hs hp
    have hoffer : exec (.teamAdmit ck x y) s = .next (s.offer ck c l x y) := exec_teamAdmit_offer hc hl hs
    refine ⟨fun hmay => ?_, fun hmay ho hlock hg => ?_⟩
    · rw [hoffer, offer_starts hs hp hmay]
    · rw [hoffer, offer_queues hs hp hmay ho hlock hg]
  case resume =>
    intro ho hs ts ht
    rw [exec_teamAdmit_resume hc hl ho hs, resumeCluster_of_takes hs ht]
    rfl
  case goOn =>
    intro ho hs hgo
    rw [exec_teamAdmit_started hc hl ho hs, unstop_of_mayGoOn hgo]
  case evict =>
    intro ms hu hf hprio hsince hp h0 hn out hout
    have hexec := exec_partialEviction hc hl ⟨hu, hf, hprio, hsince⟩ hp h0 hn hout
    refine ⟨fun hnone hadmits => hexec.trans (if_pos ?_), fun hsome => hexec.trans (if_neg ?_)⟩
    · rw [Bool.and_eq_true, List.isEmpty_iff]
      exact ⟨hnone, hadmits⟩
    · rw [Bool.and_eq_true, List.isEmpty_iff]
      exact fun h => hsome h.1
  case steal =>
    intro thief victim offers ht hd hne hlt hlv ha hw out
    have hexec := exec_stealRequest (offers := offers) ht hd hne hlt hlv ha hw
    refine ⟨fun hnone => ?_, fun hsome => ?_⟩
    · rw [hexec, show s.shipment (thief / 16) thief victim offers = [] from hnone]
      rfl
    · rw [hexec, if_neg (fun h => hsome (List.isEmpty_iff.mp h))]
  case later => exact fun check core k l run hk hl hs hr ha hp => exec_replicaPlace hk hl hs hr ha hp

end Sys2Proof.Proofs.Placing
end
